-- ==== Sys2Proof/Word.lean ====
section
/-! DEFINITION. Word.lean: the words of EZ-1. Everything the manual treats as bits is a bit vector of the width it
gives; bit 0 is the least significant bit and byte 0 the lowest 8 bits (R9). -/
namespace Sys2Proof

/-- One byte. -/
abbrev Byte := BitVec 8
/-- A 32-bit field, lane register or code word (R241, R256). -/
abbrev Word := BitVec 32
/-- A 64-bit field, strand register or register of the window (R239, R531). -/
abbrev DWord := BitVec 64
/-- A 128-byte line: node line, leaf line, pool slot half, overflow line (R78, R104, R220). -/
abbrev Line := BitVec 1024
/-- A 64-byte record: query record, scene descriptor, delivery entry, image header, scan block, flit. -/
abbrev Rec64 := BitVec 512
/-- A 32-byte record: result record, emission, walk table entry, key entry, log record. -/
abbrev Rec32 := BitVec 256
/-- A 256-byte extension unit or context descriptor. -/
abbrev Unit256 := BitVec 2048

end Sys2Proof
end

