-- ==== Sys2Proof/Syntax.lean ====
section
/-! DEFINITION. Syntax.lean: the commands EZ-1 takes, one constructor per row of spec/opcode_table.json, and the
plain data their operands are made of. The table gives its rows no bits and no operands, so each constructor carries
exactly what the rule of its row says comes from outside the block (assumption 2). -/
namespace Sys2Proof

/-- Context number (R12). -/
abbrev CtxNo := Fin 4096
/-- Ingest window of a context (R447). -/
abbrev WindowNo := Fin 16
/-- Grove number (R10). -/
abbrev GroveNo := Fin 16
/-- Global walk-core number (R11). -/
abbrev CoreNo := Fin 128
/-- Sheaf slot of a walk core (R244, s.sheaf). -/
abbrev SheafNo := Fin 48
/-- Lane of a sheaf (R211). -/
abbrev LaneNo := Fin 32
/-- Global octet number (R10). -/
abbrev OctetNo := Fin 192
/-- Bough slot of an octet (R159). -/
abbrev SlotNo := Fin 64
/-- Global physical bank number (R157). -/
abbrev BankNo := Fin 1600
/-- Stream descriptor number (R309). -/
abbrev StreamNo := Fin 2048
/-- Scan channel (R301). -/
abbrev ScanNo := Fin 8
/-- Key slot (R459). -/
abbrev KeyNo := Fin 1024
/-- Query class, coded as in R37: 0 DISPLAY is the highest, 3 DRIZZLE the lowest. -/
abbrev QClass := Fin 4
/-- Delivery table entry (R335). -/
abbrev EntryNo := Fin 4096
/-- INST_ID of an instance (R468). -/
abbrev InstId := BitVec 17

/-- The fields of an instruction word (R256) and, for a long form, its immediate word (R259). -/
structure Fields where
  d : BitVec 6
  a : BitVec 6
  b : BitVec 6
  minor : BitVec 8
  imm : Word
  deriving DecidableEq, Repr

/-- Who issues an instruction common to all program kinds: the strand of a context, or the issue group of the sheaf
in a sheaf slot of a walk core (R240, R242). -/
inductive Issuer where
  | strand (c : CtxNo)
  | sheaf (core : CoreNo) (slot : SheafNo)
  deriving DecidableEq, Repr

/-- What identifies a cohort (R190): context, scene handle, version tag (R395) and bough index. -/
structure CohortId where
  ctx : Nat
  scene : Nat
  tag : Nat
  bough : Nat
  deriving DecidableEq, Repr

/-- What identifies a leaf block in a leaf cache (R316, R406): context, scene, version tag, leaf line index. -/
structure BlockId where
  ctx : Nat
  scene : Nat
  tag : Nat
  index : Nat
  deriving DecidableEq, Repr

/-- TYPE of a child-list entry: the reference types of R88 and the RETURN type of R286. -/
inductive RefType where
  | empty | node | bough | leaf | remote | ret
  deriving DecidableEq, Repr

/-- An entry of the child-list form (R275). -/
structure ChildEntry where
  type : RefType
  ref : Word
  clines : Nat
  key : Word
  exit : Word
  score : Word
  cn : Word
  slot : Nat
  bough : Nat
  scene : Nat
  ilevel : Nat
  start : Nat
  deriving DecidableEq, Repr

/-- A recorded result: a best hit, or one entry of a collection (R56, R63), with the marks of R62. -/
structure Hit where
  value : Word
  prim : Word
  inst : Word
  aux0 : BitVec 16
  aux1 : BitVec 16
  backface : Bool
  suspect : Bool
  deriving DecidableEq, Repr

/-- A candidate of the candidate buffer (R275): a result with its haze STATE. -/
structure Candidate where
  hit : Hit
  haze : Nat
  deriving DecidableEq, Repr

/-- One level of the instance path (R247): the INSTANCE leaf line, the entry index, the scene entered, the INST_ID
returned in INST, and the transform of R141 with its key-1 partner when the entry is a motion pair. -/
structure PathLevel where
  leafLine : Nat
  entry : Nat
  scene : Nat
  instId : Word
  xform : BitVec 384
  xform1 : Option (BitVec 384)
  deriving DecidableEq, Repr

/-- The walk state kept in a pool slot (R24, R246, R276). -/
structure WalkState where
  bough : Nat
  /-- CLINES of the reference that led to the bough, 0 when none gives it (R84, R88). -/
  clines : Nat
  node : Nat
  path : List PathLevel
  stack : List ChildEntry
  trail : DWord
  tmax : Word
  best : Option Hit
  coll : List Hit
  sums : List Word
  sumSuspect : Bool
  tree : Nat
  rows : Nat
  uflags : BitVec 16
  resumePc : Option Nat
  incomplete : Bool
  truncated : Bool
  budgetHit : Bool
  forwarded : Bool
  emitsSent : Nat
  deriving DecidableEq, Repr

/-- A query as it travels between instances (R475): the pool slot image in the engine's own form, and its data units. -/
structure QueryImage where
  record : Rec64
  cls : QClass
  spawned : Bool
  ws : WalkState
  data : List Unit256
  deriving DecidableEq, Repr

/-- What an error-correcting read found besides good data (R177, R424). -/
inductive EccError where
  | correctable | uncorrectable
  deriving DecidableEq, Repr

/-- What the read of an overflow run found (R224): the run as written, or damaged content with the COUNT as read. -/
inductive RunRead where
  | intact
  | damaged (count : BitVec 16)
  deriving DecidableEq, Repr

/-- An image as read from memory (R232): its header and code words. -/
structure ImageRead where
  header : Rec64
  code : List Word
  deriving DecidableEq, Repr

/-- What the reads of an open returned (R443); none is a read that could not be translated or read. -/
structure OpenRead where
  desc : Option Unit256
  header : Option Rec64
  code : Option (List Word)
  deriving DecidableEq, Repr

/-- A shard map as read (R471): its descriptor and its entries. -/
structure ShardRead where
  desc : Rec64
  entries : List Word
  deriving DecidableEq, Repr

/-- The line request or write that the fabric reports as failed (R429): a line of a bough fill (64 is the trailer line), of a
leaf fill, of an overflow run, of a scan chunk, of a stream tile, of the write-through of a transaction buffer line; a read
of a table, descriptor or count at an address of a context; a write or atomic under a completion; a line that a strand reads. -/
inductive FabricItem where
  | fill (id : CohortId) (line : Fin 65)
  | leafFill (g : GroveNo) (id : BlockId) (line : Fin 16)
  | run (c : CtxNo) (rseq line : Nat)
  | scan (ch : ScanNo) (line : Fin 33)
  | tile (k : StreamNo) (j line : Nat)
  | through (n : Fin 32768)
  | table (c : CtxNo) (addr : DWord)
  | delivery (completion : Nat)
  | strandRead (c : CtxNo) (addr : DWord)
  deriving DecidableEq, Repr

/-- The control state in which a parity error was found (R428, R544). -/
inductive CtrlFault where
  | cohort (id : CohortId)
  | slotMap (o : OctetNo) (s : SlotNo)
  | lane (core : CoreNo) (slot : SheafNo) (l : LaneNo)
  | strand (c : CtxNo)
  | stream (k : StreamNo)
  | otherFill (id : CohortId)
  | otherQuery (p : Fin 524288)
  /-- An entry of the presence directory or of the departure buffer, or a handle in a placement queue or a leaf handle queue,
  read with an uncorrectable error (R424). -/
  | dirEntry (asid : Word) (addr : DWord)
  | departEntry (asid : Word) (addr : DWord)
  | placementHandle (g : GroveNo) (i : Nat)
  | leafHandle (g : GroveNo) (i : Nat)
  deriving DecidableEq, Repr

/-- The four base registers of R538. -/
inductive BaseReg where
  | ctxTableBase | drvAsid | ingestBase | shardTableBase
  deriving DecidableEq, Repr

/-- The commands of spec/opcode_table.json, in the table's order. An INGEST_WRITE carries its host fabric address in the fields R447
gives it: bits [63:32], the context's window space in bits [31:20], and the window and the offset in it in bits [19:0]. What a command
may leave out has a default: no error found by the reads it makes, and the ASID 0. -/
inductive Instr where
  | ingestWrite (hi : Word) (c : CtxNo) (lo : BitVec 20) (data : List Byte)
  | commandBytesPerformed (c : CtxNo) (w : WindowNo)
  | admitRecord (c : CtxNo) (w : WindowNo)
  | spawnAdmit
  | cohortAgeLimit (id : CohortId)
  | fillIssue
  | fillVictimTimeout (id : CohortId)
  | trailerReturn (id : CohortId) (line : Line)
  | fillLineReturn (id : CohortId) (n : Fin 65) (line : Line)
  | decryptDone (id : CohortId)
  | placementCapture (g : GroveNo)
  | boughTestable (o : OctetNo) (sl : SlotNo) (errs : List (Fin 64 × EccError) := [])
  | victimSlotFreed (o : OctetNo) (sl : SlotNo)
  | sheafRelease (id : CohortId) (g : GroveNo) (errs : List (Fin 524288 × EccError) := [])
  | intervalEnd
  | spillCohort
  | spillAcknowledged (c : CtxNo) (rseq : Nat)
  | freshRunClose (c : CtxNo) (cls : QClass)
  | reloadRun (first second : RunRead)
  | testn (core : CoreNo) (sh : SheafNo) (f : Fields)
  | testAnswer (core : CoreNo) (sh : SheafNo) (errs : List (LaneNo × Fin 64 × EccError)) (units : List (LaneNo × EccError) := [])
      (parity : List LaneNo := [])
  | testb (core : CoreNo) (sh : SheafNo) (f : Fields)
  | testbMerge (core : CoreNo) (sh : SheafNo) (units : List (LaneNo × EccError) := []) (segs : List LaneNo := [])
      (blocks : List BlockId := [])
  | leaf (core : CoreNo) (sh : SheafNo) (f : Fields)
  | leafFillInstall (g : GroveNo) (id : BlockId) (lines : List Line)
  | leafResult (core : CoreNo) (sh : SheafNo) (residue : List (Fin 24)) (parity : List BlockId := [])
  | order (core : CoreNo) (sh : SheafNo) (f : Fields)
  | child (core : CoreNo) (sh : SheafNo) (f : Fields)
  | push (core : CoreNo) (sh : SheafNo) (f : Fields)
  | pop (core : CoreNo) (sh : SheafNo) (f : Fields)
  | descend (core : CoreNo) (sh : SheafNo) (f : Fields)
  | trail (core : CoreNo) (sh : SheafNo) (f : Fields)
  | yield (core : CoreNo) (sh : SheafNo) (f : Fields)
  | yieldTree (core : CoreNo) (sh : SheafNo) (f : Fields)
  | fwd (core : CoreNo) (sh : SheafNo) (f : Fields)
  | hit (core : CoreNo) (sh : SheafNo) (f : Fields)
  | collectEntry (core : CoreNo) (sh : SheafNo) (f : Fields)
  | collectSum (core : CoreNo) (sh : SheafNo) (f : Fields)
  | collectSumv (core : CoreNo) (sh : SheafNo) (f : Fields)
  | collectClear (core : CoreNo) (sh : SheafNo) (f : Fields)
  | emit (core : CoreNo) (sh : SheafNo) (f : Fields)
  | spawn (core : CoreNo) (sh : SheafNo) (f : Fields)
  | walkEnd (core : CoreNo) (sh : SheafNo) (f : Fields)
  | strandEnd (c : CtxNo) (f : Fields)
  | nop (i : Issuer)
  | iop (i : Issuer) (f : Fields)
  | iopi (i : Issuer) (f : Fields)
  | movi (i : Issuer) (f : Fields)
  | movih (i : Issuer) (f : Fields)
  | cmp (i : Issuer) (f : Fields)
  | br (i : Issuer) (f : Fields)
  | brt (i : Issuer) (f : Fields)
  | brf (i : Issuer) (f : Fields)
  | call (i : Issuer) (f : Fields)
  | ret (i : Issuer) (f : Fields)
  | retH (i : Issuer)
  | fop (core : CoreNo) (sh : SheafNo) (f : Fields)
  | fcmp (core : CoreNo) (sh : SheafNo) (f : Fields)
  | cvt (core : CoreNo) (sh : SheafNo) (f : Fields)
  | sel (core : CoreNo) (sh : SheafNo) (f : Fields)
  | plog (core : CoreNo) (sh : SheafNo) (f : Fields)
  | movs (core : CoreNo) (sh : SheafNo) (f : Fields)
  | illegalInstruction (i : Issuer)
  | walkLong (core : CoreNo) (sh : SheafNo) (l : LaneNo)
  | ld (c : CtxNo) (f : Fields)
  | loadDataReturn (c : CtxNo) (n : Nat) (data : DWord)
  | st (c : CtxNo) (f : Fields)
  | amo (c : CtxNo) (f : Fields)
  | rdc (c : CtxNo) (f : Fields)
  | waitc (c : CtxNo) (f : Fields)
  | waitcT (c : CtxNo) (f : Fields)
  | waitcMet (c : CtxNo)
  | strmArm (c : CtxNo) (f : Fields)
  | strmRearm (c : CtxNo) (f : Fields)
  | strmStart (c : CtxNo) (f : Fields)
  | strmStop (c : CtxNo) (f : Fields)
  | strmCancel (c : CtxNo) (f : Fields)
  | strmStat (c : CtxNo) (f : Fields)
  | streamTileIssue (k : StreamNo)
  | stagedTileInstall (k : StreamNo) (tile : Nat) (lines : List Line)
  | tileComplete (k : StreamNo) (tile : Nat)
  | transferRetire (x : Nat)
  | streamRateUpdate
  | preloadEntry (k : StreamNo) (entry : DWord)
  | preloadTimeout (k : StreamNo)
  | stallBreak (k : StreamNo)
  | stallDataReadback (k : StreamNo)
  | crcscan (c : CtxNo) (f : Fields)
  | scanWait (c : CtxNo) (f : Fields)
  | scanSuspend (c : CtxNo) (f : Fields)
  | scanStat (c : CtxNo) (f : Fields)
  | scanChunkArrive (ch : ScanNo) (data : List Byte)
  | xbegin (c : CtxNo) (f : Fields)
  | xwriteNode (c : CtxNo) (f : Fields)
  | xwriteLeaf (c : CtxNo) (f : Fields)
  | xwriteReadDone (c : CtxNo) (line : Line)
  | xcommit (c : CtxNo) (f : Fields)
  | commitPoint (c : CtxNo) (mem : List (DWord × Line))
  | xabort (c : CtxNo) (f : Fields)
  | xstat (c : CtxNo) (f : Fields)
  | xwtpend (c : CtxNo) (f : Fields)
  | xwtwait (c : CtxNo) (f : Fields)
  | writeThroughDue (n : Fin 32768)
  | writeThroughAck (n : Fin 32768)
  | fence (c : CtxNo) (f : Fields)
  | fenceDone (c : CtxNo)
  | barrier (c : CtxNo) (f : Fields)
  | launch (c : CtxNo) (f : Fields)
  | nvstore (c : CtxNo) (f : Fields)
  | nvmStoreDone (readBackEqual : Bool)
  | collectorTakeHead (err : Option EccError := none)
  | excConsumedRead (c : CtxNo) (e : EntryNo) (consumed : DWord)
  | binAgeFlush (c : CtxNo) (e : EntryNo) (key : BitVec 16) (err : Option EccError := none)
  | binRingReread (c : CtxNo) (e : EntryNo) (key : BitVec 16) (consumed : DWord)
  | accumWindowClose (c : CtxNo) (e : EntryNo) (err : Option EccError := none)
  | writeAcknowledged (completion : Nat)
  | snoopShared (addr : DWord) (asid : Word := 0)
  | snoopOwn (addr : DWord) (asid : Word := 0)
  | snoopInval (addr : DWord) (asid : Word := 0)
  | ringGrant (addr : DWord) (data : Line) (asid : Word := 0)
  | evictAck (addr : DWord) (asid : Word := 0)
  | countdownZero (c : CtxNo)
  | ctxCdSet (c : CtxNo) (value : Word)
  | ctxOpen (c : CtxNo)
  | openComplete (c : CtxNo) (rd : OpenRead)
  | ctxClose (c : CtxNo)
  | closingDone (c : CtxNo)
  | ctxKill (c : CtxNo)
  | killingDone (c : CtxNo)
  | translationFault (c : CtxNo) (addr : DWord)
  | asidKill (asid : Word)
  | translationInvalidate (asid : Word) (page : DWord)
  | fabricRetry (item : FabricItem)
  | scrubRead (bank : BankNo) (err : Option EccError)
  | spineScrub (err : Option EccError)
  | txnScrub (err : Option EccError)
  | dirScrub (err : Option EccError)
  | katInjection (bank : BankNo) (pass : Bool)
  | schedSweep (err : Option CtrlFault)
  | queryPacket (hdr : Rec64) (q : QueryImage)
  | resultPacket (hdr : Rec64) (recs : List Rec32)
  | emitPacket (hdr : Rec64) (emissions : List Rec32)
  | handoff (hdr : Rec64)
  | nack (hdr : Rec64)
  | heartbeat (hdr : Rec64)
  | heartbeatSend (dst : InstId)
  | watchdogExpire (holder : InstId)
  | arriveSend (c : CtxNo)
  | arrive (hdr : Rec64)
  | release (hdr : Rec64)
  | barrierTimeout (c : CtxNo)
  | chainEnum (frame : BitVec 128)
  | chainAssign (frame : BitVec 128)
  | chainIdent (frame : BitVec 128)
  | chainPeek (frame : BitVec 128)
  | chainPoke (frame : BitVec 128)
  | chainReset (frame : BitVec 128)
  | chainStore (frame : BitVec 128)
  | chainFrost (frame : BitVec 128)
  | chainThaw (frame : BitVec 128)
  | chainReservedOp (frame : BitVec 128)
  | powerOnReset (groveEn : BitVec 16) (svcEn : Bool)
  | pllLock
  | bringupReady (katFailed : List BankNo)
  | stagedNvmLoad
  | porstFall
  | powerRemoved
  | pwrCmdOff
  | offReady
  | groveCmdFrost (g : GroveNo)
  | groveCmdThaw (g : GroveNo)
  | groveDrainComplete (g : GroveNo)
  | frostDrainTimeout (g : GroveNo)
  | thawComplete (g : GroveNo)
  | repairMapWrite (g : GroveNo) (phys : BitVec 7)
  | repairComplete (g : GroveNo) (uncopied : List (Fin 512)) (pass : Bool)
  | seqPatchApply
  | dbgUnlock
  | dbgEraseDone (erased : Bool)
  | keyLoad (k : KeyNo)
  | keyUnwrap (k : KeyNo)
  | keyClear (k : KeyNo)
  | keyCmdDone
  | keyBufWrite (i : Fin 10) (value : DWord)
  | nvmDataRead
  | nvmDataWrite (value : DWord)
  | schedParamWrite (n : Fin 17) (value : Word)
  | leafStageLinesWrite (value : Word)
  | leafPfDepthWrite (value : Word)
  | collectSharesWrite (value : Word)
  | collectFlush (value : Word)
  | integCtlWrite (value : Word)
  | injCtlWrite (value : Word)
  | errlogHeadWrite (value : Word)
  | pendingClear (mask : BitVec 4)
  | lostClear (value : Word)
  | traceEnWrite (value : Word)
  | baseRegisterWrite (r : BaseReg) (value : DWord)
  | registerWrite (off : BitVec 16) (size : Nat) (value : DWord)
  | fillUrgent (c : CtxNo)
  | seqPatchDone
  | cohortEntryRebuilt (id : CohortId)
  | sceneDescriptorRead (c : CtxNo) (h : BitVec 16) (desc : Rec64) (shard : Option ShardRead)
  | walkEntryRead (c : CtxNo) (n : Fin 64) (entry : Rec32) (img : Option ImageRead)
  | streamImageRead (c : CtxNo) (img : Line)
  | scanBlockRead (c : CtxNo) (blk : Rec64)
  | deliveryEntryFetch (c : CtxNo) (e : EntryNo) (key : Option (BitVec 16)) (entry : Rec64)
  | cutRunRead (c : CtxNo) (rseq : Nat) (first second : RunRead)
  deriving DecidableEq, Repr

end Sys2Proof
end

