-- ==== Sys2Proof/Decode.lean ====
section
/-! DEFINITION. Decode.lean: the fields of an instruction word (R256), the opcode map (R259) with the minors that select an
instruction (R265, R267 to R269, R288, R291, R298 to R302), and the words of the opcode table. The table gives no row any bits (its
rows hold a mnemonic, a rule and a summary), so no word spells a command of it by its bits alone; an instruction command carries
the fields that its word holds, and commandOf is how an issuer's word gives its command. -/
namespace Sys2Proof

/-! ### The instruction word (R256) -/

/-- MAJOR, bits 31 to 26. -/
def wordMajor (w : Word) : Nat := (w.extractLsb' 26 6).toNat
/-- The fields of a word, D in bits 25 to 20, A in 19 to 14, B in 13 to 8 and MINOR in 7 to 0, with the immediate word of a long
form (R259). -/
def wordFields (w imm : Word) : Fields :=
  { d := w.extractLsb' 20 6, a := w.extractLsb' 14 6, b := w.extractLsb' 8 6, minor := w.extractLsb' 0 8, imm := imm }
/-- A long-form major is followed by its immediate word. -/
def longForm (major : Nat) : Bool := [0x02, 0x03, 0x05, 0x20, 0x21].contains major

/-! ### The opcode map (R259) -/

/-- The kinds of program image. -/
inductive ProgKind where
  | walk | handler | sequencer
  deriving DecidableEq, Repr

/-- The majors of R259 that every kind permits, with the minors that select an instruction; none for another. -/
def commonInstr (handler : Bool) (i : Issuer) (major : Nat) (f : Fields) : Option Instr :=
  match major, f.minor.toNat with
  | 0x01, _ => some (.iop i f)
  | 0x02, _ => some (.iopi i f)
  | 0x03, 0x00 => some (.movi i f)
  | 0x03, 0x01 => some (.movih i f)
  | 0x04, _ => some (.cmp i f)
  | 0x05, 0x00 => some (.br i f)
  | 0x05, 0x01 => some (.brt i f)
  | 0x05, 0x02 => some (.brf i f)
  | 0x05, 0x03 => some (.call i f)
  | 0x06, 0x00 => some (.ret i f)
  | 0x06, 0x01 => if handler then some (.retH i) else none
  | 0x07, 0x00 => some (.nop i)
  | _, _ => none
/-- The majors that walk and handler images alone permit. -/
def laneInstr (core : CoreNo) (sh : SheafNo) (major : Nat) (f : Fields) : Option Instr :=
  match major with
  | 0x08 => some (.fop core sh f)
  | 0x09 => some (.fcmp core sh f)
  | 0x0A => some (.cvt core sh f)
  | 0x0B => some (.sel core sh f)
  | 0x0C => some (.plog core sh f)
  | 0x0D => some (.movs core sh f)
  | 0x13 => some (.child core sh f)
  | 0x1D => some (.spawn core sh f)
  | _ => none
/-- The majors that walk images alone permit. -/
def walkInstr (core : CoreNo) (sh : SheafNo) (major : Nat) (f : Fields) : Option Instr :=
  match major, f.minor.toNat with
  | 0x07, 0x01 => some (.walkEnd core sh f)
  | 0x10, _ => some (.testn core sh f)
  | 0x11, _ => some (.testb core sh f)
  | 0x12, _ => some (.order core sh f)
  | 0x14, _ => some (.push core sh f)
  | 0x15, _ => some (.pop core sh f)
  | 0x16, _ => some (.trail core sh f)
  | 0x17, _ => some (.descend core sh f)
  | 0x18, 0x00 => some (.yield core sh f)
  | 0x18, 0x01 => some (.yieldTree core sh f)
  | 0x19, _ => some (.leaf core sh f)
  | 0x1A, _ => some (.hit core sh f)
  | 0x1B, 0x00 => some (.collectEntry core sh f)
  | 0x1B, 0x01 => some (.collectSum core sh f)
  | 0x1B, 0x02 => some (.collectSumv core sh f)
  | 0x1B, 0x03 => some (.collectClear core sh f)
  | 0x1C, _ => some (.emit core sh f)
  | 0x1E, _ => some (.fwd core sh f)
  | _, _ => none
/-- The majors that sequencer images alone permit. -/
def strandInstr (c : CtxNo) (major : Nat) (f : Fields) : Option Instr :=
  match major, f.minor.toNat with
  | 0x07, 0x01 => some (.strandEnd c f)
  | 0x20, _ => some (.ld c f)
  | 0x21, _ => some (.st c f)
  | 0x22, _ => some (.amo c f)
  | 0x23, 0x00 => some (.rdc c f)
  | 0x23, 0x01 => some (.waitc c f)
  | 0x23, 0x02 => some (.waitcT c f)
  | 0x24, 0x00 => some (.strmArm c f)
  | 0x24, 0x01 => some (.strmRearm c f)
  | 0x24, 0x02 => some (.strmStart c f)
  | 0x24, 0x03 => some (.strmStop c f)
  | 0x24, 0x04 => some (.strmCancel c f)
  | 0x24, 0x05 => some (.strmStat c f)
  | 0x25, 0x00 => some (.crcscan c f)
  | 0x25, 0x01 => some (.scanWait c f)
  | 0x25, 0x02 => some (.scanSuspend c f)
  | 0x25, 0x03 => some (.scanStat c f)
  | 0x26, 0x00 => some (.xbegin c f)
  | 0x26, 0x01 => some (.xwriteNode c f)
  | 0x26, 0x02 => some (.xwriteLeaf c f)
  | 0x26, 0x03 => some (.xcommit c f)
  | 0x26, 0x04 => some (.xabort c f)
  | 0x26, 0x05 => some (.xstat c f)
  | 0x26, 0x06 => some (.xwtpend c f)
  | 0x26, 0x07 => some (.xwtwait c f)
  | 0x27, _ => some (.fence c f)
  | 0x28, _ => some (.barrier c f)
  | 0x29, _ => some (.launch c f)
  | 0x2A, _ => some (.nvstore c f)
  | _, _ => none
/-- The command of a word, with its immediate word, that an issuer runs in an image of a kind. A major that R259 reserves or does not
permit in the kind, and a minor that selects nothing, is an illegal instruction (R252, R258). An instruction with fields of its
own in MINOR checks them as it issues. -/
def commandOf (k : ProgKind) (i : Issuer) (w imm : Word) : Instr :=
  let m := wordMajor w
  let f := wordFields w imm
  let own := match k, i with
    | .sequencer, .strand c => strandInstr c m f
    | .walk, .sheaf core sh => (walkInstr core sh m f).orElse (fun _ => laneInstr core sh m f)
    | .handler, .sheaf core sh => laneInstr core sh m f
    | _, _ => none
  ((own.orElse (fun _ => commonInstr (k == .handler) i m f)).getD (.illegalInstruction i))

/-! ### The words of the opcode table -/

/-- The command that a word spells by the table's bits: none, since the table gives no row bits. -/
def decodeTableWord (_nbits _w : Nat) : Option Instr := none

end Sys2Proof
end

