-- ==== Sys2Proof/Machine/State.lean ====
section
/-! DEFINITION. Machine/State.lean: everything the manual gives EZ-1 to hold, as plain data, and the state after
reset. Identifiers inside the state are natural numbers; sparse tables are lists of (key, value) sorted by key.
INVENTORY.md lists every field with the rule that names it and its reset value. -/
namespace Sys2Proof.Machine

/-- A sparse table: pairs sorted by strictly rising key. -/
abbrev FMap (β : Type) := List (Nat × β)

/-- No command of EZ-1 ends in a fault of the model: errors are counted, logged and settled by rule (R434). The one
reason is kept for a queue that a host could not have built; no meaning raises it. -/
inductive Fault where
  /-- Raised by no meaning; safe. -/
  | none
  deriving DecidableEq, Repr

/-- Why a command may be turned away by the model. -/
inductive Refusal where
  /-- Raised by an arm of exec whose command has no meaning yet; safe. -/
  | notModelled (mnemonic : String)
  deriving DecidableEq, Repr

/-! ### What leaves the block -/

/-- A read the engine asks of memory; the data comes back as a command. -/
inductive ReadKind where
  | sceneDesc (c h : Nat)
  | walkEntry (c n : Nat)
  | ctxDesc (c : Nat)
  | deliveryEntry (c e : Nat)
  | keyEntry (c e key : Nat)
  | excConsumed (c e : Nat)
  | binConsumed (c e key : Nat)
  | fillLine (id : CohortId) (n : Nat)
  /-- One line of a leaf block. -/
  | leafLine (g : Nat) (id : BlockId) (n : Nat)
  /-- One line of an overflow run; the data of a stall break is read as lines of its run too (R333). -/
  | runLine (c rseq n : Nat)
  | streamImage (c : Nat)
  | tileLine (k tile : Nat)
  | preload (k n : Nat)
  /-- A strand load: number, size in bytes, ACQ, and CHIP scope. -/
  | load (c n size : Nat) (acq chip : Bool)
  /-- A strand atomic: number, operation of R297, size in bytes, operand, compare value, ACQREL, and CHIP scope. -/
  | amo (c n op size : Nat) (operand compare : DWord) (acqrel chip : Bool)
  | scanBlock (c : Nat)
  /-- One line of a scan chunk. -/
  | scanChunk (ch n : Nat)
  /-- The header of a sequencer or walk image, and its code words (R232, R233). -/
  | imageHeader (c : Nat)
  | imageCode (c : Nat)
  /-- The shard map of a scene: its descriptor and its entries (R471). -/
  | shardMap (c h : Nat)
  | xwriteLine (c : Nat)
  | trailerLine (c : Nat)
  deriving DecidableEq, Repr

/-- A request on the snoop ring (R379). -/
inductive RingReq where
  | readOwn | upgrade | evict (data : Option Line)
  deriving DecidableEq, Repr

/-- The value of one fabric atomic (R340, R352). -/
inductive AtomicOp where
  | add | amin | amax
  deriving DecidableEq, Repr

/-- What the block sends to its surroundings. -/
inductive Output where
  /-- A read request on a fabric port (R326, R492), under an address space (R455). -/
  | read (port : Nat) (asid : Nat) (addr : DWord) (what : ReadKind)
  /-- A fabric write (write-through, interrupt messages, command bytes, consumed counts, headers of runs). -/
  | write (port : Nat) (asid : Nat) (addr : DWord) (data : List Byte)
  /-- A fabric write that WRITE_ACKNOWLEDGED answers under a completion number: a strand store, which is a release when
  REL is 1, at CHIP or SYSTEM scope, or a scan block write. -/
  | store (port : Nat) (asid : Nat) (addr : DWord) (data : List Byte) (completion : Nat) (rel chip : Bool)
  /-- A sector or line write of the collector at a delivery port; the port number is that of R339. The last number is
  that of the completion which WRITE_ACKNOWLEDGED names. -/
  | deliver (port : Nat) (asid : Nat) (addr : DWord) (data : List Byte) (completion : Nat)
  /-- A fabric atomic at a delivery port: R340 counter adds, which are releases at CHIP (true) or SYSTEM scope, and R352
  combining, which is none. -/
  | atomic (port : Nat) (asid : Nat) (addr : DWord) (op : AtomicOp) (etype : Nat) (value : DWord) (completion : Nat)
      (release : Option Bool)
  /-- An interrupt message: 4 bytes under DRV_ASID, a release at SYSTEM scope (R368, R438). -/
  | message (port : Nat) (asid : Nat) (addr : DWord) (data : List Byte)
  /-- A ring request for a line at ring stop (R378), under the address space of its context (R455). -/
  | ring (stop : Nat) (asid : Nat) (addr : DWord) (req : RingReq)
  /-- The answer to a snoop at a ring stop: the line's data, or no data (R378, R382, R383). -/
  | snoopAnswer (stop : Nat) (addr : DWord) (data : Option Line)
  /-- A forward packet: its header and body (R474, R475). -/
  | packet (port : Nat) (hdr : Rec64) (query : Option QueryImage) (recs : List Rec32)
  /-- A frame repeated on the chain output (R465). -/
  | frame (f : BitVec 128)
  /-- The value that a read of NVM_DATA returns (R546). -/
  | regData (v : DWord)
  /-- A fabric retry answered to an ingest write or a register access (R196, R500, R509). -/
  | retry
  /-- The acknowledgement of an invalidation (R458). -/
  | invalidateAck (asid : Nat) (page : DWord)
  deriving DecidableEq, Repr

/-! ### Queries and the pool -/

/-- The binding a query walks under (R235 to R237): BKIND 1 to 3, the stock walk number, the address of the image and its
code as the engine read it (R236 keeps a replaced image apart from the new one), the number of its words (none for a
stock walk, whose image the manual does not give), the walk table entry, and a handler's hooks. -/
structure Binding where
  bkind : Nat
  stock : Nat
  image : DWord
  code : List Word
  words : Option Nat
  start : Nat
  entry : Nat
  hLeaf : Nat
  hHit : Nat
  hEnd : Nat
  deriving DecidableEq, Repr

/-- Where a query of the pool is (R189): parked since a FAB cycle, in a grove when its crown is replicated (R213);
running in a sheaf slot of a walk core; forwarded to a holder; ending in the collector; or being spilled (R219). -/
inductive Place where
  | parked (grove : Option Nat) (since : Nat)
  | running (core sheaf lane : Nat)
  | forwarded (holder : Nat)
  | ending
  | spilling (rseq : Nat)
  deriving DecidableEq, Repr

/-- What a query admitted for another instance carries (R477, R479). -/
structure Origin where
  inst : Nat
  token : DWord
  hops : Nat
  deriving DecidableEq, Repr

/-- What the origin has received for a forwarded query (R481). -/
structure FwdRx where
  recs : FMap Rec32
  emits : Nat
  expect : Option Nat
  deriving DecidableEq, Repr

/-- A pool slot: one query, its walk state and its place (R24, R189, R191). -/
structure Query where
  ctx : Nat
  record : Rec64
  cls : Nat
  spawned : Bool
  place : Place
  cohort : CohortId
  binding : Binding
  epoch : Nat
  dataUnits : List Nat
  collUnits : List Nat
  ws : WalkState
  admitted : Nat
  gen : Nat
  origin : Option Origin
  fwd : FwdRx
  deriving DecidableEq, Repr

/-- A record that is to be admitted, or lies in an overflow area (R195, R222): with no walk state it is FRESH. -/
structure OvfRec where
  record : Rec64
  cls : Nat
  spawned : Bool
  data : List Unit256
  ws : Option WalkState
  binding : Option Binding
  epoch : Nat
  admitted : Nat
  origin : Option Origin
  /-- The checks of R58 have been made. Those of a spawned record whose scene descriptor or walk entry had not been read when its
  SPAWN issued are made when it is reloaded (R30, R77, R250). -/
  checked : Bool
  deriving DecidableEq, Repr

/-- STATE of a run header (R221). -/
inductive RunState where
  | live | done | pad
  deriving DecidableEq, Repr

/-- A run of an overflow area (R220 to R222). A PAD run may hold stall-break data of a stream (R332). -/
structure Run where
  rseq : Nat
  state : RunState
  cls : Nat
  fresh : Bool
  scene : Nat
  bough : Nat
  tag : Nat
  start : Nat
  lines : Nat
  recs : List OvfRec
  written : Bool
  /-- Readings that the fabric has failed (R224, R429). -/
  rereads : Nat
  stall : Option (Nat × List Line)
  deriving DecidableEq, Repr

/-- The open fresh run of one class: its records and the FAB cycle of the first (R225). -/
structure FreshRun where
  since : Nat
  recs : List OvfRec
  deriving DecidableEq, Repr

/-- An overflow area: head and tail as line indices, runs in order, open fresh runs by class, the
next RSEQ and the query count (R220, R224, R225). -/
structure Ovf where
  head : Nat
  tail : Nat
  runs : List Run
  fresh : FMap FreshRun
  nextRseq : Nat
  count : Nat
  deriving DecidableEq, Repr

/-! ### Canopy, cohorts and fills -/

/-- A bough slot (R159): what lies there, whether it is testable (R161), whether it must be left (R23), the cohort
whose fill has reserved it (R205), and its marks (R208, R209, R420). -/
structure SlotRec where
  occ : Option CohortId
  lines : List Line
  suspect : Bool
  testable : Bool
  leaving : Bool
  next : Option CohortId
  pinned : Bool
  crown : Bool
  deriving DecidableEq, Repr

/-- A cohort table entry (R198): identity; members in order of arrival; use count (R207) and the use count at the last
interval end (R210); CLINES of the reference that led here; the candidate marks of R200; DROPPED (R421); the CORE
cycle of the last sheaf release (R206); under rebuild (R428). The resident slot and the fill state of R198 are read
from the slots and the fills. -/
structure Cohort where
  id : CohortId
  members : List Nat
  useCount : Nat
  endUse : Nat
  clines : Nat
  forced : Bool
  aged : Bool
  urgent : Bool
  dropped : Bool
  lastRelease : Nat
  rebuilding : Bool
  deriving DecidableEq, Repr

/-- A crown that a first park has tried to replicate (R209): context, scene, tag, CROWN, and whether it is replicated. -/
structure CrownRec where
  ctx : Nat
  scene : Nat
  tag : Nat
  n : Nat
  ok : Bool
  deriving DecidableEq, Repr

/-- Where a bough fill stands (R84, R206, R525). -/
inductive FillStage where
  | victim (since : Nat) (anyMembers : Bool)
  | xferWait
  | trailer
  | lines
  | decrypt
  | handle
  | placing
  deriving DecidableEq, Repr

/-- A bough fill (R202, R203, R419): the slots it fills (one, or the crown octets of R209), the lines returned, with
the trailer line under number 64, the attempt, and the class of a preload entry with its stream (R324). -/
structure Fill where
  id : CohortId
  cls : Nat
  targets : List Nat
  placed : List Nat
  stage : FillStage
  count : Option Nat
  got : FMap Line
  attempt : Nat
  suspect : Bool
  preload : Option Nat
  issued : Nat
  fails : FMap Nat
  forcedBad : Bool
  /-- The targets whose handle waits to enter the placement queue of its grove (R330). -/
  held : List Nat
  deriving DecidableEq, Repr

/-- A block of a leaf cache (R316, R318): demand or staged, with its marks. -/
structure LeafBlock where
  id : BlockId
  lines : List Line
  suspect : Bool
  prefetched : Bool
  looked : Bool
  lastUse : Nat
  /-- The stream and tile of a staged block; none in the demand part. -/
  staged : Option (Nat × Nat)
  deriving DecidableEq, Repr

/-- An entry of a handle queue (R330): its class, whether it stands in the escape entry of its class, and the handle. -/
structure HEntry (α : Type) where
  cls : Nat
  esc : Bool
  item : α
  deriving DecidableEq, Repr

/-- A leaf fill under way in a grove (R318, R319, R422). -/
structure LeafFill where
  grove : Nat
  id : BlockId
  count : Nat
  attempt : Nat
  prefetch : Bool
  haze : Bool
  cls : Nat
  forcedBad : Bool
  /-- Its block has been checked, and its handle has been handed to the leaf handle queue of the grove (R20, R329). -/
  queued : Bool
  deriving DecidableEq, Repr

/-- A handle in the leaf handle queue of a grove (R329): the block of a leaf fill as it is to be installed, or the blocks of
a staged tile of a stream. -/
inductive LeafHandle where
  | block (id : BlockId) (lines : List Line) (suspect : Bool)
  | tile (k j : Nat) (blocks : List LeafBlock)
  deriving DecidableEq, Repr

/-- Grove power state (R503). -/
inductive GroveState where
  | run | drain | frost | inactive
  deriving DecidableEq, Repr

/-- A repair under way (R515): the logical bank and the spare. -/
structure Repair where
  bank : Nat
  phys : Nat
  deriving DecidableEq, Repr

/-- A grove: its registers (R535, R536, 18), repair map, leaf cache and pipes. -/
structure Grove where
  state : GroveState
  result : Nat
  retired : BitVec 16
  spareBad : BitVec 4
  spareUsed : BitVec 4
  pipeEn : BitVec 24
  repairErr : Bool
  repair : Option Repair
  thawing : Bool
  repairSel : Nat
  repairMap : List Nat
  patchGen : Word
  drainSince : Nat
  leafCache : List LeafBlock
  /-- CORE cycle of the last residue failure of each pipe (R425). -/
  pipeFail : FMap Nat
  /-- CORE cycle from which each pipe is free again (R16, R528). -/
  pipeFree : FMap Nat
  spawnRot : Nat
  deriving DecidableEq, Repr

/-- A physical bank (R180 to R185): failed mark, scrub line, injections run, corrections in the pass, lines that gave
an uncorrectable error and were rewritten or not since. -/
structure Bank where
  failed : Bool
  scrub : Nat
  kat : Nat
  ce : Nat
  ueLines : FMap Bool
  deriving DecidableEq, Repr

/-- A test packet in a bank's queue (R174): the sheaf slot and lane it came from, its bank in the octet, its class and the
BANK cycle of its arrival (R175), the bough slot and node or the leaf block that it names, the node lines it reads, DIMS
(0 for a BOX8, PROBE or SPLIT8 packet) and whether its elements are FP8, the operand segments it needs (R172), and whether
a bank has served it (R169, R170): then it has left the queue, and its answer is on its way. -/
structure Packet where
  sheaf : Nat
  lane : Nat
  bank : Nat
  cls : Nat
  arrived : Nat
  slot : Nat
  node : Nat
  block : Option BlockId
  reads : Nat
  dims : Nat
  fp8 : Bool
  segs : List (Nat × Nat)
  served : Bool
  deriving DecidableEq, Repr

/-- An octet: its operand cache, most recently used first (R172), the queues of its 8 banks, 32 packets each (R174), the
leaf blocks in the two halves of its row buffer (R170), the bank cycles given to tests in the interval and the DRIZZLE
suspension (R216). -/
structure Octet where
  opCache : List (Nat × Nat)
  queue : List Packet
  rowBuf : List BlockId
  busy : Nat
  drizzleOff : Bool
  deriving DecidableEq, Repr

/-! ### Sheaves and lanes -/

/-- The handler hook a lane is in (R255): which hook, the stock walk's PC to return to, the candidate index or END
flags it decides, the destination predicate of HIT, and LOWER. -/
inductive Hook where
  | leaf (pc idx : Nat)
  | hit (pc idx pd : Nat) (lower : Bool)
  | fin (pc flags : Nat)
  deriving DecidableEq, Repr

/-- A lane (R241, R275): registers, predicates (bit 0 is p0 and reads 1), transient state and walk state. -/
structure Lane where
  n : Nat
  slot : Nat
  pc : Nat
  v : List Word
  p : BitVec 8
  clist : List ChildEntry
  held : Option ChildEntry
  cbuf : List Candidate
  ws : WalkState
  icount : Nat
  hook : Option Hook
  /-- Blocks that this leaf call treats as having no test, their fill having been dropped (R422). -/
  noTest : List BlockId
  /-- The block lookup of the LEAF or TESTB in progress has been served (R317). -/
  served : Bool
  /-- WALK_LONG has been reported for the lane since its last start or resume (R243). -/
  long : Bool
  deriving DecidableEq, Repr

/-- What a sheaf waits for: nothing, the answers of a test instruction (R279, R281), or a leaf call (R284). The list
holds the numbers of the lanes of the issue group. -/
inductive SheafWait where
  | ready
  | testn (group : List Nat) (f : Fields)
  | testb (group : List Nat) (f : Fields)
  | leaf (group : List Nat) (f : Fields)
  deriving DecidableEq, Repr

/-- A sheaf in its sheaf slot (R211, R242). -/
structure Sheaf where
  cohort : CohortId
  cls : Nat
  binding : Binding
  octetSlot : Option Nat
  lanes : List Lane
  wait : SheafWait
  /-- Its next instruction, an EMIT or an END, is held by collector back-pressure (R330, R359). -/
  held : Bool
  /-- Latency in CORE cycles of the last instruction issued (R305). -/
  lat : Nat
  deriving DecidableEq, Repr

/-- A record in a walk core's spawn buffer (R251). -/
structure SpawnRec where
  ctx : Nat
  record : Rec64
  deriving DecidableEq, Repr

/-! ### Strands and contexts -/

/-- What a strand waits for (R240): the operands needed when it ends. -/
inductive Wait where
  | waitc (rd ctr : Nat) (target : DWord) (timed : Bool)
  | fence (mode : Nat) (chip : Bool)
  | barrier (rd pass : Nat)
  | armImage (rd k : Nat) (addr : DWord)
  | cancel (rd k : Nat)
  | scanBlk (rd : Nat) (addr : DWord)
  | scanWait (rd ch : Nat)
  | xwrite (rd txn : Nat) (leaf : Bool) (target : DWord) (src : DWord)
  | xcommit (rd txn : Nat)
  | xwtwait (rd : Nat)
  | launch (rd n : Nat)
  | nvstore (rd sector : Nat)
  deriving DecidableEq, Repr

/-- What a strand's memory access is: an LD, an AMO (operation, operand, compare), or an ST (bytes, REL). -/
inductive Access where
  | load (size : Nat) (acq chip : Bool)
  | amo (op size : Nat) (operand compare : DWord) (acqrel chip : Bool)
  | store (data : List Byte) (rel chip : Bool)
  deriving DecidableEq, Repr

/-- Strand states of R240. -/
inductive StrandState where
  | halted | ready | waiting (w : Wait)
  deriving DecidableEq, Repr

/-- A load or atomic outstanding (R296, R297): its number, destination, size, whether it sign-extends, whether it is an
atomic, and whether it is an acquire (R368). -/
structure LoadRec where
  n : Nat
  rd : Nat
  size : Nat
  sx : Bool
  atomic : Bool
  acq : Bool
  deriving DecidableEq, Repr

/-- A memory access of a strand that R364 or R371 holds back: its number, the numbers of the accesses it waits for, its
address, and what it is. -/
structure HeldAccess where
  n : Nat
  after : List Nat
  addr : DWord
  what : Access
  deriving DecidableEq, Repr

/-- A strand (R239): PC, x0 to x31, state, image size, outstanding loads, outstanding stores by completion number. -/
structure Strand where
  pc : Nat
  x : List DWord
  state : StrandState
  words : Nat
  loads : List LoadRec
  stores : List Nat
  held : List HeldAccess
  /-- Latency in BANK cycles of the last instruction issued (R304). -/
  lat : Nat
  /-- Failures that the fabric has reported of the reads the strand waits for, by line (R429). -/
  fails : FMap Nat
  deriving DecidableEq, Repr

/-- Context states of R442. -/
inductive CtxState where
  | closed | opening | opened | closing | killing
  deriving DecidableEq, Repr

/-- Countdown modes of R453. -/
inductive CdMode where
  | idle | deadline | timer
  deriving DecidableEq, Repr

/-- An ingest window (R447 to R451): bytes arrived and not yet consumed by offset, the parse position and the last
published consumed count, the byte count of accepted COMMAND writes not yet performed. -/
structure Window where
  bytes : FMap Byte
  parse : Nat
  published : Nat
  cmdPend : List Nat
  deriving DecidableEq, Repr

/-- A scene descriptor as read, with its shard map (R77, R471). -/
structure SceneRead where
  desc : Rec64
  shard : Option ShardRead
  deriving DecidableEq, Repr

/-- An open or waiting BIN tile: its number, entries (key fields of R345), class, time of the first entry. -/
structure TileEntry where
  tag : Word
  user0 : Word
  rows : List (BitVec 16)
  cls : Nat
  late : Bool
  suspect : Bool
  deriving DecidableEq, Repr

/-- A BIN tile (R345, R346, R349). -/
structure Tile where
  entries : List TileEntry
  since : Nat
  partialFlush : Bool
  tseq : Nat
  ueMask : Nat
  deriving DecidableEq, Repr

/-- A key of a BIN entry (R345, R348). -/
structure BinKey where
  openTile : Option Tile
  waiting : List Tile
  nextTseq : Nat
  keyEntry : Option Rec32
  keyBad : Bool
  consumed : Nat
  /-- The tile at the head waits for its ring, and the wait has been counted (R348). -/
  full : Bool
  deriving DecidableEq, Repr

/-- One update of a combining window (R350, R352). -/
structure Update where
  index : Nat
  value : DWord
  tag : Word
  order : Nat
  deriving DecidableEq, Repr

/-- A combining window (R352). -/
structure AccWindow where
  since : Nat
  ups : List Update
  deriving DecidableEq, Repr

/-- The source of an item the collector takes (R359). -/
inductive CItem where
  /-- A chain: context, delivery entry, pool slot to free, class, status, records, whether it goes to the exception
  route under R69, whether a MISS is suppressed (R71), TAG, USER0, USER1 at END, whether the status is LATE, and whether
  VALUE is an i32 score (R347). -/
  | chain (ctx entry : Nat) (slot : Option Nat) (cls status : Nat) (recs : List Rec32) (exc suppressed : Bool)
      (tag : Word) (user0 user1 : Word) (late ints : Bool)
  /-- The emissions of one EMIT issue group: per lane TAG, USER0, USER1 at the EMIT and the 32 bytes; and the pool slots of
  their queries. -/
  | emits (ctx entry cls : Nat) (ems : List (Word × Word × Word × Rec32)) (slots : List Nat)
  deriving DecidableEq, Repr

/-- A chain on the exception route that waits for the consumed count: the completion of its records, its class, and the records
not yet decided (R344). -/
structure ExcWait where
  n : Nat
  cls : Nat
  rest : List Rec32
  deriving DecidableEq, Repr

/-- A delivery entry as read (R337), and what the collector keeps under it. -/
structure Deliv where
  raw : Option Rec64
  valid : Bool
  told : Bool
  excN : Nat
  excConsumed : Nat
  excLastMsg : Option Nat
  /-- Exception chains waiting for the consumed count to be read again (R344). -/
  excWait : List ExcWait
  frameChains : Nat
  keys : FMap BinKey
  window : Option AccWindow
  /-- Ended ACCUM frames whose atomics are not all acknowledged, by completion number (R351). -/
  frameAtomics : List (List Nat)
  gridOk : Bool
  cells : FMap DWord
  sigs : FMap Word
  deriving DecidableEq, Repr

/-- A barrier in progress (R486 to R488). -/
structure Barrier where
  pass : Nat
  sent : Bool
  lost : Bool
  deriving DecidableEq, Repr

/-- A context (14_contexts_and_security.md). -/
structure Context where
  state : CtxState
  openCode : Nat
  level : Nat
  endCause : Nat
  killCause : Nat
  pendClose : Bool
  pendKill : Bool
  desc : Unit256
  cdMode : CdMode
  cdVal : Nat
  epoch : Nat
  recv : FMap DWord
  cnt : FMap DWord
  wins : FMap Window
  scenes : FMap SceneRead
  walks : FMap (Option Binding)
  strand : Strand
  ovf : Ovf
  delivs : FMap Deliv
  cut : Option Nat
  barrier : Option Barrier
  /-- ARRIVEs and RELEASEs received before this strand issued BARRIER: pass, instance, LOST (R486, R487). -/
  arrivals : List (Nat × Nat × Bool)
  released : List (Nat × Bool)
  /-- The first record bytes wait for a descriptor or walk entry to be read (R77, R235). -/
  blocked : Bool
  /-- Failures that the fabric has reported of the context's table reads, by address (R429). -/
  readFails : FMap Nat
  /-- Address spaces that the translation agent has killed while the context was OPENING (R446, R457). -/
  killAsids : List Nat
  deriving DecidableEq, Repr

/-! ### Streams -/

/-- Stream states of R299. -/
inductive StreamState where
  | idle | armed | running | stopped
  deriving DecidableEq, Repr

/-- A stream descriptor (R309 to R333). -/
structure Stream where
  state : StreamState
  owner : Nat
  image : Line
  base : DWord
  pend : Option DWord
  tileBase : Nat
  nextTile : Nat
  /-- The armings whose tiles may still lie in a half: number of the first tile and BASE, the present one first (R311, R332). -/
  bases : List (Nat × DWord)
  /-- Tiles issued whose transfer has not retired, tiles not yet released by their consumer, and tiles not complete (R307,
  R312, R313). -/
  inflight : List Nat
  outstanding : List Nat
  undone : List Nat
  /-- Tiles that a stall break has made to be issued again (R332). -/
  again : List Nat
  installed : FMap (List Nat)
  /-- STAGE: the complete tiles of unreleased halves. -/
  completed : List Nat
  /-- Halves released in order, and those released before an older one (R315). -/
  released : Nat
  early : List Nat
  heldStarts : Nat
  lookups : FMap Nat
  windowLookups : Nat
  consumed : Nat
  rate : Nat
  closing : Bool
  cancelling : Bool
  /-- DELIVERY: the next element to take, and records waiting in the stream's space (R343). -/
  elem : Nat
  space : List (Rec32 × Nat)
  /-- DELIVERY: element writes of each tile that are not acknowledged (R312). -/
  unacked : FMap Nat
  /-- PRELOAD: entries processed, the entry being processed with the FAB cycle it was read. -/
  plDone : Nat
  plWait : Option (DWord × Nat)
  /-- Completion numbers of the records that a stall break wrote to the overflow area, in order (R332, R333). -/
  spilled : List Nat
  deriving DecidableEq, Repr

/-- What a transfer serves, by requester (R306): a bough fill, a leaf fill, a spill or reload run, a scan chunk, a
line that XWRITE reads, the write-through of a transaction buffer line, a stream tile. -/
inductive XferWhat where
  | fill (id : CohortId)
  | leaf (g : Nat) (id : BlockId)
  | run (c rseq : Nat)
  | scan (ch : Nat)
  | line (c : Nat) (addr : DWord)
  | through (n : Nat)
  | tile (k j : Nat)
  deriving DecidableEq, Repr

/-- A line request of a transfer: a read, a write, or a line that a DELIVERY stream takes into owned state (R320). -/
inductive LineWork where
  | read (what : ReadKind)
  | write (data : List Byte)
  | own
  deriving DecidableEq, Repr

/-- A stream-engine transfer (R306 to R308): what it serves, for which context and class, whether it still waits for a
transfer slot, and whether its lines, checks and handle are done, so that it can retire; the line requests that it has not
issued and how many of those issued have not returned (R307). -/
structure Xfer where
  n : Nat
  what : XferWhat
  ctx : Nat
  cls : Nat
  waiting : Bool
  since : Nat
  fin : Bool
  todo : List (DWord × LineWork)
  out : Nat
  /-- Failures that the fabric has reported of its lines, by number, and the lines that failed for good (R429). -/
  fails : FMap Nat
  bad : List Nat
  deriving DecidableEq, Repr

/-! ### Coherence and edits -/

/-- Directory line state and user (R380). -/
inductive LineState where
  | exclusive | modified | ownedShared
  deriving DecidableEq, Repr

/-- The user of a directory line (R380). -/
inductive LineUser where
  | transaction | collector | departing
  deriving DecidableEq, Repr

/-- A line on the ring: its address, and the address space under which the engine asked for it (R455; assumption 109). -/
structure RLine where
  asid : Nat
  addr : DWord
  deriving DecidableEq, Repr

/-- A presence directory entry (R380): the ring has granted it, its state, user, pin, time of use and data. -/
structure DirEntry where
  addr : RLine
  state : LineState
  user : LineUser
  pinned : Bool
  used : Nat
  data : Line
  /-- Bytes of a COLLECTOR line written so far, as a mask of 64-byte sectors. -/
  written : BitVec 128
  deriving DecidableEq, Repr

/-- A departure buffer line (R385, R386). -/
structure Departing where
  addr : RLine
  data : Line
  dirty : Bool
  dropped : Bool
  /-- The transaction buffer line written through by this eviction (R408). -/
  wt : Option Nat
  deriving DecidableEq, Repr

/-- Why a ring request is outstanding (R379, R383). -/
inductive RingUse where
  | txn (line : Nat)
  | coll
  | writeThrough (line : Nat)
  deriving DecidableEq, Repr

/-- An outstanding READ_OWN or UPGRADE (R383). -/
structure RingPend where
  addr : RLine
  upgrade : Bool
  use : RingUse
  waiting : Bool
  /-- A snoop has taken the line since the UPGRADE was issued: the grant brings the data (R383). -/
  crossed : Bool
  deriving DecidableEq, Repr

/-- Sectors the collector will write to a line it is taking into owned state (R381, R388). -/
structure OwnWrite where
  addr : RLine
  off : Nat
  data : List Byte
  completion : Nat
  /-- More writes to the line are expected; otherwise it leaves the directory once written (R381, R385). -/
  keep : Bool
  deriving DecidableEq, Repr

/-- A transaction (R396, R411). -/
structure Txn where
  ctx : Nat
  scene : Nat
  order : Nat
  aborted : Option Nat
  committing : Bool
  deriving DecidableEq, Repr

/-- States of a transaction buffer line (R404). -/
inductive BufState where
  | open (txn : Nat)
  | committed
  | writing
  deriving DecidableEq, Repr

/-- A transaction buffer line that is not FREE: what it holds and for which memory line (R395, R404). -/
structure BufLine where
  state : BufState
  ctx : Nat
  scene : Nat
  /-- A node line (bough, node), a trailer line, or a leaf line. -/
  leaf : Bool
  trailer : Bool
  name : Nat
  addr : DWord
  version : Nat
  data : Line
  ue : Bool
  /-- READ_OWN granted and line entered in the directory (R398). -/
  owned : Bool
  deriving DecidableEq, Repr

/-! ### Collector completions and ports -/

/-- What is done when every write of a completion is acknowledged (R340, R364). -/
inductive Then where
  | nothing
  | counter (addr : DWord) (amount : Nat) (chip : Bool)
  | store
  | accAtomic (entry : Nat)
  | blockWrite (ch : Nat)
  /-- The write of an element of a stream's tile, which is one write of a chain's completion (R312, R320). -/
  | element (k j parent : Nat)
  deriving DecidableEq, Repr

/-- A completion: its writes not yet acknowledged, and what follows (R340). -/
structure Completion where
  n : Nat
  ctx : Nat
  cls : Nat
  left : Nat
  fin : Then
  fails : Nat
  /-- The RECORD chain or the exception records whose writes these are, with the delivery entry: they lie in the BIN share until
  the last write is acknowledged (R358). -/
  chain : Option (Nat × List Rec32)
  deriving DecidableEq, Repr

/-- What waits in a delivery port's handle queue (R329, R339). -/
inductive PortItem where
  | write (asid : Nat) (addr : DWord) (data : List Byte) (completion : Nat)
  /-- An atomic, and the FAB cycle in which it became ready (R340). -/
  | atomic (asid : Nat) (addr : DWord) (op : AtomicOp) (etype : Nat) (value : DWord) (completion : Nat) (release : Option Bool)
      (ready : Nat)
  deriving DecidableEq, Repr

/-! ### Integrity, security, service -/

/-- A scan channel (R301, R414 to R418). -/
structure Scan where
  held : Bool
  ctx : Nat
  block : DWord
  next : DWord
  remain : Nat
  running : DWord
  poly : Bool
  cmp : Bool
  notify : Bool
  expect : DWord
  result : DWord
  finished : Bool
  mismatch : Bool
  failed : Bool
  deriving DecidableEq, Repr

/-- A key slot (R459). -/
structure KeySlot where
  k1 : BitVec 256
  k2 : BitVec 256
  salt : DWord
  deriving DecidableEq, Repr

/-- A key command in progress (R547). -/
inductive KeyCmd where
  | load (k : Nat)
  | unwrap (k : Nat)
  deriving DecidableEq, Repr

/-- Who asked for a store (R510). -/
inductive StoreBy where
  | strand (c : Nat)
  | chain
  deriving DecidableEq, Repr

/-- A store under way (R510): who asked, the sector, and whether its sector's load is awaited (R509). -/
structure Store where
  who : StoreBy
  sector : Nat
  started : Bool
  deriving DecidableEq, Repr

/-- A long chain command that holds the chain (R469). -/
inductive ChainLong where
  | store (sector : Nat)
  | frost (g : Nat)
  | thaw (g : Nat)
  | reset
  deriving DecidableEq, Repr

/-- A lost-set entry (R485): the instance, and its context or none for all contexts. -/
structure LostEntry where
  inst : Nat
  ctx : Option Nat
  deriving DecidableEq, Repr

/-- The outcome a debug unlock waits for (R463). -/
inductive Unlock where
  | idle | killing | erasing
  deriving DecidableEq, Repr

/-- How far bring-up has come (R499). -/
inductive PowerStage where
  | off | held | pll | bringup | ready
  deriving DecidableEq, Repr

/-! ### The device -/

/-- Device, power, service and NVM registers (16, 18). -/
structure Dev where
  stage : PowerStage
  fab : Nat
  groveEn : BitVec 16
  svcEn : Bool
  pwrState : Nat
  pwrLastCmd : Nat
  offReady : Bool
  serviceState : Nat
  portDisable : DWord
  frostDrainMax : Word
  nvmBusy : Option Store
  eraseBusy : Bool
  erasePending : Bool
  lastSector : Nat
  lastOutcome : Nat
  stageBusy : Bool
  stageLoaded : Bool
  nvmDefaulted : BitVec 6
  nvmPtr : Nat
  seqPatchStatus : Nat
  seqPatchCores : Nat
  ctxTableBase : DWord
  drvAsid : Word
  ingestBase : DWord
  shardTableBase : DWord
  ctxSel : Nat
  cntSel : Nat
  strmSel : Nat
  keySel : Nat
  lostSel : Nat
  debugOpen : Bool
  unlock : Unlock
  traceEn : Bool
  instId : Nat
  addressed : Bool
  barN : Nat
  barTimeout : Word
  deriving DecidableEq, Repr

/-- The scheduler's registers and counts (06). -/
structure Sched where
  pend : List Nat
  params : List Nat
  fillT : Nat
  squall : Bool
  /-- FILL_T_INIT has been written in this interval (R192, R193). -/
  tInit : Bool
  paramErr : Bool
  intervals : Nat
  ivFillLines : Nat
  ivStarve : Nat
  ivLeafWait : Nat
  ivPfIssued : Nat
  ivPfUnused : Nat
  groveRot : Nat
  reloadRot : Nat
  spawnRot : Nat
  /-- The record admitted last was a spawned one (R29). -/
  spawnLast : Bool
  deriving DecidableEq, Repr

/-- Integrity registers (13, 18). -/
structure Integ where
  ctl : BitVec 8
  injKind : Nat
  injSram : Nat
  injUnit : Nat
  injArmed : Bool
  /-- Injected SRAM errors not yet read: SRAM (0 bank, 1 spine, 2 transaction buffer), unit, line, double (R432). -/
  injMarks : List (Nat × Nat × Nat × Bool)
  eseq : Word
  head : Word
  tail : Word
  recs : FMap Rec32
  intEn : BitVec 4
  intPend : BitVec 4
  intAddr : List DWord
  intData : List Word
  spineScrub : Nat
  txnScrub : Nat
  dirScrub : Nat
  deriving DecidableEq, Repr

/-- An interrupt message that waits for what it must follow (R364, R368, R438): its group, and the completions that had not
been performed when it was to be sent. -/
structure IntMsg where
  group : Nat
  after : List Nat
  deriving DecidableEq, Repr

/-- The machine. -/
structure State where
  pending : List Instr
  out : List Output
  freeCtr : Nat
  nextId : Nat
  dev : Dev
  sched : Sched
  integ : Integ
  msgs : List IntMsg
  devCnt : FMap DWord
  groves : List Grove
  banks : FMap Bank
  octets : FMap Octet
  slots : FMap SlotRec
  cohorts : List Cohort
  crowns : List CrownRec
  pool : FMap Query
  ext : FMap Unit256
  fills : List Fill
  leafFills : List LeafFill
  xfers : List Xfer
  sheaves : FMap Sheaf
  spawnBufs : FMap (List SpawnRec)
  ctxs : FMap Context
  streams : FMap Stream
  stageLines : Nat
  leafPfD : Nat
  stageParamErr : Bool
  hq : FMap (List (HEntry CohortId))
  /-- The leaf handle queue of each grove, and handles that its producer holds: grove, class and handle (R329, R330). -/
  leafQ : FMap (List (HEntry LeafHandle))
  leafHeld : List (Nat × Nat × LeafHandle)
  /-- Bytes that each ingest port has accepted in this FAB cycle (R231, INGEST_FULL). -/
  ingested : FMap Nat
  shareBin : Nat
  shareAcc : Nat
  shareGrid : Nat
  collectErr : Bool
  feQ : List CItem
  schedQ : List CItem
  fwdQ : List CItem
  walkQ : FMap (List (HEntry CItem))
  collRot : Nat
  walkRot : Nat
  completions : List Completion
  ports : FMap (List (HEntry PortItem))
  ownWrites : List OwnWrite
  /-- Collector lines that a snoop has taken and that have not been taken again (R382). -/
  taken : List RLine
  dir : List DirEntry
  depart : List Departing
  ringPend : List RingPend
  txns : FMap Txn
  txnBuf : FMap BufLine
  scans : FMap Scan
  keys : FMap KeySlot
  keyCmd : Option KeyCmd
  keyResult : Nat
  keyBuf : List DWord
  nvm : List Host.Cell
  staged : List Host.Cell
  chainLong : Option ChainLong
  chainHeld : Option (BitVec 128)
  lost : FMap LostEntry
  watch : FMap Nat
  beats : FMap Nat
  fwdWait : List Nat
  tlb : List (Nat × Nat)
  invalidates : List (Nat × DWord)
  /-- Accesses of killed contexts that were sent and have not been performed: address space and number, once for each write
  (R360, R458). -/
  ghosts : List (Nat × Nat)
  deriving DecidableEq, Repr

/-! ### Reset -/

/-- A grove before EZ_GROVE_EN is sampled: inactive, identity repair map (R157), every pipe enabled (R425). -/
def Grove.reset : Grove :=
  { state := .inactive, result := 0, retired := 0, spareBad := 0, spareUsed := 0, pipeEn := 0xFFFFFF,
    repairErr := false, repair := none, thawing := false, repairSel := 0, repairMap := List.range 96,
    patchGen := 0, drainSince := 0, leafCache := [], pipeFail := [], pipeFree := [], spawnRot := 0 }

/-- Parameter defaults of R192 in the order of R537. -/
def schedDefaults : List Nat :=
  [131072, 0, 491520, 458752, 122880, 114688, 4096, 256, 65536, 1, 256, 262144, 8192, 65536, 4194304, 512, 15]

/-- A halted strand with every register 0 (R239, R240). -/
def Strand.reset : Strand :=
  { pc := 0, x := List.replicate 32 0, state := .halted, words := 0, loads := [], stores := [], held := [], lat := 0, fails := [] }

/-- An empty overflow area (R220). -/
def Ovf.reset : Ovf :=
  { head := 0, tail := 0, runs := [], fresh := [], nextRseq := 0, count := 0 }

/-- A CLOSED context (R442); contexts not listed in the state are this one. -/
def Context.reset : Context :=
  { state := .closed, openCode := 0, level := 0, endCause := 0, killCause := 0, pendClose := false,
    pendKill := false, desc := 0, cdMode := .idle, cdVal := 0, epoch := 0, recv := [], cnt := [], wins := [],
    scenes := [], walks := [], strand := Strand.reset, ovf := Ovf.reset, delivs := [], cut := none,
    barrier := none, arrivals := [], released := [], blocked := false, readFails := [], killAsids := [] }

/-- An IDLE stream (R299); streams not listed are this one. -/
def Stream.reset : Stream :=
  { state := .idle, owner := 0, image := 0, base := 0, pend := none, tileBase := 0, nextTile := 0, bases := [],
    inflight := [], outstanding := [], undone := [], again := [], installed := [], completed := [], released := 0, early := [], heldStarts := 0, lookups := [],
    windowLookups := 0, consumed := 0, rate := 0, closing := false,
    cancelling := false, elem := 0, space := [], unacked := [], plDone := 0, plWait := none, spilled := [] }

/-- A free bough slot (R159). -/
def SlotRec.reset : SlotRec :=
  { occ := none, lines := [], suspect := false, testable := false, leaving := false, next := none,
    pinned := false, crown := false }

/-- A bank with no failure (R183). -/
def Bank.reset : Bank := { failed := false, scrub := 0, kat := 0, ce := 0, ueLines := [] }

/-- An octet with an empty operand cache (R172). -/
def Octet.reset : Octet := { opCache := [], queue := [], rowBuf := [], busy := 0, drizzleOff := false }

/-- A free scan channel (R301). -/
def Scan.reset : Scan :=
  { held := false, ctx := 0, block := 0, next := 0, remain := 0, running := 0, poly := false, cmp := false,
    notify := false, expect := 0, result := 0, finished := false, mismatch := false, failed := false }

/-- An empty window (R447). -/
def Window.reset : Window := { bytes := [], parse := 0, published := 0, cmdPend := [] }

/-- A delivery entry not read (R337). -/
def Deliv.reset : Deliv :=
  { raw := none, valid := false, told := false, excN := 0, excConsumed := 0, excLastMsg := none, excWait := [],
    frameChains := 0, keys := [], window := none, frameAtomics := [], gridOk := true, cells := [], sigs := [] }

/-- A key of a BIN entry with no tile (R345). -/
def BinKey.reset : BinKey :=
  { openTile := none, waiting := [], nextTseq := 0, keyEntry := none, keyBad := false, consumed := 0, full := false }

/-- Device registers after reset (18). -/
def Dev.reset : Dev :=
  { stage := .held, fab := 0, groveEn := 0, svcEn := false, pwrState := 0, pwrLastCmd := 0, offReady := false,
    serviceState := 0, portDisable := 0, frostDrainMax := 1048576, nvmBusy := none, eraseBusy := false,
    erasePending := false, lastSector := 0, lastOutcome := 0, stageBusy := false, stageLoaded := false,
    nvmDefaulted := 0, nvmPtr := 0, seqPatchStatus := 0, seqPatchCores := 0, ctxTableBase := 0,
    drvAsid := 0, ingestBase := 0, shardTableBase := 0, ctxSel := 0, cntSel := 0, strmSel := 0, keySel := 0,
    lostSel := 0, debugOpen := false, unlock := .idle, traceEn := false, instId := 0, addressed := false,
    barN := 1, barTimeout := 0 }

/-- Scheduler registers after reset (R192, R193, 18). -/
def Sched.reset : Sched :=
  { pend := schedDefaults, params := schedDefaults, fillT := 4096, squall := false, tInit := false, paramErr := false,
    intervals := 0, ivFillLines := 0, ivStarve := 0, ivLeafWait := 0, ivPfIssued := 0, ivPfUnused := 0,
    groveRot := 0, reloadRot := 0, spawnRot := 0, spawnLast := false }

/-- Integrity registers after reset (R430, 18). -/
def Integ.reset : Integ :=
  { ctl := 0xFF, injKind := 0, injSram := 0, injUnit := 0, injArmed := false, injMarks := [], eseq := 0, head := 0, tail := 0,
    recs := [], intEn := 0, intPend := 0, intAddr := [0, 0, 0, 0], intData := [0, 0, 0, 0], spineScrub := 0,
    txnScrub := 0, dirScrub := 0 }

/-- The bytes of NVM as manufactured (assumption 9, DESIGN CHOICE): sector 0 holds a valid header over zeros (NVER 1,
NKIND 0, GEN 0, STORES 0, and the CRC-32C of R507 over bytes 16 to 4,095 and bytes 0 to 11), every other byte is 0. -/
def nvmManufactured : List Host.Cell := [(0, 1), (12, 94), (13, 140), (14, 67), (15, 150)]

/-- The machine right after reset, EZ_PORST_N still low: every register at the value 18_register_map.md gives. -/
def State.reset : State :=
  { pending := [], out := [], freeCtr := 0, nextId := 0, dev := Dev.reset, sched := Sched.reset,
    integ := Integ.reset, msgs := [], devCnt := [], groves := List.replicate 16 Grove.reset, banks := [], octets := [],
    slots := [], cohorts := [], crowns := [], pool := [], ext := [], fills := [], leafFills := [], xfers := [], sheaves := [],
    spawnBufs := [], ctxs := [], streams := [], stageLines := 4096, leafPfD := 8, stageParamErr := false,
    hq := [], leafQ := [], leafHeld := [], ingested := [], shareBin := 160, shareAcc := 64, shareGrid := 32, collectErr := false, feQ := [], schedQ := [],
    fwdQ := [], walkQ := [], collRot := 0, walkRot := 0, completions := [], ports := [], ownWrites := [], taken := [],
    dir := [], depart := [], ringPend := [], txns := [], txnBuf := [], scans := [], keys := [], keyCmd := none,
    keyResult := 0, keyBuf := List.replicate 10 0, nvm := nvmManufactured, staged := [], chainLong := none,
    chainHeld := none, lost := [], watch := [], beats := [], fwdWait := [], tlb := [], invalidates := [], ghosts := [] }

end Sys2Proof.Machine
end

