-- ==== Sys2Proof/Machine/Bits.lean ====
section
/-! DEFINITION. Machine/Bits.lean: fields of records (R9), bytes and bit vectors, sparse tables in canonical form,
serial-number comparison, CRC-32C and CRC-64 (R83, R413). -/
namespace Sys2Proof.Machine

/-! ### Fields -/

/-- The w-bit field at byte offset off of a little-endian record (R9). -/
def fldv {n : Nat} (r : BitVec n) (off w : Nat) : BitVec w := r.extractLsb' (8 * off) w
/-- The same field as a number. -/
def fld {n : Nat} (r : BitVec n) (off w : Nat) : Nat := (fldv r off w).toNat
/-- The w-bit field at bit `bit` of a record. -/
def fbit {n : Nat} (r : BitVec n) (bit w : Nat) : Nat := (r.extractLsb' bit w).toNat
/-- A record with the w-bit field at byte offset off replaced. -/
def setFld {n : Nat} (r : BitVec n) (off w v : Nat) : BitVec n :=
  (r &&& ~~~ (BitVec.ofNat n (2 ^ w - 1) <<< (8 * off))) ||| (BitVec.ofNat n (v % 2 ^ w) <<< (8 * off))
/-- A record made of (byte offset, width, value) fields, other bits 0 (R3). -/
def mkRec (n : Nat) (fs : List (Nat × Nat × Nat)) : BitVec n :=
  fs.foldl (fun r f => setFld r f.1 f.2.1 f.2.2) 0

/-- The first k bytes of a record, lowest address first. -/
def bytesOf {n : Nat} (r : BitVec n) (k : Nat) : List Byte := (List.range k).map (fun i => fldv r i 8)
/-- A bit vector from bytes, lowest address first; missing bytes are 0. -/
def ofBytes (n : Nat) (bs : List Byte) : BitVec n :=
  bs.foldr (fun b acc => (acc <<< 8) ||| b.setWidth n) 0

/-- Sign extension of the low size bytes of a value to 64 bits, or zero extension. -/
def extend (size : Nat) (sx : Bool) (v : DWord) : DWord :=
  let m : DWord := BitVec.ofNat 64 (2 ^ (8 * size) - 1)
  let l := v &&& m
  if sx && l.getLsbD (8 * size - 1) then l ||| ~~~ m else l

/-- A 32-bit immediate sign-extended to 64 bits (R263, R296). -/
def sext64 (w : Word) : DWord := w.signExtend 64

/-- (a − b) mod 2^64 < 2^63: counter a has reached b (R375). -/
def reached (a b : DWord) : Bool := !(a - b).msb
/-- a is after b in serial-number arithmetic modulo 2^32 (R394, R508). -/
def serialAfter (a b : Word) : Bool := a != b && !(a - b).msb

/-- Ceiling division. -/
def cdiv (a b : Nat) : Nat := (a + b - 1) / b
/-- a rounded up to a multiple of b. -/
def roundUp (a b : Nat) : Nat := cdiv a b * b

/-! ### Sparse tables -/

/-- Value under a key. -/
def mget {β : Type} : FMap β → Nat → Option β
  | [], _ => none
  | (k, v) :: t, i => if k = i then some v else if i < k then none else mget t i
/-- Value under a key, or a default. -/
def mgetD {β : Type} (m : FMap β) (i : Nat) (d : β) : β := (mget m i).getD d
/-- Sets a key, keeping keys strictly rising. -/
def mset {β : Type} : FMap β → Nat → β → FMap β
  | [], i, v => [(i, v)]
  | (k, w) :: t, i, v => if k = i then (i, v) :: t else if i < k then (i, v) :: (k, w) :: t else (k, w) :: mset t i v
/-- Removes a key. -/
def merase {β : Type} : FMap β → Nat → FMap β
  | [], _ => []
  | (k, w) :: t, i => if k = i then t else if i < k then (k, w) :: t else (k, w) :: merase t i
/-- Keys strictly rise. -/
def msorted {β : Type} : FMap β → Bool
  | [] => true
  | [_] => true
  | (a, _) :: (b, w) :: t => decide (a < b) && msorted ((b, w) :: t)
/-- Changes every value. -/
def mmap {β : Type} (m : FMap β) (f : Nat → β → β) : FMap β := m.map (fun e => (e.1, f e.1 e.2))
/-- Keeps the entries that meet a condition. -/
def mfilter {β : Type} (m : FMap β) (p : Nat → β → Bool) : FMap β := m.filter (fun e => p e.1 e.2)
/-- The least number below a bound that is not a key. -/
def mfree {β : Type} (m : FMap β) (bound : Nat) : Option Nat := go bound m 0
where
  /-- Walks the sorted keys. -/
  go : Nat → FMap β → Nat → Option Nat
  | b, [], i => if i < b then some i else none
  | b, (k, _) :: t, i => if i < k then (if i < b then some i else none) else go b t (k + 1)

/-- A 64-bit counter that stops at 2^64 − 1 (R534). -/
def satAdd (c : DWord) (n : Nat) : DWord := BitVec.ofNat 64 (min (c.toNat + n) (2 ^ 64 - 1))

/-- Element of a list or a default. -/
def nth {α : Type} (l : List α) (i : Nat) (d : α) : α := l.getD i d

/-! ### Byte memories in canonical form -/

/-- The canonical form: addresses strictly rising, no entry equal to the byte 0 that an unlisted address reads as. -/
def Memory.wf : List Host.Cell → Bool
  | [] => true
  | [(_, b)] => b != 0
  | (a, b) :: (c, d) :: t => b != 0 && decide (a < c) && Memory.wf ((c, d) :: t)
/-- Reads a byte; an unlisted address reads as 0 (assumption 9). -/
def memRead : List Host.Cell → Nat → Byte
  | [], _ => 0
  | (k, v) :: t, a => if k = a then v else if a < k then 0 else memRead t a
/-- Writes a byte; writing 0 removes the entry. -/
def memWrite : List Host.Cell → Nat → Byte → List Host.Cell
  | [], a, v => if v = 0 then [] else [(a, v)]
  | (k, w) :: t, a, v =>
    if k = a then (if v = 0 then t else (a, v) :: t)
    else if a < k then (if v = 0 then (k, w) :: t else (a, v) :: (k, w) :: t)
    else (k, w) :: memWrite t a v
/-- Writes bytes at consecutive addresses. -/
def memWriteBytes (m : List Host.Cell) (a : Nat) : List Byte → List Host.Cell
  | [] => m
  | b :: bs => memWriteBytes (memWrite m a b) (a + 1) bs
/-- Reads n bytes. -/
def memReadBytes (m : List Host.Cell) (a n : Nat) : List Byte := (List.range n).map (fun i => memRead m (a + i))

/-! ### Check values -/

/-- One bit of the reflected CRC-32C register (polynomial 0x1EDC6F41). -/
def crc32cBit (r : Word) : Word := if r.getLsbD 0 then (r >>> 1) ^^^ 0x82F63B78 else r >>> 1
/-- One byte. -/
def crc32cByte (r : Word) (b : Byte) : Word :=
  crc32cBit (crc32cBit (crc32cBit (crc32cBit (crc32cBit (crc32cBit (crc32cBit (crc32cBit (r ^^^ b.setWidth 32))))))))
/-- The running register of R413 after folding bytes. -/
def crc32cRun (r : Word) (bs : List Byte) : Word := bs.foldl crc32cByte r
/-- CRC-32C of R83. -/
def crc32c (bs : List Byte) : Word := crc32cRun 0xFFFFFFFF bs ^^^ 0xFFFFFFFF

/-- One bit of the CRC-64/ECMA-182 register, not reflected. -/
def crc64Bit (r : DWord) : DWord := if r.msb then (r <<< 1) ^^^ 0x42F0E1EBA9EA3693 else r <<< 1
/-- One byte. -/
def crc64Byte (r : DWord) (b : Byte) : DWord :=
  crc64Bit (crc64Bit (crc64Bit (crc64Bit (crc64Bit (crc64Bit (crc64Bit (crc64Bit (r ^^^ (b.setWidth 64 <<< 56)))))))))
/-- The running register of CRC-64/ECMA-182 after folding bytes; its result is the register itself. -/
def crc64Run (r : DWord) (bs : List Byte) : DWord := bs.foldl crc64Byte r

end Sys2Proof.Machine
end

