-- ==== Sys2Proof/Machine/Cipher.lean ====
section
/-! DEFINITION. Machine/Cipher.lean: AES-256, XTS-AES-256 as R461 lays it down and the key unwrap of RFC 3394 (R459).
The manual names the standards (IEEE Std 1619, RFC 3394, AES-256); their content is PRESUMED (assumption 18). -/
namespace Sys2Proof.Machine

/-- Multiplication by x in the field of AES. -/
def xtime (b : Byte) : Byte := if b.msb then (b <<< 1) ^^^ 0x1B else b <<< 1
/-- Product in the field of AES. -/
def gmul (a b : Byte) : Byte :=
  (List.range 8).foldr (fun i acc => xtime acc ^^^ (if b.getLsbD i then a else 0)) 0
/-- Power in the field, exponent by doubling. -/
def gpow254 (a : Byte) : Byte :=
  let a2 := gmul a a
  let a4 := gmul a2 a2
  let a8 := gmul a4 a4
  let a16 := gmul a8 a8
  let a32 := gmul a16 a16
  let a64 := gmul a32 a32
  let a128 := gmul a64 a64
  gmul a2 (gmul a4 (gmul a8 (gmul a16 (gmul a32 (gmul a64 a128)))))
/-- The S-box: inverse in the field, then the affine map. -/
def sbox (b : Byte) : Byte :=
  let i := gpow254 b
  i ^^^ i.rotateLeft 1 ^^^ i.rotateLeft 2 ^^^ i.rotateLeft 3 ^^^ i.rotateLeft 4 ^^^ 0x63
/-- The inverse S-box. -/
def invSbox (b : Byte) : Byte := gpow254 (b.rotateLeft 1 ^^^ b.rotateLeft 3 ^^^ b.rotateLeft 6 ^^^ 0x05)

/-- Bytewise exclusive-or. -/
def xorBytes (a b : List Byte) : List Byte := List.zipWith (· ^^^ ·) a b

/-- The words of the key schedule from the last eight, most recent first. -/
def expandKey : Nat → Nat → Byte → List (List Byte) → List (List Byte)
  | 0, _, _, ws => ws
  | n + 1, i, rcon, ws =>
    let prev := nth ws 0 []
    let t := if i % 8 = 0 then xorBytes ((prev.drop 1 ++ prev.take 1).map sbox) [rcon, 0, 0, 0]
             else if i % 8 = 4 then prev.map sbox else prev
    expandKey n (i + 1) (if i % 8 = 0 then xtime rcon else rcon) (xorBytes (nth ws 7 []) t :: ws)

/-- Splits bytes in groups of n. -/
def chunks (n : Nat) : Nat → List Byte → List (List Byte)
  | 0, _ => []
  | k + 1, bs => if bs.isEmpty then [] else bs.take n :: chunks n k (bs.drop n)

/-- The 15 round keys of AES-256. -/
def roundKeys (key : List Byte) : List (List Byte) :=
  let ws := (expandKey 52 8 1 (chunks 4 8 key).reverse).reverse
  (List.range 15).map (fun r => (List.range 4).flatMap (fun j => nth ws (4 * r + j) []))

def shiftRows (s : List Byte) : List Byte := (List.range 16).map (fun i => nth s ((i + 4 * (i % 4)) % 16) 0)
def invShiftRows (s : List Byte) : List Byte := (List.range 16).map (fun i => nth s ((i + 12 * (i % 4)) % 16) 0)
/-- MixColumns with the coefficients of the first row. -/
def mixColumns (a b c d : Byte) (s : List Byte) : List Byte :=
  (List.range 16).map (fun i =>
    let g := fun (k : Nat) => nth s (4 * (i / 4) + (i + k) % 4) 0
    gmul a (g 0) ^^^ gmul b (g 1) ^^^ gmul c (g 2) ^^^ gmul d (g 3))

/-- AES-256 encryption of a 16-byte block. -/
def aesEnc (key blk : List Byte) : List Byte :=
  let ks := roundKeys key
  let s := (List.range 13).foldl
    (fun s r => xorBytes (mixColumns 2 3 1 1 (shiftRows (s.map sbox))) (nth ks (r + 1) [])) (xorBytes blk (nth ks 0 []))
  xorBytes (shiftRows (s.map sbox)) (nth ks 14 [])

/-- AES-256 decryption of a 16-byte block. -/
def aesDec (key blk : List Byte) : List Byte :=
  let ks := roundKeys key
  let s := (List.range 13).foldl
    (fun s r => mixColumns 14 11 13 9 (xorBytes ((invShiftRows s).map invSbox) (nth ks (13 - r) [])))
    (xorBytes blk (nth ks 14 []))
  xorBytes ((invShiftRows s).map invSbox) (nth ks 0 [])

/-- Multiplication of a tweak by alpha (little-endian bytes). -/
def tweakNext (t : List Byte) : List Byte :=
  let v : BitVec 128 := ofBytes 128 t
  bytesOf (if v.msb then (v <<< 1) ^^^ 0x87 else v <<< 1) 16

/-- XTS over whole blocks. -/
def xtsBlocks (k1 : List Byte) : List Byte → List (List Byte) → List Byte
  | _, [] => []
  | t, b :: bs => xorBytes (aesDec k1 (xorBytes b t)) t ++ xtsBlocks k1 (tweakNext t) bs

/-- Decryption of one data unit under a key slot (R461). -/
def xtsDecrypt (k : KeySlot) (unit : Nat) (data : List Byte) : List Byte :=
  let tweakIn := bytesOf (BitVec.ofNat 64 unit) 8 ++ bytesOf k.salt 8
  xtsBlocks (bytesOf k.k1 32) (aesEnc (bytesOf k.k2 32) tweakIn) (chunks 16 data.length data)

/-- One step of RFC 3394 unwrapping: A, the registers R1 to R9, for step t = 9j + i. -/
def unwrapStep (kek : List Byte) (st : List Byte × List (List Byte)) (t : Nat) : List Byte × List (List Byte) :=
  let i := (t - 1) % 9
  let b := aesDec kek (xorBytes st.1 (bytesOf (BitVec.ofNat 64 t) 8).reverse ++ nth st.2 i [])
  (b.take 8, st.2.set i (b.drop 8))

/-- RFC 3394 unwrap of 80 bytes into 72, or none when the integrity check fails (R459). -/
def keyUnwrapBytes (kek wrapped : List Byte) : Option (List Byte) :=
  let st := ((List.range 54).map (fun k => 54 - k)).foldl (unwrapStep kek) (wrapped.take 8, chunks 8 9 (wrapped.drop 8))
  if st.1 == List.replicate 8 (0xA6 : Byte) then some st.2.flatten else none

end Sys2Proof.Machine
end

