-- ==== Sys2Proof/Config.lean ====
section
/-! DEFINITION. Config.lean: what an implementation fixes and the manual does not give, as constants with no body, and
the sizes of the block that the manual gives. Nothing in Lean can see a value of an opaque constant, so a statement
that mentions one holds whatever the part does. -/
namespace Sys2Proof.Config

/-- REVISION of IDENT (18, IDENT: per part). Assumption 15. -/
opaque revision : BitVec 16
/-- The hash of the four values of R190 that chooses a cohort table set (R198); used modulo 32,768. Assumption 16. -/
opaque cohortHash : CohortId → Nat
/-- exp_ez of R145 and R146 as a function of its argument; used only after it is brought within R145's bound.
Assumption 14. -/
opaque expEz : Rat → Rat
/-- A value the manual leaves open, drawn with the state's counter. Assumption 5. -/
opaque freeWord : Nat → DWord
/-- The repair map that bytes 16 to 4,095 of a valid repair sector give for a grove: the physical bank of each of the
96 logical banks, and the unusable spares (R157, R185, R506: the sector's layout is not given). Assumption 12. -/
opaque repairMapOf : List Byte → Nat → List Nat × BitVec 4
/-- The port disable mask that a valid configuration sector gives (R492, R506: the layout is not given).
Assumption 12. -/
opaque portDisableOf : List Byte → DWord
/-- The 64-bit register reset values that a valid configuration sector gives, as (offset, value) pairs (R506).
Assumption 12. -/
opaque configWrites : List Byte → List (Nat × DWord)
/-- The device key that the secret sector's bytes hold (R459, R506: the layout is not given). Assumption 13. -/
opaque deviceKey : List Byte → BitVec 256

end Sys2Proof.Config
end

