-- ==== Sys2Proof/Machine/Exact.lean ====
section
/-! DEFINITION. Machine/Exact.lean: exact values and the three roundings of R125 into F24 (R126), f16, f32, f64 and
bfloat16; the lane arithmetic of R270 to R272. A format's values are bit patterns; exact values are rationals. -/
namespace Sys2Proof.Machine

/-- A binary format: exponent bits, fraction bits, and whether it has subnormals (F24 has none, R126). -/
structure Fmt where
  ebits : Nat
  fbits : Nat
  subn : Bool
  deriving DecidableEq, Repr

def f16 : Fmt := { ebits := 5, fbits := 10, subn := true }
def f24 : Fmt := { ebits := 8, fbits := 15, subn := false }
def f32 : Fmt := { ebits := 8, fbits := 23, subn := true }
def f64 : Fmt := { ebits := 11, fbits := 52, subn := true }
def bf16 : Fmt := { ebits := 8, fbits := 7, subn := true }

/-- The roundings of R125. -/
inductive Rnd where
  | down | up | near
  deriving DecidableEq, Repr

/-- Exponent bias of a format. -/
def Fmt.bias (f : Fmt) : Nat := 2 ^ (f.ebits - 1) - 1
/-- The pattern of +infinity. -/
def Fmt.infBits (f : Fmt) : Nat := (2 ^ f.ebits - 1) * 2 ^ f.fbits
/-- The weight of the sign bit. -/
def Fmt.signBit (f : Fmt) : Nat := 2 ^ (f.ebits + f.fbits)
/-- The quiet NaN of the format (R270, R353). -/
def Fmt.qnan (f : Fmt) : Nat := f.infBits + 2 ^ (f.fbits - 1)

/-- 2 to an integer power, exactly. -/
def pow2 : Int → Rat
  | .ofNat n => mkRat (2 ^ n : Nat) 1
  | .negSucc n => mkRat 1 (2 ^ (n + 1))

/-- A decoded value: NaN, an infinity, or a number with its sign (the sign of a zero is kept) and magnitude. -/
inductive FVal where
  | nan
  | inf (neg : Bool)
  | num (neg : Bool) (mag : Rat)
  deriving DecidableEq, Repr

/-- The exact value of a number; 0 for NaN and infinities. -/
def FVal.rat : FVal → Rat
  | .num false m => m
  | .num true m => -m
  | _ => 0

/-- Neither NaN nor infinite. -/
def FVal.finite : FVal → Bool
  | .num _ _ => true
  | _ => false

/-- NaN test. -/
def FVal.isNan : FVal → Bool
  | .nan => true
  | _ => false

/-- Sign of a decoded value. -/
def FVal.neg : FVal → Bool
  | .nan => false
  | .inf n => n
  | .num n _ => n

/-- Decodes a pattern of a format. -/
def decodeF (f : Fmt) (bits : Nat) : FVal :=
  let neg := bits / f.signBit % 2 == 1
  let e := bits / 2 ^ f.fbits % 2 ^ f.ebits
  let fr := bits % 2 ^ f.fbits
  if e == 2 ^ f.ebits - 1 then (if fr == 0 then .inf neg else .nan)
  else if e == 0 then .num neg ((fr : Int) * pow2 (1 - (f.bias : Int) - (f.fbits : Int)))
  else .num neg (((2 ^ f.fbits + fr : Nat) : Int) * pow2 ((e : Int) - (f.bias : Int) - (f.fbits : Int)))

/-- floor(log2 a) of a positive rational. -/
def floorLog2 (a : Rat) : Int :=
  let e : Int := (Nat.log2 a.num.natAbs : Int) - (Nat.log2 a.den : Int)
  if pow2 e ≤ a then (if pow2 (e + 1) ≤ a then e + 1 else e) else e - 1

/-- Nearest natural number, ties to even. -/
def roundNat (a : Rat) : Nat :=
  let k := a.floor.toNat
  let r := a - (k : Int)
  if r < mkRat 1 2 then k
  else if mkRat 1 2 < r then k + 1
  else if k % 2 == 0 then k else k + 1

/-- Rounds a non-negative rational to a natural number in a direction given for magnitudes. -/
def roundMagNat (r : Rnd) (a : Rat) : Nat :=
  match r with
  | .down => a.floor.toNat
  | .up => a.ceil.toNat
  | .near => roundNat a

/-- The magnitude pattern of a positive rational, rounded in a direction given for magnitudes. Overflow gives the
greatest finite pattern downward and infinity otherwise; a format without subnormals gives 0 or its least normal. -/
def roundMag (f : Fmt) (r : Rnd) (a : Rat) : Nat :=
  let emin : Int := 1 - (f.bias : Int)
  let e := floorLog2 a
  if !f.subn && e < emin then
    match r with
    | .down => 0
    | .up => 2 ^ f.fbits
    | .near => if a * 2 ≤ pow2 emin then 0 else 2 ^ f.fbits
  else
    let e' := if e < emin then emin else e
    let k := roundMagNat r (a * pow2 ((f.fbits : Int) - e'))
    let b := (e' - emin).toNat * 2 ^ f.fbits + k
    if f.infBits ≤ b then (if r == .down then f.infBits - 1 else f.infBits) else b

/-- The direction for the magnitude of a negative value. -/
def Rnd.flip : Rnd → Rnd
  | .down => .up
  | .up => .down
  | .near => .near

/-- rd_down, rd_up and rd_near of R125: the pattern of the exact value x rounded once; exact 0 gives +0. -/
def rd (r : Rnd) (f : Fmt) (x : Rat) : Nat :=
  if x = 0 then 0
  else if 0 < x then roundMag f r x
  else f.signBit + roundMag f r.flip (-x)

/-- rd_near to f32 as a word. -/
def rn32 (x : Rat) : Word := BitVec.ofNat 32 (rd .near f32 x)
/-- The decoded value of an f32 word. -/
def v32 (w : Word) : FVal := decodeF f32 w.toNat
/-- The exact value of a finite f32 word. -/
def q32 (w : Word) : Rat := (v32 w).rat
/-- The decoded value of an f16 pattern. -/
def v16 (w : BitVec 16) : FVal := decodeF f16 w.toNat

/-- Integer square root by bits, from bit n down. -/
def isqrtFrom (y : Nat) : Nat → Nat → Nat
  | 0, r => if (r + 1) * (r + 1) ≤ y then r + 1 else r
  | n + 1, r => isqrtFrom y n (if (r + 2 ^ (n + 1)) * (r + 2 ^ (n + 1)) ≤ y then r + 2 ^ (n + 1) else r)

/-- floor(sqrt y). -/
def isqrt (y : Nat) : Nat := isqrtFrom y (Nat.log2 y / 2 + 1) 0

/-- Rounds the exact square root of a non-negative rational once. -/
def rdSqrt (r : Rnd) (f : Fmt) (x : Rat) : Nat :=
  if x ≤ 0 then 0 else
  let emin : Int := 1 - (f.bias : Int)
  let e0 := floorLog2 x
  let e := if e0 % 2 = 0 then e0 / 2 else (e0 - 1) / 2
  let e' := if e < emin then emin else e
  let y := x * pow2 (2 * ((f.fbits : Int) - e'))
  let k := isqrt y.floor.toNat
  let exact := decide (((k * k : Nat) : Int) = y)
  let k' := match r with
    | .down => k
    | .up => if exact then k else k + 1
    | .near => if y * 4 < (((2 * k + 1) * (2 * k + 1) : Nat) : Int) then k
               else if y * 4 = (((2 * k + 1) * (2 * k + 1) : Nat) : Int) then (if k % 2 == 0 then k else k + 1)
               else k + 1
  (e' - emin).toNat * 2 ^ f.fbits + k'

/-! ### Extended values: comparisons with infinities -/

/-- An exact value or an infinity. -/
inductive ERat where
  | ninf
  | fin (x : Rat)
  | pinf
  deriving DecidableEq, Repr

/-- ≤ on extended values. -/
def ERat.le : ERat → ERat → Bool
  | .ninf, _ => true
  | _, .pinf => true
  | .fin a, .fin b => decide (a ≤ b)
  | _, _ => false

def ERat.min (a b : ERat) : ERat := if a.le b then a else b
def ERat.max (a b : ERat) : ERat := if a.le b then b else a

/-- The extended value of a decoded value; NaN, which no caller passes, as 0. -/
def FVal.ext : FVal → ERat
  | .nan => .fin 0
  | .inf true => .ninf
  | .inf false => .pinf
  | .num false m => .fin m
  | .num true m => .fin (-m)

/-- Rounds an extended value to F24 and gives its extended value again. -/
def rd24 (r : Rnd) : ERat → ERat
  | .fin x => (decodeF f24 (rd r f24 x)).ext
  | x => x

/-- The F24 pattern of an extended F24 value. -/
def bits24 : ERat → BitVec 24
  | .ninf => BitVec.ofNat 24 (f24.signBit + f24.infBits)
  | .pinf => BitVec.ofNat 24 f24.infBits
  | .fin x => BitVec.ofNat 24 (rd .near f24 x)

/-- An F24 pattern as an f32 word: eight zero bits appended to the fraction (R126, R272). -/
def f24to32 (b : BitVec 24) : Word := (b ++ (0 : BitVec 8) : BitVec 32)

/-! ### The exponential of R145 -/

/-- Rounds to a multiple of 2^-160 downward. -/
def gridDown (x : Rat) : Rat := ((x * pow2 160).floor : Int) * pow2 (-160)
/-- Rounds to a multiple of 2^-160 upward. -/
def gridUp (x : Rat) : Rat := ((x * pow2 160).ceil : Int) * pow2 (-160)

/-- The sum of n Taylor terms of e^x, from term t of index i. -/
def expTaylor (x : Rat) : Nat → Nat → Rat → Rat → Rat
  | 0, _, _, acc => acc
  | n + 1, i, t, acc => expTaylor x n (i + 1) (t * x / ((i + 1 : Nat) : Int)) (acc + t)

/-- Squares n times, rounding outward. -/
def squareTimes (up : Bool) : Nat → Rat → Rat
  | 0, x => x
  | n + 1, x => squareTimes up n (if up then gridUp (x * x) else gridDown (x * x))

/-- Rational bounds of e^x for 0 ≤ x < 128: e^(x/128) by 32 Taylor terms, squared seven times. -/
def expBounds (x : Rat) : Rat × Rat :=
  let z := x / 128
  let lo := expTaylor z 32 0 1 0
  (squareTimes false 7 (gridDown lo), squareTimes true 7 (gridUp (lo + pow2 (-100))))

/-- A value brought between two bounds. -/
def clampRat (lo hi v : Rat) : Rat := if v < lo then lo else if hi < v then hi else v
/-- exp_ez(y) for y ≤ 0: the part's value, brought within the bound of R145. e^y lies between lo and hi, which are closer than
a relative 2^-80, so that what is allowed of every number between them is what R145 allows of e^y. -/
def expEz (y : Rat) : Rat :=
  let tiny := pow2 (-126)
  let v := Config.expEz y
  if 128 ≤ -y then clampRat 0 tiny v
  else
    let b := expBounds (-y)
    let lo := 1 / b.2
    let hi := 1 / b.1
    if hi < tiny then clampRat 0 tiny v
    else if lo < tiny then clampRat (hi * (1 - pow2 (-20))) tiny v
    else clampRat (hi * (1 - pow2 (-20))) (lo * (1 + pow2 (-20))) v

/-! ### Lane arithmetic (R270 to R272) -/

/-- The quiet NaN of lane arithmetic. -/
def qnan32 : Word := 0x7FC00000

/-- A zero of the given sign. -/
def zero32 (neg : Bool) : Word := if neg then 0x80000000 else 0
/-- An infinity of the given sign. -/
def inf32 (neg : Bool) : Word := if neg then 0xFF800000 else 0x7F800000

/-- Rounds an exact non-zero value to nearest; a zero takes the given sign (IEEE 754). -/
def rnSigned (x : Rat) (zneg : Bool) : Word := if x = 0 then zero32 zneg else rn32 x

def fadd (a b : Word) : Word :=
  match v32 a, v32 b with
  | .nan, _ | _, .nan => qnan32
  | .inf s, .inf t => if s == t then inf32 s else qnan32
  | .inf s, _ => inf32 s
  | _, .inf t => inf32 t
  | x, y => rnSigned (x.rat + y.rat) (x.neg && y.neg)

def fnegate (a : Word) : Word := a ^^^ 0x80000000
def fabsw (a : Word) : Word := a &&& 0x7FFFFFFF

def fsub (a b : Word) : Word := if (v32 b).isNan then qnan32 else fadd a (fnegate b)

def fmul (a b : Word) : Word :=
  match v32 a, v32 b with
  | .nan, _ | _, .nan => qnan32
  | .inf s, .inf t => inf32 (s ^^ t)
  | .inf s, .num t m => if m = 0 then qnan32 else inf32 (s ^^ t)
  | .num s m, .inf t => if m = 0 then qnan32 else inf32 (s ^^ t)
  | .num s m, .num t k => rnSigned (FVal.rat (.num s m) * FVal.rat (.num t k)) (s ^^ t)

def fdiv (a b : Word) : Word :=
  match v32 a, v32 b with
  | .nan, _ | _, .nan => qnan32
  | .inf _, .inf _ => qnan32
  | .inf s, .num t _ => inf32 (s ^^ t)
  | .num s _, .inf t => zero32 (s ^^ t)
  | .num s m, .num t k =>
    if k = 0 then (if m = 0 then qnan32 else inf32 (s ^^ t))
    else rnSigned (FVal.rat (.num s m) / FVal.rat (.num t k)) (s ^^ t)

/-- rd_near(a × b + c), one rounding. -/
def ffma (a b c : Word) : Word :=
  match v32 a, v32 b, v32 c with
  | .nan, _, _ | _, .nan, _ | _, _, .nan => qnan32
  | .inf s, y, z =>
    match y with
    | .num t m => if m = 0 then qnan32 else (if z == .inf (!(s ^^ t)) then qnan32 else inf32 (s ^^ t))
    | _ => if z == .inf (!(s ^^ y.neg)) then qnan32 else inf32 (s ^^ y.neg)
  | .num s m, .inf t, z =>
    if m = 0 then qnan32 else (if z == .inf (!(s ^^ t)) then qnan32 else inf32 (s ^^ t))
  | .num _ _, .num _ _, .inf u => inf32 u
  | .num s m, .num t k, .num u n =>
    rnSigned (FVal.rat (.num s m) * FVal.rat (.num t k) + FVal.rat (.num u n)) ((s ^^ t) && u)

/-- The total order key of FMIN and FMAX: −0 below +0. -/
def fkey (a : Word) : Int := if a.msb then -((a &&& 0x7FFFFFFF).toNat : Int) - 1 else (a.toNat : Int)

def fmin (a b : Word) : Word :=
  match (v32 a).isNan, (v32 b).isNan with
  | true, true => qnan32
  | true, false => b
  | false, true => a
  | false, false => if fkey a ≤ fkey b then a else b

def fmax (a b : Word) : Word :=
  match (v32 a).isNan, (v32 b).isNan with
  | true, true => qnan32
  | true, false => b
  | false, true => a
  | false, false => if fkey a ≤ fkey b then b else a

def fsqrtw (a : Word) : Word :=
  match v32 a with
  | .nan => qnan32
  | .inf true => qnan32
  | .inf false => inf32 false
  | .num neg m => if m = 0 then zero32 neg else if neg then qnan32 else BitVec.ofNat 32 (rdSqrt .near f32 m)

/-- Order of two f32 values: none when either is NaN. −0 equals +0. -/
def fcompare (a b : Word) : Option Ordering :=
  match v32 a, v32 b with
  | .nan, _ | _, .nan => none
  | x, y => some (if x.ext == y.ext then .eq else if x.ext.le y.ext then .lt else .gt)

/-- Truncation toward zero of a rational. -/
def truncRat (x : Rat) : Int := if 0 ≤ x then x.floor else x.ceil

/-- CVT minors 0 to 7 (R272). -/
def cvtOp (minor : Nat) (a : Word) : Option Word :=
  match minor with
  | 0 => some (rn32 a.toInt)
  | 1 => some (rn32 (a.toNat : Int))
  | 2 => some (match v32 a with
    | .nan => 0
    | .inf s => if s then 0x80000000 else 0x7FFFFFFF
    | x => let t := truncRat x.rat
      if t < -2147483648 then 0x80000000 else if 2147483647 < t then 0x7FFFFFFF else BitVec.ofInt 32 t)
  | 3 => some (match v32 a with
    | .nan => 0
    | .inf s => if s then 0 else 0xFFFFFFFF
    | x => let t := truncRat x.rat
      if t < 0 then 0 else if 4294967295 < t then 0xFFFFFFFF else BitVec.ofInt 32 t)
  | 4 => some (h2f (a.extractLsb' 0 16))
  | 5 => some (h2f (a.extractLsb' 16 16))
  | 6 => some (match v32 a with
    | .nan => 0x7E00
    | .inf s => if s then 0xFC00 else 0x7C00
    | .num s m => if m = 0 then (if s then 0x8000 else 0) else BitVec.ofNat 32 (rd .near f16 (FVal.rat (.num s m))))
  | 7 => some (
      let e := a.extractLsb' 15 8
      let fr := a.extractLsb' 0 15
      if e == 0xFF && fr != 0 then qnan32 else f24to32 (a.extractLsb' 0 24))
  | _ => none
where
  /-- f16 to f32, exact; a NaN gives the quiet NaN of R270. -/
  h2f (h : BitVec 16) : Word :=
    match v16 h with
    | .nan => qnan32
    | .inf s => inf32 s
    | .num s m => rnSigned (FVal.rat (.num s m)) s

end Sys2Proof.Machine
end

