-- ==== Sys2Proof/Machine/Geometry.lean ====
section
/-! DEFINITION. Machine/Geometry.lean: the box, probe, triangle, instance, Gaussian and point tests of
04_intersection_arithmetic.md (R127 to R149), on bit patterns with exact rationals between the named roundings. -/
namespace Sys2Proof.Machine

/-- Three f32 components. -/
structure V3 where
  x : Word
  y : Word
  z : Word
  deriving DecidableEq, Repr

/-- Component of an axis, 0 to 2. -/
def V3.ax (v : V3) : Nat → Word
  | 0 => v.x
  | 1 => v.y
  | _ => v.z

/-- A query's geometry in the current space: a RAY's origin and direction, or a PROBE's point as origin. -/
structure Ray where
  o : V3
  d : V3
  deriving DecidableEq, Repr

/-- The extended value of an F24 pattern. -/
def e24 (b : BitVec 24) : ERat := (decodeF f24 b.toNat).ext
/-- The extended value of an f32 word. -/
def e32 (w : Word) : ERat := (v32 w).ext
/-- Rounds an extended value to an F24 pattern (R126); exact 0 gives +0. -/
def r24 (r : Rnd) : ERat → BitVec 24
  | .fin x => BitVec.ofNat 24 (rd r f24 x)
  | .ninf => 0xFF8000
  | .pinf => 0x7F8000
/-- The lesser of two F24 patterns, the first on a tie (assumption 19). -/
def min24 (a b : BitVec 24) : BitVec 24 := if (e24 a).le (e24 b) then a else b
/-- The greater of two F24 patterns, the first on a tie (assumption 19). -/
def max24 (a b : BitVec 24) : BitVec 24 := if (e24 b).le (e24 a) then a else b

/-! ### Decoded planes -/

/-- ORG of axis a of a BOX8 line. -/
def boxOrg (l : Line) (a : Nat) : Word := fldv l (8 + 4 * a) 32
/-- EXP of axis a. -/
def boxExp (l : Line) (a : Nat) : Int := (fldv l (2 + a) 8).toInt
/-- LO of child c on axis a. -/
def boxLo (l : Line) (c a : Nat) : Nat := fld l (64 + 6 * c + 2 * a) 8
/-- HI of child c on axis a. -/
def boxHi (l : Line) (c a : Nat) : Nat := fld l (65 + 6 * c + 2 * a) 8

/-- The decoded lower and upper planes of R127. -/
def planes (l : Line) (c a : Nat) : BitVec 24 × BitVec 24 :=
  let o := q32 (boxOrg l a)
  let s := pow2 (boxExp l a)
  (BitVec.ofNat 24 (rd .down f24 (o + ((boxLo l c a : Nat) : Int) * s)),
   BitVec.ofNat 24 (rd .up f24 (o + ((boxHi l c a : Nat) : Int) * s)))

/-- The interpolation of a plane between two keys at TIME τ, with infinities kept when their weight is not 0. -/
def lerpE (τ : Rat) (a b : ERat) : ERat :=
  let part := fun (k : Rat) (x : ERat) => if k = 0 then ERat.fin 0 else x
  match part (1 - τ) a, part τ b with
  | .fin x, .fin y => .fin ((1 - τ) * x + τ * y)
  | .fin _, y => y
  | x, _ => x

/-- The planes of a child for a test: those of the line, or of a motion pair at TIME τ (R127). -/
def planesAt (l : Line) (key1 : Option Line) (τ : Rat) (c a : Nat) : BitVec 24 × BitVec 24 :=
  let p0 := planes l c a
  match key1 with
  | none => p0
  | some l1 =>
    let p1 := planes l1 c a
    (r24 .down (lerpE τ (e24 p0.1) (e24 p1.1)), r24 .up (lerpE τ (e24 p0.2) (e24 p1.2)))

/-! ### Slab and child test (R128 to R131) -/

/-- i0 and i1 of R128 for a component that is not zero. -/
def invDir (d : Word) : BitVec 24 × BitVec 24 :=
  (BitVec.ofNat 24 (rd .down f24 (1 / q32 d)), BitVec.ofNat 24 (rd .up f24 (1 / q32 d)))

/-- Exact product of extended values; a zero factor gives 0 (the corner product cp of R129). -/
def cp (x i : ERat) : ERat :=
  match x, i with
  | .fin a, .fin b => .fin (a * b)
  | .fin a, .pinf => if a = 0 then .fin 0 else if 0 < a then .pinf else .ninf
  | .fin a, .ninf => if a = 0 then .fin 0 else if 0 < a then .ninf else .pinf
  | .pinf, .fin b => if b = 0 then .fin 0 else if 0 < b then .pinf else .ninf
  | .ninf, .fin b => if b = 0 then .fin 0 else if 0 < b then .ninf else .pinf
  | .pinf, .pinf => .pinf
  | .ninf, .ninf => .pinf
  | _, _ => .ninf

/-- Difference of an extended value and a finite one. -/
def esub (p : ERat) (o : Rat) : ERat :=
  match p with
  | .fin x => .fin (x - o)
  | p => p

/-- plane_t of R129. -/
def planeT (p : BitVec 24) (o : Word) (i0 i1 : BitVec 24) : BitVec 24 × BitVec 24 :=
  let x0 := e24 (r24 .down (esub (e24 p) (q32 o)))
  let x1 := e24 (r24 .up (esub (e24 p) (q32 o)))
  let a := cp x0 (e24 i0)
  let b := cp x0 (e24 i1)
  let c := cp x1 (e24 i0)
  let d := cp x1 (e24 i1)
  (r24 .down (ERat.min (ERat.min a b) (ERat.min c d)), r24 .up (ERat.max (ERat.max a b) (ERat.max c d)))

/-- An f32 word is +0 or −0. -/
def isZero32 (w : Word) : Bool := (w &&& 0x7FFFFFFF) == 0

/-- slab of R129 and R130. -/
def slab (lo hi : BitVec 24) (o d : Word) : BitVec 24 × BitVec 24 :=
  if isZero32 d then
    if (e24 lo).le (e32 o) && (e32 o).le (e24 hi) then (0xFF8000, 0x7F8000) else (0x7F8000, 0xFF8000)
  else
    let i := invDir d
    let a := planeT lo o i.1 i.2
    let b := planeT hi o i.1 i.2
    (min24 a.1 b.1, max24 a.2 b.2)

/-- The box test of one child: ENTRY and EXIT of R131 when it is hit (R129). -/
def boxChild (l : Line) (key1 : Option Line) (τ : Rat) (c : Nat) (r : Ray) (tmin tmax : Word) :
    Option (BitVec 24 × BitVec 24) :=
  let s := fun (a : Nat) => let p := planesAt l key1 τ c a; slab p.1 p.2 (r.o.ax a) (r.d.ax a)
  let entry := max24 (max24 (s 0).1 (s 1).1) (s 2).1
  let exit := min24 (min24 (s 0).2 (s 1).2) (s 2).2
  if (e24 entry).le (e24 exit) && (e24 entry).le (e32 tmax) && (e32 tmin).le (e24 exit) then
    some (max24 entry (r24 .down (e32 tmin)), min24 exit (r24 .up (e32 tmax)))
  else none

/-- gap of R149. -/
def gap (lo hi : BitVec 24) (p : Word) : Rat :=
  match e24 lo, e24 hi with
  | lo', hi' =>
    if !(lo'.le (e32 p)) then (match lo' with | .fin x => (decodeF f24 (rd .down f24 (x - q32 p))).rat | _ => 0)
    else if !((e32 p).le hi') then (match hi' with | .fin x => (decodeF f24 (rd .down f24 (q32 p - x))).rat | _ => 0)
    else 0

/-- Rounds down to F24 and gives the exact value; the argument is not negative. -/
def down24 (x : Rat) : Rat := (decodeF f24 (rd .down f24 x)).rat

/-- bd of R149 for a child at TIME 0, and whether the child is kept under the limit. -/
def probeChild (l : Line) (c : Nat) (p : V3) (limit : Word) : Option (BitVec 24) :=
  let g := fun (a : Nat) => let q := planes l c a; gap q.1 q.2 (p.ax a)
  let bd := rd .down f24 (down24 (g 0 * g 0) + down24 (g 1 * g 1) + down24 (g 2 * g 2))
  if (decodeF f24 bd).ext.le (e32 limit) then some (BitVec.ofNat 24 bd) else none

/-! ### The triangle test (R134 to R139) -/

/-- rd_near to f32; none when it overflows (R139). -/
def n32 (x : Rat) : Option Rat :=
  match v32 (rn32 x) with
  | .num s m => some (FVal.rat (.num s m))
  | _ => none
/-- rd_near to f64; none when it overflows. -/
def n64 (x : Rat) : Option Rat :=
  match decodeF f64 (rd .near f64 x) with
  | .num s m => some (FVal.rat (.num s m))
  | _ => none

/-- kz, kx, ky of step 1. -/
def rayAxes (d : V3) : Nat × Nat × Nat :=
  let m := fun (a : Nat) => (v32 (d.ax a &&& 0x7FFFFFFF)).rat
  let kz := if m 0 < m 1 then (if m 1 < m 2 then 2 else 1) else (if m 0 < m 2 then 2 else 0)
  let kx := (kz + 1) % 3
  let ky := (kx + 1) % 3
  if q32 (d.ax kz) < 0 then (kz, ky, kx) else (kz, kx, ky)

/-- A vertex after step 2: sheared x and y, and pz. -/
structure Sheared where
  vx : Rat
  vy : Rat
  pz : Rat
  deriving DecidableEq, Repr

/-- Step 2 for one vertex. -/
def shear (k : Nat × Nat × Nat) (sx sy : Rat) (o v : V3) : Option Sheared := do
  let px ← n32 (q32 (v.ax k.2.1) - q32 (o.ax k.2.1))
  let py ← n32 (q32 (v.ax k.2.2) - q32 (o.ax k.2.2))
  let pz ← n32 (q32 (v.ax k.1) - q32 (o.ax k.1))
  let vx ← n32 (px - sx * pz)
  let vy ← n32 (py - sy * pz)
  return { vx := vx, vy := vy, pz := pz }

/-- own of R136. -/
def own (p q : Sheared) : Bool := decide (p.vy < q.vy) || (decide (p.vy = q.vy) && decide (q.vx < p.vx))
/-- sgn of R136: true for +1. -/
def sgnPos (e : Rat) (owned : Bool) : Bool := if 0 < e then true else if e < 0 then false else owned
/-- An edge function of step 3 in f32. -/
def edge32 (p q : Sheared) : Option Rat := do
  let a ← n32 (p.vx * q.vy)
  let b ← n32 (p.vy * q.vx)
  n32 (a - b)
/-- An edge function of step 4 in f64. -/
def edge64 (p q : Sheared) : Option Rat := n64 (p.vx * q.vy - p.vy * q.vx)

/-- What the triangle test finds: t, u, v, back face. -/
structure TriHit where
  t : Word
  u : Word
  v : Word
  back : Bool
  deriving DecidableEq, Repr

/-- Steps 1 to 4: the three edge functions, whether they are in f64, det's format, and the sheared vertices. -/
structure TriEdges where
  a : Sheared
  b : Sheared
  c : Sheared
  eu : Rat
  ev : Rat
  ew : Rat
  fallback : Bool
  dz : Rat
  deriving DecidableEq, Repr

/-- Steps 1 to 4 of R134. -/
def triEdges (r : Ray) (va vb vc : V3) : Option TriEdges := do
  let k := rayAxes r.d
  let dz := q32 (r.d.ax k.1)
  if dz = 0 then none
  let sx ← n32 (q32 (r.d.ax k.2.1) / dz)
  let sy ← n32 (q32 (r.d.ax k.2.2) / dz)
  let a ← shear k sx sy r.o va
  let b ← shear k sx sy r.o vb
  let c ← shear k sx sy r.o vc
  let eu ← edge32 c b
  let ev ← edge32 a c
  let ew ← edge32 b a
  if eu = 0 ∨ ev = 0 ∨ ew = 0 then
    let eu ← edge64 c b
    let ev ← edge64 a c
    let ew ← edge64 b a
    return { a := a, b := b, c := c, eu := eu, ev := ev, ew := ew, fallback := true, dz := dz }
  else return { a := a, b := b, c := c, eu := eu, ev := ev, ew := ew, fallback := false, dz := dz }

/-- Steps 5 and 6, the distance test of R137 and the barycentrics of R138, before culling. -/
def triTest (r : Ray) (va vb vc : V3) (tmin tmax : Word) : Option TriHit := do
  let e ← triEdges r va vb vc
  let su := sgnPos e.eu (own e.c e.b)
  let sv := sgnPos e.ev (own e.a e.c)
  let sw := sgnPos e.ew (own e.b e.a)
  if su != sv || sv != sw then none
  let det ← if e.fallback then n64 (e.eu + e.ev + e.ew) else n32 (e.eu + e.ev + e.ew)
  if det = 0 then none
  let t := rn32 ((e.eu * e.a.pz + e.ev * e.b.pz + e.ew * e.c.pz) / (det * e.dz))
  if !(v32 t).finite then none
  if !((e32 tmin).le (e32 t) && (e32 t).le (e32 tmax)) then none
  return { t := t, u := rn32 (e.ev / det), v := rn32 (e.ew / det), back := decide (det < 0) }

/-- rd_near(b × 65,535) as unorm16 (R63, R138). -/
def unorm16 (b : Word) : BitVec 16 := BitVec.ofNat 16 (roundNat (q32 b * 65535))

/-- haze_index of R122. At LEVEL 0 (n = 1) the pseudocode's u32 n − 2 is taken as −1, so that f is 0 and the index is that of
the one state there is (DESIGN CHOICE, assumption 103). -/
def hazeIndex (u v : Word) (n : Nat) : Nat :=
  let un := q32 u * ((n : Nat) : Int)
  let vn := q32 v * ((n : Nat) : Int)
  let j := min vn.floor.toNat (n - 1)
  let i := min un.floor.toNat (n - 1 - j)
  let f := if i + j + 2 ≤ n ∧ 1 < (un - ((i : Nat) : Int)) + (vn - ((j : Nat) : Int)) then 1 else 0
  j * (2 * n - j) + 2 * i + f

/-! ### Instances (R141, R142) -/

/-- Entry (i, j) of a 3 × 4 matrix of f32. -/
def xfm (m : BitVec 384) (i j : Nat) : Word := fldv m (16 * i + 4 * j) 32

/-- The matrix of a motion pair at TIME τ (R141). -/
def xformAt (m : BitVec 384) (m1 : Option (BitVec 384)) (τ : Rat) : BitVec 384 :=
  match m1 with
  | none => m
  | some n => mkRec 384 ((List.range 12).map (fun k =>
      (4 * k, 32, (rn32 (q32 (fldv m (4 * k) 32) * (1 - τ) + q32 (fldv n (4 * k) 32) * τ)).toNat)))

/-- One row of the map applied to a vector, with or without translation. -/
def xrow (m : BitVec 384) (i : Nat) (v : V3) (tr : Bool) : Word :=
  rn32 (q32 (xfm m i 0) * q32 v.x + q32 (xfm m i 1) * q32 v.y + q32 (xfm m i 2) * q32 v.z +
    (if tr then q32 (xfm m i 3) else 0))

/-- The ray or point mapped into the instanced scene (R141). -/
def mapRay (m : BitVec 384) (r : Ray) : Ray :=
  { o := { x := xrow m 0 r.o true, y := xrow m 1 r.o true, z := xrow m 2 r.o true },
    d := { x := xrow m 0 r.d false, y := xrow m 1 r.d false, z := xrow m 2 r.d false } }

/-- R142: some component of o′ or d′ is infinite, or d′ is zero (a PROBE has no direction). -/
def mapFails (probe : Bool) (r : Ray) : Bool :=
  let bad := fun (v : V3) => !((v32 v.x).finite && (v32 v.y).finite && (v32 v.z).finite)
  bad r.o || (!probe && (bad r.d || (isZero32 r.d.x && isZero32 r.d.y && isZero32 r.d.z)))

/-! ### The Gaussian test (R143 to R147) -/

/-- A stored Gaussian (R112). -/
structure Gaussian where
  c : V3
  s : List (BitVec 16)
  q : List (BitVec 16)
  opacity : BitVec 16
  gid : Word
  deriving DecidableEq, Repr

/-- Exact value of an f16 pattern. -/
def q16 (h : BitVec 16) : Rat := (v16 h).rat

/-- The rotation of R143, row-major; none when a step is not finite. -/
def gaussRot (g : Gaussian) : Option (List Rat) := do
  let qx := q16 (nth g.q 0 0)
  let qy := q16 (nth g.q 1 0)
  let qz := q16 (nth g.q 2 0)
  let qw := q16 (nth g.q 3 0)
  let n ← n32 (qx * qx + qy * qy + qz * qz + qw * qw)
  if n = 0 then none
  let k ← n32 (2 / n)
  let r00 ← n32 (1 - k * (qy * qy + qz * qz))
  let r01 ← n32 (k * (qx * qy - qz * qw))
  let r02 ← n32 (k * (qx * qz + qy * qw))
  let r10 ← n32 (k * (qx * qy + qz * qw))
  let r11 ← n32 (1 - k * (qx * qx + qz * qz))
  let r12 ← n32 (k * (qy * qz - qx * qw))
  let r20 ← n32 (k * (qx * qz - qy * qw))
  let r21 ← n32 (k * (qy * qz + qx * qw))
  let r22 ← n32 (1 - k * (qx * qx + qy * qy))
  return [r00, r01, r02, r10, r11, r12, r20, r21, r22]

/-- What the Gaussian test finds: t* and the response. -/
structure GaussHit where
  t : Word
  r : Word
  deriving DecidableEq, Repr

/-- R143 to R145; a Gaussian whose OPACITY is below GTHRESH is never hit (R113). -/
def gaussTest (g : Gaussian) (ry : Ray) (gthresh tmin tmax : Word) : Option GaussHit := do
  if q16 g.opacity < q32 gthresh then none
  let rot ← gaussRot g
  let R := fun (i j : Nat) => nth rot (3 * i + j) 0
  let e0 ← n32 (q32 ry.o.x - q32 g.c.x)
  let e1 ← n32 (q32 ry.o.y - q32 g.c.y)
  let e2 ← n32 (q32 ry.o.z - q32 g.c.z)
  let s := fun (i : Nat) => q16 (nth g.s i 0)
  let lin := fun (i : Nat) (a b c : Rat) => n32 ((R 0 i * a + R 1 i * b + R 2 i * c) / s i)
  if s 0 = 0 ∨ s 1 = 0 ∨ s 2 = 0 then none
  let p0 ← lin 0 e0 e1 e2
  let p1 ← lin 1 e0 e1 e2
  let p2 ← lin 2 e0 e1 e2
  let w0 ← lin 0 (q32 ry.d.x) (q32 ry.d.y) (q32 ry.d.z)
  let w1 ← lin 1 (q32 ry.d.x) (q32 ry.d.y) (q32 ry.d.z)
  let w2 ← lin 2 (q32 ry.d.x) (q32 ry.d.y) (q32 ry.d.z)
  let ww := w0 * w0 + w1 * w1 + w2 * w2
  if ww = 0 then none
  let t := rn32 (-(p0 * w0 + p1 * w1 + p2 * w2) / ww)
  if !(v32 t).finite then none
  let x0 ← n32 (p1 * w2 - p2 * w1)
  let x1 ← n32 (p2 * w0 - p0 * w2)
  let x2 ← n32 (p0 * w1 - p1 * w0)
  let d2 ← n32 ((x0 * x0 + x1 * x1 + x2 * x2) / ww)
  let r := rn32 (q16 g.opacity * expEz (-d2 / 2))
  if !((e32 gthresh).le (e32 r) && (e32 tmin).le (e32 t) && (e32 t).le (e32 tmax)) then none
  return { t := t, r := r }

/-- rd_near(r, f16) (R145). -/
def respF16 (r : Word) : BitVec 16 := BitVec.ofNat 16 (rd .near f16 (q32 r))

/-! ### Points (R148) -/

/-- r2 = rd_up(RADIUS²) (R148). -/
def radius2 (radius : Word) : Word :=
  match v32 radius with
  | .inf _ => 0x7F800000
  | x => BitVec.ofNat 32 (rd .up f32 (x.rat * x.rat))

/-- The squared distance of R148. -/
def pointD2 (p q : V3) : Word :=
  let d := fun (a : Nat) => q32 (q.ax a) - q32 (p.ax a)
  rn32 (d 0 * d 0 + d 1 * d 1 + d 2 * d 2)

end Sys2Proof.Machine
end

