-- ==== Sys2Proof/Machine/Scoring.lean ====
section
/-! DEFINITION. Machine/Scoring.lean: vector scores, ball bounds, forest compares and sums (R150 to R156). ETYPE is 0
INT8, 1 FP8 E4M3, 2 FP8 E5M2; METRIC is 0 INNER, 1 L2 (R48). -/
namespace Sys2Proof.Machine

/-- FP8 E5M2 has the IEEE form; E4M3 has no infinity and one NaN per sign (OCP FP8, R49; PRESUMED, assumption 20). -/
def v8 (etype : Nat) (b : Byte) : FVal :=
  if etype = 2 then decodeF { ebits := 5, fbits := 2, subn := true } b.toNat
  else
    let neg := b.msb
    let e := fbit b 3 4
    let fr := fbit b 0 3
    if e = 15 ∧ fr = 7 then .nan
    else if e = 0 then .num neg (((fr : Nat) : Int) * pow2 (-9))
    else .num neg (((8 + fr : Nat) : Int) * pow2 ((e : Int) - 10))

/-- The exact value of an element. -/
def elem (etype : Nat) (b : Byte) : Rat := if etype = 0 then b.toInt else (v8 etype b).rat
/-- An element that R49, R92 or R115 forbids. -/
def elemBad (etype : Nat) (b : Byte) : Bool := etype != 0 && !(v8 etype b).finite

/-- rd_near to f32 as an exact value; overflow, which R151 excludes, keeps the exact value. -/
def rnv (x : Rat) : Rat := q32 (rn32 x)

/-- One halving of the pairwise sum. -/
def pairUp : List Rat → List Rat
  | a :: b :: t => rnv (a + b) :: pairUp t
  | [a] => [a]
  | [] => []
/-- n halvings. -/
def pairTimes : Nat → List Rat → List Rat
  | 0, l => l
  | n + 1, l => pairTimes n (pairUp l)

/-- The exact integer score of R150. -/
def scoreInt (metric : Nat) (q x : List Byte) : Int :=
  (List.zipWith (fun a b => if metric = 0 then a.toInt * b.toInt else (a.toInt - b.toInt) * (a.toInt - b.toInt)) q x).sum

/-- The f32 score of R151. -/
def scoreFp (etype metric : Nat) (q x : List Byte) : Rat :=
  let t := List.zipWith (fun a b =>
    if metric = 0 then elem etype a * elem etype b
    else let d := rnv (elem etype a - elem etype b); rnv (d * d)) q x
  nth (pairTimes 8 (t ++ List.replicate (256 - t.length) 0)) 0 0

/-- The score's exact value (R150, R151). -/
def score (etype metric : Nat) (q x : List Byte) : Rat :=
  if etype = 0 then scoreInt metric q x else scoreFp etype metric q x

/-- The score as the VALUE field holds it: i32, or f32 (R63). -/
def scoreWord (etype : Nat) (s : Rat) : Word := if etype = 0 then BitVec.ofInt 32 s.floor else rn32 s

/-- qn or cn of R152. -/
def norm32 (etype : Nat) (q : List Byte) : Word :=
  BitVec.ofNat 32 (rdSqrt .up f32 ((q.map (fun b => elem etype b * elem etype b)).foldl (· + ·) 0))

/-- The bound of R153 from the centre score, RADIUS, qn and cn. -/
def ballBound (etype metric : Nat) (sc : Rat) (radius qn cn : Word) : Word :=
  let eps : Rat := if etype = 0 then 0 else pow2 (-19)
  let r := q32 radius
  if metric = 0 then
    let c : Rat := if etype = 0 then 0 else q32 cn
    BitVec.ofNat 32 (rd .up f32 (sc + r * q32 qn + eps * q32 qn * (c + r)))
  else
    let root := q32 (BitVec.ofNat 32 (rdSqrt .down f32 (sc * (1 - eps))))
    let g0 := q32 (BitVec.ofNat 32 (rd .down f32 (root - r)))
    let g := if g0 < 0 then 0 else g0
    BitVec.ofNat 32 (rd .down f32 (g * g * (1 - eps)))

/-! ### Forest (R102, R155, R156) -/

/-- A feature under R51: the stored value, or none when it is missing (a NaN, or an index of NFEAT or more). -/
def feature (nfeat i : Nat) (h : BitVec 16) : Option FVal :=
  if i < nfeat then (match v16 h with | .nan => none | x => some x) else none

/-- f < T, or T = +inf (R155). -/
def goesLeft (f t : FVal) : Bool := t == .inf false || (f.ext.le t.ext && f.ext != t.ext)

/-- The next node of the heap from split k (R102). -/
def splitStep (line : Line) (nfeat : Nat) (feat : Nat → BitVec 16) (k : Nat) : Nat :=
  let i := fbit line (8 * (4 + 2 * k)) 10
  let left : Bool := match feature nfeat i (feat i) with
    | none => fbit line (8 * 32 + k) 1 == 0
    | some f => goesLeft f (v16 (fldv line (18 + 2 * k) 16))
  if left then 2 * k + 1 else 2 * k + 2

/-- The child a SPLIT8 line selects (R102). -/
def splitChild (line : Line) (nfeat : Nat) (feat : Nat → BitVec 16) : Nat :=
  let s := splitStep line nfeat feat
  s (s (s 0)) - 7

/-- One addition of R156. -/
def sumAdd (acc v : Word) : Word := BitVec.ofNat 32 (rd .near f32 (q32 acc + q32 v))

end Sys2Proof.Machine
end

