-- ==== Sys2Proof/Machine/Records.lean ====
section
/-! DEFINITION. Machine/Records.lean: query records, the admission checks of R58 with the offsets of R549, result
records and chains (R61 to R67), and the fields of the context and scene descriptors (R74, R440). -/
namespace Sys2Proof.Machine

/-! ### Query records (R34 to R51) -/

def qKind (r : Rec64) : Nat := fbit r 0 4
def qVer (r : Rec64) : Nat := fbit r 4 4
def qMode (r : Rec64) : Nat := fbit r 8 4
def qClass (r : Rec64) : Nat := fbit r 12 3
def qK (r : Rec64) : Nat := fld r 2 16
def qScene (r : Rec64) : Nat := fld r 4 16
def qMask (r : Rec64) : BitVec 8 := fldv r 6 8
def qFlags (r : Rec64) : BitVec 16 := fldv r 8 16
def qWalk (r : Rec64) : Nat := fbit r 72 4
def qDelivery (r : Rec64) : Nat := fbit r 80 12
def qTag (r : Rec64) : Word := fldv r 12 32
def qDepth (r : Rec64) : Nat := fld r 52 8
def qUser0 (r : Rec64) : Word := fldv r 56 32
def qUser1 (r : Rec64) : Word := fldv r 60 32
/-- FLAGS bit b (R39). -/
def qFlag (r : Rec64) (b : Nat) : Bool := (qFlags r).getLsbD b
def qRay (r : Rec64) : Ray :=
  { o := { x := fldv r 16 32, y := fldv r 20 32, z := fldv r 24 32 },
    d := { x := fldv r 28 32, y := fldv r 32 32, z := fldv r 36 32 } }
def qTmin (r : Rec64) : Word := fldv r 40 32
def qTmax (r : Rec64) : Word := fldv r 44 32
def qTime (r : Rec64) : BitVec 16 := fldv r 48 16
def qRadius (r : Rec64) : Word := fldv r 28 32
def qDims (r : Rec64) : Nat := fld r 16 16
def qEtype (r : Rec64) : Nat := fld r 18 8
def qMetric (r : Rec64) : Nat := fld r 19 8
def qBudget (r : Rec64) : Nat := fld r 24 32
def qNfeat (r : Rec64) : Nat := fld r 16 16
def qNout (r : Rec64) : Nat := fld r 18 8
def qTreeFirst (r : Rec64) : Nat := fld r 20 32
def qTreeCount (r : Rec64) : Nat := fld r 24 32

/-- Extension bytes of a record (R31, R32). -/
def extBytes (r : Rec64) : Nat :=
  if qVer r ≠ 1 then 0
  else if qKind r = 3 then min (roundUp (qDims r) 64) 65472
  else if qKind r = 4 then min (roundUp (2 * qNfeat r) 64) 65472
  else 0

/-! ### Scene descriptors (R74) -/

def sFmt (d : Rec64) : Nat := fld d 0 8
def sKeyed (d : Rec64) : Bool := fbit d 17 1 == 1
def sPolicy (d : Rec64) : Nat := fbit d 18 2
def sSharded (d : Rec64) : Bool := fbit d 20 1 == 1
def sCrown (d : Rec64) : Nat := fld d 4 8
def sRpb (d : Rec64) : Nat := fld d 5 8
def sNout (d : Rec64) : Nat := fld d 6 8
def sEtype (d : Rec64) : Nat := fld d 7 8
def sDims (d : Rec64) : Nat := fld d 8 16
def sTrees (d : Rec64) : Nat := fld d 12 32
def sBoughBase (d : Rec64) : DWord := fldv d 16 64
def sTrailerBase (d : Rec64) : DWord := fldv d 24 64
def sLeafBase (d : Rec64) : DWord := fldv d 32 64
def sBoughs (d : Rec64) : Nat := fld d 40 32
def sGthresh (d : Rec64) : Word := fldv d 44 32
def sShardMap (d : Rec64) : Nat := fld d 48 32
/-- The policy in force is DROP (R74: the defaults are TRUST for BOX8 and BALL8, DROP for SPLIT8). -/
def sDrop (d : Rec64) : Bool := sPolicy d == 2 || (sPolicy d == 0 && sFmt d == 3)

/-- The shard map descriptor meets the table of R471 for a scene of so many boughs. -/
def shardOk (m : ShardRead) (boughs : Nat) : Bool :=
  fld m.desc 0 8 == 1 && decide (fld m.desc 1 8 ≤ 16) && decide (1 ≤ fld m.desc 4 32) &&
  decide (fld m.desc 4 32 ≤ 2 ^ 29) && decide (boughs ≤ fld m.desc 4 32 * 2 ^ fld m.desc 1 8) &&
  decide (fld m.desc 8 64 % 64 = 0)

/-- The descriptor meets every range of R74 and R75, and R471 when SHARDED (R73). -/
def sceneOk (s : SceneRead) : Bool :=
  let d := s.desc
  decide (fbit d 16 1 = 1) && fld d 1 8 == 1 && (sFmt d == 1 || sFmt d == 2 || sFmt d == 3) && sPolicy d != 3 &&
  decide (1 ≤ sCrown d) && decide (sCrown d ≤ 8) && decide (sCrown d ≤ sBoughs d) &&
  decide (1 ≤ sBoughs d) && decide (sBoughs d ≤ 536870912) &&
  decide (fld d 16 64 % 8192 = 0) && decide (fld d 24 64 % 128 = 0) && decide (fld d 32 64 % 128 = 0) &&
  (sFmt d != 1 || (match v32 (sGthresh d) with
    | .num false m => decide (0 < m) && decide (m ≤ 1)
    | _ => false)) &&
  (sFmt d != 2 || (decide (sEtype d ≤ 2) && decide (32 ≤ sDims d) && decide (sDims d ≤ 256) && sDims d % 32 == 0)) &&
  (sFmt d != 3 || (decide (1 ≤ sRpb d) && decide (sRpb d ≤ 64) && decide (1 ≤ sNout d) && decide (sNout d ≤ 16) &&
    decide (1 ≤ sTrees d) && decide (sTrees d ≤ 65536) && decide (cdiv (sTrees d) (sRpb d) ≤ sBoughs d))) &&
  (!sSharded d || (match s.shard with | some m => shardOk m (sBoughs d) | none => false))

/-! ### Context descriptors (R440) -/

def dTopClass (d : Unit256) : Nat := fbit d 24 3
def dKeyEn (d : Unit256) : Bool := fbit d 27 1 == 1
def dNvmStore (d : Unit256) : Bool := fbit d 28 1 == 1
def dKeySlot (d : Unit256) : Nat := fld d 4 16
def dScenes (d : Unit256) : Nat := fld d 6 16
def dPoolQuota (d : Unit256) : Nat := fld d 8 32
def dSpawnPool (d : Unit256) : Nat := fld d 12 32
def dSpawnDepth (d : Unit256) : Nat := fld d 16 8
def dMaxTxn (d : Unit256) : Nat := fld d 17 8
def dMaxScan (d : Unit256) : Nat := fld d 18 8
def dMaxNout (d : Unit256) : Nat := fld d 19 8
def dMaxK (d : Unit256) : Nat := fld d 20 16
def dMaxDims (d : Unit256) : Nat := fld d 22 16
def dMaxNfeat (d : Unit256) : Nat := fld d 24 16
def dDelivs (d : Unit256) : Nat := fld d 26 16
def dStreamFirst (d : Unit256) : Nat := fld d 28 16
def dStreamCount (d : Unit256) : Nat := fld d 30 16
def dAsid (d : Unit256) : Nat := fld d 32 32
def dWkind (d : Unit256) (w : Nat) : Nat := fbit d (8 * 36 + 2 * w) 2
def dSeqImage (d : Unit256) : DWord := fldv d 40 64
def dSceneTable (d : Unit256) : DWord := fldv d 48 64
def dDelivTable (d : Unit256) : DWord := fldv d 56 64
def dWalkTable (d : Unit256) : DWord := fldv d 64 64
def dOvfBase (d : Unit256) : DWord := fldv d 72 64
def dOvfLines (d : Unit256) : Nat := fld d 80 32
def dCmdBase (d : Unit256) : DWord := fldv d 88 64
def dConsAddr (d : Unit256) : DWord := fldv d 96 64

/-! ### Admission checks (R58, R549) -/

/-- Status codes of R66. -/
def stOK : Nat := 0x00
def stMISS : Nat := 0x01
def stLATE : Nat := 0x02
def stINCOMPLETE : Nat := 0x03
def stSUSPECT : Nat := 0x04
def stERR_DATA : Nat := 0x10
def stFORWARD_LOST : Nat := 0x11
def stREJ_LEVEL : Nat := 0x20
def stREJ_FORMAT : Nat := 0x21
def stREJ_SIZE : Nat := 0x22
def stREJ_SCENE : Nat := 0x23
def stREJ_DELIVERY : Nat := 0x24

/-- A refusal: the check of R58, the status, and VALUE. -/
structure Reject where
  check : Nat
  status : Nat
  value : Nat
  deriving DecidableEq, Repr

/-- MODE is permitted for KIND (R38). -/
def modeOk (kind mode : Nat) : Bool :=
  match kind with
  | 1 => mode == 1 || mode == 2 || mode == 3
  | 2 => mode == 4 || mode == 5
  | 3 => mode == 6
  | 4 => mode == 7
  | _ => false

/-- The modes that collect, whose K lies in 1 to 256 (R38). -/
def modeCollects (mode : Nat) : Bool := mode == 3 || mode == 4 || mode == 5 || mode == 6

/-- Check 9: the offset when the scene does not match (R41, R76). -/
def sceneMismatch (r : Rec64) (scene : Option Rec64) : Option Nat :=
  match scene with
  | none => some 4
  | some d =>
    let want := if qKind r = 3 then 2 else if qKind r = 4 then 3 else 1
    if sFmt d ≠ want then some 4
    else if qKind r = 3 then
      (if qDims r ≠ sDims d then some 16 else if qEtype r ≠ sEtype d then some 18 else none)
    else if qKind r = 4 then (if sNout d < qNout r then some 18 else none)
    else none

/-- The first condition of checks 12 or 13 that fails: K, DIMS, NFEAT, NOUT in this order. -/
def sizeFail (r : Rec64) (k dims nfeat nout : Bool) : Option Nat :=
  if k then some 2
  else if qKind r = 3 && dims then some 16
  else if qKind r = 4 && nfeat then some 16
  else if qKind r = 4 && nout then some 18
  else none

/-- Check 12. -/
def check12 (r : Rec64) : Option Nat :=
  let kBad := if modeCollects (qMode r) then decide (qK r < 1) || decide (256 < qK r) else qK r != 0
  sizeFail r kBad (decide (qDims r < 32) || qDims r % 32 != 0) (qNfeat r == 0) (qNout r == 0)

/-- Check 13 against the context's maxima. -/
def check13 (r : Rec64) (d : Unit256) : Option Nat :=
  sizeFail r (modeCollects (qMode r) && decide (dMaxK d < qK r)) (decide (dMaxDims d < qDims r))
    (decide (dMaxNfeat d < qNfeat r)) (decide (dMaxNout d < qNout r))

/-- The lowest offset of an f32 field among ORG, DIR, TMIN and TMAX that R45 refuses. -/
def rayBadField (r : Rec64) : Option Nat :=
  [16, 20, 24, 28, 32, 36, 40, 44].find? (fun o =>
    !(v32 (fldv r o 32)).finite && !(o == 44 && v32 (fldv r o 32) == .inf false))

/-- TIME is NaN or lies outside [0, 1]. −0 counts as 0. -/
def timeBad (h : BitVec 16) : Bool :=
  match v16 h with
  | .num neg m => (neg && m != 0) || decide (1 < m)
  | _ => true

/-- Check 14 (R45, R47, R52, R72). -/
def check14 (r : Rec64) (spawned : Bool) (scene : Option Rec64) : Option Nat :=
  match qKind r with
  | 1 =>
    match rayBadField r with
    | some o => some o
    | none => if timeBad (qTime r) then some 48 else if qFlag r 0 && qFlag r 1 then some 8 else none
  | 2 =>
    match [16, 20, 24].find? (fun o => !(v32 (fldv r o 32)).finite) with
    | some o => some o
    | none =>
      match v32 (qRadius r) with
      | .nan => some 28
      | .inf true => some 28
      | .num true m => if m = 0 then none else some 28
      | _ => none
  | 3 => if spawned then some 0 else none
  | 4 =>
    if spawned then some 0
    else
      let trees := (scene.map sTrees).getD 0
      if trees ≤ qTreeFirst r then some 20
      else if trees < qTreeFirst r + qTreeCount r then some 24 else none
  | _ => none

/-- Check 15 (R49): the first element that fails. -/
def check15 (r : Rec64) (ext : List Byte) : Option Nat :=
  if qKind r = 3 then
    match ((ext.take (qDims r)).findIdx? (elemBad (qEtype r))) with
    | some i => some (64 + i)
    | none => none
  else none

/-- The admission checks in order (R58): the first that fails decides. -/
def admissionCheck (r : Rec64) (spawned : Bool) (d : Unit256) (scene : Option Rec64) (ext : List Byte) :
    Option Reject :=
  let rej := fun (c s v : Nat) => some ({ check := c, status := s, value := v } : Reject)
  if qVer r = 0 || 8 ≤ qVer r then rej 1 stREJ_FORMAT 0
  else if 2 ≤ qVer r then rej 2 stREJ_LEVEL 0
  else if qKind r = 0 then rej 3 stREJ_FORMAT 0
  else if 5 ≤ qKind r then rej 4 stREJ_LEVEL 0
  else if dDelivs d ≤ qDelivery r then rej 5 stREJ_DELIVERY 10
  else if 4 ≤ qClass r then rej 6 stREJ_FORMAT 1
  else if 8 ≤ qMode r then rej 7 stREJ_LEVEL 1
  else if !modeOk (qKind r) (qMode r) then rej 8 stREJ_FORMAT 1
  else match sceneMismatch r scene with
  | some o => rej 9 stREJ_SCENE o
  | none =>
    let vec := qKind r == 3
    if vec && 3 ≤ qEtype r && qEtype r ≤ 15 then rej 10 stREJ_LEVEL 18
    else if vec && 2 ≤ qMetric r && qMetric r ≤ 7 then rej 10 stREJ_LEVEL 19
    else if vec && 16 ≤ qEtype r then rej 11 stREJ_FORMAT 18
    else if vec && 8 ≤ qMetric r then rej 11 stREJ_FORMAT 19
    else match check12 r with
    | some o => rej 12 stREJ_FORMAT o
    | none => match check13 r d with
      | some o => rej 13 stREJ_SIZE o
      | none => match check14 r spawned scene with
        | some o => rej 14 stREJ_FORMAT o
        | none => match check15 r ext with
          | some o => rej 15 stREJ_FORMAT o
          | none => none

/-- R46 and the MASK rule of R47: the query ends MISS at admission. -/
def missAtAdmission (r : Rec64) : Bool :=
  match qKind r with
  | 1 => !((e32 (qTmin r)).le (e32 (qTmax r))) || (isZero32 (qRay r).d.x && isZero32 (qRay r).d.y && isZero32 (qRay r).d.z)
    || qMask r == 0
  | 2 => qMask r == 0
  | _ => false

/-- The class after R59 and, for a spawned record, R28: no higher than the floor class. -/
def admittedClass (named floor : Nat) : Nat := max named floor

/-- A record without some bits. -/
def withoutBits (r : Rec64) (first n : Nat) : Rec64 := r &&& ~~~ (BitVec.ofNat 512 (2 ^ n - 1) <<< first)
/-- The reserved bits of a query record of each kind, as (first bit, number of bits) (R34, R39, R40, R42 to R44, R47, R48, R50). -/
def reservedBits (kind : Nat) : List (Nat × Nat) :=
  [(15, 1), (56, 8), (70, 2), (92, 4), (424, 24)] ++
  match kind with
  | 1 => [(400, 16)]
  | 2 => [(64, 5), (256, 160)]
  | 3 => [(48, 8), (64, 5), (160, 32), (224, 192)]
  | _ => [(48, 8), (64, 5), (152, 8), (224, 192)]
/-- The record as admission keeps it, and as a lane, a run and a packet show it: reserved bits 0 (R3), DEPTH set (R43). R244
and R222 say "as admitted"; that this is without the reserved bits is read from R3 (DEDUCED, assumption 75). -/
def withDepth (r : Rec64) (depth : Nat) : Rec64 :=
  setFld ((reservedBits (qKind r)).foldl (fun x b => withoutBits x b.1 b.2) r) 52 8 depth
/-- A record with its CLASS replaced. -/
def withClass (r : Rec64) (c : Nat) : Rec64 := (r &&& ~~~ (7 <<< 12 : Rec64)) ||| (BitVec.ofNat 512 (c % 8) <<< 12)

/-- Units for a query's data (R53). -/
def dataUnitCount (r : Rec64) : Nat :=
  if qKind r = 3 then 1 else if qKind r = 4 then cdiv (2 * qNfeat r) 256 else 0
/-- Units for a query's collection (R53). -/
def collUnitCount (r : Rec64) : Nat :=
  if qKind r = 4 then (if qNout r ≤ 4 then 0 else 1)
  else if modeCollects (qMode r) then (if qK r ≤ 4 then 0 else cdiv (qK r) 16)
  else 0
/-- The data units of a query from its extension bytes (R55). -/
def dataUnitsOf (r : Rec64) (ext : List Byte) : List Unit256 :=
  let n := if qKind r = 3 then qDims r else 2 * qNfeat r
  (List.range (dataUnitCount r)).map (fun j => ofBytes 2048 (((ext.take n).drop (256 * j)).take 256))

/-! ### Result records (R61 to R67) -/

/-- Absent PRIM or INST. -/
def absent : Word := 0xFFFFFFFF

/-- A result record (R61). -/
def resultRecord (tag : Word) (status rflags seq count kind : Nat) (value prim inst : Word) (aux0 aux1 : BitVec 16)
    (user0 : Word) : Rec32 :=
  mkRec 256 [(0, 32, tag.toNat), (4, 8, status), (5, 8, rflags), (6, 16, seq), (8, 16, count), (10, 4, kind),
    (12, 32, value.toNat), (16, 32, prim.toNat), (20, 32, inst.toNat), (24, 16, aux0.toNat), (26, 16, aux1.toNat),
    (28, 32, user0.toNat)]

/-- A single record that reports no result: REJECTED, ERR_DATA, FORWARD_LOST and MISS (R63). -/
def singleRecord (r : Rec64) (status value : Nat) (spawned forwarded known : Bool) : Rec32 :=
  resultRecord (qTag r) status (1 + (if forwarded then 8 else 0) + (if spawned then 32 else 0)) 0 1
    (if known then qKind r else 0) (BitVec.ofNat 32 value) absent absent 0 0 (if known then qUser0 r else 0)

/-- What a result's VALUE is ordered by (R65): an i32 score of an INT8 query, or an f32; a NaN has no place among the numbers. -/
def valueKey (r : Rec64) (w : Word) : Option ERat :=
  if qMode r = 6 ∧ qEtype r = 0 then some (.fin w.toInt)
  else match v32 w with
    | .nan => none
    | x => some x.ext
/-- Strict order of two results under the MODE of a query (R65); RADIUS orders by PRIM, then INST. A NaN stands behind every
number, in every mode (DESIGN CHOICE, assumption 71). -/
def hitBefore (r : Rec64) (a b : Hit) : Bool :=
  let tie := decide (a.prim.toNat < b.prim.toNat) || (a.prim == b.prim && decide (a.inst.toNat < b.inst.toNat))
  let byVal := fun (less : Bool) (same : Bool) => less || (same && tie)
  match qMode r with
  | 4 => tie
  | m =>
    let down := m == 6 && qMetric r == 0
    match valueKey r a.value, valueKey r b.value with
    | some x, some y => byVal (if down then y.le x && x != y else x.le y && x != y) (x == y)
    | some _, none => true
    | none, some _ => false
    | none, none => tie

/-- VALUE, PRIM and INST equal: one hit found twice (R281, R290). -/
def sameHit (a b : Hit) : Bool := a.value == b.value && a.prim == b.prim && a.inst == b.inst

/-- Inserts in order. -/
def insertHit (r : Rec64) (h : Hit) : List Hit → List Hit
  | [] => [h]
  | x :: t => if hitBefore r h x then h :: x :: t else x :: insertHit r h t

/-- Inserts into a collection, keeps the first K, and says whether the held results changed (R290). -/
def collectHit (r : Rec64) (h : Hit) (coll : List Hit) : List Hit × Bool :=
  if coll.any (sameHit h) then (coll, false)
  else
    let c := (insertHit r h coll).take (qK r)
    (c, c != coll)

/-- The walk state at admission (R191, R244): entry bough and node, limit TMAX, sums of +0. -/
def freshWalk (r : Rec64) (bough node : Nat) : WalkState :=
  { bough := bough, node := node, path := [], stack := [], trail := 0,
    tmax := if qKind r = 1 then qTmax r else 0, best := none, coll := [],
    sums := if qKind r = 4 then List.replicate (qNout r) 0 else [], sumSuspect := false,
    tree := if qKind r = 4 then qTreeFirst r else 0, rows := 0,
    uflags := 0, resumePc := none, incomplete := false, truncated := false, budgetHit := false,
    forwarded := false, emitsSent := 0, clines := 0 }

/-- RFLAGS of a record (R62). -/
def rflags (last : Bool) (ws : WalkState) (spawned back suspect : Bool) : Nat :=
  (if last then 1 else 0) + (if ws.truncated then 2 else 0) + (if ws.budgetHit then 4 else 0) +
  (if ws.forwarded then 8 else 0) + (if back then 16 else 0) + (if spawned then 32 else 0) +
  (if suspect then 64 else 0)

/-- The results a query holds, in chain order: the best hit, the collection, or nothing for SUM. -/
def heldHits (r : Rec64) (ws : WalkState) : List Hit :=
  if modeCollects (qMode r) then ws.coll else ws.best.toList

/-- Status of a query that ends without an error (R66, R67). -/
def endStatus (r : Rec64) (ws : WalkState) (late : Bool) : Nat :=
  let sus := if qMode r = 7 then ws.sumSuspect else (heldHits r ws).any (·.suspect)
  if late then stLATE else if ws.incomplete then stINCOMPLETE else if sus then stSUSPECT
  else if qMode r = 7 then stOK else if (heldHits r ws).isEmpty then stMISS else stOK

/-- The chain of a query that ends without an error (R63 to R65, R229). -/
def chainOf (r : Rec64) (ws : WalkState) (spawned late : Bool) : Nat × List Rec32 :=
  let st := endStatus r ws late
  if qMode r = 7 then
    let n := qNout r
    (st, (List.range n).map (fun i => resultRecord (qTag r) st (rflags (i + 1 == n) ws spawned false ws.sumSuspect) i n
      (qKind r) (nth ws.sums i 0) (BitVec.ofNat 32 i) absent 0 0 (qUser0 r)))
  else
    let hs := heldHits r ws
    if hs.isEmpty then
      (st, [resultRecord (qTag r) st (rflags true ws spawned false false) 0 1 (qKind r) 0 absent absent 0 0 (qUser0 r)])
    else
      let n := hs.length
      (st, (List.range n).map (fun i =>
        let h := nth hs i { value := 0, prim := 0, inst := 0, aux0 := 0, aux1 := 0, backface := false, suspect := false }
        resultRecord (qTag r) st (rflags (i + 1 == n) ws spawned h.backface h.suspect) i n (qKind r) h.value h.prim
          h.inst h.aux0 h.aux1 (qUser0 r)))

end Sys2Proof.Machine
end

