-- ==== Sys2Proof/Machine/Nodes.lean ====
section
/-! DEFINITION. Machine/Nodes.lean: what a bank reads of a node line and answers (R91 to R103, R149 to R153, R160,
R164, R166), and the checks of R279 on the children an answer reports. -/
namespace Sys2Proof.Machine

/-- ERR_DATA and FORWARD_LOST codes of R435. -/
def errNODE : Nat := 1
def errREF_TYPE : Nat := 2
def errREF_RANGE : Nat := 3
def errCLINES : Nat := 4
def errREMOTE_UNSHARDED : Nat := 5
def errLEAF_FMT : Nat := 6
def errLEAF_FIELD : Nat := 7
def errINSTANCE_SCENE : Nat := 8
def errINSTANCE_DEPTH : Nat := 9
def errPOOL_UE : Nat := 10
def errEXT_UE : Nat := 11
def errCOLLECT_UE : Nat := 12
def errLANE_PARITY : Nat := 13
def errFORWARD_TIMEOUT : Nat := 0x100
def errSHARD_LOST : Nat := 0x101

/-- TYPE bits of a child reference (R88). -/
def refTypeBits (ref : Word) : Nat := fbit ref 29 3
/-- Bits [28:0] of a reference. -/
def refIndex (ref : Word) : Nat := fbit ref 0 29
/-- The node index of a NODE reference; bits [28:6] are reserved. -/
def refNode (ref : Word) : Nat := fbit ref 0 6
/-- TYPE of a reference whose bits are not reserved. -/
def refType (ref : Word) : RefType :=
  match refTypeBits ref with
  | 1 => .node
  | 2 => .bough
  | 3 => .leaf
  | 4 => .remote
  | _ => .empty

/-- A child that an answer reports (R163, R164). -/
structure ChildAns where
  slot : Nat
  ref : Word
  clines : Nat
  key : Word
  exit : Word
  score : Word
  cn : Word
  deriving DecidableEq, Repr

/-- REF of child c in the three node formats. -/
def nodeRef (fmt : Nat) (l : Line) (c : Nat) : Word :=
  fldv l ((if fmt = 1 then 28 else if fmt = 2 then 40 else 36) + 4 * c) 32
/-- CLINES of child c. -/
def nodeClines (fmt : Nat) (l : Line) (c : Nat) : Nat :=
  fld l ((if fmt = 1 then 112 else if fmt = 2 then 72 else 68) + c) 8
/-- The numbers of the non-empty children. -/
def liveChildren (fmt : Nat) (l : Line) : List Nat :=
  (List.range 8).filter (fun c => refTypeBits (nodeRef fmt l c) != 0)

/-- A subnormal f32. -/
def subnormal32 (w : Word) : Bool := fbit w 23 8 == 0 && fbit w 0 23 != 0

/-- R92 and R94 over one key of a BOX8 node whose non-empty children are given. -/
def boxPlanesBad (l : Line) (live : List Nat) : Bool :=
  (List.range 3).any (fun a =>
    !(v32 (boxOrg l a)).finite || subnormal32 (boxOrg l a) || decide (boxExp l a < -126) || decide (118 < boxExp l a) ||
    live.any (fun c => decide (boxHi l c a < boxLo l c a)))

/-- MOTION and KEY of a BOX8 line (R93). -/
def boxMotion (l : Line) : Bool := fbit l 8 1 == 1
def boxKey (l : Line) : Bool := fbit l 9 1 == 1

/-- R91, R92, R94 and R97 for a test that names node n of a bough of so many lines. The key-1 line is read for RAY. -/
def boxLineBad (ray : Bool) (ls : List Line) (n : Nat) : Bool :=
  let l := nth ls n 0
  let live := liveChildren 1 l
  fld l 0 8 != 1 || boxKey l || boxPlanesBad l live ||
  (boxMotion l && (n % 2 == 1 || decide (ls.length ≤ n + 1) ||
    (ray && (let k := nth ls (n + 1) 0
             fld k 0 8 != 1 || !boxMotion k || !boxKey k || boxPlanesBad k live))))

/-- The BOX8 answer to a RAY (R127 to R131, R164). -/
def testBox (ls : List Line) (n : Nat) (r : Ray) (τ : Rat) (tmin tmax : Word) (mask : BitVec 8) :
    Except Nat (List ChildAns) :=
  if ls.length ≤ n then .error errREF_RANGE
  else if boxLineBad true ls n then .error errNODE
  else
    let l := nth ls n 0
    let k1 := if boxMotion l then some (nth ls (n + 1) 0) else none
    .ok ((liveChildren 1 l).filterMap (fun c =>
      if (fldv l (20 + c) 8 &&& mask) == 0 then none
      else (boxChild l k1 τ c r tmin tmax).map (fun e =>
        { slot := c, ref := nodeRef 1 l c, clines := nodeClines 1 l c, key := f24to32 e.1, exit := f24to32 e.2,
          score := 0, cn := 0 })))

/-- The PROBE answer (R149). -/
def testProbe (ls : List Line) (n : Nat) (p : V3) (limit : Word) (mask : BitVec 8) : Except Nat (List ChildAns) :=
  if ls.length ≤ n then .error errREF_RANGE
  else if boxLineBad false ls n then .error errNODE
  else
    let l := nth ls n 0
    .ok ((liveChildren 1 l).filterMap (fun c =>
      if (fldv l (20 + c) 8 &&& mask) == 0 then none
      else (probeChild l c p limit).map (fun bd =>
        { slot := c, ref := nodeRef 1 l c, clines := nodeClines 1 l c, key := f24to32 bd, exit := 0, score := 0,
          cn := 0 })))

/-- A SPLIT8 line that does not decode (R91, R92): a threshold is NaN. -/
def splitLineBad (l : Line) : Bool := fld l 0 8 != 3 || (List.range 7).any (fun i => (v16 (fldv l (18 + 2 * i) 16)).isNan)

/-- The SPLIT8 answer: exactly one child, which may be EMPTY (R102, R164). -/
def testSplit (ls : List Line) (n nfeat : Nat) (feat : Nat → BitVec 16) : Except Nat (List ChildAns) :=
  if ls.length ≤ n then .error errREF_RANGE
  else
    let l := nth ls n 0
    if splitLineBad l then .error errNODE
    else
      let c := splitChild l nfeat feat
      .ok [{ slot := c, ref := nodeRef 3 l c, clines := nodeClines 3 l c, key := 0, exit := 0, score := 0, cn := 0 }]

/-- The centre of child c of a BALL8 node with header h (R99). -/
def ballCentre (ls : List Line) (h dims c : Nat) : List Byte :=
  ((List.range (cdiv dims 128)).flatMap (fun j => bytesOf (nth ls (h + 1 + 8 * j + c) 0) 128)).take dims

/-- A BALL8 node that does not decode (R91, R92, R98, R100). -/
def ballNodeBad (ls : List Line) (h dims etype : Nat) : Bool :=
  let l := nth ls h 0
  fld l 0 8 != 2 || fld l 2 16 != dims || fld l 4 8 != etype ||
  (List.range 8).any (fun c => match v32 (fldv l (8 + 4 * c) 32) with
    | .num neg m => neg && m != 0
    | _ => true) ||
  (liveChildren 2 l).any (fun c => (ballCentre ls h dims c).any (elemBad etype))

/-- The BALL8 answer (R150 to R153). -/
def testBall (ls : List Line) (h dims etype metric : Nat) (q : List Byte) : Except Nat (List ChildAns) :=
  if ls.length ≤ h || ls.length ≤ h + 8 * cdiv dims 128 then .error errREF_RANGE
  else if ballNodeBad ls h dims etype then .error errNODE
  else
    let l := nth ls h 0
    let qn := norm32 etype q
    .ok ((liveChildren 2 l).map (fun c =>
      let x := ballCentre ls h dims c
      let s := score etype metric q x
      let cn := if etype != 0 && metric == 0 then norm32 etype x else 0
      { slot := c, ref := nodeRef 2 l c, clines := nodeClines 2 l c,
        key := ballBound etype metric s (fldv l (8 + 4 * c) 32) qn cn, exit := 0, score := scoreWord etype s, cn := cn }))

/-- The first rule of R279 that a reported child breaks. -/
def childBreach (node bough lines boughs : Nat) (sharded : Bool) (c : ChildAns) : Option Nat :=
  let t := refTypeBits c.ref
  if 5 ≤ t then some errREF_TYPE
  else if (t = 2 ∨ t = 4) ∧ (c.clines < 1 ∨ 64 < c.clines) then some errCLINES
  else if t = 3 ∧ (c.clines < 1 ∨ 16 < c.clines) then some errCLINES
  else if (t = 0 ∨ t = 1) ∧ c.clines ≠ 0 then some errCLINES
  else if t = 1 ∧ (refNode c.ref ≤ node ∨ lines ≤ refNode c.ref) then some errREF_RANGE
  else if (t = 2 ∨ t = 4) ∧ (refIndex c.ref ≤ bough ∨ boughs ≤ refIndex c.ref) then some errREF_RANGE
  else if t = 4 ∧ !sharded then some errREMOTE_UNSHARDED
  else none

/-- The first breach among the reported children, in ascending slot order (R279). -/
def firstBreach (node bough lines boughs : Nat) (sharded : Bool) : List ChildAns → Option Nat
  | [] => none
  | c :: t =>
    match childBreach node bough lines boughs sharded c with
    | some e => some e
    | none => firstBreach node bough lines boughs sharded t

/-- The BANK cycles of one operation beyond the contention-free 11 (R168): the round trip less 11. -/
def ballTrip (etype dims : Nat) : Nat := 7 + 8 * dims / (if etype = 0 then 64 else 32) - 1
/-- Bytes of an answer (R164). -/
def answerBytes (kind etype metric : Nat) (n : Nat) : Nat :=
  match kind with
  | 1 => 4 + 11 * n
  | 2 => 4 + 8 * n
  | 3 => 4 + (if etype ≠ 0 ∧ metric = 0 then 17 else 13) * n
  | _ => 10

end Sys2Proof.Machine
end

