-- ==== Sys2Proof/Machine/Leaves.lean ====
section
/-! DEFINITION. Machine/Leaves.lean: leaf blocks (R104 to R123, R550) and the tests a leaf pipe makes of them for LEAF
(R282 to R284), and the row scores of TESTB (R281). -/
namespace Sys2Proof.Machine

/-- Byte i of a block of leaf lines. -/
def blkByte (ls : List Line) (i : Nat) : Byte := fldv (nth ls (i / 128) 0) (i % 128) 8
/-- A w-bit field at a byte offset of a block. -/
def blkv (ls : List Line) (off w : Nat) : BitVec w := ofBytes w ((List.range (w / 8)).map (fun i => blkByte ls (off + i)))
/-- The same as a number. -/
def blk (ls : List Line) (off w : Nat) : Nat := (blkv ls off w).toNat

def lfFmt (ls : List Line) : Nat := blk ls 0 8
def lfCount (ls : List Line) : Nat := blk ls 1 8
def lfLines (ls : List Line) : Nat := blk ls 2 8
def lfMask (ls : List Line) : BitVec 8 := blkv ls 3 8

/-- CRC of a block under R106: over the lines read, bytes 4 to 7 taken as 0. -/
def leafCrcOk (ls : List Line) : Bool :=
  let bs := ls.flatMap (fun l => bytesOf l 128)
  crc32c (bs.take 4 ++ [0, 0, 0, 0] ++ bs.drop 8) == (blkv ls 4 32 : Word)

/-- The greatest COUNT of a format (R105, R108 to R121). -/
def leafMax (fmt lines dims nout : Nat) : Nat :=
  match fmt with
  | 0x41 => (128 * lines - 32) / 64
  | 0x42 => (128 * lines - 32) / 40
  | 0x43 => (128 * lines - 16) / 32
  | 0x44 => (128 * lines - 16) / 16
  | 0x45 => min 28 (128 * (lines - 1) / dims)
  | 0x46 => nout
  | 0x47 => (128 * lines - 16) / 64
  | 0x48 => (128 * lines - 16) / 8
  | 0x49 => 7
  | _ => 0

/-- The format is permitted as a child in a scene of tree format sfmt. -/
def leafPermitted (sfmt fmt : Nat) : Bool :=
  match sfmt with
  | 1 => fmt == 0x41 || fmt == 0x42 || fmt == 0x43 || fmt == 0x44 || fmt == 0x47
  | 2 => fmt == 0x45
  | 3 => fmt == 0x46
  | _ => false

/-- The checks of R105 for a block reached under CLINES, HAZE_LINES or DLINES; FVAL needs COUNT equal to NOUT (R116). -/
def leafFmtBad (ok : Nat → Bool) (d : Rec64) (clines : Nat) (ls : List Line) : Bool :=
  !ok (lfFmt ls) || decide (lfCount ls < 1) || decide (leafMax (lfFmt ls) (lfLines ls) (sDims d) (sNout d) < lfCount ls) ||
  (lfFmt ls == 0x46 && (lfCount ls != sNout d || lfLines ls != 1)) ||
  decide (lfLines ls < 1) || decide (16 < lfLines ls) || lfLines ls != clines

/-! ### Fields of each format -/

def fin32 (w : Word) : Bool := (v32 w).finite
def fin16 (h : BitVec 16) : Bool := (v16 h).finite
/-- Three f32 at a byte offset. -/
def blkV3 (ls : List Line) (off : Nat) : V3 := { x := blkv ls off 32, y := blkv ls (off + 4) 32, z := blkv ls (off + 8) 32 }
def finV3 (v : V3) : Bool := fin32 v.x && fin32 v.y && fin32 v.z

/-- HAZE_REF names no block. -/
def hazeEmpty (ls : List Line) : Bool := refTypeBits (blkv ls 12 32) == 0
/-- HAZE_LINES of a triangle block. -/
def hazeLines (ls : List Line) : Nat := if lfFmt ls = 0x41 then blk ls 31 8 else blk ls 16 8

/-- R109 for one axis of a strip block: the base is an integer number of steps, and every coordinate is an exact f32. -/
def stripAxisBad (ls : List Line) (a : Nat) : Bool :=
  let base : Word := blkv ls (16 + 4 * a) 32
  let g : Int := (blkv ls (28 + a) 8).toInt
  let k := q32 base / pow2 g
  !fin32 base || decide (104 < g) || k.den != 1 || decide (k ≤ -16777216) || decide (16777216 ≤ k + 65535)

/-- The block breaks R92, R108 or R109, R113, R119. -/
def leafFieldBad (ls : List Line) (etype dims : Nat) : Bool :=
  match lfFmt ls with
  | 0x41 => (List.range 3).any (stripAxisBad ls) ||
      (List.range (lfCount ls)).any (fun s => let n := blk ls (32 + 64 * s) 8 % 16; n == 0 || decide (8 < n))
  | 0x42 => (List.range (lfCount ls)).any (fun i => (List.range 3).any (fun v => !finV3 (blkV3 ls (32 + 40 * i + 12 * v))))
  | 0x43 => (List.range (lfCount ls)).any (fun i =>
      let o := 16 + 32 * i
      !finV3 (blkV3 ls o) ||
      (List.range 3).any (fun k => match v16 (blkv ls (o + 12 + 2 * k) 16) with
        | .num neg m => neg || m == 0
        | _ => true) ||
      (List.range 4).any (fun k => !fin16 (blkv ls (o + 18 + 2 * k) 16)) ||
      (List.range 4).all (fun k => q16 (blkv ls (o + 18 + 2 * k) 16) == 0) ||
      (match v16 (blkv ls (o + 26) 16) with
        | .num neg m => neg || m == 0 || decide (1 < m)
        | _ => true))
  | 0x44 => (List.range (lfCount ls)).any (fun i => !finV3 (blkV3 ls (16 + 16 * i)))
  | 0x45 => (List.range (lfCount ls * dims)).any (fun i => elemBad etype (blkByte ls (128 + i)))
  | 0x46 => (List.range (lfCount ls)).any (fun j => !fin16 (blkv ls (16 + 2 * j) 16))
  | 0x47 => (List.range (lfCount ls)).any (fun i =>
      let b := blk ls (16 + 64 * i + 51) 8
      let prev := if i = 0 then 0 else blk ls (16 + 64 * (i - 1) + 51) 8
      let next := if i + 1 < lfCount ls then blk ls (16 + 64 * (i + 1) + 51) 8 else 0
      (List.range 12).any (fun k => !fin32 (blkv ls (16 + 64 * i + 4 * k) 32)) ||
      (b % 4 == 2) || (b % 4 == 3 && prev % 4 != 1) || (b % 4 == 1 && next % 4 != 3))
  | _ => false

/-- R550. -/
def hazeRuleBad (ls : List Line) : Bool :=
  hazeEmpty ls && (hazeLines ls != 0 ||
    (if lfFmt ls = 0x41 then (List.range (lfCount ls)).any (fun s => blk ls (33 + 64 * s) 8 != 0)
     else (List.range (lfCount ls)).any (fun i => blk ls (32 + 40 * i + 36) 16 != 0xFFFF)))

/-! ### Triangles -/

/-- A vertex of a strip (R109), exact. -/
def stripVertex (ls : List Line) (s v : Nat) : V3 :=
  let c := fun (a : Nat) => rn32 (q32 (blkv ls (16 + 4 * a) 32) +
    ((blk ls (36 + 64 * s + 6 * v + 2 * a) 16 : Nat) : Int) * pow2 (blkv ls (28 + a) 8 : BitVec 8).toInt)
  { x := c 0, y := c 1, z := c 2 }

/-- A triangle entry: vertices, id and haze descriptor. -/
structure Tri where
  a : V3
  b : V3
  c : V3
  id : Word
  haze : Option Nat
  deriving DecidableEq, Repr

/-- Number of set bits of x below bit i. -/
def onesBelow (x i : Nat) : Nat := ((List.range i).filter (fun k => x / 2 ^ k % 2 == 1)).length

/-- Entry i of a triangle block; none for an index that is skipped (R282). -/
def triEntry (ls : List Line) (i : Nat) : Option Tri :=
  if lfFmt ls = 0x41 then
    let s := i / 8
    let k := i % 8
    if blk ls (32 + 64 * s) 8 % 16 ≤ k then none
    else
      let v := stripVertex ls s
      let hazed := blk ls (33 + 64 * s) 8
      some { a := if k % 2 = 0 then v k else v (k + 1), b := if k % 2 = 0 then v (k + 1) else v k, c := v (k + 2),
             id := BitVec.ofNat 32 (blk ls 8 32 + i),
             haze := if hazed / 2 ^ k % 2 = 1 then some (blk ls (34 + 64 * s) 16 + onesBelow hazed k) else none }
  else
    let o := 32 + 40 * i
    let h := blk ls (o + 36) 16
    some { a := blkV3 ls o, b := blkV3 ls (o + 12), c := blkV3 ls (o + 24), id := BitVec.ofNat 32 (blk ls 8 32 + i),
           haze := if h = 0xFFFF then none else some h }

/-- What the leaf cache answers for a block: installed lines with their SUSPECT mark, dropped, or not there. -/
inductive BlkLook where
  | here (ls : List Line) (suspect : Bool)
  | dropped
  | missing
  deriving DecidableEq, Repr

/-- The outcome of reading a haze state (R120 to R123). -/
inductive HazeRead where
  | state (v : Nat) (suspect : Bool)
  | err (code : Nat)
  | dropped
  | need (index lines : Nat)
  deriving DecidableEq, Repr

/-- Lines that a HAZE_DATA block of a LEVEL needs at least (R121). -/
def hazeDataLines (level : Nat) : Nat := if level ≤ 4 then 1 else if level = 5 then 3 else 9

/-- Reads the state of a hit of a triangle whose descriptor is h (R120 to R122). -/
def hazeState (d : Rec64) (look : Nat → Nat → BlkLook) (ls : List Line) (h : Nat) (u v : Word) : HazeRead :=
  let ref : Word := blkv ls 12 32
  if refTypeBits ref ≠ 3 then .err errLEAF_FIELD
  else match look (refIndex ref) (hazeLines ls) with
  | .missing => .need (refIndex ref) (hazeLines ls)
  | .dropped => .dropped
  | .here hz sus =>
    if leafFmtBad (fun f => f == 0x48) d (hazeLines ls) hz then .err errLEAF_FMT
    else if lfCount hz ≤ h then .err errLEAF_FIELD
    else
      let level := blk hz (16 + 8 * h) 8
      let dl := blk hz (17 + 8 * h) 8
      let data : Word := blkv hz (20 + 8 * h) 32
      if 6 < level ∨ refTypeBits data ≠ 3 ∨ dl < 1 ∨ 16 < dl then .err errLEAF_FIELD
      else match look (refIndex data) dl with
      | .missing => .need (refIndex data) dl
      | .dropped => .dropped
      | .here dt sus2 =>
        if leafFmtBad (fun f => f == 0x49) d dl dt then .err errLEAF_FMT
        else if lfCount dt ≠ level + 1 ∨ lfLines dt < hazeDataLines level then .err errLEAF_FIELD
        else
          let m := hazeIndex u v (2 ^ level)
          .state (blk dt (16 + m / 4) 8 / 2 ^ (2 * (m % 4)) % 4) (sus || sus2)

/-- What a leaf call has found so far. -/
structure LeafAcc where
  cands : List Candidate
  next : Nat
  tested : Nat
  fallbacks : Nat
  hazeReads : Nat
  incomplete : Bool
  err : Option Nat
  needs : List (Nat × Nat)
  deriving DecidableEq, Repr

/-- Nothing found, starting at an index. -/
def LeafAcc.start (i : Nat) : LeafAcc :=
  { cands := [], next := i, tested := 0, fallbacks := 0, hazeReads := 0, incomplete := false, err := none, needs := [] }

/-- The query and scene a leaf call tests under. -/
structure LeafCtx where
  record : Rec64
  desc : Rec64
  ray : Ray
  tmax : Word
  inst : Word
  /-- The current bough's slot, or the block, is marked SUSPECT (R423). -/
  suspect : Bool

/-- Tests triangle entry i and records what passes (R134 to R140, R122, R123). -/
def triStep (x : LeafCtx) (look : Nat → Nat → BlkLook) (ls : List Line) (acc : LeafAcc) (i : Nat) : LeafAcc :=
  match triEntry ls i with
  | none => { acc with next := i + 1 }
  | some tr =>
    let fb := match triEdges x.ray tr.a tr.b tr.c with | some e => e.fallback | none => false
    let acc := { acc with next := i + 1, tested := acc.tested + 1, fallbacks := acc.fallbacks + (if fb then 1 else 0) }
    match triTest x.ray tr.a tr.b tr.c (qTmin x.record) x.tmax with
    | none => acc
    | some h =>
      if (h.back && qFlag x.record 0) || (!h.back && qFlag x.record 1) then acc
      else
        let cand := fun (st : Nat) (sus : Bool) =>
          ({ hit := { value := h.t, prim := tr.id, inst := x.inst, aux0 := unorm16 h.u, aux1 := unorm16 h.v,
                      backface := h.back, suspect := x.suspect || sus }, haze := st } : Candidate)
        match tr.haze with
        | none => { acc with cands := cand 0 false :: acc.cands }
        | some d =>
          if qFlag x.record 2 then { acc with cands := cand 0 false :: acc.cands }
          else match hazeState x.desc look ls d h.u h.v with
          | .state 0 _ => { acc with hazeReads := acc.hazeReads + 1 }
          | .state 1 sus => { acc with hazeReads := acc.hazeReads + 1, cands := cand 0 sus :: acc.cands }
          | .state st sus => { acc with hazeReads := acc.hazeReads + 1, cands := cand st sus :: acc.cands }
          | .err e => { acc with err := some e }
          | .dropped => { acc with incomplete := true }
          | .need a b => { acc with needs := (a, b) :: acc.needs }

/-- A Gaussian of a block (R112). -/
def gaussEntry (ls : List Line) (i : Nat) : Gaussian :=
  let o := 16 + 32 * i
  { c := blkV3 ls o, s := (List.range 3).map (fun k => blkv ls (o + 12 + 2 * k) 16),
    q := (List.range 4).map (fun k => blkv ls (o + 18 + 2 * k) 16), opacity := blkv ls (o + 26) 16, gid := blkv ls (o + 28) 32 }

/-- Tests Gaussian i (R143 to R147). -/
def gaussStep (x : LeafCtx) (ls : List Line) (acc : LeafAcc) (i : Nat) : LeafAcc :=
  let g := gaussEntry ls i
  let acc := { acc with next := i + 1, tested := acc.tested + 1 }
  match gaussTest g x.ray (sGthresh x.desc) (qTmin x.record) x.tmax with
  | none => acc
  | some h => { acc with cands :=
      { hit := { value := h.t, prim := g.gid, inst := x.inst, aux0 := respF16 h.r, aux1 := 0, backface := false,
                 suspect := x.suspect }, haze := 0 } :: acc.cands }

/-- Tests point i (R148). -/
def pointStep (x : LeafCtx) (ls : List Line) (acc : LeafAcc) (i : Nat) : LeafAcc :=
  let d2 := pointD2 x.ray.o (blkV3 ls (16 + 16 * i))
  let acc := { acc with next := i + 1, tested := acc.tested + 1 }
  if (e32 d2).le (e32 (radius2 (qRadius x.record))) then
    { acc with cands := { hit := { value := d2, prim := blkv ls (28 + 16 * i) 32, inst := x.inst, aux0 := 0, aux1 := 0,
                                   backface := false, suspect := x.suspect }, haze := 0 } :: acc.cands }
  else acc

/-- Tests entries in ascending index until the 16th that passes, an error, a block that is not there, or the end. -/
def leafLoop (stepOne : LeafAcc → Nat → LeafAcc) : Nat → Nat → LeafAcc → LeafAcc
  | 0, _, acc => acc
  | n + 1, i, acc =>
    let a := stepOne acc i
    if a.err.isSome || !a.needs.isEmpty || a.cands.length = 16 then a else leafLoop stepOne n (i + 1) a

/-- Candidate order of R282: ascending VALUE, then PRIM, then INST. -/
def candBefore (a b : Candidate) : Bool :=
  let x := e32 a.hit.value
  let y := e32 b.hit.value
  (x.le y && x != y) || (x == y && (decide (a.hit.prim.toNat < b.hit.prim.toNat) ||
    (a.hit.prim == b.hit.prim && decide (a.hit.inst.toNat < b.hit.inst.toNat))))

/-- Inserts a candidate after those not after it. -/
def insertCand (c : Candidate) : List Candidate → List Candidate
  | [] => [c]
  | x :: t => if candBefore c x then c :: x :: t else x :: insertCand c t
/-- Sorts candidates; equal ones keep their order. -/
def sortCands (l : List Candidate) : List Candidate := l.foldl (fun acc c => insertCand c acc) []

/-- The block has a test for the query's kind (R39, R107); FVAL and INSTANCE are handled apart. -/
def leafTested (r : Rec64) (fmt : Nat) : Bool :=
  match qKind r, fmt with
  | 1, 0x41 | 1, 0x42 => !qFlag r 3
  | 1, 0x43 => !qFlag r 4
  | 1, 0x47 | 2, 0x47 => true
  | 2, 0x44 => true
  | 4, 0x46 => true
  | _, _ => false

/-- R40: the block's LMASK admits a RAY or PROBE query. VEC, FVAL, HAZE and HAZE_DATA blocks and blocks of a reserved FMT have
no LMASK (R104). -/
def leafSeen (r : Rec64) (ls : List Line) : Bool :=
  decide (2 < qKind r) || !((0x41 ≤ lfFmt ls && lfFmt ls ≤ 0x44) || lfFmt ls == 0x47) || (lfMask ls &&& qMask r) != 0
/-- A call of the query on the block runs a test (R39, R40, R107). -/
def leafRuns (r : Rec64) (ls : List Line) : Bool := leafSeen r ls && leafTested r (lfFmt ls)

/-- Entry indices of a block. -/
def leafTotal (ls : List Line) : Nat := if lfFmt ls = 0x41 then 8 * lfCount ls else lfCount ls

/-- An index at or after i that is not skipped remains. -/
def entriesRemain (ls : List Line) (i : Nat) : Bool :=
  (List.range (leafTotal ls - i)).any (fun k => lfFmt ls != 0x41 || (triEntry ls (i + k)).isSome)

/-- A call on a TRI_STRIP, TRI_RAW, GAUSS or POINT block, or FVAL (R282). -/
def leafCall (x : LeafCtx) (look : Nat → Nat → BlkLook) (ls : List Line) (start : Nat) : LeafAcc :=
  let acc := LeafAcc.start start
  match lfFmt ls with
  | 0x46 =>
    { acc with next := lfCount ls, tested := lfCount ls, cands := (List.range (lfCount ls)).map (fun j =>
      { hit := { value := rn32 (q16 (blkv ls (16 + 2 * j) 16)), prim := 0, inst := 0, aux0 := 0, aux1 := 0,
                 backface := false, suspect := x.suspect }, haze := 0 }) }
  | fmt =>
    let one := if fmt = 0x43 then gaussStep x ls else if fmt = 0x44 then pointStep x ls else triStep x look ls
    let a := leafLoop one (leafTotal ls - start) start acc
    let a := if a.tested != 0 && (fmt == 0x41 || fmt == 0x42) && hazeRuleBad ls then { a with err := some errLEAF_FIELD } else a
    { a with cands := sortCands a.cands.reverse }

/-- Latency in CORE cycles of a leaf call (R284). -/
def leafLatency (fmt : Nat) (a : LeafAcc) : Nat :=
  match fmt with
  | 0x46 => 6
  | 0x41 | 0x42 => if a.tested = 0 then 1 else
      19 + (a.tested - 1) + (if a.fallbacks = 0 then 0 else 36 + 8 * (a.fallbacks - 1)) +
      (if a.hazeReads = 0 then 0 else 4 + (a.hazeReads - 1))
  | 0x43 => if a.tested = 0 then 1 else 27 + 2 * (a.tested - 1)
  | 0x44 => if a.tested = 0 then 1 else 9 + cdiv a.tested 4 - 1
  | _ => 1

/-! ### Instance entries (R117, R283) -/

/-- The XFORM of entry i and of its key-1 partner when it is a motion entry. -/
def instXform (ls : List Line) (i : Nat) : BitVec 384 × Option (BitVec 384) :=
  (blkv ls (16 + 64 * i) 384,
   if blk ls (16 + 64 * i + 51) 8 % 2 = 1 then some (blkv ls (16 + 64 * (i + 1)) 384) else none)

/-- The matrix a query uses: a PROBE takes the key-0 transform (R119). -/
def instMatrix (r : Rec64) (x : BitVec 384 × Option (BitVec 384)) : BitVec 384 :=
  if qKind r = 2 then x.1 else xformAt x.1 x.2 (q16 (qTime r))

/-- Entry i meets the three conditions of R283. -/
def instEligible (r : Rec64) (ray : Ray) (ls : List Line) (i : Nat) : Bool :=
  !(blk ls (16 + 64 * i + 51) 8 % 4 == 3) && ((blkv ls (16 + 64 * i + 50) 8 : BitVec 8) &&& qMask r) != 0 &&
  !mapFails (qKind r == 2) (mapRay (instMatrix r (instXform ls i)) ray)

/-- The first eligible entry at or after i. -/
def instNext (r : Rec64) (ray : Ray) (ls : List Line) (i : Nat) : Option Nat :=
  ((List.range (lfCount ls - i)).map (· + i)).find? (instEligible r ray ls)

/-- The query in the space at the end of an instance path: each level's transform in turn, outermost first (R141,
R142, R247). -/
def rayAt (r : Rec64) (path : List PathLevel) : Ray :=
  path.foldl (fun y p => mapRay (instMatrix r (p.xform, p.xform1)) y) (qRay r)

/-! ### TESTB (R281) -/

/-- The rows 0 to n − 1 of a VEC block as results. -/
def vecRows (r : Rec64) (q : List Byte) (ls : List Line) (n : Nat) (suspect : Bool) : List Hit :=
  (List.range n).map (fun i =>
    { value := scoreWord (qEtype r) (score (qEtype r) (qMetric r) q
        ((List.range (qDims r)).map (fun k => blkByte ls (128 + qDims r * i + k)))),
      prim := blkv ls (16 + 4 * i) 32, inst := absent, aux0 := 0, aux1 := 0, backface := false, suspect := suspect })

end Sys2Proof.Machine
end

