-- ==== Sys2Proof/Machine/Ops.lean ====
section
/-! DEFINITION. Machine/Ops.lean: the shared operations on State: time, identifiers and free values, outputs, access to
contexts, streams, slots and cohorts, counters (R534, R540, R542), the error log (R436), interrupt messages (R438),
pool accounting (R194), version tags (R395) and handle queues (R330). -/
namespace Sys2Proof.Machine

/-- Bounded recursion: repeats a step on a state. -/
def iter (f : State → State) : Nat → State → State
  | 0, s => s
  | n + 1, s => iter f n (f s)
/-- Folds a state over a list. -/
def foldS {α : Type} (l : List α) (s : State) (f : State → α → State) : State := l.foldl f s

/-! ### Time, identifiers, free values, outputs -/

/-- The FAB cycle count (R498). -/
def State.now (s : State) : Nat := s.dev.fab
/-- CORE cycles since the clocks started (R498: 5 CORE cycles in 2 FAB cycles). -/
def State.coreNow (s : State) : Nat := s.dev.fab * 5 / 2
/-- BANK cycles since the clocks started. -/
def State.bankNow (s : State) : Nat := s.dev.fab * 5 / 4
/-- Draws a free value. -/
def State.draw (s : State) : DWord × State := (Config.freeWord s.freeCtr, { s with freeCtr := s.freeCtr + 1 })
/-- Takes the next identifier of the model's own numbering (assumption 5). -/
def State.takeId (s : State) : Nat × State := (s.nextId, { s with nextId := s.nextId + 1 })
/-- Sends something to the surroundings (assumption 3). -/
def State.emit (s : State) (o : Output) : State := { s with out := o :: s.out }
/-- Changes the device registers. -/
def State.modDev (s : State) (f : Dev → Dev) : State := { s with dev := f s.dev }

/-! ### Access by number -/

def State.ctx (s : State) (c : Nat) : Context := mgetD s.ctxs c Context.reset
def State.setCtx (s : State) (c : Nat) (x : Context) : State := { s with ctxs := mset s.ctxs c x }
def State.modCtx (s : State) (c : Nat) (f : Context → Context) : State := s.setCtx c (f (s.ctx c))
def State.stream (s : State) (k : Nat) : Stream := mgetD s.streams k Stream.reset
def State.modStream (s : State) (k : Nat) (f : Stream → Stream) : State := { s with streams := mset s.streams k (f (s.stream k)) }
def State.scan (s : State) (ch : Nat) : Scan := mgetD s.scans ch Scan.reset
def State.modScan (s : State) (ch : Nat) (f : Scan → Scan) : State := { s with scans := mset s.scans ch (f (s.scan ch)) }
def State.grove (s : State) (g : Nat) : Grove := nth s.groves g Grove.reset
def State.modGrove (s : State) (g : Nat) (f : Grove → Grove) : State := { s with groves := s.groves.modify g f }
def State.bank (s : State) (b : Nat) : Bank := mgetD s.banks b Bank.reset
def State.modBank (s : State) (b : Nat) (f : Bank → Bank) : State := { s with banks := mset s.banks b (f (s.bank b)) }
def State.octet (s : State) (o : Nat) : Octet := mgetD s.octets o Octet.reset
def State.modOctet (s : State) (o : Nat) (f : Octet → Octet) : State := { s with octets := mset s.octets o (f (s.octet o)) }
/-- Key of bough slot sl of octet o. -/
def slotKey (o sl : Nat) : Nat := 64 * o + sl
def State.slot (s : State) (k : Nat) : SlotRec := mgetD s.slots k SlotRec.reset
def State.modSlot (s : State) (k : Nat) (f : SlotRec → SlotRec) : State := { s with slots := mset s.slots k (f (s.slot k)) }
def State.modQuery (s : State) (p : Nat) (f : Query → Query) : State :=
  match mget s.pool p with
  | some q => { s with pool := mset s.pool p (f q) }
  | none => s
def State.modStrand (s : State) (c : Nat) (f : Strand → Strand) : State :=
  s.modCtx c (fun x => { x with strand := f x.strand })
def State.deliv (s : State) (c e : Nat) : Deliv := mgetD (s.ctx c).delivs e Deliv.reset
def State.modDeliv (s : State) (c e : Nat) (f : Deliv → Deliv) : State :=
  s.modCtx c (fun x => { x with delivs := mset x.delivs e (f (mgetD x.delivs e Deliv.reset)) })
/-- Key of sheaf slot sh of walk core w. -/
def sheafKey (w sh : Nat) : Nat := 48 * w + sh
def State.modSheaf (s : State) (k : Nat) (f : Sheaf → Sheaf) : State :=
  match mget s.sheaves k with
  | some x => { s with sheaves := mset s.sheaves k (f x) }
  | none => s

/-- Contexts in a state other than CLOSED. -/
def State.openCtxs (s : State) : List Nat := (s.ctxs.filter (fun e => e.2.state != .closed)).map (·.1)
/-- The scene as read for a context (R77). -/
def State.scene (s : State) (c h : Nat) : Option SceneRead := mget (s.ctx c).scenes h
/-- A descriptor as read, bound under R73. -/
def State.bound (s : State) (c h : Nat) : Option Rec64 :=
  match s.scene c h with
  | some x => if sceneOk x then some x.desc else none
  | none => none

/-! ### Counters (R534) -/

/-- Adds n to device counter k (R542). -/
def State.count (s : State) (k n : Nat) : State := { s with devCnt := mset s.devCnt k (satAdd (mgetD s.devCnt k 0) n) }
/-- Adds n to counter k of context c (R540). -/
def State.countC (s : State) (c k n : Nat) : State := s.modCtx c (fun x => { x with cnt := mset x.cnt k (satAdd (mgetD x.cnt k 0) n) })

/-! ### Memory requests (R455) -/

/-- The fabric or delivery port of an address before R492 (R326, R339). -/
def portOf (a : DWord) : Nat := a.toNat / 128 % 16
/-- A port's number when the ports of its kind from bit b of PORT_DISABLE on may be disabled: the lowest-numbered enabled
one above it, wrapping after 15 (R492). -/
def State.enabledPort (s : State) (b p : Nat) : Nat :=
  (((List.range 16).map (fun i => (p + i) % 16)).find? (fun q => !s.dev.portDisable.getLsbD (b + q))).getD p
/-- The fabric port of a line (R326, R492). -/
def State.fabricPort (s : State) (a : DWord) : Nat := s.enabledPort 32 (portOf a)

/-- The ASID of a context. -/
def State.asid (s : State) (c : Nat) : Nat := dAsid (s.ctx c).desc
/-- Notes that a translation of a page is cached (R458). -/
def State.touch (s : State) (asid : Nat) (addr : DWord) : State :=
  let e := (asid, addr.toNat / 4096)
  if s.tlb.contains e then s else { s with tlb := e :: s.tlb }
/-- Asks memory for a read under an address space. -/
def State.readAs (s : State) (asid : Nat) (addr : DWord) (what : ReadKind) : State :=
  (s.touch asid addr).emit (.read (s.fabricPort addr) asid addr what)
/-- Asks memory for a read for a context. -/
def State.readFor (s : State) (c : Nat) (addr : DWord) (what : ReadKind) : State := s.readAs (s.asid c) addr what
/-- Writes memory under an address space. -/
def State.writeAs (s : State) (asid : Nat) (addr : DWord) (data : List Byte) : State :=
  (s.touch asid addr).emit (.write (s.fabricPort addr) asid addr data)
/-- Writes memory for a context. -/
def State.writeFor (s : State) (c : Nat) (addr : DWord) (data : List Byte) : State := s.writeAs (s.asid c) addr data
/-- An address plus an offset, modulo 2^64. -/
def addr64 (a : DWord) (n : Nat) : DWord := a + BitVec.ofNat 64 n
/-- The line that holds an address. -/
def lineOf (a : DWord) : DWord := a &&& ~~~ 127
/-- The line that holds an address of a context, as the ring names it (R455; assumption 109). -/
def State.rline (s : State) (c : Nat) (a : DWord) : RLine := { asid := s.asid c, addr := lineOf a }

/-! ### The error log and interrupts (R436 to R438) -/

/-- Absent CTX, UNIT or PUNIT. -/
def noUnit : Nat := 0xFFFF
/-- A log record (R436). -/
def logRecord (eseq : Word) (code group ctx unit punit cycle detail : Nat) (inj : Bool) : Rec32 :=
  mkRec 256 [(0, 32, eseq.toNat), (4, 16, code), (6, 8, group + (if inj then 4 else 0)), (8, 16, ctx), (10, 16, unit),
    (12, 16, punit), (16, 64, cycle), (24, 64, detail)]
/-- Records held: TAIL − HEAD modulo 2^32 (R545). -/
def Integ.held (i : Integ) : Nat := (i.tail - i.head).toNat
/-- Writes a log record, or counts ERRLOG_DROPPED when the log is full (R436, R545). -/
def State.logInj (s : State) (inj : Bool) (code group ctx unit punit detail : Nat) : State :=
  let i := s.integ
  if i.held = 256 then
    { s with integ := { i with eseq := i.eseq + 1 } }.count 64 1
  else
    { s with integ := { i with
        eseq := i.eseq + 1, tail := i.tail + 1,
        recs := mset i.recs (i.tail.toNat % 256) (logRecord i.eseq code group ctx unit punit s.now detail inj) } }
/-- A record of an event that was not injected. -/
def State.log (s : State) (code group ctx unit punit detail : Nat) : State := s.logInj false code group ctx unit punit detail
/-- Writes the message of group g: a release at SYSTEM scope (R368, R438), translated under DRV_ASID (assumption 22). -/
def State.sendMessage (s : State) (g : Nat) : State :=
  let a := nth s.integ.intAddr g 0
  (s.touch s.dev.drvAsid.toNat a).emit
    (.message (s.fabricPort a) s.dev.drvAsid.toNat a (bytesOf (nth s.integ.intData g 0) 4))
/-- Interrupt messages that wait for nothing any more are written, in the order of their events (R364). -/
def State.settleMsgs (s : State) : State :=
  let free := fun (m : IntMsg) => !m.after.any (fun n => s.completions.any (fun x => x.n == n) || s.ghosts.any (fun g => g.2 == n))
  foldS (s.msgs.filter free) { s with msgs := s.msgs.filter (fun m => !free m) } (fun s m => s.sendMessage m.group)
/-- Sends the interrupt message of group g (R438). As a release it follows every write and counter add of the engine that
has not been performed: those under a completion (R364, R368). -/
def State.interrupt (s : State) (g : Nat) : State :=
  let i := s.integ
  if i.intEn.getLsbD g && !i.intPend.getLsbD g then
    ({ s with integ := { i with intPend := i.intPend ||| BitVec.ofNat 4 (2 ^ g) },
              msgs := s.msgs ++ [{ group := g, after := s.completions.map (·.n) ++ s.ghosts.map (·.2) }] } : State).settleMsgs
  else s
/-- An access of a killed context has been performed, or a read of it has returned (R458). -/
def State.ghostDone (s : State) (n : Nat) : State :=
  if s.ghosts.any (fun g => g.2 == n) then ({ s with ghosts := s.ghosts.eraseP (fun g => g.2 == n) } : State).settleMsgs else s
/-- The number under which the table, descriptor and image reads of a killed context are held. -/
def readGhost (c : Nat) : Nat := 2 ^ 65 + c
/-- The number under which the COMMAND writes of a killed context are held. -/
def cmdGhost (c w : Nat) : Nat := 2 ^ 66 + 16 * c + w
/-- A read made for a context's tables, descriptors or images has returned. -/
def State.readBack (s : State) (c : Nat) : State := s.ghostDone (readGhost c)
/-- The atomics that wait in delivery ports: completion and value. -/
def State.queuedAtomics (s : State) : List (Nat × DWord) :=
  s.ports.flatMap (fun q => q.2.filterMap (fun e => match e.item with
    | .atomic _ _ _ _ v n _ _ => some (n, v)
    | .write .. => none))
/-- A change of the completions under which completion n ended: a message that waited for it waits for those that followed
from it, and for the counter adds of R340 that it brought or went into. -/
def State.followMsgs (s : State) (n : Nat) (f : State → State) : State :=
  let t := f s
  let new := (t.completions.filter (fun x => !s.completions.any (fun y => y.n == x.n))).map (·.n) ++
    (t.queuedAtomics.filter (fun a => !s.queuedAtomics.contains a)).map (·.1)
  ({ t with msgs := t.msgs.map (fun m => if m.after.contains n then { m with after := m.after ++ new } else m) } : State).settleMsgs
/-- Logs an event and sends its group's message. -/
def State.report (s : State) (code group ctx unit punit detail : Nat) : State :=
  (s.log code group ctx unit punit detail).interrupt group

/-- The armed injection has been used (R432). -/
def State.disarm (s : State) : State := { s with integ := { s.integ with injArmed := false } }
/-- An integrity control bit of R430. -/
def State.integOn (s : State) (b : Nat) : Bool := s.integ.ctl.getLsbD b

/-! ### Errors in the SRAMs (R187, R188, R424, R430, R432; assumption 23) -/

/-- The injection armed for the next write of an SRAM: whether it is a double-bit error. -/
def State.injSramArmed (s : State) (sram : Nat) (unit : Option Nat) : Option Bool :=
  let i := s.integ
  if i.injArmed && (i.injKind == 1 || i.injKind == 2) && i.injSram == sram &&
     (match unit with | some u => i.injUnit == u | none => true) then some (i.injKind == 2) else none
/-- Puts the armed error into a line and disarms. -/
def State.injectSram (s : State) (sram unit line : Nat) (dbl : Bool) : State :=
  { s with integ := { s.integ with injArmed := false, injMarks := (sram, unit, line, dbl) :: s.integ.injMarks } }
/-- The injected error of an SRAM that a read of a line meets (R432). -/
def State.sramMark (s : State) (sram unit line : Nat) : Option Bool :=
  (s.integ.injMarks.find? (fun m => m.1 == sram && m.2.1 == unit && m.2.2.1 == line)).map (·.2.2.2)
def State.clearMark (s : State) (sram unit line : Nat) : State :=
  { s with integ := { s.integ with injMarks := s.integ.injMarks.filter (fun m => !(m.1 == sram && m.2.1 == unit && m.2.2.1 == line)) } }
/-- An injected error in a spine line, and whether it is uncorrectable: with ECC_CORRECT 0 every one is (R430). -/
def State.spineMark (s : State) (line : Nat) : Option Bool :=
  (s.integ.injMarks.find? (fun m => m.1 == 1 && m.2.2.1 == line)).map (fun m => m.2.2.2 || !s.integOn 0)
/-- What a read of a spine line finds: whether an error is uncorrectable, and whether it was injected (R424, R430). -/
def State.spineFinds (s : State) (line : Nat) (err : Option EccError) : Option (Bool × Bool) :=
  match err, s.spineMark line with
  | some .uncorrectable, _ => some (true, false)
  | some .correctable, _ => some (!s.integOn 0, false)
  | none, some u => some (u, true)
  | none, none => none
/-- A spine line is read, with what its check found: an error is corrected and counted, or the line cannot be used (R188, R424). -/
def State.spineRead (s : State) (line : Nat) (err : Option EccError) : State × Bool :=
  match s.spineFinds line err with
  | none => (s, false)
  | some (false, _) => ((s.clearMark 1 0 line).count 51 1, false)
  | some (true, inj) => ((((s.clearMark 1 0 line).count 52 1).logInj inj 5 1 noUnit noUnit noUnit line).interrupt 1, true)
/-- The first line of the collector store: lines 0 to 524,287 of the spine are pool slots, the next 262,144 the extension units. An
injected error in the collector store lies there, since the manual does not lay its lines out (assumption 23). -/
def collLine : Nat := 786432
/-- The first line of extension unit u. -/
def unitLine (u : Nat) : Nat := 524288 + 2 * u
/-- A spine line is written: an error in it goes, and an injection armed for the spine meets it (R432). -/
def State.writeSpine (s : State) (line : Nat) : State :=
  let s := s.clearMark 1 0 line
  match s.injSramArmed 1 none with
  | some dbl => s.injectSram 1 0 line dbl
  | none => s

/-! ### Groves, octets, residency -/

/-- The groves in RUN (R503). -/
def State.runGroves (s : State) : List Nat := (List.range 16).filter (fun g => (s.grove g).state == .run)
/-- Octet o (global number) is retired (R184). -/
def State.retired (s : State) (o : Nat) : Bool := (s.grove (o / 12)).retired.getLsbD (o % 12)
/-- The non-retired octets of a grove, in ascending number. -/
def State.octets' (s : State) (g : Nat) : List Nat :=
  ((List.range 12).map (fun i => 12 * g + i)).filter (fun o => !s.retired o)
/-- The crown octet of a grove (R209). -/
def State.crownOctet (s : State) (g : Nat) : Option Nat := (s.octets' g).head?
/-- The grove of a slot. -/
def groveOfSlot (k : Nat) : Nat := k / 64 / 12
/-- The slots where a bough lies, leaving or not. -/
def State.slotsOf (s : State) (id : CohortId) : List Nat := (s.slots.filter (fun e => e.2.occ == some id)).map (·.1)
/-- The bough is resident: in some slot that is testable and need not be left. -/
def State.resident (s : State) (id : CohortId) : Bool :=
  s.slots.any (fun e => e.2.occ == some id && e.2.testable && !e.2.leaving)
/-- The testable slot of a bough in a grove. -/
def State.testableIn (s : State) (id : CohortId) (g : Nat) : Option Nat :=
  (s.slots.find? (fun e => e.2.occ == some id && e.2.testable && !e.2.leaving && groveOfSlot e.1 == g)).map (·.1)
/-- A fill of the bough is in flight, or its lines are being placed (R198). -/
def State.underFill (s : State) (id : CohortId) : Bool :=
  s.fills.any (fun f => f.id == id) ||
  s.slots.any (fun e => e.2.occ == some id && !e.2.testable && !e.2.leaving)
/-- The bough lies in some slot, or is under fill. -/
def State.placedOrFilling (s : State) (id : CohortId) : Bool := !(s.slotsOf id).isEmpty || s.underFill id
/-- A sheaf formed from the bough in the slot still has lanes (R23). -/
def State.slotBusy (s : State) (k : Nat) : Bool := s.sheaves.any (fun e => e.2.octetSlot == some k && !e.2.lanes.isEmpty)

/-! ### The service state (R518, R519) -/

/-- Ones among w bits of a value from bit b on. -/
def onesFrom {n : Nat} (v : BitVec n) (b w : Nat) : Nat := ((List.range w).filter (fun i => v.getLsbD (b + i))).length
/-- The grove is active (R494). -/
def State.active (s : State) (g : Nat) : Bool := s.dev.groveEn.getLsbD g
/-- The minimum service set holds: ports of each kind, one grove in RUN with an octet and two leaf pipes, and sector 0. -/
def State.minService (s : State) : Bool :=
  let some' := fun (b w : Nat) => decide (onesFrom s.dev.portDisable b w < w)
  some' 0 16 && some' 16 16 && some' 32 16 && some' 48 2 && !s.dev.nvmDefaulted.getLsbD 0 &&
  s.runGroves.any (fun g => decide (onesFrom (s.grove g).retired 0 12 < 12) && decide (2 ≤ onesFrom (s.grove g).pipeEn 0 24))
/-- Every unit that N_GROVE makes present works. -/
def State.fullService (s : State) : Bool :=
  onesFrom s.dev.portDisable 0 54 == 0 &&
  (List.range 16).all (fun g => !s.active g || (onesFrom (s.grove g).retired 0 12 == 0 && onesFrom (s.grove g).pipeEn 0 24 == 24))
/-- SERVICE_STATE as the units stand (R519). -/
def State.serviceNow (s : State) : Nat :=
  if s.dev.stage != .ready then 0
  else if onesFrom s.dev.groveEn 0 16 < 12 then 4
  else if !s.minService then 3
  else if s.fullService then 1
  else 2
/-- Brings SERVICE_STATE up to date; a higher value is announced (R519). -/
def State.settleService (s : State) : State :=
  let n := s.serviceNow
  let old := s.dev.serviceState
  let s := s.modDev (fun d => { d with serviceState := n })
  if old < n then s.interrupt 1 else s

/-! ### Cohorts (R198) -/

def State.cohort (s : State) (id : CohortId) : Option Cohort := s.cohorts.find? (fun c => c.id == id)
def State.modCohort (s : State) (id : CohortId) (f : Cohort → Cohort) : State :=
  { s with cohorts := s.cohorts.map (fun c => if c.id == id then f c else c) }
/-- A new entry. -/
def Cohort.fresh (id : CohortId) (clines : Nat) : Cohort :=
  { id := id, members := [], useCount := 0, endUse := 0, clines := clines, forced := false, aged := false,
    urgent := false, dropped := false, lastRelease := 0, rebuilding := false }
/-- An entry lapses when its cohort has no member and its bough is neither resident nor under fill (R198). One that holds
the mark of R200, by which the cohort is a candidate as soon as it holds a member, is kept for the mark alone; it takes
no way of its set (State.fullSet; assumption 43). -/
def State.lapse (s : State) (id : CohortId) : State :=
  { s with cohorts := s.cohorts.filter (fun c => c.id != id || !c.members.isEmpty || c.forced || s.placedOrFilling id) }
/-- Removes a query from its cohort. -/
def State.leaveCohort (s : State) (p : Nat) : State :=
  match mget s.pool p with
  | some q => (s.modCohort q.cohort (fun c =>
      { c with members := c.members.filter (· != p), aged := c.aged && c.members.head? != some p })).lapse q.cohort
  | none => s
/-- The queries that are members of a cohort, in order of arrival. -/
def State.membersOf (s : State) (c : Cohort) : List (Nat × Query) :=
  c.members.filterMap (fun p => (mget s.pool p).map (fun q => (p, q)))
/-- The class of a cohort: the highest among its members (R200); 4 when it has none. -/
def State.cohortClass (s : State) (c : Cohort) : Nat := ((s.membersOf c).map (fun e => e.2.cls)).foldl min 4
/-- When a member arrived. -/
def Query.arrived (q : Query) : Nat := match q.place with | .parked _ t => t | _ => 0
/-- When the oldest parked member arrived. -/
def State.oldest (s : State) (c : Cohort) : Nat := ((s.membersOf c).map (fun e => e.2.arrived)).foldl min (2 ^ 64)

/-! ### Crowns (R209) -/

def State.crownRec (s : State) (c h tag : Nat) : Option CrownRec :=
  s.crowns.find? (fun r => r.ctx == c && r.scene == h && r.tag == tag)
/-- The cohort is on a replicated crown bough. -/
def State.replicated (s : State) (id : CohortId) : Bool :=
  match s.crownRec id.ctx id.scene id.tag with
  | some r => r.ok && decide (id.bough < r.n)
  | none => false
/-- The bough is a crown bough of its scene. -/
def State.isCrownBough (s : State) (id : CohortId) : Bool :=
  match s.bound id.ctx id.scene with
  | some d => decide (id.bough < sCrown d)
  | none => false

/-! ### Scheduler parameters -/

/-- Parameter n of R537 in force. -/
def State.param (s : State) (n : Nat) : Nat := nth s.sched.params n 0

/-! ### The pool (R194) and extension units (R53 to R57) -/

/-- Slots held by queries of class c. -/
def State.occ (s : State) (c : Nat) : Nat := (s.pool.filter (fun e => e.2.cls == c)).length
/-- Slots held by queries of context x. -/
def State.used (s : State) (x : Nat) : Nat := (s.pool.filter (fun e => e.2.ctx == x)).length
/-- Occupied slots. -/
def State.occupied (s : State) : Nat := s.pool.length
/-- Extension units in use. -/
def State.extUsed (s : State) : Nat := s.ext.length
/-- may_take_slot(c, x) of R194. -/
def State.mayTakeSlot (s : State) (c x : Nat) : Bool :=
  if dPoolQuota (s.ctx x).desc ≤ s.used x then false
  else if c = 3 ∧ s.param 3 ≤ s.occupied then false
  else if 2 ≤ c ∧ s.sched.squall then false
  else
    let owed := (if 0 < c then s.param 0 - s.occ 0 else 0) + (if 1 < c then s.param 1 - s.occ 1 else 0)
    decide (owed < 524288 - s.occupied)
/-- The first run of n consecutive free units (R54); units are taken at the lowest place (assumption 25). -/
def freeRun (ext : FMap Unit256) (n : Nat) : Option (List Nat) :=
  let rec go : FMap Unit256 → Nat → Option Nat
    | [], i => if i + n ≤ 131072 then some i else none
    | (k, _) :: t, i => if i + n ≤ k then some i else go t (k + 1)
  (go ext 0).map (fun b => (List.range n).map (b + ·))
/-- Enters units with their contents. -/
def putUnits (ext : FMap Unit256) (us : List (Nat × Unit256)) : FMap Unit256 := us.foldl (fun m u => mset m u.1 u.2) ext
/-- Allocates the data run and the collection run of a query, or neither (R54). -/
def allocUnits (ext : FMap Unit256) (data : List Unit256) (coll : Nat) : Option (List Nat × List Nat × FMap Unit256) :=
  match freeRun ext data.length with
  | none => none
  | some du =>
    let e1 := putUnits ext (du.zip data)
    match freeRun e1 coll with
    | none => none
    | some cu => some (du, cu, putUnits e1 (cu.map (fun u => (u, 0))))
/-- Removes every copy of a unit's segments from the operand caches (R173). -/
def State.dropSegments (s : State) (us : List Nat) : State :=
  if us.isEmpty then s
  else { s with octets := mmap s.octets (fun _ o => { o with opCache := o.opCache.filter (fun e => !us.contains e.1) }) }
/-- Occupancy against the marks of R217. -/
def State.squallCheck (s : State) : State :=
  if s.sched.squall then
    (if s.occupied ≤ s.param 3 ∧ s.extUsed ≤ s.param 5 then { s with sched := { s.sched with squall := false } } else s)
  else if s.param 2 < s.occupied ∨ s.param 4 < s.extUsed then
    { s with sched := { s.sched with squall := true } }.count 13 1
  else s
/-- Releases a pool slot and its units (R57). -/
def State.releaseSlot (s : State) (p : Nat) : State :=
  match mget s.pool p with
  | none => s
  | some q =>
    let us := q.dataUnits ++ q.collUnits
    ({ s with pool := merase s.pool p, ext := us.foldl merase s.ext }.dropSegments us).squallCheck
/-- The contents of a query's data units. -/
def State.unitsData (s : State) (us : List Nat) : List Unit256 := us.map (fun u => mgetD s.ext u 0)
/-- A collection entry as its unit holds it (R56). -/
def collEntry (h : Hit) : BitVec 128 :=
  mkRec 128 [(0, 32, h.value.toNat), (4, 32, h.prim.toNat), (8, 32, h.inst.toNat), (12, 16, h.aux0.toNat), (14, 16, h.aux1.toNat)]
/-- The contents of a query's collection units from its walk state (R56). -/
def collUnitData (r : Rec64) (ws : WalkState) (j : Nat) : Unit256 :=
  if qKind r = 4 then ofBytes 2048 (ws.sums.flatMap (fun w => bytesOf w 4))
  else ofBytes 2048 (((ws.coll.drop (16 * j)).take 16).flatMap (fun h => bytesOf (collEntry h) 16))
/-- Writes a query's collection units as its walk state stands (R56). -/
def State.syncColl (s : State) (q : Query) (ws : WalkState) : State :=
  let s := { s with ext := putUnits s.ext ((List.range q.collUnits.length).map
      (fun j => (nth q.collUnits j 0, collUnitData q.record ws j))) }
  match q.collUnits with
  | [] => s
  | u :: _ => s.writeSpine (unitLine u)

/-! ### Version tags (R393 to R395, R405, R406) -/

/-- a is at or before b among epochs (R394). -/
def epochLe (a b : Nat) : Bool := !serialAfter (BitVec.ofNat 32 a) (BitVec.ofNat 32 b)
/-- Buffer lines of a context and scene that hold a committed version at or below an epoch. -/
def State.versions (s : State) (c h e : Nat) : List BufLine :=
  (s.txnBuf.filter (fun x => x.2.ctx == c && x.2.scene == h && epochLe x.2.version e &&
    (match x.2.state with | .open _ => false | _ => true))).map (·.2)
/-- The newest of some lines. -/
def newestOf : List BufLine → Option BufLine
  | [] => none
  | b :: t => match newestOf t with
    | none => some b
    | some x => if epochLe x.version b.version then some b else some x
/-- A line belongs to bough b: a node line of it, or the line that holds its trailer. -/
def BufLine.ofBough (l : BufLine) (b : Nat) : Bool :=
  !l.leaf && (if l.trailer then l.name == b / 8 else l.name / 64 == b)
/-- A line belongs to the leaf block at an index with so many lines. -/
def BufLine.ofBlock (l : BufLine) (i n : Nat) : Bool := l.leaf && decide (i ≤ l.name) && decide (l.name < i + n)
/-- The version tag of a bough for a query of epoch e (R395). -/
def State.boughTag (s : State) (c h b e : Nat) : Nat :=
  if s.txnBuf.isEmpty then 0
  else match newestOf ((s.versions c h e).filter (fun l => l.ofBough b)) with
    | some l => l.version
    | none => 0
/-- The version tag of a leaf block. -/
def State.leafTag (s : State) (c h i n e : Nat) : Nat :=
  if s.txnBuf.isEmpty then 0
  else match newestOf ((s.versions c h e).filter (fun l => l.ofBlock i n)) with
    | some l => l.version
    | none => 0
/-- The newest buffer version of one line at or below tag v (R405). -/
def State.bufLine (s : State) (c h v : Nat) (leaf trailer : Bool) (name : Nat) : Option BufLine :=
  if v = 0 || s.txnBuf.isEmpty then none
  else newestOf ((s.versions c h v).filter (fun l => l.leaf == leaf && l.trailer == trailer && l.name == name))
/-- A line as a fill of tag v sees it. -/
def State.overlay (s : State) (c h v : Nat) (leaf trailer : Bool) (name : Nat) (mem : Line) : Line :=
  match s.bufLine c h v leaf trailer name with
  | some l => l.data
  | none => mem

/-! ### Handle queues (R329, R330) -/

/-- Where a handle of class c enters a queue: a general entry, the escape entry, or nowhere. -/
def hqRoom {α : Type} (q : List (HEntry α)) (c : Nat) : Option Bool :=
  if (q.filter (fun e => !e.esc)).length < 252 then some false
  else if q.any (fun e => e.esc && e.cls == c) then none
  else some true
/-- The queue with n handles of class c added; none when one finds no room. The count is of escape entries used. -/
def hqPush {α : Type} (q : List (HEntry α)) (c : Nat) : List α → Option (List (HEntry α) × Nat)
  | [] => some (q, 0)
  | x :: t =>
    match hqRoom q c with
    | none => none
    | some esc =>
      match hqPush (q ++ [{ cls := c, esc := esc, item := x }]) c t with
      | none => none
      | some (r, n) => some (r, n + (if esc then 1 else 0))

/-! ### Transfer slots (R306 to R308) -/

/-- The requester number of a transfer, in the order of the table of R306. -/
def XferWhat.req : XferWhat → Nat
  | .fill _ => 0
  | .leaf _ _ => 1
  | .run _ _ => 2
  | .scan _ => 3
  | .line _ _ | .through _ => 4
  | .tile _ _ => 5
/-- Slots held back for each requester of R306. -/
def xferReserved : List Nat := [128, 128, 32, 8, 0, 0]
/-- Transfers of a requester that hold a slot. -/
def State.xferUsed (s : State) (r : Nat) : Nat := (s.xfers.filter (fun x => !x.waiting && x.what.req == r)).length
/-- A slot is free to requester r: one held back for it, or one of the shared 728. -/
def State.xferFree (s : State) (r : Nat) : Bool :=
  decide (s.xferUsed r < nth xferReserved r 0) ||
  decide (((List.range 6).map (fun i => s.xferUsed i - nth xferReserved i 0)).foldl (· + ·) 0 < 728)
/-- Marks a transfer as done but for its retirement: no line of it is outstanding (R307). -/
def State.finishXfer (s : State) (w : XferWhat) : State :=
  { s with xfers := s.xfers.map (fun x => if x.what == w then { x with fin := true, todo := [], out := 0 } else x) }
/-- A new transfer, with a slot when one is free (R306, R308). -/
def State.addXfer (s : State) (w : XferWhat) (c cls : Nat) : State :=
  let x : Xfer := { n := s.nextId, what := w, ctx := c, cls := cls, waiting := !s.xferFree w.req, since := s.now, fin := false,
                    todo := [], out := 0, fails := [], bad := [] }
  { s with nextId := s.nextId + 1, xfers := s.xfers ++ [x] }
/-- Some issued bough fill waits for a transfer slot (R201, R202). -/
def State.fillWaits (s : State) : Bool := s.xfers.any (fun x => x.waiting && x.what.req == 0)

/-! ### Strands (R239, R240) -/

/-- Register n of a strand; x0 reads 0. -/
def Strand.reg (t : Strand) (n : Nat) : DWord := if n = 0 then 0 else nth t.x n 0
/-- Writes a strand register; a write to x0 is discarded. -/
def Strand.set (t : Strand) (n : Nat) (v : DWord) : Strand := if n = 0 then t else { t with x := t.x.set n v }
/-- Ends a wait: writes the result and makes the strand READY. -/
def State.wake (s : State) (c rd : Nat) (v : DWord) : State :=
  s.modStrand c (fun t => { t.set rd v with state := .ready, fails := [] })
/-- Makes a strand wait. -/
def State.waitOn (s : State) (c : Nat) (w : Wait) : State := s.modStrand c (fun t => { t with state := .waiting w })

/-- Sends a strand's access to its fabric port. An access that lies in two lines is one request for each, each at its
line's port (R326, R371); a load's data and a store's acknowledgement come for the access as one (assumption 110). -/
def State.sendAccess (s : State) (c : Nat) (h : HeldAccess) : State :=
  match h.what with
  | .load size acq chip =>
    if h.addr.toNat % 128 + size ≤ 128 then s.readFor c h.addr (.load c h.n size acq chip)
    else
      let k := 128 - h.addr.toNat % 128
      (s.readFor c h.addr (.load c h.n k acq chip)).readFor c (addr64 h.addr k) (.load c h.n (size - k) acq chip)
  | .amo op size v cmp ar chip => s.readFor c h.addr (.amo c h.n op size v cmp ar chip)
  | .store data rel chip =>
    let put := fun (s : State) (a : DWord) (bs : List Byte) =>
      (s.touch (s.asid c) a).emit (.store (s.fabricPort a) (s.asid c) a bs h.n rel chip)
    if h.addr.toNat % 128 + data.length ≤ 128 then put s h.addr data
    else
      let k := 128 - h.addr.toNat % 128
      put (put s h.addr (data.take k)) (addr64 h.addr k) (data.drop k)
/-- An access of a strand has been performed: those held back for nothing else are sent, in program order (R364, R371). -/
def State.accessDone (s : State) (c n : Nat) : State :=
  let held := (s.ctx c).strand.held.map (fun h => { h with after := h.after.filter (· != n) })
  let s := s.modStrand c (fun t => { t with held := held.filter (fun h => !h.after.isEmpty) })
  foldS (held.filter (fun h => h.after.isEmpty)) s (fun s h => s.sendAccess c h)

/-! ### Completions and delivery ports (R339, R340) -/

/-- Opens a completion with so many writes to be acknowledged. -/
def State.addCompletion (s : State) (c cls left : Nat) (fin : Then) : Nat × State :=
  let (n, s) := s.takeId
  (n, { s with completions := s.completions ++ [{ n := n, ctx := c, cls := cls, left := left, fin := fin, fails := 0, chain := none }] })
/-- Writes for a context that WRITE_ACKNOWLEDGED answers: one completion for all of them, by which R364, R444 and R458 know when
they have been performed. -/
def State.writeTracked (s : State) (c : Nat) (ws : List (DWord × List Byte)) : State :=
  if ws.isEmpty then s
  else
    let (n, s) := s.addCompletion c 0 ws.length .nothing
    foldS ws s (fun s w => (s.touch (s.asid c) w.1).emit (.store (s.fabricPort w.1) (s.asid c) w.1 w.2 n false false))
/-- The delivery port that takes a line. -/
def State.deliveryPort (s : State) (a : DWord) : Nat := s.enabledPort 16 (portOf a)
/-- Every delivery port has room for the handles of class c that writes to some addresses need. -/
def State.portsRoom (s : State) (c : Nat) (items : List DWord) : Bool :=
  (List.range 16).all (fun p =>
    let n := (items.filter (fun a => s.deliveryPort a == p)).length
    n == 0 || (hqPush (mgetD s.ports p []) c (List.replicate n ())).isSome)
where
  hqPush (q : List (HEntry PortItem)) (c : Nat) (l : List Unit) : Option (List (HEntry Unit) × Nat) :=
    Machine.hqPush (q.map (fun e => { cls := e.cls, esc := e.esc, item := () })) c l
/-- Enters one handle in its delivery port's queue; a queue without room keeps it at the end all the same, since the
caller has asked State.portsRoom (R359). -/
def State.toPort (s : State) (c : Nat) (a : DWord) (i : PortItem) : State :=
  let p := s.deliveryPort a
  let q := mgetD s.ports p []
  let esc := (hqRoom q c).getD true
  let s := { s with ports := mset s.ports p (q ++ [{ cls := c, esc := esc, item := i }]) }
  if esc then s.count 29 1 else s

/-- Pieces of a write, cut at multiples of n bytes. -/
def pieces (n : Nat) (a : DWord) (bs : List Byte) : List (DWord × List Byte) :=
  let rec go : Nat → DWord → List Byte → List (DWord × List Byte)
    | 0, _, _ => []
    | fuel + 1, a, bs =>
      if bs.isEmpty then []
      else
        let k := min bs.length (n - a.toNat % n)
        (a, bs.take k) :: go fuel (addr64 a k) (bs.drop k)
  go (bs.length + 1) a bs

end Sys2Proof.Machine
end

