-- ==== Sys2Proof/Machine/Overflow.lean ====
section
/-! DEFINITION. Machine/Overflow.lean: overflow areas (R195, R196, R219 to R225): room, runs, fresh runs, the head. Runs
are kept as their records, not as bytes (assumption 10). -/
namespace Sys2Proof.Machine

/-- Lines of one record: its slot line and two lines per extension unit (R222). -/
def recLines (r : OvfRec) : Nat := 1 + 2 * (r.data.length + (if r.ws.isSome then collUnitCount r.record else 0))
/-- Lines of a run, header included (R221). -/
def runLines (rs : List OvfRec) : Nat := rs.foldl (fun n r => n + recLines r) 1
/-- Lines from head to tail. -/
def Ovf.usedLines (o : Ovf) : Nat := o.runs.foldl (fun n r => n + r.lines) 0
/-- PAD lines before a run of so many lines at the tail of an area of so many lines (R220). -/
def padLines (size tail lines : Nat) : Nat := if tail + lines ≤ size then 0 else size - tail
/-- Where the tail stands after a run, PAD included. -/
def tailAfter (size tail lines : Nat) : Nat :=
  if size = 0 then 0 else (if tail + lines ≤ size then tail + lines else lines) % size
/-- Lines that a list of runs takes from a tail, PAD included (R196). -/
def needLines (size : Nat) : Nat → List Nat → Nat
  | _, [] => 0
  | tail, l :: t => padLines size tail l + l + needLines size (tailAfter size tail l) t
/-- A number put at every place of a list. -/
def placements (x : Nat) : List Nat → List (List Nat)
  | [] => [[x]]
  | y :: t => (x :: y :: t) :: (placements x t).map (y :: ·)
/-- Every order of a list. -/
def orders : List Nat → List (List Nat)
  | [] => [[]]
  | x :: t => (orders t).flatMap (placements x)
/-- Lines that some runs take from a tail, when they are placed after some others in whatever order they close. -/
def worstLines (size tail : Nat) (first rest : List Nat) : Nat :=
  ((orders rest).map (fun l => needLines size tail (first ++ l))).foldl max 0
/-- Lines of the open fresh runs, in class order, one of them possibly with a further record. -/
def Ovf.freshLens (o : Ovf) (cls : Nat) (extra : Option OvfRec) : List Nat :=
  (List.range 4).filterMap (fun k =>
    let more := if k = cls then extra else none
    match mget o.fresh k, more with
    | none, none => none
    | none, some r => some (runLines [r])
    | some f, none => some (runLines f.recs)
    | some f, some r => some (runLines (f.recs ++ [r])))
/-- The area has room for runs of so many lines that are placed now, for n records more, and for its open fresh runs in
whatever order they close later (R196, R220). -/
def ovfFits (size : Nat) (o : Ovf) (fresh lens : List Nat) (n : Nat) : Bool :=
  decide (o.usedLines + worstLines size o.tail lens fresh ≤ size) && decide (o.count + n ≤ 16777216)
/-- The area of a context can take one fresh record of a class (R196). -/
def State.ovfTakesFresh (s : State) (c cls : Nat) (r : OvfRec) : Bool :=
  let x := s.ctx c
  ovfFits (dOvfLines x.desc) x.ovf (x.ovf.freshLens cls (some r)) [] 1
/-- The area can take one run of records (R219). -/
def State.ovfTakesRun (s : State) (c : Nat) (rs : List OvfRec) : Bool :=
  let x := s.ctx c
  ovfFits (dOvfLines x.desc) x.ovf (x.ovf.freshLens 4 none) [runLines rs] rs.length
/-- The longest prefix, up to 1,024 records, that the area can take as one run (R219). -/
def State.fitPrefix (s : State) (c : Nat) (rs : List OvfRec) : Nat :=
  ((List.range (min rs.length 1024)).map (· + 1)).foldl (fun best n => if s.ovfTakesRun c (rs.take n) then max best n else best) 0

/-- A PAD run to the end of the area. -/
def padRun (rseq start lines : Nat) : Run :=
  { rseq := rseq, state := .pad, cls := 0, fresh := false, scene := 0xFFFF, bough := 0xFFFFFFFF, tag := 0, start := start,
    lines := lines, recs := [], written := true, rereads := 0, stall := none }
/-- Places a run at the tail, after a PAD run when it would cross the end (R220); RSEQ numbers both. -/
def Ovf.place (o : Ovf) (size cls : Nat) (fresh : Bool) (scene bough tag : Nat) (rs : List OvfRec) (written : Bool) : Nat × Ovf :=
  let lines := runLines rs
  let pad := padLines size o.tail lines
  let (o, start) := if pad = 0 then (o, o.tail)
    else ({ o with runs := o.runs ++ [padRun o.nextRseq o.tail pad], nextRseq := o.nextRseq + 1 }, 0)
  (o.nextRseq, { o with
    runs := o.runs ++ [
      { rseq := o.nextRseq, state := .live, cls := cls, fresh := fresh, scene := scene, bough := bough,
        tag := tag, start := start, lines := lines, recs := rs, written := written, rereads := 0, stall := none }],
    nextRseq := o.nextRseq + 1, tail := tailAfter size start lines })
/-- Places a run that holds stall-break data of a stream (R332), not written yet: a PAD run of its header and the lines. -/
def Ovf.placeStall (o : Ovf) (size k : Nat) (ls : List Line) : Nat × Ovf :=
  let lines := 1 + ls.length
  let pad := padLines size o.tail lines
  let (o, start) := if pad = 0 then (o, o.tail)
    else ({ o with runs := o.runs ++ [padRun o.nextRseq o.tail pad], nextRseq := o.nextRseq + 1 }, 0)
  (o.nextRseq, { o with
    runs := o.runs ++ [{ padRun o.nextRseq start lines with stall := some (k, ls), written := false }],
    nextRseq := o.nextRseq + 1, tail := tailAfter size start lines })

/-- The head may pass a run: it is DONE, or a PAD run without stall-break data (R223, R333). -/
def Run.passed (r : Run) : Bool :=
  match r.state with
  | .live => false
  | .done => true
  | .pad => r.stall.isNone
/-- Passes every such run at the head; when the head reaches the tail the query count is that of the open fresh runs
alone (R223, R224). -/
def Ovf.advance (o : Ovf) : Ovf :=
  let runs := o.runs.dropWhile Run.passed
  { o with runs := runs,
           head := match runs with | r :: _ => r.start | [] => o.tail,
           count := if runs.isEmpty then o.fresh.foldl (fun n e => n + e.2.recs.length) 0 else o.count }
def State.modOvf (s : State) (c : Nat) (f : Ovf → Ovf) : State := s.modCtx c (fun x => { x with ovf := (f x.ovf).advance })

/-! ### The bytes of runs (R221, R222) -/

/-- A run header with a CRC. -/
def runHeader (c : Nat) (r : Run) (crc : Word) : List Byte :=
  bytesOf (mkRec 1024 [(0, 8, 1), (1, 8, match r.state with | .live => 1 | .done => 2 | .pad => 3),
    (2, 8, r.cls + (if r.fresh then 8 else 0)), (4, 16, r.recs.length), (6, 16, r.scene), (8, 32, r.lines), (12, 16, c),
    (16, 32, r.bough), (20, 32, r.tag), (24, 64, r.rseq), (32, 32, crc.toNat)]) 128
/-- So many bytes, a multiple of 8, that the manual leaves to the engine. -/
def State.freeBytes (s : State) : Nat → List Byte × State
  | 0 => ([], s)
  | n + 1 =>
    let (w, s) := s.draw
    let (l, s) := s.freeBytes n
    (bytesOf w 8 ++ l, s)
/-- The lines of one record: the query record, its walk state image, which is in the engine's own form, and its units. -/
def State.recImage (s : State) (r : OvfRec) : List Byte × State :=
  match r.ws with
  | none => (bytesOf r.record 64 ++ List.replicate 64 0 ++ r.data.flatMap (fun u => bytesOf u 256), s)
  | some ws =>
    let (img, s) := s.freeBytes 8
    (bytesOf r.record 64 ++ img ++ r.data.flatMap (fun u => bytesOf u 256) ++
      (List.range (collUnitCount r.record)).flatMap (fun j => bytesOf (collUnitData r.record ws j) 256), s)
/-- The lines of some records. -/
def State.recImages (s : State) : List OvfRec → List Byte × State
  | [] => ([], s)
  | r :: t =>
    let (a, s) := s.recImage r
    let (b, s) := s.recImages t
    (a ++ b, s)
/-- The address of line i of a context's area. -/
def State.areaLine (s : State) (c i : Nat) : DWord := addr64 (dOvfBase (s.ctx c).desc) (128 * i)
/-- Bytes as the lines of a context's area from line i on. -/
def State.areaLines (s : State) (c i : Nat) (bs : List Byte) : List (DWord × List Byte) :=
  (List.range (bs.length / 128)).map (fun k => (s.areaLine c (i + k), (bs.drop (128 * k)).take 128))
/-- The line writes of a run: its records, then its header (R219). The lines of a PAD run hold nothing but stall-break data. -/
def State.runWrites (s : State) (c : Nat) (r : Run) : List (DWord × List Byte) × State :=
  match r.state with
  | .live =>
    let (body, s) := s.recImages r.recs
    let crc : Word := crc32c (runHeader c r 0 ++ body)
    (s.areaLines c (r.start + 1) body ++ s.areaLines c r.start (runHeader c r crc), s)
  | _ =>
    let body := match r.stall with | some (_, ls) => ls.flatMap (fun l => bytesOf l 128) | none => []
    (s.areaLines c (r.start + 1) body ++ s.areaLines c r.start (runHeader c r 0), s)
/-- Writes a run that takes no transfer: a fresh run, a PAD run, stall-break data. -/
def State.sendRun (s : State) (c : Nat) (r : Run) : State :=
  match s.runWrites c r with
  | (ws, s) => s.writeTracked c ws
/-- Takes over an area to which runs have been added from number n on, and writes those that meet a condition. -/
def State.addRuns (s : State) (c n : Nat) (o : Ovf) (p : Run → Bool) : State :=
  foldS (o.runs.filter (fun r => decide (n ≤ r.rseq) && p r)) (s.modOvf c (fun _ => o)) (fun s r => s.sendRun c r)

/-- Closes the open fresh run of a class: its place is known now, and it is written (R225). -/
def State.closeFresh (s : State) (c cls : Nat) : State :=
  let x := s.ctx c
  match mget x.ovf.fresh cls with
  | none => s
  | some f =>
    let o := { x.ovf with fresh := merase x.ovf.fresh cls }
    s.addRuns c o.nextRseq (o.place (dOvfLines x.desc) cls true 0xFFFF 0xFFFFFFFF 0 f.recs true).2 (fun _ => true)
/-- Writes one fresh record into the open fresh run of its class, which closes at 1,024 records (R195, R225). -/
def State.writeFresh (s : State) (c cls : Nat) (r : OvfRec) : State :=
  let f := mgetD (s.ctx c).ovf.fresh cls { since := s.now, recs := [] }
  let s := s.modCtx c (fun x => { x with ovf := { x.ovf with
    fresh := mset x.ovf.fresh cls { f with recs := f.recs ++ [r] }, count := x.ovf.count + 1 } })
  if f.recs.length + 1 = 1024 then s.closeFresh c cls else s

/-- The record that holds a pool query (R222). -/
def State.toOvfRec (s : State) (q : Query) : OvfRec :=
  { record := q.record, cls := q.cls, spawned := q.spawned, data := s.unitsData q.dataUnits, ws := some q.ws,
    binding := some q.binding, epoch := q.epoch, admitted := q.admitted, origin := q.origin, checked := true }

/-- Sets the place of a query. -/
def Query.at (q : Query) (pl : Place) : Query := { q with place := pl }

/-- The members of a cohort of one class, in order of arrival. -/
def State.membersOfClass (s : State) (c : Cohort) (cls : Nat) : List (Nat × Query) :=
  (s.membersOf c).filter (fun e => e.2.cls == cls)

/-- R228 bars DISPLAY members of a context under the cut. -/
def State.spillBarred (s : State) (c cls : Nat) : Bool := cls == 0 && (s.ctx c).cut.isSome

/-- The cohort may spill members of the class: it is not resident nor under fill, and its context's area can take at
least its oldest one (R218). -/
def State.spillable (s : State) (c : Cohort) (cls : Nat) : Bool :=
  !s.placedOrFilling c.id && !s.spillBarred c.id.ctx cls && !c.rebuilding &&
  (match s.membersOfClass c cls with
   | [] => false
   | e :: _ => s.ovfTakesRun c.id.ctx [s.toOvfRec e.2])

/-- Numbers compared in order. -/
def lexLt : List Nat → List Nat → Bool
  | [], _ => false
  | _ :: _, [] => false
  | a :: s, b :: t => a < b || (a == b && lexLt s t)
/-- The element of least key, the first among equals. -/
def leastBy {α : Type} (key : α → List Nat) : List α → Option α
  | [] => none
  | x :: t => match leastBy key t with
    | none => some x
    | some y => if lexLt (key y) (key x) then some y else some x
/-- The identity of a cohort as a key. -/
def cohortKey (i : CohortId) : List Nat := [i.ctx, i.scene, i.bough, i.tag]

/-- The order of R218 among the cohorts that may spill members of one class. -/
def State.spillKey (s : State) (cls : Nat) (c : Cohort) : List Nat :=
  let ms := s.membersOfClass c cls
  let old := (ms.map (fun e => e.2.arrived)).foldl min (2 ^ 64)
  [ms.length, 2 ^ 64 - old] ++ cohortKey c.id
/-- The cohort and class that R218 chooses. -/
def State.spillChoice (s : State) : Option (Cohort × Nat) :=
  [3, 2, 1, 0].findSome? (fun cls =>
    (leastBy (s.spillKey cls) (s.cohorts.filter (fun c => s.spillable c cls))).map (fun c => (c, cls)))

end Sys2Proof.Machine
end

