-- ==== Sys2Proof/Machine/Coherence.lean ====
section
/-! DEFINITION. Machine/Coherence.lean: completions of writes (R340, R351), the presence directory, ring requests and
the departure buffer (R378 to R387), aborts of transactions (R384, R411), and the snoop commands. -/
namespace Sys2Proof.Machine

/-! ### Completions -/

/-- Sends one fabric atomic under a completion of its own. -/
def State.atomicOut (s : State) (c cls : Nat) (a : DWord) (op : AtomicOp) (etype : Nat) (v : DWord) (rel : Option Bool) (fin : Then) : Nat × State :=
  let (n, s) := s.addCompletion c cls 1 fin
  (n, s.toPort cls a (.atomic (s.asid c) a op etype v n rel s.now))
/-- A counter add of this FAB cycle to the same counter, at the same scope, waits in its delivery port. -/
def State.sameAdd (s : State) (c : Nat) (a : DWord) (chip : Bool) : PortItem → Bool
  | .atomic asid b .add 1 _ _ (some k) t => asid == s.asid c && b == a && k == chip && t == s.now
  | _ => false
/-- An atomic's value raised by an amount. -/
def PortItem.plus (n : Nat) : PortItem → PortItem
  | .atomic asid a op e v m r t => .atomic asid a op e (v + BitVec.ofNat 64 n) m r t
  | i => i
/-- The atomic add of R340 to a completion counter; nothing when the counter does not advance. Adds to one counter that
become ready in the same FAB cycle are one add of their sum. -/
def State.counterAdd (s : State) (c cls : Nat) (a : DWord) (amount : Nat) (chip : Bool) : State :=
  if amount = 0 then s
  else
    let p := s.deliveryPort a
    let q := mgetD s.ports p []
    if q.any (fun e => s.sameAdd c a chip e.item) then
      { s with ports := mset s.ports p (q.map (fun e => if s.sameAdd c a chip e.item then { e with item := e.item.plus amount } else e)) }
    else (s.atomicOut c cls a .add 1 (BitVec.ofNat 64 amount) (some chip) .nothing).2
/-- CHIP of a delivery entry: its counter releases are at CHIP scope (R335, R368). -/
def deChip (d : Rec64) : Bool := fbit d 19 1 == 1
/-- CNT_ADDR of a delivery entry. -/
def deCntAddr (d : Rec64) : DWord := fldv d 24 64
/-- An atomic of an ACCUM entry is acknowledged: a frame whose last one it was advances CNT_ADDR by 1 (R351). -/
def State.frameAck (s : State) (c e cls n : Nat) : State :=
  let x := s.deliv c e
  let fs := x.frameAtomics.map (fun l => l.filter (· != n))
  let done := (fs.filter List.isEmpty).length
  let s := s.modDeliv c e (fun x => { x with frameAtomics := fs.filter (fun l => !l.isEmpty) })
  match x.raw with
  | some d => s.counterAdd c cls (deCntAddr d) done (deChip d)
  | none => s
/-- What follows when the last write of a completion is acknowledged, but for the element of a chain. -/
def State.completed (s : State) (x : Completion) : State :=
  match x.fin with
  | .nothing => s
  | .counter a k chip => s.counterAdd x.ctx x.cls a k chip
  | .store => (s.modStrand x.ctx (fun t => { t with stores := t.stores.filter (· != x.n) })).accessDone x.ctx x.n
  | .accAtomic e => s.frameAck x.ctx e x.cls x.n
  | .element k j _ =>
    if (s.stream k).state == .idle then s
    else s.modStream k (fun y => { y with unacked := mset y.unacked j (mgetD y.unacked j 0 - 1) })
  | .blockWrite ch =>
    -- the strand that waits for the channel returns once its block is written (R416)
    match (s.ctx x.ctx).strand.state with
    | .waiting (.scanWait rd k) =>
      if k = ch && (s.scan ch).finished then
        (s.modScan ch (fun y => { y with held := false })).wake x.ctx rd (if (s.scan ch).mismatch then 1 else 0)
      else s
    | _ => s
/-- One write of completion n is acknowledged; what the completion's end brings, if it was the last. -/
def State.ackOne (s : State) (n : Nat) : State × Option Completion :=
  match s.completions.find? (fun x => x.n == n) with
  | none => (s, none)
  | some x =>
    if 1 < x.left then
      ({ s with completions := s.completions.map (fun y => if y.n == n then { y with left := y.left - 1 } else y) }, none)
    else (({ s with completions := s.completions.filter (fun y => y.n != n) } : State).followMsgs n (fun s => s.completed x), some x)
/-- One write of completion n is acknowledged, or merged into an owned line (R388). The end of an element's write
acknowledges one write of its chain. -/
def State.ackWrite (s : State) (n : Nat) : State :=
  match s.ackOne n with
  | (s, some x) => (match x.fin with
    | .element _ _ parent => (s.ackOne parent).1
    | _ => s)
  | (s, none) => s

/-! ### The presence directory (R380) and the departure buffer (R385) -/

/-- The set of a line. -/
def dirSet (a : RLine) : Nat := a.addr.toNat / 128 % 4096
/-- The ring stop of a line (R378); a stop that R492 disables hands its lines to the other. -/
def State.ringStop (s : State) (a : DWord) : Nat :=
  let r := a.toNat / 128 % 2
  if s.dev.portDisable.getLsbD (48 + r) then 1 - r else r
def State.dirAt (s : State) (a : RLine) : Option DirEntry := s.dir.find? (fun e => e.addr == a)
def State.modDir (s : State) (a : RLine) (f : DirEntry → DirEntry) : State :=
  { s with dir := s.dir.map (fun e => if e.addr == a then f e else e) }
def State.dropDir (s : State) (a : RLine) : State := { s with dir := s.dir.filter (fun e => e.addr != a) }
/-- Issues a ring request under the address space of its line (R379, R455). -/
def State.ring (s : State) (a : RLine) (r : RingReq) : State :=
  (s.touch a.asid a.addr).emit (.ring (s.ringStop a.addr) a.asid a.addr r)
/-- Answers a snoop at the line's ring stop (R378, R382). -/
def State.answerSnoop (s : State) (a : RLine) (data : Option Line) : State := s.emit (.snoopAnswer (s.ringStop a.addr) a.addr data)
/-- A line is dirty when it is MODIFIED or OWNED_SHARED (R385). -/
def DirEntry.dirty (e : DirEntry) : Bool := e.state != .exclusive
/-- Notes the use of an entry, for R384. -/
def State.useLine (s : State) (a : RLine) : State :=
  match s.takeId with
  | (n, s) => s.modDir a (fun e => { e with used := n })
/-- Enters an owned line. -/
def State.enterDir (s : State) (a : RLine) (data : Line) (user : LineUser) (pinned : Bool) : State :=
  if (s.dirAt a).isSome then s
  else ({ s with dir := s.dir ++ [{ addr := a, state := .exclusive, user := user, pinned := pinned, used := 0, data := data, written := 0 }] } : State).useLine a
/-- Moves a line to the departure buffer and issues EVICT; while the buffer is full the line stays, marked DEPARTING
(R385, R387). -/
def State.departLine (s : State) (e : DirEntry) (wt : Option Nat) : State :=
  if s.depart.length < 512 then
    let s := (s.dropDir e.addr).count 37 1
    let s := ({ s with depart := s.depart ++ [({ addr := e.addr, data := e.data, dirty := e.dirty, dropped := false, wt := wt } : Departing)] } : State)
    s.ring e.addr (.evict (if e.dirty then some e.data else none))
  else s.modDir e.addr (fun e => { e with user := .departing, pinned := false })
/-- Lines marked DEPARTING leave while the buffer has room. -/
def State.pumpDepart (s : State) : State :=
  foldS (s.dir.filter (fun e => e.user == .departing)) s (fun s e => if s.depart.length < 512 then s.departLine e none else s)

/-! ### Aborts (R411) -/

/-- The line of a transaction buffer line. -/
def State.bufRLine (s : State) (l : BufLine) : RLine := s.rline l.ctx l.addr
/-- The OPEN lines of a transaction. -/
def State.openLines (s : State) (t : Nat) : FMap BufLine := mfilter s.txnBuf (fun _ l => l.state == .open t)
/-- A strand whose XCOMMIT of the transaction waits returns the code, and the transaction is freed (R302, R402). -/
def State.endCommit (s : State) (t code : Nat) : State :=
  match mget s.txns t with
  | none => s
  | some x =>
    match (s.ctx x.ctx).strand.state with
    | .waiting (.xcommit rd k) =>
      if k = t then ({ s with txns := merase s.txns t } : State).wake x.ctx rd (BitVec.ofNat 64 code) else s
    | _ => s
/-- Aborts an open transaction with a cause of R302. Its directory entries lose their pins and leave under R385, without
data unless a snoop has left them OWNED_SHARED or the collector had modified them (assumption 111). -/
def State.abortTxn (s : State) (t cause : Nat) : State :=
  match mget s.txns t with
  | none => s
  | some x =>
    if x.aborted.isSome then s
    else
      let mine := (s.openLines t).map (fun e => s.bufRLine e.2)
      let s := { s with txns := mset s.txns t { x with aborted := some cause },
                        txnBuf := mfilter s.txnBuf (fun _ l => l.state != BufState.open t) }
      let s := s.countC x.ctx (0x1C + cause) 1
      let s := foldS mine s (fun s a => match s.dirAt a with
        | some e => if e.user == .transaction then
            let e := { e with pinned := false }
            (s.modDir a (fun _ => e)).departLine e none else s
        | none => s)
      s.endCommit t cause

/-! ### Ring requests -/

/-- Entries of a set, with the lines the engine has asked to own. -/
def State.setLoad (s : State) (k : Nat) : Nat :=
  (s.dir.filter (fun e => dirSet e.addr == k)).length +
  (s.ringPend.filter (fun r => dirSet r.addr == k && !r.upgrade && !r.waiting)).length
/-- The youngest open transaction that holds a line in a set. -/
def State.youngestIn (s : State) (k : Nat) : Option Nat :=
  (leastBy (fun (e : Nat × Txn) => [2 ^ 64 - e.2.order])
    (s.txns.filter (fun e => e.2.aborted.isNone && (s.openLines e.1).any (fun l => dirSet (s.bufRLine l.2) == k)))).map (·.1)
/-- Makes room for one line in its set (R384): the least recently used unpinned entry leaves; when all are pinned, the
youngest open transaction with a line in the set aborts. False while the departure buffer is full (R387), or while requests
not yet granted hold the ways. -/
def State.takeWay (s : State) (a : RLine) : State × Bool :=
  let k := dirSet a
  let evictOne := fun (s : State) =>
    match leastBy (fun (e : DirEntry) => [e.used]) (s.dir.filter (fun e => dirSet e.addr == k && !e.pinned && e.user != .departing)) with
    | some e => if s.depart.length < 512 then (s.departLine e none, true) else (s, false)
    | none => (s, decide (s.setLoad k < 16))
  if s.setLoad k < 16 then (s, true)
  else if s.dir.any (fun e => dirSet e.addr == k && !e.pinned) then evictOne s
  else match s.youngestIn k with
    | some t =>
      let s := (s.abortTxn t 2).count 38 1
      if s.setLoad k < 16 then (s, true) else evictOne s
    | none => (s, false)
/-- Enters a ring request in the list of those outstanding. -/
def State.pend (s : State) (a : RLine) (upgrade : Bool) (use : RingUse) (waiting : Bool) : State :=
  { s with ringPend := s.ringPend ++ [{ addr := a, upgrade := upgrade, use := use, waiting := waiting, crossed := false }] }
/-- Asks the ring for ownership of a line, with its data (R379). -/
def State.readOwn (s : State) (a : RLine) (use : RingUse) : State :=
  match s.takeWay a with
  | (s, true) => ((s.pend a false use false).ring a .readOwn).count 36 1
  | (s, false) => s.pend a false use true
/-- Asks for ownership of a line that the engine holds as OWNED_SHARED. -/
def State.upgradeLine (s : State) (a : RLine) (use : RingUse) : State := ((s.pend a true use false).ring a .upgrade).count 36 1
/-- Requests that waited for a way are tried again. -/
def State.pumpRing (s : State) : State :=
  foldS (s.ringPend.filter (·.waiting)) s (fun s r => match s.takeWay r.addr with
    | (s, true) => (({ s with ringPend := s.ringPend.map (fun x => if x == r then { x with waiting := false } else x) } : State).ring r.addr .readOwn).count 36 1
    | (s, false) => s)

/-! ### Collector lines (R381, R382, R388) -/

/-- Bytes off on of a line replaced. -/
def mergeBytes (l : Line) (off : Nat) (bs : List Byte) : Line :=
  let m : Line := BitVec.ofNat 1024 (2 ^ (8 * bs.length) - 1) <<< (8 * off)
  (l &&& ~~~ m) ||| ((ofBytes 1024 bs <<< (8 * off)) &&& m)
/-- Merges one sector write into an owned line and acknowledges it (R388); a COLLECTOR line that is fully written, or to
which no more writes are expected, ends its collector use. -/
def State.mergeOwn (s : State) (w : OwnWrite) : State :=
  match s.dirAt w.addr with
  | none => s
  | some e =>
    let m : BitVec 128 := BitVec.ofNat 128 (2 ^ w.data.length - 1) <<< w.off
    let e := { e with data := mergeBytes e.data w.off w.data, state := .modified, written := e.written ||| m }
    let s := (s.modDir w.addr (fun _ => e)).useLine w.addr
    let s := if e.user == .collector && (e.written == BitVec.allOnes 128 || !w.keep) && !s.ownWrites.any (fun x => x.addr == w.addr)
      then s.departLine e none else s
    s.ackWrite w.completion
/-- Applies every sector that waits for an owned line, in order. -/
def State.mergeAll (s : State) (a : RLine) : State :=
  iter (fun s => match s.ownWrites.find? (fun w => w.addr == a), s.dirAt a with
    | some w, some _ => ({ s with ownWrites := s.ownWrites.eraseP (fun w => w.addr == a) } : State).mergeOwn w
    | _, _ => s) s.ownWrites.length s
/-- A ring request for a line is outstanding. -/
def State.ringAsked (s : State) (a : RLine) : Bool := s.ringPend.any (fun r => r.addr == a)
/-- Takes a line into owned state for the collector (R381). -/
def State.ownLine (s : State) (a : RLine) : State :=
  if (s.dirAt a).isSome || s.ringAsked a then s
  else
    let s := if s.taken.contains a then ({ s with taken := s.taken.filter (· != a) } : State).count 43 1 else s
    s.readOwn a .coll
/-- The collector writes part or all of one line under a completion (R339, R381, R388): into the line's data when the engine
owns it, whoever uses it; a line that it does not own and that it writes whole, or expects no more writes to, goes to its
delivery port. -/
def State.collPiece (s : State) (c cls n : Nat) (keep : Bool) (a : DWord) (bs : List Byte) : State :=
  let l := s.rline c a
  let w : OwnWrite := { addr := l, off := a.toNat % 128, data := bs, completion := n, keep := keep }
  let wait := fun (s : State) => ({ s with ownWrites := s.ownWrites ++ [w] } : State)
  match s.dirAt l with
  | some e =>
    if e.state == .ownedShared then (if s.ringAsked l then wait s else (wait s).upgradeLine l .coll)
    else s.mergeOwn w
  | none =>
    if s.ringAsked l then wait s
    else if bs.length = 128 || !keep then s.toPort cls a (.write (s.asid c) a bs n)
    else (wait s).ownLine l

/-! ### The snoop and ring commands -/

/-- The open transaction that wrote a memory line. -/
def State.openOwner (s : State) (a : RLine) : Option Nat :=
  s.txnBuf.findSome? (fun e => match e.2.state with | .open t => if s.bufRLine e.2 == a then some t else none | _ => none)
/-- A READ_OWN or UPGRADE for the line has been issued and not granted: a snoop is answered as for a line that the engine does
not own (R383). -/
def State.unsettled (s : State) (a : RLine) : Bool := s.ringPend.any (fun r => r.addr == a && !r.waiting)
/-- SNOOP_SHARED (R382, R383, R386). Before READY the ring agents accept nothing (R500). -/
def doSnoopShared (asid : Nat) (addr : DWord) (s : State) : State :=
  let a : RLine := { asid := asid, addr := lineOf addr }
  if s.dev.stage != .ready then s
  else match s.depart.find? (fun d => d.addr == a) with
  | some d => ((s.answerSnoop a (some d.data)).count 41 1).count 39 1
  | none =>
    if s.unsettled a then s.answerSnoop a none
    else match s.dirAt a with
    | some e => ((s.modDir a (fun e => { e with state := .ownedShared })).answerSnoop a (some e.data)).count 39 1
    | none => s.answerSnoop a none
/-- An owned line has been given up to a snoop: what its user does (R382). -/
def State.snoopLost (s : State) (e : DirEntry) : State :=
  let a := e.addr
  let s := match e.user with
    | .transaction =>
      let s := { s with txnBuf := mmap s.txnBuf (fun _ l => if s.bufRLine l == a then { l with owned := false } else l) }
      match s.openOwner a with
      | some t => if e.pinned then s.abortTxn t 3 else s
      | none => s
    | .collector => { s with taken := s.taken ++ [a] }
    | .departing => s
  -- sectors that waited for the line go on once it is taken again
  (if s.ownWrites.any (fun w => w.addr == a) then s.ownLine a else s).pumpRing
/-- SNOOP_OWN and SNOOP_INVAL: the engine gives up the line with its data. Before READY the ring agents accept nothing (R500). -/
def State.snoopTake (s : State) (a : RLine) : State :=
  if s.dev.stage != .ready then s
  else match s.depart.find? (fun d => d.addr == a) with
  | some d =>
    let s := { s with depart := s.depart.map (fun (x : Departing) => if x.addr == a then { x with dropped := true } else x) }
    ((s.answerSnoop a (some d.data)).count 40 1).count 39 1
  | none =>
    if s.unsettled a then
      ({ s with ringPend := s.ringPend.map (fun (r : RingPend) => if r.addr == a && !r.waiting then { r with crossed := true } else r) } : State).answerSnoop a none
    else match s.dirAt a with
    | none => s.answerSnoop a none
    | some e => (((s.dropDir a).answerSnoop a (some e.data)).count 39 1).snoopLost e
def doSnoopOwn (asid : Nat) (addr : DWord) (s : State) : State := s.snoopTake { asid := asid, addr := lineOf addr }
def doSnoopInval (asid : Nat) (addr : DWord) (s : State) : State := s.snoopTake { asid := asid, addr := lineOf addr }
/-- EVICT_ACK (R385, R386): the entry is freed, and what waited for room goes on. -/
def doEvictAck (asid : Nat) (addr : DWord) (s : State) : State :=
  let a : RLine := { asid := asid, addr := lineOf addr }
  if s.depart.any (fun d => d.addr == a) then
    ({ s with depart := s.depart.eraseP (fun d => d.addr == a) } : State).pumpDepart.pumpRing
  else s

end Sys2Proof.Machine
end

