-- ==== Sys2Proof/Machine/Transfers.lean ====
section
/-! DEFINITION. Machine/Transfers.lean: stream descriptor images and their addresses (R309, R311), transfers, their slots and
their line requests (R306 to R308), the order of R327 and R328, and the writing of a spill run (R219). -/
namespace Sys2Proof.Machine

/-! ### Stream descriptor images (R309) -/

def smVer (m : Line) : Nat := fld m 0 8
def smKind (m : Line) : Nat := fld m 1 8
def smClass (m : Line) : Nat := fbit m 16 3
def smPersist (m : Line) : Bool := fbit m 19 1 == 1
def smLead (m : Line) : Nat := fld m 3 8
def smElog (m : Line) : Nat := fld m 4 8
def smCounter (m : Line) : Nat := fbit m 40 4
def smCntEn (m : Line) : Bool := fbit m 47 1 == 1
def smScene (m : Line) : Nat := fld m 6 16
def smGroves (m : Line) : BitVec 16 := fldv m 8 16
def smStageOff (m : Line) : Nat := fld m 10 16
def smUses (m : Line) : Nat := fld m 12 32
def smBase (m : Line) : DWord := fldv m 16 64
def smStride (m : Line) (d : Nat) : DWord := fldv m (24 + 8 * d) 64
def smCount (m : Line) (d : Nat) : Nat := fld m (64 + 4 * d) 32
/-- Element size in bytes. -/
def smEsize (m : Line) : Nat := 2 ^ smElog m
/-- Bytes of a tile (R312). -/
def smTileBytes (m : Line) : Nat := smCount m 0 * smEsize m
/-- TILE_LINES of R310. -/
def smTileLines (m : Line) : Nat := smTileBytes m / 128
/-- Tiles of one arming (R311). -/
def smTiles (m : Line) : Nat := smCount m 1 * smCount m 2 * smCount m 3 * smCount m 4
/-- The address of element i0 of the t-th tile of an arming with a base (R311): signed strides, modulo 2^64. -/
def elemAddr (m : Line) (base : DWord) (t i0 : Nat) : DWord :=
  let n := fun (k : Nat) => BitVec.ofNat 64 k
  let i1 := t % smCount m 1
  let t1 := t / smCount m 1
  let i2 := t1 % smCount m 2
  let t2 := t1 / smCount m 2
  base + n i0 * smStride m 0 + n i1 * smStride m 1 + n i2 * smStride m 2 + n (t2 % smCount m 3) * smStride m 3 +
    n (t2 / smCount m 3) * smStride m 4
/-- A list with each element at its first place alone. -/
def firsts {α : Type} [BEq α] : List α → List α
  | [] => []
  | x :: t => x :: (firsts t).filter (fun y => y != x)
/-- The first tile and BASE of the arming that tile j belongs to. -/
def Stream.arming (x : Stream) (j : Nat) : Nat × DWord := (x.bases.find? (fun b => decide (b.1 ≤ j))).getD (x.tileBase, x.base)
/-- The address of element i0 of tile j of a stream. -/
def Stream.tileAddr (x : Stream) (j i0 : Nat) : DWord := elemAddr x.image (x.arming j).2 (j - (x.arming j).1) i0
/-- The lines of tile t of an arming, each once, in ascending element order (R311). -/
def tileLineAddrs (m : Line) (base : DWord) (t : Nat) : List DWord :=
  firsts ((List.range (smCount m 0)).flatMap (fun i =>
    let a := elemAddr m base t i
    let n := (a.toNat % 128 + smEsize m - 1) / 128 + 1
    (List.range n).map (fun k => addr64 (lineOf a) (128 * k))))
/-- The half of tile j of a STAGE stream, counted without wrapping (R315). -/
def halfOf (m : Line) (j : Nat) : Nat := if smLead m = 0 then 0 else j / smLead m

/-- Free bytes in the collector-store space of a DELIVERY stream: the bytes of LEAD tiles less the records held. -/
def deliverySpaceFree (x : Stream) : Nat := smLead x.image * smTileBytes x.image - 32 * x.space.length
/-- The transfer of a tile waits for a slot: its lines have not been requested. -/
def State.tileWaits (s : State) (k j : Nat) : Bool := s.xfers.any (fun y => y.what == .tile k j && y.waiting)
/-- Bytes that a stream has ahead of its consumer: installed or in flight and not released, or, for a DELIVERY stream, the
free bytes of its space (R327). -/
def State.streamAhead (s : State) (k : Nat) : Nat :=
  let x := s.stream k
  if smKind x.image = 2 then deliverySpaceFree x
  else (x.outstanding.filter (fun j => !s.tileWaits k j)).length * smTileBytes x.image
/-- Deadline value of a stream (R327). -/
def State.dryStream (s : State) (k : Nat) : Nat := min (s.streamAhead k * 256 / max (s.stream k).rate 1) 16777215

/-- An entry of a PRELOAD stream is done: its tile is released with its last entry (R313, R327). -/
def Stream.entryDone (x : Stream) : Stream :=
  let n := x.plDone + 1
  { x with plWait := none, plDone := n, consumed := x.consumed + 8,
           outstanding := x.outstanding.filter (fun j => decide (n < (j + 1) * smCount x.image 0)) }

/-! ### Fills: which lines are asked for -/

def State.fillOf (s : State) (id : CohortId) : Option Fill := s.fills.find? (fun f => f.id == id)
def State.modFill (s : State) (id : CohortId) (f : Fill → Fill) : State :=
  { s with fills := s.fills.map (fun x => if x.id == id then f x else x) }
/-- The fill reads the trailer first: a crown bough, a root bough of R80, or one no reference led to (R84). -/
def trailerFirst (d : Rec64) (id : CohortId) (clines : Nat) : Bool :=
  decide (id.bough < sCrown d) || (sFmt d == 3 && decide (id.bough < cdiv (sTrees d) (sRpb d))) || clines == 0
/-- Address of node line n of bough b (R78). -/
def nodeAddr (d : Rec64) (b n : Nat) : DWord := addr64 (sBoughBase d) (8192 * b + 128 * n)
/-- Address of the trailer line of bough b (R82). -/
def trailerAddr (d : Rec64) (b : Nat) : DWord := addr64 (sTrailerBase d) (128 * (b / 8))
/-- Address of leaf line i (R104). -/
def leafAddr (d : Rec64) (i : Nat) : DWord := addr64 (sLeafBase d) (128 * i)
/-- The requests for node lines 0 to n − 1. -/
def nodeWork (d : Rec64) (id : CohortId) (n : Nat) : List (DWord × LineWork) :=
  (List.range n).map (fun i => (nodeAddr d id.bough i, .read (.fillLine id i)))
/-- The request for the trailer line. -/
def trailerWork (d : Rec64) (id : CohortId) : List (DWord × LineWork) := [(trailerAddr d id.bough, .read (.fillLine id 64))]

/-! ### Line requests (R307, R326 to R328) -/

/-- The transfer that serves something and is not done. -/
def State.xferOf (s : State) (w : XferWhat) : Option Xfer := s.xfers.find? (fun x => x.what == w && !x.fin)
def State.modXfer (s : State) (n : Nat) (f : Xfer → Xfer) : State :=
  { s with xfers := s.xfers.map (fun x => if x.n = n then f x else x) }
/-- Line requests outstanding in the engine. -/
def State.linesOut (s : State) : Nat := (s.xfers.map (·.out)).foldl (· + ·) 0
/-- The number of a requester in the order of R328: the rows of the table of R327, then the streams. -/
def State.xferRow (s : State) (x : Xfer) : Nat :=
  match x.what with
  | .fill _ => min 2 x.cls
  | .leaf g id => if s.leafFills.any (fun f => f.grove == g && f.id == id && f.prefetch) then 4 else 3
  | .run c rseq => if (s.ctx c).ovf.runs.any (fun r => r.rseq == rseq && r.written) then 6 else 5
  | .line _ _ | .through _ => 7
  | .scan _ => 8
  | .tile k _ => 9 + k
/-- The fixed deadline values of R327 by row. -/
def fixedDry : List Nat := [0, 256, 4096, 0, 1024, 256, 2048, 512, 16777215]
/-- The deadline value of a transfer (R327). -/
def State.xferDry (s : State) (x : Xfer) : Nat :=
  match x.what with
  | .tile k _ => s.dryStream k
  | _ => nth fixedDry (s.xferRow x) 0
/-- A transfer of a DRIZZLE bough fill or stream has no key (R328). -/
def Xfer.keyless (x : Xfer) : Bool := x.cls == 3 && (x.what.req == 0 || x.what.req == 5)
/-- What the key of a preload fill has more (R325). -/
def State.preloadMore (s : State) (x : Xfer) : Nat :=
  match x.what with
  | .fill id => if ((s.fillOf id).map (·.preload.isSome)).getD false then 1024 else 0
  | _ => 0
/-- For how long the oldest unissued line of a transfer's requester has waited. -/
def State.xferWait (s : State) (x : Xfer) : Nat :=
  let row := s.xferRow x
  s.now - ((s.xfers.filter (fun y => (y.waiting || !y.todo.isEmpty) && s.xferRow y == row)).map (·.since)).foldl min x.since
/-- The order of R328: those with a key by it, by class, by the requester's number; transfers of one requester by age. -/
def State.xferKey (s : State) (x : Xfer) : List Nat :=
  [if x.keyless then 1 else 0, (s.xferDry x - s.xferWait x) + s.preloadMore x, x.cls, s.xferRow x, x.n]
/-- Issues the next line request of a transfer, at the line's own port (R326). -/
def State.issueLine (s : State) (x : Xfer) : State :=
  match x.todo with
  | [] => s
  | (a, w) :: t =>
    let s := s.modXfer x.n (fun y => { y with todo := t, out := y.out + (if w == .own then 0 else 1) })
    match w with
    | .read k => s.readFor x.ctx a k
    | .write d => s.writeFor x.ctx a d
    | .own => s.ownLine (s.rline x.ctx a)
/-- The transfer that issues next: one with a line left, fewer than 64 outstanding, and 32,768 in the engine (R307). -/
def State.nextLine (s : State) : Option Xfer :=
  if s.linesOut < 32768 then leastBy s.xferKey (s.xfers.filter (fun x => !x.waiting && !x.todo.isEmpty && decide (x.out < 64)))
  else none
/-- Issues the line requests that R307 allows. -/
def State.pumpLines (s : State) : State :=
  iter (fun s => match s.nextLine with
    | some x => s.issueLine x
    | none => s) ((s.xfers.map (fun x => x.todo.length)).foldl (· + ·) 0) s
/-- A transfer has more lines to request. -/
def State.giveWork (s : State) (n : Nat) (l : List (DWord × LineWork)) : State := s.modXfer n (fun x => { x with todo := x.todo ++ l })
/-- One line of a transfer has returned. -/
def State.lineBack (s : State) (w : XferWhat) : State :=
  match s.xferOf w with
  | some x => (s.modXfer x.n (fun y => { y with out := y.out - 1 })).pumpLines
  | none => s
/-- Every line of a transfer has returned or been acknowledged: those that R307 held back were issued as earlier ones did. -/
def State.linesBack (s : State) (w : XferWhat) : State :=
  match s.xferOf w with
  | some x =>
    (iter (fun s => match s.xferOf w with
      | some y => s.issueLine y
      | none => s) x.todo.length s).modXfer x.n (fun y => { y with out := 0 })
  | none => s

/-- A transfer asks for some lines again, and they return (R224). -/
def State.again (s : State) (w : XferWhat) (l : List (DWord × LineWork)) : State :=
  match s.xferOf w with
  | some x => (s.giveWork x.n l).linesBack w
  | none => s

/-! ### Transfers and their slots (R306 to R308) -/

/-- The lines that some bytes from an address on lie in. -/
def linesOf (a : DWord) (n : Nat) : List DWord :=
  (List.range ((a.toNat % 128 + n + 127) / 128)).map (fun k => addr64 (lineOf a) (128 * k))
/-- A fill with a transfer slot: the lines it asks for (R84, R525). -/
def State.fillWork (s : State) (id : CohortId) : List (DWord × LineWork) × State :=
  match s.bound id.ctx id.scene, s.fillOf id with
  | some d, some f =>
    let n := f.count.getD 0
    if trailerFirst d id n then (trailerWork d id, s.modFill id (fun f => { f with stage := .trailer }))
    else (nodeWork d id n ++ trailerWork d id, s.modFill id (fun f => { f with stage := .lines }))
  | _, _ => ([], s)
/-- The line requests of a transfer as it takes its slot. A spill writes its run, a reload reads one, stall-break data
included (R333); a DELIVERY stream takes the lines of a tile into owned state (R320). -/
def State.xferWork (s : State) (x : Xfer) : List (DWord × LineWork) × State :=
  match x.what with
  | .fill id => s.fillWork id
  | .leaf g id =>
    match s.bound id.ctx id.scene, s.leafFills.find? (fun f => f.grove == g && f.id == id) with
    | some d, some f => ((List.range f.count).map (fun i => (leafAddr d (id.index + i), .read (.leafLine g id i))), s)
    | _, _ => ([], s)
  | .run c rseq =>
    match (s.ctx c).ovf.runs.find? (fun r => r.rseq == rseq) with
    | some r =>
      if r.written then ((List.range r.lines).map (fun i => (s.areaLine c (r.start + i), .read (.runLine c rseq i))), s)
      else match s.runWrites c r with
        | (ws, s) => (ws.map (fun w => (w.1, .write w.2)), s)
    | none => ([], s)
  | .scan ch =>
    let y := s.scan ch
    ((linesOf y.next (min 4096 y.remain)).zipIdx.map (fun e => (e.1, .read (.scanChunk ch e.2))), s)
  | .line c a => ([(lineOf a, .read (.xwriteLine c))], s)
  | .through _ => ([], s)
  | .tile k j =>
    let st := s.stream k
    ((tileLineAddrs st.image (st.arming j).2 (j - (st.arming j).1)).map (fun a =>
      (a, if smKind st.image = 2 then LineWork.own else .read (.tileLine k j))), s)
/-- A transfer that holds a slot starts. -/
def State.startXfer (s : State) (x : Xfer) : State :=
  match s.xferWork x with
  | (w, s) => s.giveWork x.n w
/-- Creates a transfer and starts it when it has a slot (R306, R308). -/
def State.request (s : State) (w : XferWhat) (c cls : Nat) : State :=
  let t := s.addXfer w c cls
  match t.xfers.getLast? with
  | some x => if x.waiting then t else (t.startXfer x).pumpLines
  | none => t
/-- A transfer serves something and holds its slot. -/
def State.hasSlot (s : State) (w : XferWhat) : Bool := s.xfers.any (fun x => x.what == w && !x.waiting && !x.fin)
/-- Asks for a transfer unless there is one. -/
def State.requestOnce (s : State) (w : XferWhat) (c cls : Nat) : State := if (s.xferOf w).isSome then s else s.request w c cls
/-- The waiting transfer that takes a free slot first, among those to whose requester one is free. -/
def State.nextXfer (s : State) : Option Xfer :=
  leastBy s.xferKey (s.xfers.filter (fun x => x.waiting && s.xferFree x.what.req))
/-- Gives free slots to waiting transfers, and lines to those at work. -/
def State.pumpXfers (s : State) : State :=
  (iter (fun s => match s.nextXfer with
    | none => s
    | some x => (s.modXfer x.n (fun y => { y with waiting := false })).startXfer x) s.xfers.length s).pumpLines
/-- Frees a transfer's slot. -/
def State.dropXfer (s : State) (n : Nat) : State := { s with xfers := s.xfers.filter (fun x => x.n != n) }.pumpXfers
/-- Gives up the transfers that serve something that is gone: one that waits for a slot goes, one at work requests no further
line, and frees its slot when it retires (R307). -/
def State.cancelXfers (s : State) (p : XferWhat → Bool) : State :=
  { s with xfers := (s.xfers.filter (fun x => !(p x.what && x.waiting))).map (fun x => if p x.what then { x with fin := true, todo := [] } else x) }

/-! ### Spilling (R219) -/

/-- Places a run of spilled records and asks for its transfer, which writes it once it has a slot (R219, R306); a PAD run
before it is written at once. -/
def State.placeSpill (s : State) (id : CohortId) (cls : Nat) (rs : List OvfRec) : Nat × State :=
  let x := s.ctx id.ctx
  let (rseq, o) := x.ovf.place (dOvfLines x.desc) cls false id.scene id.bough id.tag rs false
  let s := s.addRuns id.ctx x.ovf.nextRseq { o with count := o.count + rs.length } (fun r => r.rseq != rseq)
  (rseq, (s.request (.run id.ctx rseq) id.ctx cls).count 14 rs.length)
/-- Spills members of one cohort and one class as one run: as many as fit, up to 1,024, oldest first (R219). Their
slots stay occupied until the run is acknowledged. -/
def State.spillMembers (s : State) (id : CohortId) (ps : List (Nat × Query)) (cls : Nat) : State :=
  let rs := ps.map (fun e => s.toOvfRec e.2)
  let n := s.fitPrefix id.ctx rs
  if n = 0 then s
  else
    match s.placeSpill id cls (rs.take n) with
    | (rseq, s) => foldS (ps.take n) s (fun s e => (s.leaveCohort e.1).modQuery e.1 (fun q => q.at (.spilling rseq)))

end Sys2Proof.Machine
end

