-- ==== Sys2Proof/Machine/Cohorts.lean ====
section
/-! DEFINITION. Machine/Cohorts.lean: parking (R191, R198, R199, R213), crowns (R209, R210), residency and victims (R22,
R23, R205, R206), fill candidates and their issue (R200 to R203), and the forming of sheaves (R211 to R216). -/
namespace Sys2Proof.Machine

/-! ### Slots -/

/-- Sets a slot; a slot in its reset state is not listed. -/
def State.setSlot (s : State) (k : Nat) (r : SlotRec) : State :=
  { s with slots := if r = SlotRec.reset then merase s.slots k else mset s.slots k r }
/-- Empties a slot, keeping a reservation (R205, R206). -/
def State.vacate (s : State) (k : Nat) : State :=
  let r := s.slot k
  let s := s.setSlot k { SlotRec.reset with next := r.next }
  match r.occ with
  | some id => s.lapse id
  | none => s
/-- The slot is to be left: at once, or when R23 allows (VICTIM_SLOT_FREED). -/
def State.leaveSlot (s : State) (k : Nat) : State :=
  let s := s.modSlot k (fun r => { r with leaving := true })
  if s.slotBusy k then s else s.vacate k
/-- Marks a cohort a candidate as soon as it holds a member (R200). -/
def State.force (s : State) (id : CohortId) : State :=
  let s := if (s.cohort id).isSome then s else { s with cohorts := s.cohorts ++ [Cohort.fresh id 0] }
  s.modCohort id (fun c => { c with forced := true })
/-- Invalidates a slot under R179 or R184: its cohort is filled again as soon as it holds a member. -/
def State.invalidate (s : State) (k : Nat) : State :=
  match (s.slot k).occ with
  | none => s
  | some id => (if s.replicated id then s else s.force id).leaveSlot k
/-- A free slot: empty and not reserved. -/
def State.slotFree (s : State) (k : Nat) : Bool := (s.slot k).occ.isNone && (s.slot k).next.isNone
/-- The free slots of an octet, in ascending number. -/
def State.freeSlots (s : State) (o : Nat) : List Nat := ((List.range 64).map (slotKey o)).filter s.slotFree

/-! ### Victims (R206) -/

/-- Use count of the bough in a slot (R207). -/
def State.slotUse (s : State) (r : SlotRec) : Nat :=
  match r.occ with | some id => ((s.cohort id).map (·.useCount)).getD 0 | none => 0
/-- When the last sheaf was released from the bough in a slot. -/
def State.slotReleased (s : State) (r : SlotRec) : Nat :=
  match r.occ with | some id => ((s.cohort id).map (·.lastRelease)).getD 0 | none => 0
/-- The bough in a slot has parked members. -/
def State.slotMembers (s : State) (r : SlotRec) : Bool :=
  match r.occ with | some id => ((s.cohort id).map (fun c => !c.members.isEmpty)).getD false | none => false
/-- A slot that holds a bough which a placement may replace once R23 allows. -/
def SlotRec.takeable (r : SlotRec) : Bool := r.occ.isSome && r.testable && !r.leaving && !r.crown && r.next.isNone
/-- The order of R206. -/
def State.victimKey (s : State) (e : Nat × SlotRec) : List Nat := [s.slotUse e.2, s.slotReleased e.2, e.1]
/-- The victim of R206; with anyMembers the condition on parked members is dropped; below bounds the use count of a
preload's victim (R324). -/
def State.victim (s : State) (anyMembers : Bool) (below : Option Nat) : Option Nat :=
  (leastBy s.victimKey (s.slots.filter (fun e =>
    e.2.takeable && !e.2.pinned && (anyMembers || !s.slotMembers e.2) &&
    (s.grove (groveOfSlot e.1)).state == .run && !s.retired (e.1 / 64) &&
    (match below with | some t => decide (s.slotUse e.2 < t) | none => true)))).map (·.1)

/-! ### Which members may go to a grove (R211, R213) -/

/-- The parked members of a cohort that may form a sheaf for grove g, in class order, then in order of arrival. -/
def State.sheafMembers (s : State) (c : Cohort) (g : Nat) : List (Nat × Query) :=
  let ms := s.membersOf c
  let ok := fun (e : Nat × Query) => match e.2.place with
    | .parked (some h) _ => h == g
    | .parked none _ => true
    | _ => false
  [0, 1, 2, 3].flatMap (fun k => ms.filter (fun e => e.2.cls == k && ok e))
/-- The lanes of the sheaves that members may form next: for each walk image up to 32 members that run it (R211, R236). -/
def sheafGroups (ms : List (Nat × Query)) : List (List (Nat × Query)) :=
  (firsts (ms.map (fun e => e.2.binding))).map (fun b => (ms.filter (fun e => e.2.binding == b)).take 32)
/-- The class of a sheaf of some lanes: that of its first one, the highest. -/
def groupClass (l : List (Nat × Query)) : Nat := match l with | e :: _ => e.2.cls | [] => 4
/-- Sheaves may be formed from the cohort for the grove: its bough is testable there, or the cohort is DROPPED (R421). -/
def State.canForm (s : State) (c : Cohort) (g : Nat) : Bool :=
  (s.grove g).state == .run && !c.rebuilding && (c.dropped || (s.testableIn c.id g).isSome)
/-- R216 bars DRIZZLE sheaves from the boughs of an octet. -/
def State.drizzleBarred (s : State) (c : Cohort) (g : Nat) : Bool :=
  match s.testableIn c.id g with | some k => (s.octet (k / 64)).drizzleOff | none => false
/-- The sheaves that the cohort may form for a grove (R211, R212, R216). -/
def State.formable (s : State) (c : Cohort) (g : Nat) : List (List (Nat × Query)) :=
  if s.canForm c g then (sheafGroups (s.sheafMembers c g)).filter (fun l => groupClass l != 3 || !s.drizzleBarred c g) else []
/-- The lanes of the next sheaf of a cohort for a grove: of the highest class, a full one before a partial one. -/
def State.nextSheaf (s : State) (c : Cohort) (g : Nat) : Option (List (Nat × Query)) :=
  leastBy (fun l => [groupClass l, 32 - l.length / 32 * 32]) (s.formable c g)
/-- Full sheaves that wait for a sheaf slot in a grove (R205): one for each 32 members that run one image. -/
def State.waitingSheaves (s : State) (g : Nat) : Nat :=
  (s.cohorts.map (fun c =>
    if c.members.length < 32 || !s.canForm c g then 0
    else
      let ms := s.sheafMembers c g
      let bs := (ms.map (fun e => e.2.binding)).dedup
      (bs.map (fun b => (ms.filter (fun e => e.2.binding == b)).length / 32)).foldl (· + ·) 0)).foldl (· + ·) 0

/-! ### Slot choice (R205) -/

/-- The slot of R205, when some grove has a free slot. -/
def State.chooseSlot (s : State) : Option Nat :=
  let free := fun (g : Nat) => (s.octets' g).any (fun o => !(s.freeSlots o).isEmpty)
  match leastBy (fun g => [s.waitingSheaves g, g]) (s.runGroves.filter free) with
  | none => none
  | some g =>
    match leastBy (fun o => [64 - (s.freeSlots o).length, o]) (s.octets' g) with
    | none => none
    | some o => (s.freeSlots o).head?

/-! ### Issue of a fill -/

/-- A new fill. -/
def Fill.fresh (id : CohortId) (cls : Nat) (stage : FillStage) (clines : Nat) (preload : Option Nat) (now : Nat) : Fill :=
  { id := id, cls := cls, targets := [], placed := [], stage := stage, count := if clines = 0 then none else some clines,
    got := [], attempt := 0, suspect := false, preload := preload, issued := now, fails := [],
    forcedBad := false, held := [] }
/-- Reserves slots for a fill and hands it to the stream engine (R202, R205). -/
def State.issueFill (s : State) (f : Fill) (targets : List Nat) : State :=
  let s := foldS targets s (fun s k => s.modSlot k (fun r => { r with next := some f.id }))
  let f' : Fill := { f with targets := targets, stage := .xferWait, issued := s.now }
  let s := { s with fills := s.fills.filter (fun (x : Fill) => x.id != f.id) ++ [f'] }
  let s := s.modCohort f.id (fun c => { c with forced := false, aged := false })
  let s := if f.preload.isSome then s.countC f.id.ctx 13 1 else s
  (s.count 5 1).request (.fill f.id) f.id.ctx f.cls
/-- Issues an ordinary fill into a free slot or a victim's; false when neither exists. -/
def State.tryFill (s : State) (f : Fill) (anyMembers : Bool) : State × Bool :=
  match s.chooseSlot with
  | some k => (s.issueFill f [k], true)
  | none =>
    match s.victim anyMembers (f.preload.map (fun _ => s.sched.fillT)) with
    | some k => ((s.leaveSlot k).issueFill f [k], true)
    | none => (s, false)
/-- Issues a candidate's fill; without a victim it waits before issue (R206). -/
def State.issueOrWait (s : State) (f : Fill) : State :=
  match s.tryFill f false with
  | (s, true) => s
  | (s, false) => { s with fills := s.fills ++ [{ f with stage := .victim s.now false }] }

/-! ### Crowns (R209, R210) -/

/-- A slot of a grove's crown octet for a crown bough: free, or the victim order of R206 among its ordinary boughs,
pinned or not, with parked members or not. -/
def State.crownSlot (s : State) (g : Nat) : Option Nat :=
  match s.crownOctet g with
  | none => none
  | some o =>
    match (s.freeSlots o).head? with
    | some k => some k
    | none => (leastBy s.victimKey (s.slots.filter (fun e => decide (e.1 / 64 = o) && e.2.takeable))).map (·.1)
/-- The groves in RUN whose crown octet should hold a copy of a replicated crown bough and has none. -/
def State.crownMissing (s : State) (id : CohortId) : List Nat :=
  s.runGroves.filter (fun g => (s.crownOctet g).isSome &&
    !s.slots.any (fun e => groveOfSlot e.1 == g && (e.2.occ == some id || e.2.next == some id)))
/-- Takes a crown slot: its ordinary bough is evicted and its cohort becomes a candidate as soon as it holds a member
(R200, R209). -/
def State.takeCrownSlot (s : State) (k : Nat) : State :=
  match (s.slot k).occ with
  | none => s
  | some id => (s.force id).leaveSlot k
/-- Issues the fill of a replicated crown bough for the groves that lack it. -/
def State.issueCrown (s : State) (id : CohortId) : State :=
  let r := (s.crownMissing id).foldl (fun (a : State × List Nat) g =>
    match a.1.crownSlot g with
    | none => a
    | some k =>
      let s := a.1.takeCrownSlot k
      (s.modSlot k (fun r => { r with next := some id }), a.2 ++ [k])) (s, [])
  if r.2.isEmpty then s
  else
    let cls := match s.cohort id with | some c => min 3 (s.cohortClass c) | none => 3
    r.1.issueFill (Fill.fresh id cls .xferWait 0 none s.now) r.2
/-- The replicated crown boughs, in order of replication. -/
def State.crownIds (s : State) : List CohortId :=
  (s.crowns.filter (·.ok)).flatMap (fun r => (List.range r.n).map (fun b => { ctx := r.ctx, scene := r.scene, tag := r.tag, bough := b }))
/-- The tag 0 content of a bough that no query will see again: the buffer holds committed content of it, and its cohort
has no member (R408, R409). -/
def State.superseded (s : State) (id : CohortId) : Bool :=
  id.tag == 0 && ((s.cohort id).map (fun c => c.members.isEmpty)).getD true &&
  s.txnBuf.any (fun e => e.2.ctx == id.ctx && e.2.scene == id.scene && e.2.ofBough id.bough &&
    (match e.2.state with | .open _ => false | _ => true))
/-- The first replicated crown bough that some grove lacks and that no fill is fetching. -/
def State.crownDue (s : State) : Option CohortId :=
  s.crownIds.find? (fun id => (s.fillOf id).isNone && !((s.cohort id).map (·.dropped)).getD false && !s.superseded id && !(s.crownMissing id).isEmpty)

/-- Crown boughs that each grove holds or will hold (R209: at most 64). -/
def State.crownLoad (s : State) : Nat := ((s.crowns.filter (·.ok)).map (·.n)).foldl (· + ·) 0
/-- The cohorts of a crown. -/
def State.crownCohorts (s : State) (r : CrownRec) : List Cohort :=
  s.cohorts.filter (fun c => c.id.ctx == r.ctx && c.id.scene == r.scene && c.id.tag == r.tag && decide (c.id.bough < r.n))
/-- R210: a replicated scene qualifies for removal when its crown cohorts have no parked members. -/
def State.removable (s : State) (r : CrownRec) : Bool := r.ok && (s.crownCohorts r).all (fun c => c.members.isEmpty)
/-- Forgets the fills that serve boughs which meet a condition, with their handles, reservations and transfers. -/
def State.dropFills (s : State) (p : CohortId → Bool) : State :=
  let gone := (s.fills.filter (fun f => p f.id)).map (·.id)
  if gone.isEmpty then s
  else
    let s := { s with
      fills := s.fills.filter (fun f => !p f.id),
      hq := mmap s.hq (fun _ q => q.filter (fun e => !p e.item)) }
    let s := foldS (s.slots.filter (fun e => match e.2.next with | some id => p id | none => false)) s
      (fun s e => s.setSlot e.1 { e.2 with next := none })
    s.cancelXfers (fun w => match w with | .fill id => p id | _ => false)
/-- Removes a crown once R23 allows (R210). -/
def State.removeCrown (s : State) (r : CrownRec) : State :=
  let s := { s with crowns := s.crowns.filter (· != r) }
  let mine := fun (id : CohortId) => id.ctx == r.ctx && id.scene == r.scene && id.tag == r.tag && decide (id.bough < r.n)
  let s := s.dropFills mine
  foldS (s.slots.filter (fun e => e.2.crown && (match e.2.occ with | some id => mine id | none => false))) s
    (fun s e => s.leaveSlot e.1)
/-- The order of R210 among scenes that qualify: total use count at the last interval end. -/
def State.crownKey (s : State) (r : CrownRec) : List Nat :=
  [((s.crownCohorts r).map (·.endUse)).foldl (· + ·) 0, r.ctx, r.scene, r.tag]
/-- Insertion by key. -/
def insertBy {α : Type} (key : α → List Nat) (x : α) : List α → List α
  | [] => [x]
  | y :: t => if lexLt (key y) (key x) then y :: insertBy key x t else x :: y :: t
/-- A list in ascending key order. -/
def sortBy {α : Type} (key : α → List Nat) (l : List α) : List α := l.foldr (insertBy key) []
/-- The fewest scenes from the front of the ranking that make room for n crown boughs. -/
def crownVictims (load n : Nat) : List CrownRec → Option (List CrownRec)
  | [] => if load + n ≤ 64 then some [] else none
  | r :: t => if load + n ≤ 64 then some [] else (crownVictims (load - r.n) n t).map (r :: ·)
/-- Tries to replicate a scene's crown for a tag (R209, R210). -/
def State.tryReplicate (s : State) (c h tag n : Nat) : State :=
  let rec' := fun (ok : Bool) => ({ ctx := c, scene := h, tag := tag, n := n, ok := ok } : CrownRec)
  match crownVictims s.crownLoad n (sortBy s.crownKey (s.crowns.filter s.removable)) with
  | none => { s with crowns := s.crowns ++ [rec' false] }.count 12 1
  | some vs =>
    let s := foldS vs s State.removeCrown
    let s := { s with crowns := s.crowns ++ [rec' true] }
    -- copies of the crown's boughs placed as ordinary boughs leave, since R22 counts replicated ones only
    foldS (s.slots.filter (fun e => !e.2.crown && (match e.2.occ with
      | some id => id.ctx == c && id.scene == h && id.tag == tag && decide (id.bough < n)
      | none => false))) s (fun s e => s.leaveSlot e.1)
/-- The first park on a crown bough of a scene and tag replicates the crown (R209). -/
def State.crownPark (s : State) (id : CohortId) : State :=
  match s.bound id.ctx id.scene with
  | some d => if id.bough < sCrown d && (s.crownRec id.ctx id.scene id.tag).isNone then s.tryReplicate id.ctx id.scene id.tag (sCrown d) else s
  | none => s

/-! ### Parking -/

/-- Two cohorts share a set of the table (R198). -/
def sameSet (a b : CohortId) : Bool := Config.cohortHash a % 32768 == Config.cohortHash b % 32768
/-- An entry takes a way of its set: its cohort has a member, or its bough is resident or under fill. Others are kept for the
mark of R200 alone. -/
def State.holdsWay (s : State) (c : Cohort) : Bool := !c.members.isEmpty || s.placedOrFilling c.id
/-- The entries of a cohort's set, when there are 8 or more. -/
def State.fullSet (s : State) (id : CohortId) : Option (List Cohort) :=
  if s.cohorts.length < 8 then none
  else
    let l := s.cohorts.filter (fun c => sameSet c.id id && s.holdsWay c)
    if l.length < 8 then none else some l
/-- Spills every member of a cohort, class by class; the cohort is gone when all fit. -/
def State.spillAll (s : State) (id : CohortId) : State :=
  foldS [0, 1, 2, 3] s (fun s k =>
    iter (fun s => match s.cohort id with
      | some c => s.spillMembers id (s.membersOfClass c k) k
      | none => s) 513 s)
/-- Every class of the cohort may be spilled and its area has room for it (R199). -/
def State.evictable (s : State) (c : Cohort) : Bool :=
  !c.members.isEmpty && !s.placedOrFilling c.id && !c.rebuilding &&
  (s.membersOf c).all (fun e => !s.spillBarred c.id.ctx e.2.cls) && ((s.spillAll c.id).cohort c.id).isNone
/-- A new entry of the table. -/
def State.addEntry (s : State) (id : CohortId) (clines : Nat) : State :=
  if (s.cohort id).isSome then s else { s with cohorts := s.cohorts ++ [Cohort.fresh id clines] }
/-- Makes an entry for a cohort when there is none, spilling the smallest eligible cohort of a full set, ties to the least tag
(R199). False when no way qualifies. -/
def State.ensureEntry (s : State) (id : CohortId) (clines : Nat) : State × Bool :=
  if (match s.cohort id with | some c => s.holdsWay c | none => false) then (s, true)
  else
    match s.fullSet id with
    | none => (s.addEntry id clines, true)
    | some l =>
      match leastBy (fun c => [c.members.length, c.id.tag] ++ cohortKey c.id) (l.filter s.evictable) with
      | some c => (((s.spillAll c.id).count 11 1).addEntry id clines, true)
      | none => (s, false)
/-- The next grove of the rotation of R213. -/
def State.rotateGrove (s : State) : Option Nat × State :=
  match s.runGroves.find? (fun g => decide (s.sched.groveRot ≤ g)) with
  | some g => (some g, { s with sched := { s.sched with groveRot := g + 1 } })
  | none =>
    match s.runGroves.head? with
    | some g => (some g, { s with sched := { s.sched with groveRot := g + 1 } })
    | none => (none, s)
/-- The countdown of a context is armed and below FILL_URGENT (R200). -/
def State.urgentNow (s : State) (c : Nat) : Bool :=
  (s.ctx c).cdMode == .deadline && decide ((s.ctx c).cdVal < s.param 11)
/-- Writes a parking query as a one-record run (R199), unless R228 bars its spill. -/
def State.spillOne (s : State) (p : Nat) (q : Query) (id : CohortId) : State × Bool :=
  let r := s.toOvfRec q
  if s.ovfTakesRun id.ctx [r] && !s.spillBarred id.ctx q.cls then
    match s.placeSpill id q.cls [r] with
    | (rseq, s) => (s.modQuery p (fun q => { q with cohort := id, place := .spilling rseq }), true)
  else (s, false)
/-- A grove is in DRAIN or FROST (R503). -/
def State.frosted (s : State) (g : Nat) : Bool := (s.grove g).state == .drain || (s.grove g).state == .frost
/-- A bough on which a query parks leaves the slots it has in a grove in DRAIN or FROST, and its cohort is filled again
(R514). Copies of a replicated crown stay: their members have been assigned to another grove (R513). -/
def State.leaveFrosted (s : State) (id : CohortId) : State :=
  if s.replicated id then s
  else foldS (s.slots.filter (fun e => e.2.occ == some id && !e.2.leaving && s.frosted (groveOfSlot e.1))) s (fun s e => s.invalidate e.1)
/-- The member of a cohort in a grove: the last part of parking. -/
def State.joinCohort (s : State) (p : Nat) (q : Query) (id : CohortId) (clines : Nat) (g : Option Nat) : State :=
  let urgent := q.cls == 0 && s.urgentNow id.ctx
  let s := s.modCohort id (fun c => { c with
    clines := if c.members.isEmpty then clines else c.clines,
    members := c.members ++ [p],
    urgent := (if c.members.isEmpty then false else c.urgent) || urgent })
  (s.modQuery p (fun q => { q with cohort := id, place := .parked g s.now })).leaveFrosted id
/-- The grove of a new member: one of the rotation for a replicated crown bough (R213), else none. -/
def State.parkGrove (s : State) (id : CohortId) : Option Nat × State := if s.replicated id then s.rotateGrove else (none, s)
/-- Parks a query in a cohort that has an entry. -/
def State.parkIn (s : State) (p : Nat) (q : Query) (id : CohortId) (clines : Nat) : State :=
  match s.parkGrove id with
  | (g, s) => s.joinCohort p q id clines g
/-- Parks a query on a bough (R190, R191, R198, R199, R203, R213). clines is the CLINES of the reference that leads
there, 0 for a crown or root bough; the query keeps it, for the fill that follows a spill or a forward (R84). Where R199
finds no way and the query cannot be written as a run either, it parks in a ninth entry of its set (DESIGN CHOICE,
assumption 112). -/
def State.park (s : State) (p : Nat) (id : CohortId) (clines : Nat) : State :=
  let s := s.modQuery p (fun q => { q with ws := { q.ws with clines := clines } })
  match mget s.pool p with
  | none => s
  | some q =>
    match (s.crownPark id).ensureEntry id clines with
    | (s, true) => s.parkIn p q id clines
    | (s, false) => match s.spillOne p q id with
      | (s, true) => s
      | (s, false) => (s.addEntry id clines).parkIn p q id clines

/-! ### Candidates (R200 to R202) -/

/-- Size threshold of a class (R200). -/
def sizeThreshold (t cls : Nat) : Nat := match cls with | 0 => max 16 (t / 16) | 1 => t / 4 | _ => t
/-- A cohort that may be filled: it has members, and its bough is neither placed nor under fill. -/
def State.fillable (s : State) (c : Cohort) : Bool :=
  !c.members.isEmpty && !c.dropped && !c.rebuilding && !s.replicated c.id && !s.placedOrFilling c.id
/-- R200. -/
def State.candidate (s : State) (c : Cohort) : Bool :=
  s.fillable c && (c.forced || c.aged || s.isCrownBough c.id ||
    (let k := s.cohortClass c
     (k == 0 && c.urgent) || decide (sizeThreshold s.sched.fillT k ≤ c.members.length)))
/-- What FILL_ISSUE may issue: a cohort's bough, or a preload entry that waits (R324, R325). -/
inductive Candidacy where
  | cohort (c : Cohort)
  | preload (k : Nat) (f : Fill)
  deriving DecidableEq, Repr
/-- The order of R202; a preload comes after every candidate of its class (R325). -/
def State.candKey (s : State) : Candidacy → List Nat
  | .cohort c => [s.cohortClass c, if c.urgent then 0 else 1, 2 ^ 20 - c.members.length, s.oldest c] ++ cohortKey c.id
  | .preload k f => [f.cls, 2, k]
/-- The class of a candidate. -/
def State.candClass (s : State) : Candidacy → Nat
  | .cohort c => s.cohortClass c
  | .preload _ f => f.cls
/-- The fill that a PRELOAD stream's waiting entry asks for. -/
def State.preloadFill (s : State) (k : Nat) (entry : DWord) : Fill :=
  let st := s.stream k
  let h := fld entry 0 16
  let b := fld entry 4 32
  let id : CohortId := { ctx := st.owner, scene := h, tag := s.boughTag st.owner h b (s.ctx st.owner).epoch, bough := b }
  Fill.fresh id (smClass st.image) .xferWait 0 (some k) s.now
/-- A preload fill may be issued now: its bough is not placed or under fill (R22, R203), and a slot or a victim exists (R324). -/
def State.preloadReady (s : State) (f : Fill) : Bool :=
  !s.placedOrFilling f.id && (s.chooseSlot.isSome || (s.victim false (some s.sched.fillT)).isSome)
/-- Every candidate. -/
def State.candidates (s : State) : List Candidacy :=
  (s.cohorts.filter s.candidate).map .cohort ++
  s.streams.filterMap (fun e => match e.2.plWait with
    | some (entry, _) =>
      let f := s.preloadFill e.1 entry
      if s.preloadReady f then some (.preload e.1 f) else none
    | none => none)
/-- Waiting preload entries whose bough has become resident or is under fill need nothing more (R324). -/
def State.settlePreloads (s : State) : State :=
  foldS s.streams s (fun s e => match e.2.plWait with
    | some (entry, _) =>
      let id := (s.preloadFill e.1 entry).id
      if s.resident id || s.underFill id then s.modStream e.1 Stream.entryDone else s
    | none => s)
/-- The candidate of R201: the largest, then the oldest. -/
def State.idleChoice (s : State) : Option Cohort :=
  leastBy (fun c => [2 ^ 20 - c.members.length, s.oldest c] ++ cohortKey c.id)
    (s.cohorts.filter (fun c => s.fillable c && decide (s.param 10 ≤ c.members.length)))
/-- The fill of a cohort. -/
def State.cohortFill (s : State) (c : Cohort) : Fill := Fill.fresh c.id (min 3 (s.cohortClass c)) .xferWait c.clines none s.now
/-- A fill that waits for a victim and can now have a slot. -/
def State.retryWaiting (s : State) : Option State :=
  s.fills.findSome? (fun f => match f.stage with
    | .victim _ any => match s.tryFill f any with
      | (s, true) => some s
      | _ => none
    | _ => none)
/-- One fill is issued: a waiting one, a crown bough that a grove lacks, the first candidate of R202, or the idle rule's
(R201). -/
def State.fillStep (s : State) : State :=
  let s := s.settlePreloads
  match s.retryWaiting with
  | some s => s
  | none =>
    match s.crownDue with
    | some id => s.issueCrown id
    | none =>
      match leastBy s.candKey s.candidates with
      | some x =>
        if s.candClass x = 3 && s.fillWaits then s
        else match x with
          | .cohort c => s.issueOrWait (s.cohortFill c)
          | .preload k f => match s.tryFill f false with
            | (s, true) => s.modStream k Stream.entryDone
            | (s, false) => s
      | none =>
        if s.fillWaits then s
        else match s.idleChoice with
          | some c => (s.issueOrWait (s.cohortFill c)).count 7 1
          | none => s

/-! ### Sheaves (R211, R212, R215, R216) -/

/-- The sheaf slots of a walk core that hold no sheaf. -/
def State.freeSheafSlots (s : State) (w : Nat) : List Nat := (List.range 48).filter (fun i => (mget s.sheaves (sheafKey w i)).isNone)
/-- The walk core of a grove with the most free sheaf slots, if one has any (R212). -/
def State.chooseCore (s : State) (g : Nat) : Option Nat :=
  match leastBy (fun w => [48 - (s.freeSheafSlots w).length, w]) ((List.range 8).map (8 * g + ·)) with
  | some w => if (s.freeSheafSlots w).isEmpty then none else some w
  | none => none
/-- A DISPLAY sheaf waits for the grove (R215). -/
def State.displayWaits (s : State) (g : Nat) : Bool := s.cohorts.any (fun c => (s.formable c g).any (fun l => groupClass l == 0))
/-- A full sheaf of a class not lower waits for the grove (R212). -/
def State.fullWaits (s : State) (g cls : Nat) : Bool :=
  s.cohorts.any (fun c => (s.formable c g).any (fun l => l.length == 32 && decide (groupClass l ≤ cls)))
/-- The lane of a query as its sheaf is formed (R24, R241). -/
def newLane (i p : Nat) (q : Query) : Lane :=
  { n := i, slot := p, pc := q.ws.resumePc.getD q.binding.start, v := List.replicate 24 0, p := 1, clist := [], held := none,
    cbuf := [], ws := q.ws, icount := 0, hook := none, noTest := [], served := false, long := false }
/-- The lanes of the sheaf that a cohort may release to a grove now, and its walk core (R211 to R216). -/
def State.releaseOf (s : State) (c : Cohort) (g : Nat) : Option (List (Nat × Query) × Nat) :=
  match s.nextSheaf c g, s.chooseCore g with
  | some ms, some w =>
    let cls := groupClass ms
    if (2 ≤ cls && s.displayWaits g) || (ms.length != 32 && s.fullWaits g cls) then none else some (ms, w)
  | _, _ => none
/-- Forms one sheaf from a cohort for a grove and releases it, when R211 to R216 allow. -/
def State.releaseSheaf (s : State) (c : Cohort) (g : Nat) : State :=
  match s.releaseOf c g with
  | none => s
  | some (ms, w) =>
    let slot := s.testableIn c.id g
    let cls := groupClass ms
    match (s.freeSheafSlots w).head?, ms with
    | some i, (_, q0) :: _ =>
      let lanes := (List.range ms.length).filterMap (fun j => (ms[j]?).map (fun e => newLane j e.1 e.2))
      let sh : Sheaf := { cohort := c.id, cls := cls, binding := q0.binding, octetSlot := if c.dropped then none else slot,
                          lanes := lanes, wait := .ready, held := false, lat := 0 }
      let s := foldS lanes s (fun s l => (s.leaveCohort l.slot).modQuery l.slot (fun q => q.at (.running w i l.n)))
      let s := s.modCohort c.id (fun c => { c with useCount := min (2 ^ 32 - 1) (c.useCount + lanes.length), lastRelease := s.coreNow })
      { s with sheaves := mset s.sheaves (sheafKey w i) sh }
    | _, _ => s

end Sys2Proof.Machine
end

