-- ==== Sys2Proof/Machine/Stage.lean ====
section
/-! DEFINITION. Machine/Stage.lean: staging halves (R314 to R316), the leaf caches and their lookups (R317 to R319, R406),
and leaf fills (R106, R124, R422, R462). -/
namespace Sys2Proof.Machine

/-! ### Halves of a STAGE stream (R315) -/

/-- Half h of a stream is full: every one of its LEAD tiles is complete, and none of them awaits its return after a stall break. -/
def Stream.halfFull (x : Stream) (h : Nat) : Bool :=
  let l := smLead x.image
  l != 0 && (List.range l).all (fun i => x.completed.contains (h * l + i) && (mget x.installed (h * l + i)).isSome)
/-- A half has been released. -/
def Stream.freed (x : Stream) (h : Nat) : Bool := decide (h < x.released) || x.early.contains h
/-- Halves released since ARM: F of R315. -/
def Stream.halvesFreed (x : Stream) : Nat := x.released + x.early.length
/-- Notes the release of a half. -/
def Stream.freeHalf (x : Stream) (h : Nat) : Stream :=
  let e := h :: x.early
  let n := ((List.range e.length).takeWhile (fun i => e.contains (x.released + i))).length
  { x with released := x.released + n, early := e.filter (fun i => decide (x.released + n ≤ i)) }
/-- The full halves that have not been released, oldest first. -/
def Stream.fullHalves (x : Stream) : List Nat :=
  ((List.range (x.nextTile / max 1 (smLead x.image) + 1 - x.released)).map (x.released + ·)).filter (fun h => !x.freed h && x.halfFull h)
/-- Releases a half of a stream: its blocks serve no further lookup. -/
def State.releaseHalf (s : State) (k h : Nat) : State :=
  let inHalf := fun (m : Line) (j : Nat) => halfOf m j == h
  let m := (s.stream k).image
  let s := { s with groves := s.groves.map (fun (g : Grove) => { g with leafCache := g.leafCache.filter (fun b =>
    match b.staged with | some (k', j) => !(k' == k && inHalf m j) | none => true) }) }
  s.modStream k (fun x => { x.freeHalf h with
    completed := x.completed.filter (fun j => !inHalf m j), outstanding := x.outstanding.filter (fun j => !inHalf m j),
    lookups := merase x.lookups h, installed := mfilter x.installed (fun j _ => !inHalf m j),
    consumed := x.consumed + (if smUses m = 0 then smLead m * smTileBytes m else 0) })
/-- Releases the full halves whose lookups have reached USES, and, oldest first, one for each START that is held. -/
def State.settleHalves (s : State) (k : Nat) : State :=
  iter (fun s =>
    let x := s.stream k
    match x.fullHalves.find? (fun h => smUses x.image != 0 && decide (smUses x.image ≤ mgetD x.lookups h 0)) with
    | some h => s.releaseHalf k h
    | none => match x.fullHalves with
      | h :: _ => if 0 < x.heldStarts then (s.releaseHalf k h).modStream k (fun x => { x with heldStarts := x.heldStarts - 1 }) else s
      | [] => s) ((s.stream k).fullHalves.length + 1) s

/-! ### Leaf caches -/

/-- Lines of the demand part (R314). -/
def State.demandLines (s : State) : Nat := 12288 - s.stageLines
/-- A block as its id names it for a query of an epoch (R395, R406). -/
def State.blockId (s : State) (c h i n e : Nat) : BlockId := { ctx := c, scene := h, tag := s.leafTag c h i n e, index := i }
/-- A leaf fill of the block is under way in the grove. -/
def State.leafFillOf (s : State) (g : Nat) (id : BlockId) : Option LeafFill := s.leafFills.find? (fun f => f.grove == g && f.id == id)
/-- The block belongs to a staged tile whose lines have been requested and which is not installed (R317 step 2). -/
def State.stagePending (s : State) (g : Nat) (id : BlockId) : Bool :=
  id.tag == 0 && (match s.bound id.ctx id.scene with
    | none => false
    | some d =>
      let a := (leafAddr d id.index)
      s.streams.any (fun e =>
        let x := e.2
        smKind x.image == 1 && x.owner == id.ctx && smScene x.image == id.scene && (smGroves x.image).getLsbD g && (s.grove g).state == .run &&
        !x.cancelling &&
        (x.undone ++ x.completed).any (fun j => !((mgetD x.installed j []).contains g) && !x.freed (halfOf x.image j) && !s.tileWaits e.1 j && !x.again.contains j &&
          decide ((a - x.tileAddr j 0).toNat < smTileBytes x.image))))
/-- The installed copy that serves a lookup in grove g, in the order of R317: a staged one, none while a staged one is on its
way, one of the demand part. -/
def State.peekBlock (s : State) (g : Nat) (id : BlockId) : Option LeafBlock :=
  let l := (s.grove g).leafCache.filter (fun b => b.id == id)
  match l.find? (fun b => b.staged.isSome) with
  | some b => some b
  | none => if s.stagePending g id then none else l.head?
/-- Notes a served lookup: the block's use, and USES of its half (R315, R317). -/
def State.served (s : State) (g : Nat) (b : LeafBlock) : State :=
  let s := s.modGrove g (fun x => { x with leafCache := x.leafCache.map (fun y =>
    if y.id == b.id && y.staged == b.staged then { y with looked := true, lastUse := s.coreNow } else y) })
  match b.staged with
  | none => s
  | some (k, j) =>
    let s := (s.count 24 1).modStream k (fun x =>
      let h := halfOf x.image j
      { x with lookups := mset x.lookups h (mgetD x.lookups h 0 + 1), windowLookups := x.windowLookups + 1 })
    s.settleHalves k
/-- Starts a leaf fill of a block of n lines into grove g's demand part (R317 step 4, R318, R319). -/
def State.leafFill (s : State) (g : Nat) (id : BlockId) (n cls : Nat) (prefetch haze : Bool) : State :=
  let f : LeafFill := { grove := g, id := id, count := n, attempt := 0, prefetch := prefetch, haze := haze, cls := cls, forcedBad := false,
                        queued := false }
  ({ s with leafFills := s.leafFills ++ [f] } : State).request (.leaf g id) id.ctx cls
/-- A lookup of a block by a lane (R317): served, or it waits, on a staged tile or on a leaf fill. -/
def State.lookup (s : State) (g : Nat) (id : BlockId) (n cls : Nat) (haze : Bool) : State × Option LeafBlock :=
  match s.peekBlock g id with
  | some b => (s.served g b, some b)
  | none =>
    if s.stagePending g id then (s, none)
    else if (s.leafFillOf g id).isSome then
      -- a lookup that meets a prefetch makes it a demand fill (R327)
      ({ s with leafFills := s.leafFills.map (fun (f : LeafFill) => if f.grove == g && f.id == id then { f with prefetch := false } else f) }, none)
    else ((s.leafFill g id n cls false haze).count 25 1, none)
/-- The block a lane's held LEAF reference names, with the lines its CLINES gives. -/
def State.heldBlock (s : State) (l : Lane) : Option (BlockId × Nat) :=
  match l.held, mget s.pool l.slot with
  | some e, some q => some (s.blockId q.ctx e.scene (refIndex e.ref) e.clines q.epoch, e.clines)
  | _, _ => none
/-- Some lane of a grove's sheaves waits on, or is being served from, the block (R318). -/
def State.blockInUse (s : State) (g : Nat) (id : BlockId) : Bool :=
  s.sheaves.any (fun e => decide (e.1 / 48 / 8 = g) && (match e.2.wait with
    | .leaf grp _ | .testb grp _ => e.2.lanes.any (fun l => grp.contains l.n && (match s.heldBlock l with | some (b, _) => b == id | none => false))
    | _ => false))
/-- Lines that the demand part of a grove holds. -/
def demandUsed (l : List LeafBlock) : Nat := ((l.filter (fun b => b.staged.isNone)).map (fun b => b.lines.length)).foldl (· + ·) 0
/-- Evicts least recently looked-up blocks that no lane uses until n lines fit (R318). -/
def State.makeRoom (s : State) (g n : Nat) : State :=
  iter (fun s =>
    let cache := (s.grove g).leafCache
    if demandUsed cache + n ≤ s.demandLines then s
    else
      match leastBy (fun b => [b.lastUse]) (cache.filter (fun b => b.staged.isNone && !s.blockInUse g b.id)) with
      | none => s
      | some b =>
        let s := (s.modGrove g (fun x => { x with leafCache := x.leafCache.filter (fun y => !(y.id == b.id && y.staged.isNone)) })).count 26 1
        if b.prefetched && !b.looked then
          ({ s with sched := { s.sched with ivPfUnused := s.sched.ivPfUnused + 1 } } : State).count 28 1
        else s) (s.grove g).leafCache.length s
/-- Installs a block in the demand part of a grove (R318). -/
def State.installBlock (s : State) (g : Nat) (id : BlockId) (ls : List Line) (suspect prefetched : Bool) : State :=
  let b : LeafBlock := { id := id, lines := ls, suspect := suspect, prefetched := prefetched, looked := false, lastUse := s.coreNow, staged := none }
  s.modGrove g (fun x => { x with leafCache := x.leafCache.filter (fun y => !(y.id == id && y.staged.isNone)) ++ [b] })

/-! ### The leaf handle queues (R20, R318, R329, R330) -/

/-- A handle of the block, or of the tile, is still held by its producer. -/
def LeafHandle.same : LeafHandle → XferWhat → Bool
  | .block id _ _, .leaf _ id' => id == id'
  | .tile k j _, .tile k' j' => k == k' && j == j'
  | _, _ => false
/-- Enters a handle in the leaf handle queue of a grove, or holds it until there is room (R330). Handles that the producer
holds already go first. -/
def State.pushLeaf (s : State) (g cls : Nat) (h : LeafHandle) : State :=
  if s.leafHeld.any (fun x => x.1 == g) then { s with leafHeld := s.leafHeld ++ [(g, cls, h)] }
  else match hqPush (mgetD s.leafQ g []) cls [h] with
  | some (q, e) => ({ s with leafQ := mset s.leafQ g q } : State).count 29 e
  | none => { s with leafHeld := s.leafHeld ++ [(g, cls, h)] }
/-- A transfer whose handles have all entered their queues can retire (R307). -/
def State.settleLeafXfer (s : State) (g : Nat) (h : LeafHandle) : State :=
  let w := match h with | .block id _ _ => XferWhat.leaf g id | .tile k j _ => .tile k j
  if s.leafHeld.any (fun x => x.2.2.same w && (match w with | .leaf g' _ => x.1 == g' | _ => true)) then s else s.finishXfer w
/-- Held handles of a grove enter its queue while there is room. -/
def State.retryLeaf (s : State) (g : Nat) : State :=
  iter (fun s => match s.leafHeld.find? (fun x => x.1 == g) with
    | none => s
    | some x => match hqPush (mgetD s.leafQ g []) x.2.1 [x.2.2] with
      | none => s
      | some (q, e) =>
        (({ s with leafQ := mset s.leafQ g q, leafHeld := s.leafHeld.eraseP (fun y => y.1 == g) } : State).count 29 e).settleLeafXfer g x.2.2)
    s.leafHeld.length s
/-- The leaf cache of a grove acts on a handle (R318): a block goes into the demand part when there is room, a tile into the
staging part. None when it cannot act: then the handle stays at the head (DESIGN CHOICE, assumption 113: where no block may
be evicted, the block waits). A handle whose fill or stream has gone is let go. -/
def State.actLeaf (s : State) (g : Nat) (h : LeafHandle) : Option State :=
  match h with
  | .block id ls sus =>
    match s.leafFills.find? (fun f => f.grove == g && f.id == id && f.queued) with
    | none => some s
    | some f =>
      let s := s.makeRoom g ls.length
      if s.demandLines < demandUsed (s.grove g).leafCache + ls.length then none
      else some (({ s with leafFills := s.leafFills.filter (fun x => !(x.grove == g && x.id == id)) } : State).installBlock g id ls sus f.prefetch)
  | .tile k j bs =>
    let x := s.stream k
    if x.state == .idle || x.cancelling || !(x.undone ++ x.completed).contains j || x.again.contains j then some s
    else
      -- the tile takes the staging lines of the tile that lay there before (R315)
      let old := fun (b : LeafBlock) => match b.staged with
        | some (k', i) => k' == k && i != j && i % (2 * smLead x.image) == j % (2 * smLead x.image)
        | none => false
      some ((s.modGrove g (fun y => { y with leafCache := y.leafCache.filter (fun b => !old b) ++ bs.map (fun b => { b with lastUse := s.coreNow }) })).modStream k
        (fun x => { x with installed := mset x.installed j (g :: mgetD x.installed j []) }))
/-- The leaf cache of a grove takes the heads of its queue while it can act on them (R318, R331). -/
def State.drainLeaf (s : State) (g : Nat) : State :=
  iter (fun s => match mgetD s.leafQ g [] with
    | [] => s
    | e :: rest => match s.actLeaf g e.item with
      | none => s
      | some s => ({ s with leafQ := if rest.isEmpty then merase s.leafQ g else mset s.leafQ g rest } : State).retryLeaf g)
    ((mgetD s.leafQ g []).length + s.leafHeld.length) s
/-- Hands a handle to a grove's leaf cache. -/
def State.handLeaf (s : State) (g cls : Nat) (h : LeafHandle) : State := ((s.pushLeaf g cls h).settleLeafXfer g h).drainLeaf g

/-! ### Decryption of a leaf block (R124) -/

/-- The key slot of a context (R440, R459). -/
def State.keyOf (s : State) (c : Nat) : Option KeySlot :=
  let d := (s.ctx c).desc
  if dKeyEn d then mget s.keys (dKeySlot d) else none
/-- Bytes as lines. -/
def toLines (n : Nat) (bs : List Byte) : List Line := (List.range n).map (fun i => ofBytes 1024 ((bs.drop (128 * i)).take 128))
/-- A leaf block's body decrypted: bytes 16 on are one data unit. -/
def decryptLeaf (k : KeySlot) (index : Nat) (ls : List Line) : List Line :=
  let bs := ls.flatMap (fun l => bytesOf l 128)
  toLines ls.length (bs.take 16 ++ xtsDecrypt k (2 ^ 63 + index) (bs.drop 16))
/-- Node line n of bough b decrypted. -/
def decryptNode (k : KeySlot) (b n : Nat) (l : Line) : Line := ofBytes 1024 (xtsDecrypt k (64 * b + n) (bytesOf l 128))

/-! ### The needs of lanes that wait on blocks -/

/-- The block marked absent for a lane's call (R422). -/
def Lane.skips (l : Lane) (id : BlockId) : Bool := l.noTest.contains id
/-- What a lane's leaf pipe finds for a block of its scene: the copy, dropped, or nothing. -/
def State.laneLook (s : State) (g : Nat) (q : Query) (l : Lane) (h : Nat) (i n : Nat) : BlkLook :=
  let id := s.blockId q.ctx h i n q.epoch
  if l.skips id then .dropped
  else match s.peekBlock g id with
    | some b => .here b.lines b.suspect
    | none => .missing
/-- The lane's current bough has a slot marked SUSPECT (R423). -/
def State.boughSuspect (s : State) (x : Sheaf) : Bool := match x.octetSlot with | some k => (s.slot k).suspect | none => false
/-- The scene handle at the end of a walk's instance path, or the query's own. -/
def sceneAt (q : Query) (ws : WalkState) : Nat := match ws.path.getLast? with | some p => p.scene | none => qScene q.record
/-- INST of a hit: the INST_ID at the end of the path, or absent. -/
def instAt (ws : WalkState) : Word := match ws.path.getLast? with | some p => p.instId | none => absent
/-- What a leaf call of a lane tests under. -/
def State.leafCtx (s : State) (x : Sheaf) (q : Query) (l : Lane) (h : Nat) (blkSuspect : Bool) : LeafCtx :=
  { record := q.record, desc := (s.bound q.ctx h).getD 0, ray := rayAt q.record l.ws.path, tmax := l.ws.tmax, inst := instAt l.ws,
    suspect := blkSuspect || s.boughSuspect x }
/-- The blocks that a waiting lane's call has looked up and not found. -/
def State.laneNeeds (s : State) (g : Nat) (x : Sheaf) (l : Lane) (start : Nat) : List BlockId :=
  match l.held, mget s.pool l.slot with
  | some e, some q =>
    match s.laneLook g q l e.scene (refIndex e.ref) e.clines with
    | .missing => [s.blockId q.ctx e.scene (refIndex e.ref) e.clines q.epoch]
    | .dropped => []
    | .here ls sus =>
      if leafRuns q.record ls then
        (leafCall (s.leafCtx x q l e.scene sus) (s.laneLook g q l e.scene) ls start).needs.map
          (fun n => s.blockId q.ctx e.scene n.1 n.2 q.epoch)
      else []
  | _, _ => []
/-- The start index of a leaf call: va of its LEAF (R282). -/
def Lane.leafStart (l : Lane) (f : Fields) : Nat := (nth l.v f.a.toNat 0).toNat
/-- Lookups that wait on a block of a grove act as lookups of a block with no test (R422). -/
def State.dropBlock (s : State) (g : Nat) (id : BlockId) : State :=
  { s with sheaves := mmap s.sheaves (fun key x =>
      if key / 48 / 8 ≠ g then x
      else match x.wait with
        | .leaf grp f => { x with lanes := x.lanes.map (fun l =>
            if grp.contains l.n && (s.laneNeeds g x l (l.leafStart f)).contains id then { l with noTest := id :: l.noTest } else l) }
        | .testb grp _ => { x with lanes := x.lanes.map (fun l =>
            if grp.contains l.n && (match s.heldBlock l with | some (b, _) => b == id | none => false)
            then { l with noTest := id :: l.noTest } else l) }
        | _ => x) }

/-! ### Reads of transaction buffer lines (R424, R427) -/

/-- An uncorrectable error of transaction buffer line n is found. -/
def State.bufUncorrected (s : State) (inj : Bool) (n : Nat) : State :=
  let s := { s with txnBuf := mmap s.txnBuf (fun k l => if k = n then { l with ue := true } else l) }
  (s.count 54 1).logInj inj 7 1 noUnit noUnit noUnit n
/-- Transaction buffer line n is read, with what its check found; with ECC_CORRECT 0 a correctable error is handled as
uncorrectable (R430). -/
def State.readBuf (s : State) (n : Nat) (err : Option EccError) : State :=
  let mark := s.sramMark 2 0 n
  let known := ((mget s.txnBuf n).map (·.ue)).getD false
  let inj := err.isNone && mark.isSome
  let s := s.clearMark 2 0 n
  if known || err == some .uncorrectable || mark == some true then s.bufUncorrected inj n
  else if err == some .correctable || mark.isSome then (if s.integOn 0 then s.count 53 1 else s.bufUncorrected inj n)
  else s
/-- A fill reads the buffer version of a line, if there is one: whether it had an uncorrectable error. -/
def State.readVersion (s : State) (l : Option BufLine) : State × Bool :=
  match l with
  | none => (s, false)
  | some l =>
    match s.txnBuf.find? (fun e => e.2 == l) with
    | none => (s, false)
    | some e =>
      let s := s.readBuf e.1 none
      (s, ((mget s.txnBuf e.1).map (·.ue)).getD false)

/-! ### The end of a leaf fill -/

/-- DETAIL of FILL_POLICY (R437). -/
def policyDetail (index scene : Nat) (leaf drop : Bool) : Nat :=
  index % 2 ^ 32 + (scene % 65536) * 2 ^ 32 + (if leaf then 2 ^ 48 else 0) + (if drop then 2 ^ 49 else 0)
def State.removeLeafFill (s : State) (g : Nat) (id : BlockId) : State :=
  ({ s with leafFills := s.leafFills.filter (fun f => !(f.grove == g && f.id == id)) } : State).finishXfer (.leaf g id)
/-- A leaf block that is not used (R422 DROP, R462). -/
def State.leafDropped (s : State) (g : Nat) (id : BlockId) : State := (s.dropBlock g id).removeLeafFill g id
/-- A block of a KEYED scene reached by a context without a key is never decrypted (R462). -/
def State.keyless (s : State) (c : Nat) (d : Rec64) : Bool := sKeyed d && (s.keyOf c).isNone
/-- R462: counted and logged as under DROP. -/
def State.keylessLeaf (s : State) (c g index scene : Nat) : State :=
  (s.countC c 0x27 1).log 0x10 2 c g noUnit (policyDetail index scene true true)
/-- A block that is used goes to the leaf handle queue of its grove, decrypted when its scene is KEYED (R20, R124, R422). -/
def State.leafUse (s : State) (g : Nat) (f : LeafFill) (d : Rec64) (ls : List Line) (suspect : Bool) : State :=
  let ls := match s.keyOf f.id.ctx with
    | some k => if sKeyed d then decryptLeaf k f.id.index ls else ls
    | none => ls
  ({ s with leafFills := s.leafFills.map (fun (x : LeafFill) => if x.grove == g && x.id == f.id then { x with queued := true } else x) } : State).handLeaf
    g f.cls (.block f.id ls suspect)
/-- The lines of a leaf fill as its tag sees them (R405). -/
def State.leafOverlay (s : State) (f : LeafFill) (mem : List Line) : List Line :=
  (List.range f.count).map (fun i => s.overlay f.id.ctx f.id.scene f.id.tag true false (f.id.index + i) (nth mem i 0))
/-- Reads the buffer versions among the lines of a leaf fill: whether one had an uncorrectable error (R427). -/
def State.leafVersions (s : State) (f : LeafFill) : State × Bool :=
  (List.range f.count).foldl (fun (a : State × Bool) i =>
    let x := a.1.readVersion (a.1.bufLine f.id.ctx f.id.scene f.id.tag true false (f.id.index + i))
    (x.1, a.2 || x.2)) (s, false)
/-- The lines of a leaf fill have arrived: R106, R419, R422. -/
def State.leafArrived (s : State) (g : Nat) (f : LeafFill) (mem : List Line) : State :=
  match s.bound f.id.ctx f.id.scene with
  | none => s.removeLeafFill g f.id
  | some d =>
    let ls := s.leafOverlay f mem
    let r := s.leafVersions f
    let s := r.1
    let ue := r.2
    if leafCrcOk ls && !f.forcedBad && !ue then
      let s := if f.attempt = 1 then s.count 61 1 else s
      if s.keyless f.id.ctx d then (s.keylessLeaf f.id.ctx g f.id.index f.id.scene).leafDropped g f.id else s.leafUse g f d ls false
    else if f.attempt = 0 then
      let s := s.finishXfer (.leaf g f.id)
      let s := { s with leafFills := s.leafFills.map (fun (x : LeafFill) =>
        if x.grove == g && x.id == f.id then { x with attempt := 1, forcedBad := false } else x) }
      s.request (.leaf g f.id) f.id.ctx f.cls
    else
      let s := s.countC f.id.ctx 0x28 1
      if s.keyless f.id.ctx d then (s.keylessLeaf f.id.ctx g f.id.index f.id.scene).leafDropped g f.id
      else
        let s := s.log 0x10 2 f.id.ctx g noUnit (policyDetail f.id.index f.id.scene true (sDrop d))
        if sDrop d then s.leafDropped g f.id else s.leafUse g f d ls true

/-! ### Leaf prefetch (R319) -/

/-- The node lines of a bough, by index, that carry child references: BALL8 headers are followed by their centre lines,
and a BOX8 key-1 line carries none. -/
def nodeStarts (d : Rec64) (ls : List Line) : List Nat :=
  let per := if sFmt d = 2 then 1 + 8 * cdiv (sDims d) 128 else 1
  (List.range ls.length).filter (fun n => n % per == 0 && fld (nth ls n 0) 0 8 == sFmt d && !(sFmt d == 1 && boxKey (nth ls n 0)))
/-- The LEAF references of a bough in ascending node and child slot order, with their CLINES. -/
def leafRefs (d : Rec64) (ls : List Line) : List (Nat × Nat) :=
  (nodeStarts d ls).flatMap (fun n => (List.range 8).filterMap (fun c =>
    let r := nodeRef (sFmt d) (nth ls n 0) c
    let k := nodeClines (sFmt d) (nth ls n 0) c
    if refTypeBits r = 3 ∧ 1 ≤ k ∧ k ≤ 16 then some (refIndex r, k) else none))
/-- Issues leaf prefetches for the first D blocks that are not present in the grove of placement. -/
def State.prefetchLeaves (s : State) (g : Nat) (id : CohortId) (d : Rec64) (ls : List Line) (cls : Nat) : State :=
  let want := (firsts (leafRefs d ls)).filterMap (fun e =>
    let b := s.blockId id.ctx id.scene e.1 e.2 id.tag
    if (s.peekBlock g b).isSome || (s.leafFillOf g b).isSome then none else some (b, e.2))
  foldS (want.take s.leafPfD) s (fun s e =>
    ({ s with sched := { s.sched with ivPfIssued := s.sched.ivPfIssued + 1 } } : State).count 27 1 |>.leafFill g e.1 e.2 cls true false)

end Sys2Proof.Machine
end

