-- ==== Sys2Proof/Machine/Fills.lean ====
section
/-! DEFINITION. Machine/Fills.lean: bough fills from the lines' return to a testable bough (R84, R85, R124, R161, R329,
R405, R419 to R421, R462, R525), and the fill commands of the scheduler. -/
namespace Sys2Proof.Machine

/-! ### Error injection into SRAM (R432; assumption 23) -/

/-- The global physical bank that serves logical bank b of octet o (R157). -/
def State.physBank (s : State) (o b : Nat) : Nat := 100 * (o / 12) + nth (s.grove (o / 12)).repairMap (8 * (o % 12) + b) 0
/-- The placement of n lines in slot k takes an armed bank injection at the first line written to that bank. -/
def State.injectBank (s : State) (k n : Nat) : State :=
  let o := k / 64
  match (List.range (min n 8)).find? (fun i => (s.injSramArmed 0 (some (s.physBank o i))).isSome) with
  | none => s
  | some i => s.injectSram 0 (s.physBank o i) (8 * (k % 64)) (s.integ.injKind == 2)

/-! ### The check (R85) -/

/-- The trailer of bough b in its trailer line (R82). -/
def trailerOf (l : Line) (b : Nat) : BitVec 128 := l.extractLsb' (128 * (b % 8)) 128
/-- A bough's lines and trailer meet R85. -/
def boughCheckOk (d : Rec64) (b : Nat) (ls : List Line) (tr : BitVec 128) : Bool :=
  fld tr 4 8 == ls.length && fld tr 5 8 == 1 && fld tr 6 8 == sFmt d && fld tr 8 32 == b &&
  crc32cRun (crc32cRun 0xFFFFFFFF (ls.flatMap (fun l => bytesOf l 128))) ((bytesOf tr 16).drop 4) ^^^ 0xFFFFFFFF == (fldv tr 0 32 : Word)
/-- The lines of a fill in node order. -/
def Fill.lines (f : Fill) : List Line := (List.range (f.count.getD 0)).map (fun i => mgetD f.got i 0)
/-- Every line and the trailer have returned. -/
def Fill.complete (f : Fill) : Bool :=
  match f.count with
  | some n => (List.range n).all (fun i => (mget f.got i).isSome) && (mget f.got 64).isSome
  | none => false

/-! ### From the check to the placement queue -/

/-- Enters a fill's handle in the placement queue of a target's grove, or holds it (R329, R330). -/
def State.queueHandle (s : State) (f : Fill) (k : Nat) : State :=
  let g := groveOfSlot k
  match hqPush (mgetD s.hq g []) f.cls [f.id] with
  | some (q, e) => ({ s with hq := mset s.hq g q } : State).count 29 e
  | none => s.modFill f.id (fun x => { x with held := x.held ++ [k] })
/-- Every handle of the fill has entered its queue: the transfer can retire (R307). -/
def State.settleHandles (s : State) (id : CohortId) : State :=
  match s.fillOf id with
  | some f => if f.held.isEmpty then s.finishXfer (.fill id) else s
  | none => s
/-- The bough is ready for placement (R525). -/
def State.enterHandles (s : State) (id : CohortId) : State :=
  match s.fillOf id with
  | none => s
  | some f =>
    let s := s.modFill id (fun x => { x with stage := .handle })
    (foldS f.targets s (fun s k => s.queueHandle f k)).settleHandles id
/-- Enters handles that were held, now that the queue of a grove has room. -/
def State.retryHeld (s : State) (g : Nat) : State :=
  foldS (s.fills.filter (fun f => f.held.any (fun k => groveOfSlot k == g))) s (fun s f =>
    let mine := f.held.filter (fun k => groveOfSlot k == g)
    let s := s.modFill f.id (fun x => { x with held := x.held.filter (fun k => groveOfSlot k != g) })
    (foldS mine s (fun s k => s.queueHandle f k)).settleHandles f.id)
/-- Gives up a fill: its reservations end and its transfer can retire. -/
def State.endFill (s : State) (id : CohortId) : State :=
  let s := foldS (s.slots.filter (fun e => e.2.next == some id)) s (fun s e => s.setSlot e.1 { e.2 with next := none })
  ({ s with fills := s.fills.filter (fun f => f.id != id) } : State).finishXfer (.fill id)
/-- The octet that a fill's log record names. -/
def Fill.octet (f : Fill) : Nat := match f.targets with | k :: _ => k / 64 | [] => noUnit
/-- A bough that is not placed: its cohort is DROPPED (R421, R462). -/
def State.dropBough (s : State) (f : Fill) : State :=
  let s := (s.countC f.id.ctx 0x27 1).log 0x10 2 f.id.ctx f.octet noUnit (policyDetail f.id.bough f.id.scene false true)
  ((s.endFill f.id).modCohort f.id (fun c => { c with dropped := true })).lapse f.id
/-- A bough that is used: to decryption when its scene is KEYED, else to the queue (R21, R462). -/
def State.useBough (s : State) (f : Fill) (d : Rec64) : State :=
  if s.keyless f.id.ctx d then s.dropBough f
  else if sKeyed d then s.modFill f.id (fun x => { x with stage := .decrypt })
  else s.enterHandles f.id
/-- Settles a complete fill (R85, R419 to R421). -/
def State.checkFill (s : State) (id : CohortId) : State :=
  match s.fillOf id, s.bound id.ctx id.scene with
  | some f, some d =>
    if !f.complete then s
    else if boughCheckOk d id.bough f.lines (trailerOf (mgetD f.got 64 0) id.bough) && !f.forcedBad then
      (if f.attempt = 1 then s.count 61 1 else s).useBough f d
    else if f.attempt = 0 then
      let again := trailerFirst d id (((s.cohort id).map (·.clines)).getD 0)
      let s := s.finishXfer (.fill id)
      let s := s.modFill id (fun x => { x with attempt := 1, got := [], forcedBad := false, fails := [], stage := .xferWait,
                                               count := if again then none else x.count })
      s.request (.fill id) id.ctx f.cls
    else
      let s := s.count 62 1
      if sDrop d || s.keyless id.ctx d then s.dropBough f
      else
        let s := (s.countC id.ctx 0x26 1).log 0x10 2 id.ctx f.octet noUnit (policyDetail id.bough id.scene false false)
        (s.modFill id (fun x => { x with suspect := true })).useBough { f with suspect := true } d
  | _, _ => s
/-- Counts lines read for fills. -/
def State.fillLines (s : State) (n : Nat) : State :=
  ({ s with sched := { s.sched with ivFillLines := s.sched.ivFillLines + n } } : State).count 6 n
/-- One line of a fill as its tag sees it (R405); a transaction buffer line with an uncorrectable error makes the check
fail (R427). -/
def State.takeLine (s : State) (id : CohortId) (n : Nat) (mem : Line) : State :=
  let trailer := n == 64
  let name := if trailer then id.bough / 8 else 64 * id.bough + n
  let l := s.overlay id.ctx id.scene id.tag false trailer name mem
  let (s, ue) := s.readVersion (s.bufLine id.ctx id.scene id.tag false trailer name)
  (s.fillLines 1).modFill id (fun f => { f with got := mset f.got n l, forcedBad := f.forcedBad || ue })

/-! ### The commands of a fill -/

/-- TRAILER_RETURN (R84): LINES comes from the trailer, and the node line requests leave before it is checked. A LINES
outside 1 to 64 is fetched as 1 or 64 lines, and fails R85 (assumption 26). -/
def doTrailerReturn (id : CohortId) (line : Line) (s : State) : State :=
  match s.fillOf id, s.bound id.ctx id.scene with
  | some f, some d =>
    if f.stage == .trailer then
      let s := s.takeLine id 64 line
      let tl := match s.fillOf id with | some f => mgetD f.got 64 0 | none => 0
      let n := max 1 (min 64 (fld (trailerOf tl id.bough) 4 8))
      let s := (s.modFill id (fun x => { x with stage := .lines, count := some n })).lineBack (.fill id)
      match s.xferOf (.fill id) with
      | some x => (s.giveWork x.n (nodeWork d id n)).pumpLines
      | none => s
    else s
  | _, _ => s
/-- FILL_LINE_RETURN (R525): a line returns; with the last one the fill is checked. -/
def doFillLineReturn (id : CohortId) (n : Nat) (line : Line) (s : State) : State :=
  match s.fillOf id with
  | some f =>
    if f.stage == .lines && (mget f.got n).isNone && (n == 64 || decide (n < f.count.getD 0))
    then ((s.takeLine id n line).lineBack (.fill id)).checkFill id else s
  | none => s
/-- DECRYPT_DONE (R124, R525). -/
def doDecryptDone (id : CohortId) (s : State) : State :=
  match s.fillOf id, s.keyOf id.ctx with
  | some f, some k =>
    if f.stage == .decrypt then
      (s.modFill id (fun x => { x with got := mmap x.got (fun n l => if n < 64 then decryptNode k id.bough n l else l) })).enterHandles id
    else s
  | _, _ => s
/-- Lines that had an uncorrectable error count as rewritten once a placement of n lines in slot k writes them (R184). -/
def State.rewriteLines (s : State) (k n : Nat) : State :=
  let o := k / 64
  let hit := fun (b line : Nat) => (List.range n).any (fun i => s.physBank o (i % 8) == b && 8 * (k % 64) + i / 8 == line)
  { s with banks := mmap s.banks (fun b x => { x with ueLines := mmap x.ueLines (fun line v => v || hit b line) }) }
/-- The lines of a bough are written into its slot k (R160); the last slot of a fill ends it. -/
def State.placeBough (s : State) (k : Nat) (id : CohortId) (f : Fill) (d : Rec64) : State :=
  let s := if f.preload.isSome then s.modCohort id (fun c => { c with useCount := s.sched.fillT }) else s
  let s := s.setSlot k { SlotRec.reset with occ := some id, lines := f.lines, suspect := f.suspect, crown := s.replicated id }
  let s := (s.rewriteLines k f.lines.length).injectBank k f.lines.length
  let done := f.targets.all (fun t => t == k || f.placed.contains t)
  let s := if done then { s with fills := s.fills.filter (fun x => x.id != id) }
           else s.modFill id (fun x => { x with placed := k :: x.placed })
  s.prefetchLeaves (groveOfSlot k) id d f.lines f.cls
/-- PLACEMENT_CAPTURE (R21, R161, R162, R331): the head of the grove's placement queue is written into its reserved slot, once
R23 has emptied it. A handle of a fill that is not at that stage is let go. -/
def doPlacementCapture (g : Nat) (s : State) : State :=
  match mgetD s.hq g [] with
  | [] => s
  | h :: rest =>
    match s.fillOf h.item, s.bound h.item.ctx h.item.scene with
    | some f, some d =>
      match (if f.stage == .handle then f.targets.find? (fun k => groveOfSlot k == g && !f.placed.contains k) else none) with
      | none => { s with hq := mset s.hq g rest }
      | some k =>
        if (s.slot k).occ.isSome then s
        else
          (((({ s with hq := mset s.hq g rest } : State).retryHeld g).ensureEntry h.item 0).1).placeBough k h.item f d
    | _, _ => { s with hq := mset s.hq g rest }
/-- VICTIM_SLOT_FREED (R23, R206). -/
def doVictimSlotFreed (o sl : Nat) (s : State) : State :=
  let k := slotKey o sl
  if (s.slot k).leaving && !s.slotBusy k then s.vacate k else s
/-- FILL_ISSUE (R200 to R202, R205, R206). -/
def doFillIssue (s : State) : State := s.fillStep
/-- FILL_VICTIM_TIMEOUT (R206): the condition on parked members is dropped. -/
def doFillVictimTimeout (id : CohortId) (s : State) : State :=
  match s.fillOf id with
  | some f =>
    match f.stage with
    | .victim since false =>
      match s.tryFill f true with
      | (s, true) => s
      | (s, false) => s.modFill id (fun x => { x with stage := .victim since true })
    | _ => s
  | none => s
/-- COHORT_AGE_LIMIT (R200): DRIZZLE cohorts have no age limit. -/
def doCohortAgeLimit (id : CohortId) (s : State) : State :=
  match s.cohort id with
  | some c => if s.fillable c && s.cohortClass c < 3 then s.modCohort id (fun c => { c with aged := true }) else s
  | none => s
/-- FILL_URGENT (R200): the DISPLAY cohorts that hold members of a context whose armed countdown is below FILL_URGENT
become candidates. -/
def doFillUrgent (c : Nat) (s : State) : State :=
  if s.urgentNow c then
    { s with cohorts := s.cohorts.map (fun x => if x.id.ctx = c ∧ s.cohortClass x = 0 then { x with urgent := true } else x) }
  else s
/-- The countdown of a context is no longer armed below FILL_URGENT. -/
def State.clearUrgent (s : State) (c : Nat) : State :=
  { s with cohorts := s.cohorts.map (fun x => if x.id.ctx = c then { x with urgent := false } else x) }

end Sys2Proof.Machine
end

