-- ==== Sys2Proof/Machine/Banks.lean ====
section
/-! DEFINITION. Machine/Banks.lean: errors of the canopy banks (R177 to R179, R424), failed banks and retired octets
(R183 to R186), injected bank errors (R432), the operand caches (R172), and the queues and passes of the banks (R169 to
R175). -/
namespace Sys2Proof.Machine

/-- The place of a global physical bank in its grove's repair map: the logical bank it serves, if any (R157). -/
def State.logicalOf (s : State) (b : Nat) : Option Nat :=
  (s.grove (b / 100)).repairMap.findIdx? (· == b % 100)
/-- Global logical bank number that a log record names, or none (R437). -/
def State.bankUnit (s : State) (b : Nat) : Nat := match s.logicalOf b with | some i => 96 * (b / 100) + i | none => noUnit
/-- Fills lose the targets among some slots; a fill left with none is given up, and its cohort is filled again. -/
def State.unreserve (s : State) (p : Nat → Bool) : State :=
  let res := s.slots.filter (fun e => e.2.next.isSome && p e.1)
  let s := foldS res s (fun s e => s.setSlot e.1 { s.slot e.1 with next := none })
  foldS (s.fills.filter (fun f => f.targets.any p)) s (fun s f =>
    let left := f.targets.filter (fun k => !p k)
    let s := s.modFill f.id (fun x => { x with targets := left, held := x.held.filter (fun k => !p k) })
    let s := { s with hq := mmap s.hq (fun g q => if left.any (fun k => groveOfSlot k == g) then q else q.filter (fun e => e.item != f.id)) }
    if left.isEmpty then (if s.replicated f.id then s else s.force f.id).endFill f.id else s)
/-- Retires an octet (R184): its 64 slots are invalidated. -/
def State.retireOctet (s : State) (o logical : Nat) : State :=
  if s.retired o then s
  else
    let s := s.modGrove (o / 12) (fun g => { g with retired := g.retired ||| BitVec.ofNat 16 (2 ^ (o % 12)) })
    let s := (s.count 50 1).report 4 1 noUnit o noUnit logical
    let s := s.unreserve (fun k => k / 64 == o)
    (foldS ((s.slots.filter (fun e => e.1 / 64 == o && e.2.occ.isSome)).map (·.1)) s State.invalidate).settleService
/-- A bank becomes FAILED: a mapped bank retires its octet, a spare is marked unusable (R184, R185). -/
def State.failBank (s : State) (b : Nat) : State :=
  if (s.bank b).failed then s
  else
    let s := s.modBank b (fun x => { x with failed := true })
    match s.logicalOf b with
    | some i => s.retireOctet (12 * (b / 100) + i / 8) (96 * (b / 100) + i)
    | none => if 96 ≤ b % 100 then s.modGrove (b / 100) (fun g => { g with spareBad := g.spareBad ||| BitVec.ofNat 4 (2 ^ (b % 100 - 96)) }) else s
/-- A corrected error of a bank (R178); 64 in one scrub pass are a storm (R437). -/
def State.bankCorrected (s : State) (inj : Bool) (b : Nat) : State :=
  let n := (s.bank b).ce + 1
  let s := (s.modBank b (fun x => { x with ce := n })).count 47 1
  if n = 64 then (s.logInj inj 1 0 noUnit (s.bankUnit b) b n).interrupt 0 else s
/-- An uncorrectable error of a bank at a line (R179); a repeat at a rewritten line fails the bank (R184, R424). -/
def State.bankUncorrected (s : State) (inj : Bool) (b line : Nat) : State :=
  let again := mgetD (s.bank b).ueLines line false
  let s := (s.count 48 1).modBank b (fun x => { x with ueLines := if (mget x.ueLines line).isSome then x.ueLines else mset x.ueLines line false })
  let s := (s.logInj inj 2 1 noUnit (s.bankUnit b) b line).interrupt 1
  if again then s.failBank b else s
/-- What a read of a bank line finds: a correctable error (false) or an uncorrectable one (true). With ECC_CORRECT 0 a
correctable error is handled as uncorrectable (R430). -/
def State.bankFinds (s : State) (b line : Nat) (err : Option EccError) : Option Bool :=
  match err, s.sramMark 0 b line with
  | some .uncorrectable, _ | _, some true => some true
  | some .correctable, _ | _, some false => some (!s.integOn 0)
  | none, none => none
/-- A read of a bank line with what its check found: the state, and whether the line cannot be used. -/
def State.bankRead (s : State) (b line : Nat) (err : Option EccError) : State × Bool :=
  let inj := err.isNone && (s.sramMark 0 b line).isSome
  match s.bankFinds b line err with
  | none => (s, false)
  | some false => ((s.clearMark 0 b line).bankCorrected inj b, false)
  | some true => ((s.clearMark 0 b line).bankUncorrected inj b line, true)
/-- Reads node lines of the bough in slot k, with what the check of each found: the state, and whether one of them cannot be
used (R177 to R179). -/
def State.readLines (s : State) (k : Nat) (err : Nat → Option EccError) : List Nat → State × Bool
  | [] => (s, false)
  | n :: t =>
    match s.bankRead (s.physBank (k / 64) (n % 8)) (8 * (k % 64) + n / 8) (err n) with
    | (s, bad) => match s.readLines k err t with
      | (s, bad') => (s, bad || bad')
/-- A placed slot that holds a line of a logical bank's octet. -/
def slotOfLine (o line : Nat) : Nat := slotKey o (line / 8)

/-- BOUGH_TESTABLE (R161): the placement check has read the lines placed in a slot; errors names the node lines at which it
found an error (R178). An uncorrectable one is handled as a scrub's is (R179; assumption 115). -/
def doBoughTestable (o sl : Nat) (errs : List (Fin 64 × EccError)) (s : State) : State :=
  let k := slotKey o sl
  let r := s.slot k
  if r.occ.isSome && !r.testable && !r.leaving then
    match s.readLines k (fun n => (errs.find? (fun e => e.1.val == n)).map (·.2)) (List.range r.lines.length) with
    | (s, false) => s.modSlot k (fun r => { r with testable := true })
    | (s, true) => s.invalidate k
  else s

/-! ### Operand caches (R172) -/

/-- Looks a segment up, most recently used first. A missing one is gathered: it takes a free place of the 256, or that of the
least recently used segment that no queued packet needs; while there is none, its packet waits for it. -/
def touchSegment (needed : List (Nat × Nat)) (l : List (Nat × Nat)) (x : Nat × Nat) : List (Nat × Nat) :=
  if l.contains x then x :: l.filter (· != x)
  else if l.length < 256 then x :: l
  else match l.reverse.find? (fun y => !needed.contains y) with
    | some y => x :: l.filter (· != y)
    | none => l
/-- The segments of a query's data units that hold bytes 0 to n − 1. -/
def dataSegments (us : List Nat) (n : Nat) : List (Nat × Nat) := (List.range (cdiv n 64)).map (fun i => (nth us (i / 4) 0, i % 4))
/-- The segments that the queued packets of an octet need. -/
def Octet.needed (x : Octet) : List (Nat × Nat) := (x.queue.filter (fun p => !p.served)).flatMap (·.segs)
/-- An octet looks segments up. -/
def State.useSegments (s : State) (o : Nat) (l : List (Nat × Nat)) : State :=
  if l.isEmpty then s else s.modOctet o (fun x => { x with opCache := l.foldl (touchSegment x.needed) x.opCache })
/-- Parity errors of operand segments: each is dropped and gathered again (R424). -/
def State.segmentParity (s : State) (o : Nat) (l : List (Nat × Nat)) : State :=
  if l.isEmpty then s else ((s.modOctet o (fun x => { x with opCache := x.opCache.filter (fun y => !l.contains y) })).useSegments o l).count 55 1
/-- Bank cycles given to tests of an octet (R216, R231). -/
def State.useBanks (s : State) (o n : Nat) : State := (s.modOctet o (fun x => { x with busy := x.busy + n })).count 17 n

/-! ### The queues of the banks (R169 to R175) -/

/-- Every bank has room for the packets of a sheaf that name it: its queue holds 32 (R174). -/
def Octet.hasRoom (x : Octet) (ps : List Packet) : Bool :=
  (List.range 8).all (fun b =>
    let new := (ps.filter (fun p => p.bank == b)).length
    new == 0 || decide ((x.queue.filter (fun p => p.bank == b && !p.served)).length + new ≤ 32))
/-- The packets of a sheaf enter the queues of an octet, and look their operand segments up (R172). -/
def State.enqueue (s : State) (o : Nat) (ps : List Packet) : State :=
  (s.modOctet o (fun x => { x with queue := x.queue ++ ps })).useSegments o (ps.flatMap (·.segs))
/-- The order of R175 among test packets: class, arrival, walk core, lane. -/
def Packet.key (p : Packet) : List Nat := [p.cls, p.arrived, p.sheaf / 48, p.lane]
/-- Packets that one pass of the banks serves: 64 that name one leaf block (R170), 8 that name one BALL8 node (R169), one. -/
def Packet.width (p : Packet) : Nat := if p.block.isSome then 64 else if p.dims = 0 then 1 else 8
/-- Two packets may share a MAC pass. -/
def Packet.shares (p q : Packet) : Bool := p.block == q.block && p.slot == q.slot && p.node == q.node && p.dims == q.dims && p.fp8 == q.fp8
/-- Bank cycles of a pass over so many elements in a bank: 8 of INT8 or 4 of FP8 a cycle (R168). -/
def macCycles (fp8 : Bool) (n : Nat) : Nat := if fp8 then cdiv n 4 else cdiv n 8
/-- The lines of an installed copy of a leaf block in grove g. -/
def State.blockLines (s : State) (g : Nat) (id : BlockId) : List Line :=
  match s.peekBlock g id with | some b => b.lines | none => []
/-- Bank cycles that a packet's pass occupies over the banks of its octet (R168): the VEC rows of a leaf block, a BALL8 node, or
the node lines read. -/
def State.passCycles (s : State) (g : Nat) (p : Packet) : Nat :=
  match p.block with
  | some id =>
    let ls := s.blockLines g id
    if lfFmt ls = 0x45 then 8 * macCycles p.fp8 (lfCount ls * p.dims) else 0
  | none => if p.dims = 0 then p.reads else 8 * macCycles p.fp8 p.dims
/-- A pass begins with the first packet of a sheaf in an octet that no bank has served: it binds the packets that name the same
node or block, in the order of R175, as many as its rows take (R169, R170). A VEC pass brings its block into the row buffer,
which holds two. -/
def State.servePass (s : State) (o key : Nat) : State :=
  let waits := (s.octet o).queue.filter (fun p => !p.served)
  match leastBy Packet.key (waits.filter (fun p => p.sheaf == key)) with
  | none => s
  | some p =>
    let bound := (sortBy Packet.key (waits.filter p.shares)).take p.width
    let s := s.useSegments o (bound.flatMap (·.segs))
    let s := s.modOctet o (fun x => { x with
      queue := x.queue.map (fun q => if bound.contains q then { q with served := true } else q),
      rowBuf := match p.block with
        | some id => (id :: x.rowBuf.filter (· != id)).take 2
        | none => x.rowBuf })
    s.useBanks o (s.passCycles (o / 12) p)
/-- The banks of an octet serve every packet of a sheaf, and the others that their passes bind. -/
def State.serveSheaf (s : State) (o key : Nat) : State := iter (fun s => s.servePass o key) (s.octet o).queue.length s
/-- The packets of a sheaf have been answered. -/
def State.takeAnswers (s : State) (o key : Nat) : State :=
  s.modOctet o (fun x => { x with queue := x.queue.filter (fun p => p.sheaf != key) })
/-- The packets of a lane leave every queue. -/
def State.dropPackets (s : State) (key n : Nat) : State :=
  { s with octets := mmap s.octets (fun _ x => { x with queue := x.queue.filter (fun p => !(p.sheaf == key && p.lane == n)) }) }

end Sys2Proof.Machine
end

