-- ==== Sys2Proof/Machine/Results.lean ====
section
/-! DEFINITION. Machine/Results.lean: forward packets (R473 to R485), the end of a query and its chain on the way to the
collector (R60 to R71, R249, R434, R480), and parking or forwarding (R246, R473). -/
namespace Sys2Proof.Machine

/-! ### Forward packets (R474, R475) -/

/-- The IDENT register: DEVICE 0x0E21 and the part's REVISION (18, IDENT). -/
def identWord : Word := (0x0E21 : BitVec 16) ++ Config.revision
/-- A packet header. -/
def fwdHeader (s : State) (ptype flits hops dst origin c scene : Nat) (token : DWord) (arg0 arg1 : Nat) : Rec64 :=
  mkRec 512 [(0, 8, ptype), (1, 8, 1), (2, 8, flits), (3, 8, hops), (4, 32, identWord.toNat), (8, 32, s.dev.instId),
    (12, 32, dst), (16, 32, origin), (20, 16, c), (22, 16, scene), (24, 64, token.toNat), (32, 32, arg0), (36, 32, arg1)]
def pType (h : Rec64) : Nat := fld h 0 8
def pVer (h : Rec64) : Nat := fld h 1 8
def pFlits (h : Rec64) : Nat := fld h 2 8
def pHops (h : Rec64) : Nat := fld h 3 8
def pIdent (h : Rec64) : Word := fldv h 4 32
def pSrc (h : Rec64) : Nat := fbit h 64 17
def pDst (h : Rec64) : Nat := fbit h 96 17
def pOrigin (h : Rec64) : Nat := fbit h 128 17
def pCtx (h : Rec64) : Nat := fld h 20 16
def pScene (h : Rec64) : Nat := fld h 22 16
def pToken (h : Rec64) : DWord := fldv h 24 64
def pArg0 (h : Rec64) : Nat := fld h 32 32
def pArg1 (h : Rec64) : Nat := fld h 36 32

/-- The forward ports send: the instance has an address, is READY and is not in DRAIN (R470, R500, R504). -/
def State.maySend (s : State) : Bool := s.dev.addressed && s.dev.stage == .ready && s.dev.pwrState == 1
/-- Sends a packet on forward port DST mod 4, which an instance without an address does not do (R470, R474). A packet to
an instance resets the count of cycles since one was last sent to it (R484). -/
def State.sendPacket (s : State) (hdr : Rec64) (q : Option QueryImage) (recs : List Rec32) : State :=
  if s.maySend then
    let s := { s with beats := if (mget s.beats (pDst hdr)).isSome then mset s.beats (pDst hdr) 0 else s.beats }
    s.emit (.packet (pDst hdr % 4) hdr q recs)
  else s
/-- TOKEN of a query of this instance (R474). -/
def tokenOf (p gen : Nat) : DWord := BitVec.ofNat 64 (p + gen * 2 ^ 19)
/-- The instance is in the lost set for a context (R485). -/
def State.isLost (s : State) (inst c : Nat) : Bool :=
  s.lost.any (fun e => e.2.inst == inst && (match e.2.ctx with | none => true | some x => x == c))
/-- Adds to the lost set, unless it holds the entry already; a full set counts LOST_SET_FULL (R485). -/
def State.addLost (s : State) (inst : Nat) (c : Option Nat) : State :=
  if s.lost.any (fun e => e.2 == { inst := inst, ctx := c }) then s
  else match mfree s.lost 1024 with
    | some i => { s with lost := mset s.lost i { inst := inst, ctx := c } }
    | none => s.count 70 1

/-! ### Chains -/

/-- A chain for the collector. R69 sends REJECTED, ERR_DATA and FORWARD_LOST to the exception route; R71 suppresses a
MISS. -/
def chainItem (c : Nat) (slot : Option Nat) (r : Rec64) (cls status : Nat) (recs : List Rec32) : CItem :=
  let exc := decide (0x10 ≤ status)
  let sup := qFlag r 5 && status == stMISS
  .chain c (qDelivery r) slot cls status (if sup then [] else recs) exc sup (qTag r) (qUser0 r) (qUser1 r) (status == stLATE)
    (qKind r == 3 && qEtype r == 0)
/-- Where a chain enters the collector (R359). -/
inductive Source where
  | frontEnd
  | scheduler
  | forward
  | walk (g : Nat)
  deriving DecidableEq, Repr
/-- An item enters the queue of a source of the collector. A walk core's queue takes it in its class's escape entry when no general
entry is free; its room was asked for before (R359). -/
def State.putItem (s : State) (src : Source) (cls : Nat) (i : CItem) : State :=
  match src with
  | .frontEnd => { s with feQ := s.feQ ++ [i] }
  | .scheduler => { s with schedQ := s.schedQ ++ [i] }
  | .forward => { s with fwdQ := s.fwdQ ++ [i] }
  | .walk g =>
    let q := mgetD s.walkQ g []
    let esc := (hqRoom q cls).getD true
    let s := { s with walkQ := mset s.walkQ g (q ++ [{ cls := cls, esc := esc, item := i }]) }
    if esc then s.count 29 1 else s
/-- Hands an item to a source of the collector: it lies in the collector store. -/
def State.toSource (s : State) (src : Source) (cls : Nat) (i : CItem) : State := (s.putItem src cls i).writeSpine collLine
/-- A walk core of grove g may issue EMIT or END of class c (R330, R359). -/
def State.walkRoom (s : State) (g cls n : Nat) : Bool := (hqPush ((mgetD s.walkQ g []).map (fun e => ({ cls := e.cls, esc := e.esc, item := () } : HEntry Unit))) cls (List.replicate n ())).isSome

/-- RESULT packets of a chain of context c, whose query has sent so many emissions (R475, R480): up to 64 records each. -/
def State.sendResult (s : State) (c emits : Nat) (o : Origin) (recs : List Rec32) : State :=
  let n := cdiv recs.length 64
  foldS (List.range n) s (fun s i =>
    let part := (recs.drop (64 * i)).take 64
    s.sendPacket (fwdHeader s 2 (1 + cdiv part.length 2) 0 o.inst o.inst c 0 o.token (64 * i) emits) none part)
/-- A query ends with a status and its records: its chain goes to the collector, or to its origin (R249, R480). Its walk
state stays in the slot until the collector has accepted the chain (R24). -/
def State.finish (s : State) (p status : Nat) (recs : List Rec32) (src : Source) : State :=
  match mget s.pool p with
  | none => s
  | some q =>
    match q.origin with
    | some o => (s.sendResult q.ctx q.ws.emitsSent o recs).releaseSlot p
    | none => (s.modQuery p (fun q => q.at .ending)).toSource src q.cls (chainItem q.ctx (some p) q.record q.cls status recs)
/-- A query that ends ERR_DATA or FORWARD_LOST with a code of R435: one record (R63). -/
def State.finishErr (s : State) (p status code : Nat) (src : Source) : State :=
  match mget s.pool p with
  | none => s
  | some q =>
    let s := if status = stFORWARD_LOST then s.countC q.ctx 0x2C 1 else s
    s.finish p status [singleRecord q.record status code q.spawned q.ws.forwarded true] src
/-- A query that ends without an error, LATE when the deadline cut ends it (R66, R67, R229). -/
def State.finishOk (s : State) (p : Nat) (ws : WalkState) (late : Bool) (src : Source) : State :=
  match mget s.pool p with
  | none => s
  | some q =>
    let ch := chainOf q.record ws q.spawned late
    let s := if late then s.countC q.ctx 3 1 else s
    (s.modQuery p (fun q => { q with ws := ws })).finish p ch.1 ch.2 src

/-! ### Parking or forwarding (R246, R473) -/

/-- The holder of a bough of a sharded scene, by its shard map (R472); a missing or invalid entry is a lost shard. -/
def holderOf (m : ShardRead) (b : Nat) : Option Nat :=
  match m.entries[b / 2 ^ fld m.desc 1 8]? with
  | none => none
  | some e => if e.msb then some (e.extractLsb' 0 17).toNat else none
/-- Where a query about to park on a bough goes: nothing when it stays here. -/
def State.holderFor (s : State) (c h b : Nat) : Option (Option Nat) :=
  match s.scene c h with
  | none => none
  | some x =>
    if !sSharded x.desc || b < sCrown x.desc then none
    else match x.shard with
      | none => some none
      | some m => match holderOf m b with
        | none => some none
        | some i => if i = s.dev.instId then none else some (some i)
/-- The image of a query as it travels (R475). -/
def State.imageOf (s : State) (q : Query) : QueryImage :=
  { record := q.record, cls := ⟨q.cls % 4, Nat.mod_lt _ (by decide)⟩, spawned := q.spawned, ws := q.ws, data := s.unitsData q.dataUnits }
/-- Flits of a QUERY packet. -/
def queryFlits (q : Query) : Nat := 3 + 4 * (q.dataUnits.length + q.collUnits.length)
/-- Sends the QUERY packet of a pool query to an instance, and counts it where it is sent (R470, R489). -/
def State.sendQuery (s : State) (q : Query) (dst hops origin : Nat) (token : DWord) : State :=
  let t := s.sendPacket (fwdHeader s 1 (queryFlits q) hops dst origin q.ctx q.cohort.scene token q.cohort.bough
    (q.dataUnits.length + 256 * q.collUnits.length)) (some (s.imageOf q)) []
  if s.maySend then t.count 65 1 else t
/-- Forwards a query whose walk state stands in its slot to the holder of a bough (R473, R479, R484, R485). -/
def State.forward (s : State) (p : Nat) (id : CohortId) (holder : Option Nat) (src : Source) : State :=
  match mget s.pool p with
  | none => s
  | some q =>
    match holder with
    | none => s.finishErr p stFORWARD_LOST errSHARD_LOST src
    | some dst =>
      if s.isLost dst q.ctx then s.finishErr p stFORWARD_LOST errSHARD_LOST src
      else
        let q := { q with cohort := id, ws := { q.ws with forwarded := true } }
        let s := s.modQuery p (fun _ => q)
        match q.origin with
        | none =>
          let s := s.modQuery p (fun q => q.at (.forwarded dst))
          if (mget s.watch dst).isSome then s.sendQuery q dst 1 s.dev.instId (tokenOf p q.gen)
          else if s.watch.length < 4096 then
            ({ s with watch := mset s.watch dst 0 } : State).sendQuery q dst 1 s.dev.instId (tokenOf p q.gen)
          else { s with fwdWait := s.fwdWait ++ [p] }
        | some o =>
          if 255 ≤ o.hops then s.finishErr p stERR_DATA errREF_RANGE src
          else
            let s := s.sendQuery q dst (o.hops + 1) o.inst o.token
            let s := s.sendPacket (fwdHeader s 4 1 0 o.inst o.inst q.ctx 0 o.token dst 0) none []
            s.releaseSlot p
/-- Drops watchdog counts of instances that hold nothing, and sends what waits for a count (R484). -/
def State.settleWatch (s : State) : State :=
  let held := fun (d : Nat) => s.pool.any (fun e => e.2.place == .forwarded d && !s.fwdWait.contains e.1)
  let s := { s with watch := mfilter s.watch (fun d _ => held d) }
  iter (fun s => match s.fwdWait with
    | [] => s
    | p :: t =>
      match mget s.pool p with
      | some q =>
        match q.place with
        | .forwarded d =>
          if (mget s.watch d).isSome || s.watch.length < 4096 then
            let s := { s with fwdWait := t, watch := mset s.watch d (mgetD s.watch d 0) }
            s.sendQuery q d 1 s.dev.instId (tokenOf p q.gen)
          else s
        | _ => { s with fwdWait := t }
      | none => { s with fwdWait := t }) s.fwdWait.length s
/-- The query whose walk state stands in its slot parks on a bough, or is forwarded to the bough's holder; with it goes
CLINES of the reference that leads there (R84). -/
def State.parkOrForward (s : State) (p c h b clines : Nat) (src : Source) : State :=
  let s := s.modQuery p (fun q => { q with ws := { q.ws with clines := clines } })
  match mget s.pool p with
  | none => s
  | some q =>
    let id : CohortId := { ctx := c, scene := h, tag := s.boughTag c h b q.epoch, bough := b }
    match s.holderFor c h b with
    | some holder => s.forward p id holder src
    | none => s.park p id clines

end Sys2Proof.Machine
end

