-- ==== Sys2Proof/Machine/Operands.lean ====
section
/-! DEFINITION. Machine/Operands.lean: operand fields and the registers they name (R241, R252, R257, R258), the issue
group of a sheaf (R242), and the integer operations (R263, R264). -/
namespace Sys2Proof.Machine

/-! ### Operand fields (R257) -/

/-- The field names a lane register v0 to v23. -/
def isV (f : BitVec 6) : Bool := decide (f.toNat < 24)
/-- The field names a predicate p0 to p7. -/
def isP (f : BitVec 6) : Bool := decide (32 ≤ f.toNat) && decide (f.toNat < 40)
/-- The field names a strand register x0 to x31. -/
def isX (f : BitVec 6) : Bool := decide (f.toNat < 32)
/-- A lane register that may be written: not v0 to v7 in a handler (R252). -/
def isVDst (handler : Bool) (f : BitVec 6) : Bool := isV f && (!handler || decide (8 ≤ f.toNat))
/-- MINOR is one that names the instruction (R258): another is not in its table. -/
def minorIs (f : Fields) (n : Nat) : Bool := f.minor.toNat == n
/-- A predicate that may be written: p1 to p7 (R252). -/
def isPDst (f : BitVec 6) : Bool := isP f && f.toNat != 32

/-- Lane register n. -/
def Lane.reg (l : Lane) (n : Nat) : Word := nth l.v n 0
/-- The lane register that a field names. -/
def Lane.rv (l : Lane) (f : BitVec 6) : Word := l.reg f.toNat
def Lane.setV (l : Lane) (f : BitVec 6) (w : Word) : Lane := { l with v := l.v.set f.toNat w }
/-- Predicate n; p0 reads 1 (R241). -/
def Lane.pred (l : Lane) (n : Nat) : Bool := n == 0 || l.p.getLsbD n
/-- The predicate that a field names. -/
def Lane.rp (l : Lane) (f : BitVec 6) : Bool := l.pred (f.toNat - 32)
/-- Writes predicate n; bit 0 always stands for p0 and stays 1. -/
def Lane.setPred (l : Lane) (n : Nat) (b : Bool) : Lane :=
  let m : BitVec 8 := 1 <<< n
  { l with p := (if b then l.p ||| m else l.p &&& ~~~ m) ||| 1 }
def Lane.setP (l : Lane) (f : BitVec 6) (b : Bool) : Lane := l.setPred (f.toNat - 32) b
/-- The lane runs a handler image (R255). -/
def Lane.handler (l : Lane) : Bool := l.hook.isSome

/-- The strand register that a field names. -/
def Strand.rx (t : Strand) (f : BitVec 6) : DWord := t.reg f.toNat
def Strand.setX (t : Strand) (f : BitVec 6) (v : DWord) : Strand := t.set f.toNat v
/-- A register of a strand awaits a load or an atomic (R261, R296, R297). -/
def Strand.awaits (t : Strand) (n : Nat) : Bool := n != 0 && t.loads.any (fun x => x.rd == n)

/-! ### The issue group (R242) -/

/-- The lanes at the lowest PC of a sheaf. -/
def Sheaf.lowest (x : Sheaf) : List Lane :=
  let low := x.lanes.foldl (fun m l => min m l.pc) (2 ^ 64)
  x.lanes.filter (fun l => l.pc == low)
/-- The issue group runs a handler image: the lowest PC is, or is also, that of a lane inside a handler hook. -/
def Sheaf.handler (x : Sheaf) : Bool := x.lowest.any Lane.handler
/-- The lanes that issue next: those at the lowest PC. Where lanes inside a handler hook stand there, whose PC counts in
another image than that of the other lanes, they alone issue, since one instruction executes (DESIGN CHOICE, assumption 27). -/
def Sheaf.group (x : Sheaf) : List Lane := x.lowest.filter (fun l => l.handler == x.handler)
/-- Changes the lanes of a group by number. -/
def Sheaf.mapLanes (x : Sheaf) (ns : List Nat) (f : Lane → Lane) : Sheaf :=
  { x with lanes := x.lanes.map (fun l => if ns.contains l.n then f l else l) }

/-! ### Integer operations (R263, R264) -/

/-- IOP and IOPI on W-bit registers; none for a reserved minor. -/
def iop {w : Nat} (minor : Nat) (a b : BitVec w) : Option (BitVec w) :=
  let sh := b.toNat % w
  match minor with
  | 0x00 => some (a + b)
  | 0x01 => some (a - b)
  | 0x02 => some (a * b)
  | 0x03 => some (BitVec.ofNat w (a.toNat * b.toNat / 2 ^ w))
  | 0x04 => some (BitVec.ofInt w (a.toInt * b.toInt / (2 : Int) ^ w))
  | 0x05 => some (a &&& b)
  | 0x06 => some (a ||| b)
  | 0x07 => some (a ^^^ b)
  | 0x08 => some (a <<< sh)
  | 0x09 => some (a >>> sh)
  | 0x0A => some (a.sshiftRight sh)
  | 0x0B => some (if a.toInt ≤ b.toInt then a else b)
  | 0x0C => some (if a.toNat ≤ b.toNat then a else b)
  | 0x0D => some (if a.toInt ≤ b.toInt then b else a)
  | 0x0E => some (if a.toNat ≤ b.toNat then b else a)
  | 0x0F => some (if b = 0 then BitVec.allOnes w else BitVec.ofNat w (a.toNat / b.toNat))
  | 0x10 => some (if b = 0 then BitVec.allOnes w else BitVec.ofInt w (a.toInt.tdiv b.toInt))
  | 0x11 => some (if b = 0 then a else BitVec.ofNat w (a.toNat % b.toNat))
  | 0x12 => some (if b = 0 then a else BitVec.ofInt w (a.toInt.tmod b.toInt))
  | _ => none
/-- Latency of an integer operation: in CORE cycles for a lane (R305), in BANK cycles for a strand (R304). -/
def iopLatency (strand : Bool) (minor : Nat) : Nat :=
  if 2 ≤ minor ∧ minor ≤ 4 then 3 else if 0x0F ≤ minor ∧ minor ≤ 0x12 then (if strand then 20 else 18) else 1

end Sys2Proof.Machine
end

