-- ==== Sys2Proof/Machine/Flags.lean ====
section
/-! DEFINITION. Machine/Flags.lean: the conditions that instructions compute: integer compares (R266), f32 compares
(R271), predicate logic (R273), branch conditions (R267), END flags (R269). -/
namespace Sys2Proof.Machine

/-- CMP; none for a reserved minor (R266). -/
def cmpHolds {w : Nat} (minor : Nat) (a b : BitVec w) : Option Bool :=
  match minor with
  | 0x00 => some (a == b)
  | 0x01 => some (a != b)
  | 0x02 => some (decide (a.toInt < b.toInt))
  | 0x03 => some (decide (a.toNat < b.toNat))
  | 0x04 => some (decide (a.toInt ≤ b.toInt))
  | 0x05 => some (decide (a.toNat ≤ b.toNat))
  | _ => none

/-- FCMP; none for a reserved minor. With a NaN operand NE and UNORD alone hold (R271). -/
def fcmpHolds (minor : Nat) (a b : Word) : Option Bool :=
  let o := fcompare a b
  match minor with
  | 0x00 => some (o == some .eq)
  | 0x01 => some (o != some .eq)
  | 0x02 => some (o == some .lt)
  | 0x03 => some (o == some .lt || o == some .eq)
  | 0x04 => some (o == some .gt)
  | 0x05 => some (o == some .gt || o == some .eq)
  | 0x06 => some o.isNone
  | 0x07 => some o.isSome
  | _ => none

/-- PLOG; none for a reserved minor (R273). -/
def plogOp (minor : Nat) (a b : Bool) : Option Bool :=
  match minor with
  | 0x00 => some (a && b)
  | 0x01 => some (a || b)
  | 0x02 => some (a != b)
  | 0x03 => some (a && !b)
  | 0x04 => some !a
  | 0x05 => some a
  | _ => none
/-- PNOT and PMOV do not use B. -/
def plogUnary (minor : Nat) : Bool := minor == 0x04 || minor == 0x05

/-- A branch of R267 with a condition register is taken. -/
def branchTaken (onTrue cond : Bool) : Bool := cond == onTrue

/-- TRUNCATED and BUDGET_HIT as the END flags of a lane set them (R269); bits 2 to 5 are reserved. -/
def endFlags (ws : WalkState) (flags : Nat) : WalkState :=
  { ws with truncated := ws.truncated || flags % 2 == 1, budgetHit := ws.budgetHit || flags / 2 % 2 == 1 }

end Sys2Proof.Machine
end

