-- ==== Sys2Proof/Machine/Collector.lean ====
section
/-! DEFINITION. Machine/Collector.lean: delivery entries (R335 to R337), the collector's delivery modes RECORD, BIN, ACCUM
and GRID, the exception route, frames, shares and back-pressure (R338 to R361, R426). -/
namespace Sys2Proof.Machine

/-! ### Delivery entries (R335, R336) -/

def deVer (d : Rec64) : Nat := fld d 0 8
def deMode (d : Rec64) : Nat := fld d 1 8
def deTarget (d : Rec64) : Nat := fbit d 16 2
def deCunit (d : Rec64) : Bool := fbit d 20 1 == 1
def deContent (d : Rec64) : Nat := fbit d 24 1
def deTfmt (d : Rec64) : Nat := fbit d 25 1
/-- Entries of a tile. -/
def deN (d : Rec64) : Nat := if fbit d 26 1 = 1 then 64 else 32
def deKeysrc (d : Rec64) : Nat := fbit d 27 2
def deOp (d : Rec64) : Nat := fbit d 24 2
def deEtype (d : Rec64) : Nat := fbit d 26 3
def deClear (d : Rec64) : Bool := fbit d 29 1 == 1
def deShift (d : Rec64) : Nat := fld d 4 8
def deSlotLog (d : Rec64) : Nat := fld d 5 8
def deMissKey (d : Rec64) : Nat := fld d 6 16
def deDest (d : Rec64) : DWord := fldv d 8 64
/-- The stream that a STREAM target names. -/
def deStream (d : Rec64) : Nat := fbit d 64 11
def deLimit (d : Rec64) : Nat := fld d 16 32
def deAge (d : Rec64) : Nat := fld d 20 32
def deFrame (d : Rec64) : Nat := fld d 32 32
def deCshift (d : Rec64) : Nat := fld d 36 8
def deExcBase (d : Rec64) : DWord := fldv d 40 64
def deExcCnt (d : Rec64) : DWord := fldv d 48 64
def deExcLog (d : Rec64) : Nat := fld d 56 8

/-- The stream is a DELIVERY stream of the context with elements of 32 bytes (R337). -/
def State.deliveryStreamOk (s : State) (c k : Nat) : Bool :=
  let x := s.stream k
  x.state != .idle && x.owner == c && smKind x.image == 2 && smElog x.image == 5
/-- The checks of R337. -/
def State.deliveryOk (s : State) (c : Nat) (d : Rec64) : Bool :=
  let common := deVer d == 1 && decide (4 ≤ deExcLog d) && decide (deExcLog d ≤ 20) && (deExcBase d).toNat % 64 == 0
  let cnt := (deCntAddr d).toNat % 8 == 0
  let lim := decide (1 ≤ deLimit d)
  match deMode d with
  | 1 =>
    common && cnt &&
    (match deTarget d with
     | 0 => lim && decide (deShift d ≤ 31) && decide (deSlotLog d ≤ 8) && decide (deCshift d ≤ 24) &&
            (deSlotLog d == 0 || (deDest d).toNat % (32 * 2 ^ deSlotLog d) == 0)
     | 1 => s.deliveryStreamOk c (deStream d)
     | _ => false)
  | 2 => common && lim && deKeysrc d != 3 && (deKeysrc d != 2 || decide (deShift d ≤ 31)) && decide (deMissKey d < deLimit d)
  | 3 => common && cnt && lim && deOp d != 3 && decide (deEtype d ≤ 3) && decide (deAge d ≤ 1023) && (deDest d).toNat % 8 == 0
  | 4 => common && cnt && lim && decide (deEtype d ≤ 3)
  | _ => false

/-! ### Shares of the collector store (R358) -/

/-- Bytes of a tile (R346). -/
def tileBytes (d : Rec64) : Nat := 64 + 8 * deN d + 2 * deN d * (if deContent d = 1 then 16 else 8)
/-- Every delivery entry that has been read, with its context and number. -/
def State.allDelivs (s : State) : List (Nat × Nat × Deliv) := s.ctxs.flatMap (fun c => c.2.delivs.map (fun e => (c.1, e.1, e.2)))
/-- Bytes of open and waiting tiles, of stream spaces, of exception records that wait, and of RECORD chains and exception records
in transit, in the BIN share. -/
def State.binUsed (s : State) : Nat :=
  (s.allDelivs.map (fun x => match x.2.2.raw with
    | some d => tileBytes d * ((x.2.2.keys.map (fun k => k.2.waiting.length + (if k.2.openTile.isSome then 1 else 0))).foldl (· + ·) 0) +
        32 * ((x.2.2.excWait.map (fun w => w.rest.length)).foldl (· + ·) 0)
    | none => 0)).foldl (· + ·) 0 +
  32 * (s.completions.map (fun x => match x.chain with | some (_, rs) => rs.length | none => 0)).foldl (· + ·) 0 +
  (s.streams.map (fun k => if k.2.state != .idle && smKind k.2.image == 2 then smLead k.2.image * smTileBytes k.2.image else 0)).foldl (· + ·) 0
/-- Bytes of combining windows; an update takes 16 bytes (assumption 30). -/
def State.accUsed (s : State) : Nat :=
  16 * (s.allDelivs.map (fun x => match x.2.2.window with | some w => w.ups.length | none => 0)).foldl (· + ·) 0
/-- Bytes of allocated grids. -/
def State.gridUsed (s : State) : Nat :=
  (s.allDelivs.map (fun x => match x.2.2.raw with
    | some d => if x.2.2.valid && deMode d == 4 && x.2.2.gridOk then 2048 * deLimit d else 0
    | none => 0)).foldl (· + ·) 0
/-- A RECORD chain or an exception record is in transit. -/
def State.chainsInTransit (s : State) : Bool := s.completions.any (fun x => x.chain.isSome)
/-- Changes completion n. -/
def State.modCompletion (s : State) (n : Nat) (f : Completion → Completion) : State :=
  { s with completions := s.completions.map (fun x => if x.n = n then f x else x) }
/-- The records of completion n, under a delivery entry, are in transit. -/
def State.carries (s : State) (n e : Nat) (rs : List Rec32) : State := s.modCompletion n (fun x => { x with chain := some (e, rs) })

/-! ### Writing (R339, R340) -/

/-- Writes bytes in line pieces under one completion whose counter then advances; carry names the records of a chain in
transit. With nothing to write the counter advances at once (R342). -/
def State.collWrite (s : State) (c cls : Nat) (keep : Bool) (ws : List (DWord × List Byte)) (cnt : DWord) (amount : Nat) (chip : Bool)
    (carry : Option (Nat × List Rec32)) : State :=
  if ws.isEmpty then s.counterAdd c cls cnt amount chip
  else
    let (n, s) := s.addCompletion c cls ws.length (.counter cnt amount chip)
    foldS ws (s.modCompletion n (fun x => { x with chain := carry })) (fun s w => s.collPiece c cls n keep w.1 w.2)
/-- The bytes of records. -/
def recBytes (rs : List Rec32) : List Byte := rs.flatMap (fun r => bytesOf r 32)

/-! ### The exception route (R344) -/

/-- The ring has room for the next record, by the consumed count as last read. -/
def Deliv.excRoom (x : Deliv) (d : Rec64) : Bool := decide (x.excN < x.excConsumed + 2 ^ deExcLog d)
/-- A completion whose counter add has a further 32 bytes under it, and a further write. -/
def Completion.grown (e : Nat) (r : Rec32) (x : Completion) : Completion :=
  { x with left := x.left + 1, chain := some (e, (match x.chain with | some (_, l) => l | none => []) ++ [r]),
           fin := match x.fin with | .counter a k chip => .counter a (k + 32) chip | f => f }
/-- Writes one record at the next place of the ring, under the completion of its chain. -/
def State.excPut (s : State) (c e cls n : Nat) (d : Rec64) (r : Rec32) : State :=
  let a := addr64 (deExcBase d) (32 * ((s.deliv c e).excN % 2 ^ deExcLog d))
  ((s.modDeliv c e (fun x => { x with excN := x.excN + 1 })).modCompletion n (Completion.grown e r)).collPiece c cls n true a (bytesOf r 32)
/-- Drops one record: it is counted and logged, and a message goes at most once in 65,536 FAB cycles for each entry. -/
def State.excDrop (s : State) (c e : Nat) : State :=
  let s := (s.countC c 0x12 1).log 0x14 2 c noUnit noUnit e
  if (match (s.deliv c e).excLastMsg with | some t => decide (t + 65536 ≤ s.now) | none => true) then
    (s.modDeliv c e (fun x => { x with excLastMsg := some s.now })).interrupt 2
  else s
/-- Asks for the consumed count. -/
def State.readConsumed (s : State) (c e : Nat) (d : Rec64) : State := s.readFor c (addr64 (deExcCnt d) 8) (.excConsumed c e)
/-- The chains that wait are written, in order, as far as the ring has room by the reading at hand. A chain whose last record is
decided ends its completion. A record that finds the ring full asks for the count again. -/
def State.excDrain (s : State) (c e : Nat) (d : Rec64) : State :=
  let n := (((s.deliv c e).excWait.map (fun w => w.rest.length + 1)).foldl (· + ·) 0)
  let s := iter (fun s =>
    let x := s.deliv c e
    match x.excWait with
    | [] => s
    | w :: t => match w.rest with
      | [] => (s.modDeliv c e (fun x => { x with excWait := t })).ackWrite w.n
      | r :: rest =>
        if x.excRoom d then (s.modDeliv c e (fun x => { x with excWait := { w with rest := rest } :: t })).excPut c e w.cls w.n d r else s) n s
  if (s.deliv c e).excWait.isEmpty then s else s.readConsumed c e d
/-- A chain goes to the exception route (R344). Its completion is held open until its last record is decided. -/
def State.excChain (s : State) (c e cls : Nat) (d : Rec64) (rs : List Rec32) : State :=
  match s.addCompletion c cls 1 (.counter (deExcCnt d) 0 (deChip d)) with
  | (n, s) =>
    let idle := (s.deliv c e).excWait.isEmpty
    let s := (s.carries n e []).modDeliv c e (fun x => { x with excWait := x.excWait ++ [{ n := n, cls := cls, rest := rs }] })
    if idle then s.excDrain c e d else s
/-- EXC_CONSUMED_READ: the read returns, and the record that asked is decided (R344): with the ring still full it is dropped, and
takes no number. -/
def doExcConsumedRead (c e : Nat) (consumed : DWord) (s : State) : State :=
  let s := s.modDeliv c e (fun x => if x.raw.isSome then { x with excConsumed := consumed.toNat } else x)
  match (s.deliv c e).raw, (s.deliv c e).excWait with
  | some d, w :: t =>
    if (s.deliv c e).excRoom d || w.rest.isEmpty then s.excDrain c e d
    else ((s.modDeliv c e (fun x => { x with excWait := { w with rest := w.rest.tail } :: t })).excDrop c e).excDrain c e d
  | _, _ => s

/-! ### DELIVERY streams (R320, R343) -/

/-- Elements of the current arming. -/
def Stream.elemsLeft (x : Stream) : Nat := smTiles x.image * smCount x.image 0 - (x.elem - x.tileBase * smCount x.image 0)
/-- The next element lies in a tile whose transfer is at work. -/
def State.elemReady (s : State) (k : Nat) : Bool :=
  let x := s.stream k
  let j := x.elem / smCount x.image 0
  decide (j < x.nextTile) && decide (0 < x.elemsLeft) && !s.tileWaits k j && !x.again.contains j
/-- Writes one record to the next element (R311, R343). The write has a completion of its own, which counts towards its tile
(R312), and whose end acknowledges one write of its chain's completion n. -/
def State.streamPut (s : State) (k : Nat) (r : Rec32) (n : Nat) : State :=
  let x := s.stream k
  let c0 := smCount x.image 0
  let j := x.elem / c0
  match s.addCompletion x.owner (smClass x.image) 1 (.element k j n) with
  | (m, s) =>
    (s.modStream k (fun x => { x with elem := x.elem + 1, unacked := mset x.unacked j (mgetD x.unacked j 0 + 1) })).collPiece
      x.owner (smClass x.image) m true (x.tileAddr j (x.elem % c0)) (bytesOf r 32)
/-- Records in the space take elements while some are ready. -/
def State.streamDrain (s : State) (k : Nat) : State :=
  iter (fun s =>
    let x := s.stream k
    match x.space with
    | [] => s
    | (r, n) :: t => if s.elemReady k && x.spilled.isEmpty then (s.modStream k (fun x => { x with space := t })).streamPut k r n else s)
    (s.stream k).space.length s
/-- The stream can take so many records: into elements that are ready, else into its space. -/
def State.streamRoom (s : State) (k n : Nat) : Bool :=
  let x := s.stream k
  x.state == .idle || x.space.isEmpty || decide (32 * n ≤ deliverySpaceFree x)
/-- A record that a stream's end keeps from being written (R323) is counted, and advances no counter (R342). -/
def State.dropRecord (s : State) (c n : Nat) : State :=
  ((s.countC c 0x10 1).modCompletion n (fun x => { x with
    fin := match x.fin with | .counter a k chip => .counter a (if 32 ≤ k then k - 32 else k) chip | f => f })).ackWrite n
/-- The records in a stream's space are dropped. -/
def State.dropSpace (s : State) (k : Nat) : State :=
  let x := s.stream k
  foldS x.space (s.modStream k (fun x => { x with space := [] })) (fun s r => s.dropRecord x.owner r.2)
/-- Gives records to the stream under completion n. -/
def State.streamTake (s : State) (k n : Nat) (rs : List Rec32) : State :=
  let s := s.modStream k (fun x => { x with space := x.space ++ rs.map (fun r => (r, n)), consumed := x.consumed + 32 * rs.length })
  s.streamDrain k

/-! ### BIN (R345 to R349) -/

/-- A word converted to TFMT with rd_near (R347). -/
def conv16 (tfmt : Nat) (ints : Bool) (w : Word) : BitVec 16 :=
  let f := if tfmt = 1 then bf16 else f16
  if ints then BitVec.ofNat 16 (rd .near f w.toInt)
  else match v32 w with
    | .nan => BitVec.ofNat 16 f.qnan
    | .inf neg => BitVec.ofNat 16 (f.infBits + (if neg then f.signBit else 0))
    | .num neg m => if m = 0 then BitVec.ofNat 16 (if neg then f.signBit else 0) else BitVec.ofNat 16 (rd .near f (FVal.rat (.num neg m)))
/-- The value rows of a result record (R347). -/
def resultRows (tfmt : Nat) (ints : Bool) (r : Rec32) : List (BitVec 16) :=
  [conv16 tfmt ints (fldv r 12 32), fldv r 24 16, fldv r 26 16, fldv r 16 16, fldv r 18 16, fldv r 20 16, fldv r 22 16, fldv r 4 16]
/-- The value rows of an emission. -/
def emissionRows (r : Rec32) : List (BitVec 16) := (List.range 16).map (fun f => fldv r (2 * f) 16)
/-- The bytes of a tile (R346); sectors under ueMask are zeros (R426). -/
def tileImage (c e key : Nat) (d : Rec64) (t : Tile) : List Byte :=
  let n := deN d
  let rows := if deContent d = 1 then 16 else 8
  let any := fun (p : TileEntry → Bool) => if t.entries.any p then 1 else 0
  let hdr : Rec64 := mkRec 512 [(0, 8, 1), (1, 8, deContent d), (2, 8, deTfmt d), (3, 8, n), (4, 16, key), (6, 16, t.entries.length),
    (8, 64, t.tseq), (16, 32, tileBytes d),
    (20, 8, (if t.partialFlush then 1 else 0) + 2 * any (·.late) + 4 * any (·.suspect)), (24, 16, c), (26, 16, e)]
  let at' := fun (i : Nat) => t.entries[i]?
  let body := bytesOf hdr 64 ++
    (List.range n).flatMap (fun i => bytesOf (match at' i with | some x => x.tag | none => 0) 4) ++
    (List.range n).flatMap (fun i => bytesOf (match at' i with | some x => x.user0 | none => 0) 4) ++
    (List.range rows).flatMap (fun f => (List.range n).flatMap (fun i => bytesOf (match at' i with | some x => nth x.rows f 0 | none => 0) 2))
  (List.range body.length).map (fun i => if t.ueMask / 2 ^ (i / 64) % 2 = 1 && decide (64 ≤ i) then 0 else nth body i 0)
/-- The class of a tile's handle (R330). -/
def Tile.cls (t : Tile) : Nat := (t.entries.map (·.cls)).foldl min 3
def State.binKey (s : State) (c e key : Nat) : BinKey := mgetD (s.deliv c e).keys key BinKey.reset
def State.modBin (s : State) (c e key : Nat) (f : BinKey → BinKey) : State :=
  s.modDeliv c e (fun x => { x with keys := mset x.keys key (f (mgetD x.keys key BinKey.reset)) })
/-- A key entry meets the ranges of R348. -/
def keyEntryOk (k : Rec32) : Bool :=
  (fld k 0 64) % 64 == 0 && decide (1 ≤ fld k 8 32) && decide (fld k 8 32 ≤ 2 ^ 24) && (fld k 16 64) % 8 == 0
/-- Asks for the consumed tile count of a key. -/
def State.readTiles (s : State) (c e key : Nat) (k : Rec32) : State := s.readFor c (addr64 (fldv k 16 64) 8) (.binConsumed c e key)
/-- Writes the tiles at the head of a key's queue while the ring has room (R348). -/
def State.writeTiles (s : State) (c e key : Nat) (d : Rec64) : State :=
  iter (fun s =>
    let b := s.binKey c e key
    match b.waiting, b.keyEntry with
    | t :: rest, some k =>
      if b.keyBad then (s.modBin c e key (fun b => { b with waiting := rest })).countC c 0x13 1
      else if t.tseq < b.consumed + fld k 8 32 then
        let s := s.modBin c e key (fun b => { b with waiting := rest, full := false })
        let a := addr64 (fldv k 0 64) (tileBytes d * (t.tseq % fld k 8 32))
        (s.collWrite c t.cls true (pieces 128 a (tileImage c e key d t)) (fldv k 16 64) (tileBytes d) (deChip d) none).count 32 1
      else if b.full then s
      else ((s.modBin c e key (fun b => { b with full := true })).countC c 0x14 1).readTiles c e key k
    | _, _ => s)
    ((s.binKey c e key).waiting.length + 1) s
/-- Closes the open tile of a key and queues it for writing; the key entry is read for the key's first tile. -/
def State.flushTile (s : State) (c e key : Nat) (d : Rec64) : State :=
  let b := s.binKey c e key
  match b.openTile with
  | none => s
  | some t =>
    let t := { t with partialFlush := decide (t.entries.length < deN d) }
    let s := s.modBin c e key (fun b => { b with openTile := none, waiting := b.waiting ++ [t] })
    if b.keyEntry.isSome then s.writeTiles c e key d
    else if b.waiting.isEmpty then s.readFor c (addr64 (deDest d) (32 * key)) (.keyEntry c e key)
    else s
/-- Keys with an open tile. -/
def Deliv.openKeys (x : Deliv) : List Nat := (x.keys.filter (fun k => k.2.openTile.isSome)).map (·.1)
/-- Flushes every open tile of an entry, or those that meet a condition. -/
def State.flushTiles (s : State) (c e : Nat) (p : Tile → Bool) : State :=
  match (s.deliv c e).raw with
  | none => s
  | some d => foldS (s.deliv c e).openKeys s (fun s key => match (s.binKey c e key).openTile with
      | some t => if p t then s.flushTile c e key d else s
      | none => s)
/-- The oldest open tile of the lowest class in the share (R349, item 5). -/
def State.earlyTile (s : State) : Option (Nat × Nat × Nat × Rec64) :=
  (leastBy (fun (x : List Nat × (Nat × Nat × Nat × Rec64)) => x.1)
    (s.allDelivs.flatMap (fun x => match x.2.2.raw with
      | some d => x.2.2.keys.filterMap (fun k => match k.2.openTile with
        | some t => some ([3 - t.cls, t.since, x.1, x.2.1, k.1], (x.1, x.2.1, k.1, d))
        | none => none)
      | none => []))).map (·.2)
/-- The key of a value below LIMIT, else MISS_KEY with a count. -/
def State.binKeyOf (s : State) (c : Nat) (d : Rec64) (key : Nat) : Nat × State :=
  if key < deLimit d then (key, s) else (deMissKey d, s.countC c 0x15 1)
/-- One entry joins the open tile of its key. -/
def State.binAdd (s : State) (c e key : Nat) (d : Rec64) (x : TileEntry) : State :=
  let b := s.binKey c e key
  let t := b.openTile.getD { entries := [], since := s.now, partialFlush := false, tseq := b.nextTseq, ueMask := 0 }
  let t := { t with entries := t.entries ++ [x] }
  let s := s.modBin c e key (fun b => { b with openTile := some t, nextTseq := if b.openTile.isSome then b.nextTseq else b.nextTseq + 1 })
  if t.entries.length = deN d then s.flushTile c e key d else s
/-- The key of a result record (R345): USER1 as the query held it at END. -/
def resultKey (d : Rec64) (user1 : Word) (r : Rec32) : Nat :=
  if fld r 4 8 = stMISS then deMissKey d
  else match deKeysrc d with
    | 0 => fbit user1 0 16
    | 1 => fld r 20 16
    | _ => (fldv r 16 32 >>> deShift d : Word).toNat % 65536
/-- The key of an emission: USER1 at the EMIT; an emission has no INST and no PRIM, and its key is then a free value
(assumption 17). -/
def State.emissionKey (s : State) (d : Rec64) (user1 : Word) : Nat × State :=
  if deKeysrc d = 0 then (fbit user1 0 16, s) else let (v, s) := s.draw; (v.toNat % 65536, s)

/-! ### ACCUM (R350 to R354) -/

/-- An f64 or f32 sum with rd_near (R353). -/
def gAdd (f : Fmt) (a b : Nat) : Nat :=
  match decodeF f a, decodeF f b with
  | .nan, _ | _, .nan => f.qnan
  | .inf s, .inf t => if s == t then f.infBits + (if s then f.signBit else 0) else f.qnan
  | .inf s, _ => f.infBits + (if s then f.signBit else 0)
  | _, .inf t => f.infBits + (if t then f.signBit else 0)
  | x, y => if x.rat + y.rat = 0 then (if x.neg && y.neg then f.signBit else 0) else rd .near f (x.rat + y.rat)
/-- The order of FMIN and FMAX on patterns: −0 below +0. -/
def gKey (f : Fmt) (a : Nat) : Int := if f.signBit ≤ a then -((a - f.signBit : Nat) : Int) - 1 else (a : Int)
/-- FMIN and FMAX in a format (R270, R353). -/
def gPick (f : Fmt) (max' : Bool) (a b : Nat) : Nat :=
  match (decodeF f a).isNan, (decodeF f b).isNan with
  | true, true => f.qnan
  | true, false => b
  | false, true => a
  | false, false => if decide (gKey f a ≤ gKey f b) != max' then a else b
/-- Combines two element values: op 0 ADD, 1 MIN, 2 MAX. -/
def combine (op etype : Nat) (a b : DWord) : DWord :=
  match etype with
  | 0 => if op = 0 then a + b else if op = 1 then (if a.toInt ≤ b.toInt then a else b) else (if a.toInt ≤ b.toInt then b else a)
  | 1 => if op = 0 then a + b else if op = 1 then (if a.toNat ≤ b.toNat then a else b) else (if a.toNat ≤ b.toNat then b else a)
  | 2 => BitVec.ofNat 64 (if op = 0 then gAdd f64 a.toNat b.toNat else gPick f64 (op == 2) a.toNat b.toNat)
  | _ =>
    let one := fun (x y : Nat) => if op = 0 then gAdd f32 x y else gPick f32 (op == 2) x y
    let lo := one (fbit a 0 32) (fbit b 0 32)
    let hi := one (fbit a 32 32) (fbit b 32 32)
    BitVec.ofNat 64 (hi * 2 ^ 32 + lo)
/-- The fabric operation of an OP of ACCUM. -/
def opOf (op : Nat) : AtomicOp := match op with | 0 => .add | 1 => .amin | _ => .amax
/-- Sends one update or merged value to its element. -/
def State.accSend (s : State) (c e cls : Nat) (d : Rec64) (i : Nat) (v : DWord) : State :=
  (s.atomicOut c cls (addr64 (deDest d) (8 * i)) (opOf (deOp d)) (deEtype d) v none (.accAtomic e)).2.count 35 1
/-- Merges the updates of a window to one element (R353): floating sums in ascending TAG, ties in arrival order. -/
def mergeUpdates (op etype : Nat) (us : List Update) : DWord :=
  let l := if op = 0 && 2 ≤ etype then sortBy (fun (u : Update) => [u.tag.toNat, u.order]) us else us
  match l with
  | [] => 0
  | u :: t => t.foldl (fun a x => combine op etype a x.value) u.value
/-- Closes the combining window of an entry: one atomic for each element (R352). -/
def State.closeWindow (s : State) (c e : Nat) (d : Rec64) : State :=
  match (s.deliv c e).window with
  | none => s
  | some w =>
    let s := s.modDeliv c e (fun x => { x with window := none })
    foldS ((w.ups.map (·.index)).reverse.dedup.reverse) s (fun s i =>
      s.accSend c e 0 d i (mergeUpdates (deOp d) (deEtype d) (w.ups.filter (fun u => u.index == i))))
/-- The updates of an emission (R350): index, value. -/
def updatesOf (r : Rec32) : List (Nat × DWord) :=
  [(fld r 0 32, (fldv r 8 64 : DWord)), (fld r 4 32, fldv r 16 64)].filter (fun u => u.1 != 0xFFFFFFFF)
/-- One update joins the window, or goes out as its own atomic when the share cannot hold it (R354). -/
def State.accUpdate (s : State) (c e cls : Nat) (d : Rec64) (tag : Word) (u : Nat × DWord) : State :=
  let s := s.count 34 1
  if deLimit d ≤ u.1 then s.countC c 0x17 1
  else
    if 65536 * s.shareAcc < s.accUsed + 16 then (s.countC c 0x16 1).accSend c e cls d u.1 u.2
    else
      let w := (s.deliv c e).window.getD { since := s.now, ups := [] }
      let w := { w with ups := w.ups ++ [{ index := u.1, value := u.2, tag := tag, order := w.ups.length }] }
      let s := s.modDeliv c e (fun x => { x with window := some w })
      if w.ups.length = 256 then s.closeWindow c e d else s

/-! ### GRID (R355 to R357) -/

/-- One update of a cell. -/
def State.gridUpdate (s : State) (c e : Nat) (d : Rec64) (u : Nat × DWord) : State :=
  if 256 * deLimit d ≤ u.1 then s.countC c 0x17 1
  else s.modDeliv c e (fun x =>
    let old := mgetD x.cells u.1 0
    { x with cells := mset x.cells u.1 (if deOp d = 0 then u.2 else combine (deOp d - 1) (deEtype d) old u.2) })
/-- The bytes of a grid tile. -/
def gridTile (x : Deliv) (t : Nat) : List Byte := (List.range 256).flatMap (fun i => bytesOf (mgetD x.cells (256 * t + i) 0) 8)
/-- The flush of R356. -/
def State.gridFlush (s : State) (c e : Nat) (d : Rec64) : State :=
  let x := s.deliv c e
  let ts := (List.range (deLimit d)).map (fun t => (t, gridTile x t))
  let dirty := ts.filter (fun t => mget x.sigs t.1 != some (crc32c t.2))
  let s := s.modDeliv c e (fun x => { x with
    sigs := dirty.foldl (fun m t => mset m t.1 (crc32c t.2)) x.sigs, cells := if deClear d then [] else x.cells })
  let s := (s.countC c 0x18 dirty.length).countC c 0x19 (deLimit d - dirty.length)
  s.collWrite c 0 true (dirty.flatMap (fun t => pieces 128 (addr64 (deDest d) (2048 * t.1)) t.2)) (deCntAddr d) (2048 * deLimit d) (deChip d) none

/-! ### Frames (R351) -/

/-- The end of a frame of an entry. -/
def State.endFrame (s : State) (c e : Nat) : State :=
  match (s.deliv c e).raw with
  | none => s
  | some d =>
    let s := s.modDeliv c e (fun x => { x with frameChains := 0 })
    match deMode d with
    | 2 => s.flushTiles c e (fun _ => true)
    | 3 =>
      let s := s.closeWindow c e d
      let out := (s.completions.filter (fun x => x.ctx == c && x.fin == .accAtomic e)).map (·.n)
      if out.isEmpty then s.counterAdd c 0 (deCntAddr d) 1 (deChip d)
      else s.modDeliv c e (fun x => { x with frameAtomics := x.frameAtomics ++ [out] })
    | 4 => if (s.deliv c e).gridOk then s.gridFlush c e d else s
    | _ => s
/-- A chain that names the entry has been accepted. -/
def State.frameChain (s : State) (c e : Nat) (d : Rec64) : State :=
  let n := (s.deliv c e).frameChains + 1
  let s := s.modDeliv c e (fun x => { x with frameChains := n })
  if deFrame d ≠ 0 ∧ deFrame d ≤ n then s.endFrame c e else s

/-! ### Taking heads (R338, R359) -/

/-- An item that names an invalid entry is dropped (R337). -/
def State.invalidItem (s : State) (c e n : Nat) : State :=
  let s := s.countC c 0x13 n
  if (s.deliv c e).told then s
  else (s.modDeliv c e (fun x => { x with told := true })).report 0x13 2 c noUnit noUnit e
/-- A chain frees its pool slot once it is accepted (R24). -/
def State.freeChain (s : State) (slot : Option Nat) : State := match slot with | some p => s.releaseSlot p | none => s
/-- The chain of RECORD, SLOT (R342). Slots below 128 bytes share their lines, so more writes to such a line are expected; the
lines of a larger slot get no further write (R381, and the worked example of 10_result_delivery.md). -/
def State.slotChain (s : State) (c e cls : Nat) (d : Rec64) (tag : Word) (rs : List Rec32) : State :=
  let slot := (tag >>> deShift d).toNat % deLimit d
  let w := rs.take (2 ^ deSlotLog d)
  let s := s.countC c 0x10 (rs.length - w.length)
  let base := addr64 (deDest d) (32 * 2 ^ deSlotLog d * slot)
  let cnt := addr64 (deCntAddr d) (8 * (slot / 2 ^ deCshift d))
  s.collWrite c cls (decide (deSlotLog d < 2)) (pieces 128 base (recBytes w)) cnt (if deCunit d then 1 else 32 * w.length) (deChip d) (some (e, w))
/-- The chain of RECORD, STREAM (R343): with the stream ended, no record is written (R323). -/
def State.streamChain (s : State) (c e cls : Nat) (d : Rec64) (rs : List Rec32) : State :=
  let k := deStream d
  if (s.stream k).state == .idle || (s.stream k).owner != c then
    (s.countC c 0x10 rs.length).counterAdd c cls (deCntAddr d) (if deCunit d then 1 else 0) (deChip d)
  else if rs.isEmpty then s.counterAdd c cls (deCntAddr d) (if deCunit d then 1 else 0) (deChip d)
  else
    let (n, s) := s.addCompletion c cls rs.length (.counter (deCntAddr d) (if deCunit d then 1 else 32 * rs.length) (deChip d))
    (s.carries n e []).streamTake k n rs
/-- Each record of a chain is binned (R345). -/
def State.binChain (s : State) (c e cls : Nat) (d : Rec64) (user1 : Word) (late ints : Bool) (rs : List Rec32) : State :=
  foldS rs s (fun s r =>
    let (key, s) := s.binKeyOf c d (resultKey d user1 r)
    s.binAdd c e key d { tag := fldv r 0 32, user0 := fldv r 28 32, rows := resultRows (deTfmt d) ints r, cls := cls, late := late,
                         suspect := fbit r 46 1 == 1 })
/-- The items of an emission group (R338). -/
def State.takeEmits (s : State) (c e cls : Nat) (d : Rec64) (ems : List (Word × Word × Word × Rec32)) : State :=
  match deMode d with
  | 1 =>
    if deTarget d = 0 then s.countC c 0x11 ems.length
    else
      let k := deStream d
      if (s.stream k).state == .idle || (s.stream k).owner != c then s.countC c 0x10 ems.length
      else
        let (n, s) := s.addCompletion c cls ems.length .nothing
        s.streamTake k n (ems.map (fun x => x.2.2.2))
  | 2 =>
    if deContent d = 0 then s.countC c 0x11 ems.length
    else foldS ems s (fun s x =>
      let (key, s) := s.emissionKey d x.2.2.1
      let (key, s) := s.binKeyOf c d key
      s.binAdd c e key d { tag := x.1, user0 := x.2.1, rows := emissionRows x.2.2.2, cls := cls, late := false, suspect := false })
  | 3 => foldS ems s (fun s x => foldS (updatesOf x.2.2.2) s (fun s u => s.accUpdate c e cls d x.1 u))
  | _ =>
    if (s.deliv c e).gridOk then foldS ems s (fun s x => foldS (updatesOf x.2.2.2) s (fun s u => s.gridUpdate c e d u))
    else s.countC c 0x1A ems.length
/-- A chain goes to the exception route (R69, R338). -/
def excRoute (d : Rec64) (exc : Bool) (status : Nat) : Bool :=
  exc || ((deMode d == 3 || deMode d == 4 || (deMode d == 2 && deContent d == 1)) &&
    (status == stLATE || status == stINCOMPLETE || status == stSUSPECT))
/-- A chain of a valid entry is accepted. -/
def State.takeChain (s : State) (c e cls status : Nat) (d : Rec64) (recs : List Rec32) (exc : Bool) (tag user1 : Word)
    (late ints : Bool) : State :=
  let s :=
    if excRoute d exc status then (if recs.isEmpty then s else s.excChain c e cls d recs)
    else match deMode d with
      | 1 => if deTarget d = 0 then s.slotChain c e cls d tag recs else s.streamChain c e cls d recs
      | 2 => if deContent d = 0 then s.binChain c e cls d user1 late ints recs else s
      | _ => s
  s.frameChain c e d
def CItem.ctx : CItem → Nat
  | .chain c _ _ _ _ _ _ _ _ _ _ _ _ => c
  | .emits c _ _ _ _ => c
def CItem.entry : CItem → Nat
  | .chain _ e _ _ _ _ _ _ _ _ _ _ _ => e
  | .emits _ e _ _ _ => e
def CItem.cls : CItem → Nat
  | .chain _ _ _ k _ _ _ _ _ _ _ _ _ => k
  | .emits _ _ k _ _ => k
/-- Records or emissions that an item brings. -/
def CItem.size : CItem → Nat
  | .chain _ _ _ _ _ rs _ _ _ _ _ _ _ => rs.length
  | .emits _ _ _ ems _ => ems.length
/-- A key as it is binned: MISS_KEY stands for one at or above LIMIT (R345). -/
def keyBelow (d : Rec64) (key : Nat) : Nat := if key < deLimit d then key else deMissKey d
/-- The keys that an item's records or emissions join, none where the key is a free value (assumption 17). -/
def itemKeys (d : Rec64) (i : CItem) : List (Option Nat) :=
  if deMode d ≠ 2 then []
  else match i with
    | .chain _ _ _ _ status rs exc _ _ _ u1 _ _ =>
      if excRoute d exc status || deContent d = 1 then [] else rs.map (fun r => some (keyBelow d (resultKey d u1 r)))
    | .emits _ _ _ ems _ =>
      if deContent d = 0 then []
      else if deKeysrc d = 0 then ems.map (fun y => some (keyBelow d (fbit y.2.2.1 0 16))) else ems.map (fun _ => none)
/-- Entries that the open tile of a key holds. -/
def Deliv.openLen (x : Deliv) (key : Nat) : Nat :=
  match (mget x.keys key).bind (·.openTile) with | some t => t.entries.length | none => 0
/-- Tiles that an item opens. -/
def tilesOpened (d : Rec64) (x : Deliv) (i : CItem) : Nat :=
  let ks := itemKeys d i
  let known := ks.filterMap id
  (ks.filter Option.isNone).length +
  ((firsts known).map (fun k =>
    let m := x.openLen k
    cdiv (m + (known.filter (· == k)).length) (deN d) - (if m = 0 then 0 else 1))).foldl (· + ·) 0
/-- Bytes of the BIN share that an item needs for records in transit: those of a RECORD SLOT chain and of the exception route. -/
def transitBytes (d : Rec64) (i : CItem) : Nat :=
  match i with
  | .chain _ _ _ _ status rs exc _ _ _ _ _ _ =>
    if excRoute d exc status then 32 * rs.length else if deMode d = 1 ∧ deTarget d = 0 then 32 * min rs.length (2 ^ deSlotLog d) else 0
  | .emits .. => 0
/-- The BIN share can hold what an item brings. Tiles that must open make room by early flushes (R349, item 5). -/
def State.binTakes (s : State) (d : Rec64) (i : CItem) : State × Bool :=
  let fits := fun (s : State) =>
    decide (s.binUsed + transitBytes d i + tileBytes d * tilesOpened d (s.deliv i.ctx i.entry) i ≤ 65536 * s.shareBin)
  let s := iter (fun s =>
    if fits s || tilesOpened d (s.deliv i.ctx i.entry) i = 0 then s
    else match s.earlyTile with
      | some (c, e, key, d) => (s.flushTile c e key d).count 33 1
      | none => s) 64 s
  (s, fits s || (transitBytes d i == 0 && tilesOpened d (s.deliv i.ctx i.entry) i == 0))
/-- The addresses of the lines that go to a delivery port: a line written whole, or one to which no more writes are expected
(R381). -/
def portLines (keep : Bool) (ws : List (DWord × List Byte)) : List DWord :=
  (ws.filter (fun w => w.2.length == 128 || !keep)).map (·.1)
/-- The addresses whose delivery ports an item writes to as it is taken (R359): the lines of a SLOT chain, those of the tiles that
it fills, and the elements of the window that it fills or of updates that find no room in the share. The records of the exception
route and of a stream go into owned lines (R381). -/
def State.itemPorts (s : State) (d : Rec64) (x : Deliv) (i : CItem) : List DWord :=
  match deMode d, i with
  | 1, .chain _ _ _ _ status recs exc _ tag _ _ _ _ =>
    if excRoute d exc status || deTarget d != 0 then []
    else
      let slot := (tag >>> deShift d).toNat % deLimit d
      portLines (decide (deSlotLog d < 2)) (pieces 128 (addr64 (deDest d) (32 * 2 ^ deSlotLog d * slot)) (recBytes (recs.take (2 ^ deSlotLog d))))
  | 2, _ =>
    let ks := (itemKeys d i).filterMap id
    (firsts ks).flatMap (fun k => match mget x.keys k with
      | some b => match b.keyEntry with
        | some ke => if deN d ≤ x.openLen k + (ks.filter (· == k)).length then
            portLines true (pieces 128 (addr64 (fldv ke 0 64) (tileBytes d * (b.nextTseq % fld ke 8 32))) (List.replicate (tileBytes d) 0)) else []
        | none => []
      | none => [])
  | 3, .emits _ _ _ ems _ =>
    let us := (ems.flatMap (fun y => updatesOf y.2.2.2)).filter (fun u => decide (u.1 < deLimit d))
    let held := match x.window with | some w => w.ups.map (·.index) | none => []
    let free := (65536 * s.shareAcc - s.accUsed) / 16
    ((if 256 ≤ held.length + us.length then firsts (held ++ us.map (·.1)) else (us.drop free).map (·.1))).map (fun n => addr64 (deDest d) (8 * n))
  | _, _ => []
/-- Emissions of the query in a pool slot wait in a source of the collector: its chain is held back (R341). -/
def State.emissionsWait (s : State) (p : Nat) : Bool :=
  let mine := fun (i : CItem) => match i with | .emits _ _ _ _ ps => ps.contains p | .chain .. => false
  s.fwdQ.any mine || s.walkQ.any (fun q => q.2.any (fun h => mine h.item))
/-- The item is a chain whose query has emissions that wait. -/
def State.heldBack (s : State) : CItem → Bool
  | .chain _ _ (some p) _ _ _ _ _ _ _ _ _ _ => s.emissionsWait p
  | _ => false
/-- An item of a valid entry is taken. -/
def State.take (s : State) (d : Rec64) : CItem → State
  | .chain c e slot cls status recs exc _ tag _ user1 late ints =>
    (s.takeChain c e cls status d recs exc tag user1 late ints).freeChain slot
  | .emits c e cls ems _ => s.takeEmits c e cls d ems
/-- An item of an invalid entry is dropped. -/
def State.dropItem (s : State) : CItem → State
  | .chain c e slot _ _ _ _ _ _ _ _ _ _ => (s.invalidItem c e 1).freeChain slot
  | .emits c e _ ems _ => s.invalidItem c e ems.length
/-- Tries to accept an item; false leaves it at the head of its source. An entry that is not read is asked for (R337). -/
def State.accept (s : State) (i : CItem) : State × Bool :=
  let c := i.ctx
  let e := i.entry
  match mget (s.ctx c).delivs e with
  | none => ((s.modDeliv c e (fun x => x)).readFor c (addr64 (dDelivTable (s.ctx c).desc) (64 * e)) (.deliveryEntry c e), false)
  | some x =>
    match x.raw with
    | none => (s, false)
    | some d =>
      if s.heldBack i then (s, false)
      else if !x.valid then (s.dropItem i, true)
      else match s.binTakes d i with
      | (s, false) => (s, false)
      | (s, true) =>
        if !s.portsRoom i.cls (s.itemPorts d (s.deliv c e) i) then (s, false)
        else if deMode d = 1 && deTarget d = 1 && !s.streamRoom (deStream d) i.size then (s, false)
        else ((s.take d i).writeSpine collLine, true)

/-- The collector's sources in the order of R359 from the rotation's place: 0 front end, 1 scheduler, 2 forward ports,
and 3 + g for the handle queue of grove g's walk cores, in their own rotation (R331). -/
def State.sources (s : State) : List Nat :=
  ((List.range 4).map (fun i => (s.collRot + i) % 4)).flatMap (fun k =>
    if k < 3 then [k] else (List.range 16).map (fun i => 3 + (s.walkRot + i) % 16))
/-- What a walk queue offers: its front, and the escape entries of a higher class, which pass a front that cannot be taken (R330,
R359), unless an earlier entry holds emissions of the same queries (R292; assumption 116). -/
def offers (q : List (HEntry CItem)) : List (Nat × CItem) :=
  let slots := fun (i : CItem) => match i with | .emits _ _ _ _ ps => ps | .chain _ _ p _ _ _ _ _ _ _ _ _ _ => p.toList
  match q with
  | [] => []
  | f :: _ =>
    (0, f.item) :: (sortBy (fun (e : Nat × CItem) => [e.2.cls])
      ((q.zipIdx.filter (fun e => e.1.esc && decide (0 < e.2) && decide (e.1.cls < f.cls) &&
        !(q.take e.2).any (fun y => (slots y.item).any (slots e.1.item).contains))).map (fun e => (e.2, e.1.item))))
/-- What a source offers, by place in its queue. -/
def State.heads (s : State) (k : Nat) : List (Nat × CItem) :=
  match k with
  | 0 => (s.feQ.head?.map (fun i => (0, i))).toList
  | 1 => (s.schedQ.head?.map (fun i => (0, i))).toList
  | 2 => (s.fwdQ.head?.map (fun i => (0, i))).toList
  | k => offers (mgetD s.walkQ (k - 3) [])
/-- Takes an item of a source away by its place; the rotation goes on after the source. -/
def State.popHead (s : State) (k j : Nat) : State :=
  match k with
  | 0 => { s with feQ := s.feQ.tail, collRot := 1 }
  | 1 => { s with schedQ := s.schedQ.tail, collRot := 2 }
  | 2 => { s with fwdQ := s.fwdQ.tail, collRot := 3 }
  | k => { s with walkQ := mset s.walkQ (k - 3) ((mgetD s.walkQ (k - 3) []).eraseIdx j), collRot := 0, walkRot := (k - 3 + 1) % 16 }
/-- Some chain of a context that the deadline cut ended still waits for the collector. -/
def State.lateWaits (s : State) (c : Nat) : Bool :=
  let late := fun (i : CItem) => match i with | .chain x _ _ _ _ _ _ _ _ _ _ l _ => x == c && l | _ => false
  s.feQ.any late || s.schedQ.any late || s.fwdQ.any late || s.walkQ.any (fun q => q.2.any (fun h => late h.item))
/-- Item 3 of R349: once the cut of a context is over and its last LATE chain has been placed, tiles that hold a DISPLAY entry are
flushed. -/
def State.cutFlush (s : State) (c : Nat) : State :=
  if (s.ctx c).cut.isNone && !s.lateWaits c then
    foldS (s.ctx c).delivs s (fun s e => s.flushTiles c e.1 (fun t => t.entries.any (fun x => x.cls == 0)))
  else s
/-- What follows when an item has been taken. -/
def State.taken' (s : State) : CItem → State
  | .chain c _ _ _ _ _ _ _ _ _ _ true _ => s.cutFlush c
  | _ => s
/-- Everything that the sources offer, in rotation: source, place, item. -/
def State.allHeads (s : State) : List (Nat × Nat × CItem) := s.sources.flatMap (fun k => (s.heads k).map (fun e => (k, e.1, e.2)))
/-- The first offer that can be taken is taken. -/
def State.takeFirst (s : State) : List (Nat × Nat × CItem) → State
  | [] => s
  | (k, j, i) :: t =>
    match s.accept i with
    | (s, true) => (s.popHead k j).taken' i
    | (s, false) => s.takeFirst t

/-! ### Errors in the collector store (R188, R426) -/

/-- What a line of the collector store holds. -/
inductive CollUE where
  | item (queue index : Nat)
  | transit (completion : Nat)
  | exception (c e index : Nat)
  | space (stream completion : Nat)
  | tile (c e key index : Nat)
  | update (c e index : Nat)
  | grid (c e tile : Nat)
  deriving DecidableEq, Repr
/-- The queue of items of a number: front end, scheduler, forward unit, then a walk grove. -/
def State.itemQ (s : State) (q : Nat) : List CItem :=
  match q with | 0 => s.feQ | 1 => s.schedQ | 2 => s.fwdQ | g + 3 => (mgetD s.walkQ g []).map (·.item)
/-- Everything that the collector store holds. -/
def State.collHolds (s : State) : List CollUE :=
  (List.range 19).flatMap (fun q => (List.range (s.itemQ q).length).map (fun i => .item q i)) ++
  s.completions.filterMap (fun x => match x.chain with | some (_, _ :: _) => some (.transit x.n) | _ => none) ++
  s.streams.flatMap (fun k => (firsts (k.2.space.map (·.2))).map (fun n => .space k.1 n)) ++
  s.allDelivs.flatMap (fun x => match x with
    | (c, e, d) =>
      (List.range d.excWait.length).map (fun i => .exception c e i) ++
      d.keys.flatMap (fun k => (List.range (k.2.waiting.length + (if k.2.openTile.isSome then 1 else 0))).map (fun i => CollUE.tile c e k.1 i)) ++
      (match d.window with | some w => (List.range w.ups.length).map (fun i => CollUE.update c e i) | none => []) ++
      (match d.raw with
       | some r => if d.valid && deMode r == 4 && d.gridOk then (List.range (deLimit r)).map (fun t => CollUE.grid c e t) else []
       | none => []))
/-- The record that replaces a damaged chain, whose first record is given. -/
def damagedRecord (r0 : Rec32) : Rec32 :=
  resultRecord (fldv r0 0 32) stERR_DATA (1 + fld r0 5 8 / 8 % 2 * 8 + fld r0 5 8 / 32 % 2 * 32) 0 1 (fbit r0 80 4)
    (BitVec.ofNat 32 errCOLLECT_UE) absent absent 0 0 (fldv r0 28 32)
/-- A chain replaced by one ERR_DATA record on the exception route; emissions in transit, which R426 does not name, are discarded
as its updates are (assumption 117). -/
def CItem.damaged : CItem → CItem
  | .chain c e slot cls _ recs _ _ tag u0 u1 _ ints =>
    .chain c e slot cls stERR_DATA [damagedRecord (nth recs 0 (mkRec 256 [(0, 32, tag.toNat), (28, 32, u0.toNat)]))] true false tag u0 u1 false ints
  | .emits c e cls _ ps => .emits c e cls [] ps
/-- Writes of a completion that have not gone out are given up. -/
def State.withdraw (s : State) (n : Nat) : State :=
  let queued := ((s.ports.flatMap (·.2)).filter (fun h => match h.item with | .write _ _ _ m => m == n | .atomic .. => false)).length +
    (s.ownWrites.filter (fun w => w.completion == n)).length
  let s := { s with ports := mmap s.ports (fun _ q => q.filter (fun h => match h.item with | .write _ _ _ m => m != n | .atomic .. => true)),
                    ownWrites := s.ownWrites.filter (fun w => w.completion != n) }
  iter (fun s => s.ackWrite n) queued s
/-- The chain of which a record is damaged is replaced on the exception route of its entry. -/
def State.replaceChain (s : State) (c e cls : Nat) (rs : List Rec32) : State :=
  match (s.deliv c e).raw, rs with
  | some d, r0 :: _ => s.excChain c e cls d [damagedRecord r0]
  | _, _ => s
/-- An uncorrectable error in a line of the collector store that holds something: the context, entry, key or tile, and sector
mask of its log record, and the state. The sector is a free value. -/
def State.collDamage (s : State) (t : CollUE) (v : Nat) : Nat × Nat × Nat × Nat × State :=
  match t with
  | .item q i =>
    let fix := fun (l : List CItem) => l.modify i CItem.damaged
    let ce := match (s.itemQ q)[i]? with | some y => (y.ctx, y.entry) | none => (noUnit, 0)
    (ce.1, ce.2, 0, 0, match q with
      | 0 => { s with feQ := fix s.feQ }
      | 1 => { s with schedQ := fix s.schedQ }
      | 2 => { s with fwdQ := fix s.fwdQ }
      | g + 3 => { s with walkQ := mset s.walkQ g ((mgetD s.walkQ g []).modify i (fun h => { h with item := h.item.damaged })) })
  | .transit n =>
    match s.completions.find? (fun x => x.n == n) with
    | some x => match x.chain with
      | some (e, rs) => (x.ctx, e, 0, 0, (s.withdraw n).replaceChain x.ctx e x.cls rs)
      | none => (x.ctx, 0, 0, 0, s)
    | none => (noUnit, 0, 0, 0, s)
  | .exception c e i =>
    (c, e, 0, 0, s.modDeliv c e (fun x => { x with excWait := x.excWait.modify i (fun w => { w with rest := (w.rest.take 1).map damagedRecord }) }))
  | .space k n =>
    let x := s.stream k
    let mine := x.space.filter (fun r => r.2 == n)
    let e := match s.completions.find? (fun y => y.n == n) with | some y => (match y.chain with | some (e, _) => e | none => 0) | none => 0
    let s := s.modStream k (fun x => { x with space := x.space.filter (fun r => r.2 != n) })
    (x.owner, e, 0, 0, (foldS mine s (fun s r => s.dropRecord x.owner r.2)).replaceChain x.owner e (smClass x.image) (mine.map (·.1)))
  | .tile c e key i =>
    let n := match (s.deliv c e).raw with | some d => tileBytes d / 64 | none => 1
    let m := 2 ^ (v % max 1 n)
    let hit := fun (x : Tile) => { x with ueMask := x.ueMask ||| m }
    (c, e, key, m % 2 ^ 32, s.modBin c e key (fun b =>
      if i < b.waiting.length then { b with waiting := b.waiting.modify i hit } else { b with openTile := b.openTile.map hit }))
  | .update c e i => (c, e, 0, 0, s.modDeliv c e (fun x => { x with window := x.window.map (fun w => { w with ups := w.ups.eraseIdx i }) }))
  | .grid c e t =>
    let k := v % 32
    (c, e, t, 2 ^ k, s.modDeliv c e (fun x => { x with
      cells := mfilter x.cells (fun i _ => !(decide (256 * t + 8 * k ≤ i) && decide (i < 256 * t + 8 * k + 8))), sigs := merase x.sigs t }))
/-- R426: something in the collector store is damaged; it is counted and logged. -/
def State.collFault (s : State) (inj : Bool) (t : CollUE) : State :=
  match s.draw with
  | (v, s) => match s.collDamage t v.toNat with
    | (c, e, key, mask, s) => ((s.countC c 0x25 1).logInj inj 6 1 c noUnit noUnit (e + 2 ^ 16 * (key % 2 ^ 16) + 2 ^ 32 * mask)).interrupt 1
/-- What the collector's read of something in its store finds: a corrected error is counted (R187), another one damages it. Which of
the store's lines it lies in is a free value. -/
def State.collRead (s : State) (err : Option EccError) (t : Option CollUE) : State :=
  match t with
  | none => s
  | some t =>
    match (match err with
      | none => (collLine, s)
      | some _ => (match s.draw with | (v, s) => (collLine + v.toNat % 131072, s))) with
    | (line, s) => match s.spineRead line err with
      | (s, false) => s
      | (s, true) => s.collFault err.isNone t
/-- COLLECTOR_TAKE_HEAD (R359): the first head in rotation that can be taken; err is what the read of the first head offered
finds in the store (R424). -/
def doCollectorTakeHead (err : Option EccError) (s : State) : State :=
  let s := s.collRead err (s.allHeads.head?.map (fun x => .item x.1 x.2.1))
  s.takeFirst s.allHeads

/-! ### Commands of the collector -/

/-- DELIVERY_ENTRY_FETCH: a delivery entry (R337), or the key entry in its low 32 bytes (R348). -/
def doDeliveryEntryFetch (c e : Nat) (key : Option Nat) (entry : Rec64) (s : State) : State :=
  match key with
  | none =>
    match mget (s.ctx c).delivs e with
    | none => s
    | some x =>
      if x.raw.isSome then s
      else
        let ok := s.deliveryOk c entry
        let fits := deMode entry != 4 || decide (s.gridUsed + 2048 * deLimit entry ≤ 65536 * s.shareGrid)
        let s := s.modDeliv c e (fun x => { x with raw := some entry, valid := ok, gridOk := fits })
        if ok && !fits then s.report 0x15 2 c noUnit noUnit e else s
  | some k =>
    match (s.deliv c e).raw with
    | none => s
    | some d =>
      let b := s.binKey c e k
      if b.keyEntry.isSome || b.waiting.isEmpty then s
      else
        let ke : Rec32 := entry.setWidth 256
        (s.modBin c e k (fun b => { b with keyEntry := some ke, keyBad := !keyEntryOk ke })).writeTiles c e k d
/-- BIN_AGE_FLUSH (R349, item 2); err is what the read of the tile finds (R424, R426). -/
def doBinAgeFlush (c e key : Nat) (err : Option EccError) (s : State) : State :=
  match (s.deliv c e).raw with
  | some d =>
    let b := s.binKey c e key
    if deAge d = 0 || b.openTile.isNone then s else (s.collRead err (some (.tile c e key b.waiting.length))).flushTile c e key d
  | none => s
/-- BIN_RING_REREAD (R348): the consumed count is read again while a tile waits. -/
def doBinRingReread (c e key : Nat) (consumed : DWord) (s : State) : State :=
  match (s.deliv c e).raw, (s.binKey c e key).keyEntry with
  | some d, some k =>
    if (s.binKey c e key).full then
      let before := (s.binKey c e key).waiting.length
      let s := (s.modBin c e key (fun b => { b with consumed := consumed.toNat })).writeTiles c e key d
      if (s.binKey c e key).waiting.length = before then s.readTiles c e key k else s
    else s
  | _, _ => s
/-- ACCUM_WINDOW_CLOSE (R352): AGE has passed, or the cycle after the opening when AGE is 0; err is what the read of the window's
first update finds (R424, R426). -/
def doAccumWindowClose (c e : Nat) (err : Option EccError) (s : State) : State :=
  match (s.deliv c e).raw with
  | some d => (s.collRead err (if (s.deliv c e).window.isSome then some (.update c e 0) else none)).closeWindow c e d
  | none => s
/-- WRITE_ACKNOWLEDGED (R340, R364). -/
def doWriteAcknowledged (n : Nat) (s : State) : State :=
  if s.completions.any (fun x => x.n == n) then s.ackWrite n else s.ghostDone n
/-- The flush of an entry that COLLECT_FLUSH or a close asks for (R349, R351). -/
def State.flushEntry (s : State) (c e : Nat) : State := s.endFrame c e
/-- The collector flushes before a context closes (R360): every tile; every frame that has begun. -/
def State.closeFlush (s : State) (c : Nat) : State :=
  foldS (s.ctx c).delivs s (fun s e => match e.2.raw with
    | some d =>
      if !e.2.valid then s
      else if deMode d = 2 then s.flushTiles c e.1 (fun _ => true)
      else if 0 < e.2.frameChains || e.2.window.isSome then s.endFrame c e.1 else s
    | none => s)
/-- The collector holds nothing of a context. -/
def State.collectorIdle (s : State) (c : Nat) : Bool :=
  let mine := fun (i : CItem) => i.ctx == c
  !s.feQ.any mine && !s.schedQ.any mine && !s.fwdQ.any mine && !s.walkQ.any (fun q => q.2.any (fun h => mine h.item)) &&
  !s.completions.any (fun x => x.ctx == c) &&
  (s.ctx c).delivs.all (fun e => e.2.window.isNone && e.2.excWait.isEmpty && e.2.keys.all (fun k => k.2.openTile.isNone && k.2.waiting.isEmpty))

/-! ### The commands -/

/-- COLLECTOR_TAKE_HEAD. -/
def execCollectorTakeHead (s : State) (err : Option EccError := none) : Host.Outcome State Fault Refusal := .next (doCollectorTakeHead err s)
/-- EXC_CONSUMED_READ. -/
def execExcConsumedRead (c : CtxNo) (e : EntryNo) (consumed : DWord) (s : State) : Host.Outcome State Fault Refusal := .next (doExcConsumedRead c e consumed (s.readBack c))
/-- BIN_AGE_FLUSH. -/
def execBinAgeFlush (c : CtxNo) (e : EntryNo) (key : BitVec 16) (s : State) (err : Option EccError := none) : Host.Outcome State Fault Refusal := .next (doBinAgeFlush c e key.toNat err s)
/-- BIN_RING_REREAD. -/
def execBinRingReread (c : CtxNo) (e : EntryNo) (key : BitVec 16) (consumed : DWord) (s : State) : Host.Outcome State Fault Refusal := .next (doBinRingReread c e key.toNat consumed (s.readBack c))
/-- ACCUM_WINDOW_CLOSE. -/
def execAccumWindowClose (c : CtxNo) (e : EntryNo) (s : State) (err : Option EccError := none) : Host.Outcome State Fault Refusal := .next (doAccumWindowClose c e err s)
/-- WRITE_ACKNOWLEDGED. -/
def execWriteAcknowledged (completion : Nat) (s : State) : Host.Outcome State Fault Refusal := .next (doWriteAcknowledged completion s)
/-- DELIVERY_ENTRY_FETCH. -/
def execDeliveryEntryFetch (c : CtxNo) (e : EntryNo) (key : Option (BitVec 16)) (entry : Rec64) (s : State) : Host.Outcome State Fault Refusal :=
  .next (doDeliveryEntryFetch c e (key.map BitVec.toNat) entry (s.readBack c))

end Sys2Proof.Machine
end

