-- ==== Sys2Proof/Machine/Contexts.lean ====
section
/-! DEFINITION. Machine/Contexts.lean: streams that end (R299, R321 to R323), kills (R253, R445), closes (R444), the
deadline cut (R226 to R229), opening (R440 to R446), the countdown (R453, R454), translation (R455 to R458), and the
tables a context reads (R77, R233 to R236). -/
namespace Sys2Proof.Machine

/-! ### Streams that end -/

/-- The staged blocks of a stream leave every leaf cache. -/
def State.dropStaged (s : State) (k : Nat) : State :=
  { s with groves := s.groves.map (fun (g : Grove) => { g with leafCache := g.leafCache.filter (fun b =>
    match b.staged with | some (k', _) => k' != k | none => true) }) }
/-- A handle of a stream's tile. -/
def LeafHandle.ofStream (k : Nat) : LeafHandle → Bool
  | .tile k' _ _ => k' == k
  | .block .. => false
/-- The transfers of a stream's tiles serve nothing any more: one that waits for a slot goes, one at work asks for no further line
and retires under no stream's name. -/
def State.orphanTiles (s : State) (k : Nat) : State :=
  let mine := fun (w : XferWhat) => match w with | .tile i _ => i == k | _ => false
  { s with xfers := (s.xfers.filter (fun x => !(mine x.what && x.waiting))).map (fun x =>
      if mine x.what then { x with what := .tile 2048 0, fin := true, todo := [] } else x) }
/-- The handles of a stream's tiles leave the leaf handle queues. -/
def State.dropTileHandles (s : State) (k : Nat) : State :=
  { s with leafQ := mfilter (mmap s.leafQ (fun _ q => q.filter (fun h => !h.item.ofStream k))) (fun _ q => !q.isEmpty),
           leafHeld := s.leafHeld.filter (fun h => !h.2.2.ofStream k) }
/-- The stream becomes IDLE; a strand that waits for its CANCEL returns 0. What it staged is discarded (assumption 33), and the
element writes that are still on their way count for no tile of a later arming. -/
def State.idleStream (s : State) (k : Nat) : State :=
  let x := s.stream k
  let s := { ((s.dropStaged k).orphanTiles k).dropTileHandles k with
    streams := merase s.streams k,
    completions := s.completions.map (fun (y : Completion) => match y.fin with
      | .element i j p => if i = k then { y with fin := .element 2048 j p } else y
      | _ => y) }
  match (s.ctx x.owner).strand.state with
  | .waiting (.cancel rd j) => if j = k then s.wake x.owner rd 0 else s
  | _ => s
/-- Every tile of the current arming has been issued. -/
def Stream.issuedAll (x : Stream) : Bool := decide (x.tileBase + smTiles x.image ≤ x.nextTile)
/-- REARM takes effect (R300, R321): the new base, and the tiles of the new arming from the next number on. -/
def Stream.rearm (x : Stream) (b : DWord) : Stream :=
  { x with base := b, pend := none, tileBase := x.nextTile, bases := (x.nextTile, b) :: x.bases }
/-- What follows when a transfer of the stream has retired, a tile is complete, or the stream is told to end (R300, R321,
R323): REARM goes by the transfers, IDLE by the tiles. -/
def State.settleStream (s : State) (k : Nat) : State :=
  let x := s.stream k
  if x.state == .idle || !x.inflight.isEmpty then s
  else if x.cancelling then (s.dropSpace k).idleStream k
  else if !x.issuedAll || !x.again.isEmpty then s
  else match x.pend with
  | some b => s.modStream k (fun x => x.rearm b)
  | none =>
    if smKind x.image = 2 && x.closing then (if x.elemsLeft = 0 then (s.dropSpace k).idleStream k else s)
    else if smPersist x.image || x.state != .running || !x.undone.isEmpty then s
    else (s.dropSpace k).idleStream k
/-- As CANCEL (R299, R323): nothing more is issued, a pending REARM is dropped, what the stream staged serves no further lookup,
and the stream is IDLE once its transfers have retired. Tiles that still wait for a transfer slot are given up; those at work ask
for no further line. -/
def State.cancelStream (s : State) (k : Nat) : State :=
  if (s.stream k).state == .idle then s
  else
    let mine := fun (w : XferWhat) => match w with | .tile j _ => j == k | _ => false
    let waits := s.xfers.filterMap (fun x => match x.what with
      | .tile j t => if j == k && x.waiting then some t else none
      | _ => none)
    let s := (s.dropStaged k).cancelXfers mine
    let s := s.modStream k (fun x => { x with
      cancelling := true, pend := none, plWait := none, again := [], undone := [], inflight := x.inflight.filter (fun t => !waits.contains t) })
    s.settleStream k
/-- The streams of a context that are not IDLE. -/
def State.streamsOf (s : State) (c : Nat) : List Nat := (s.streams.filter (fun e => e.2.owner == c && e.2.state != .idle)).map (·.1)

/-! ### Sheaves and lanes that end -/

/-- Takes a lane out of its sheaf, and its packets out of the banks' queues; an empty sheaf frees its slot (R242). -/
def State.removeLane (s : State) (key n : Nat) : State :=
  match mget s.sheaves key with
  | none => s
  | some x =>
    let ls := x.lanes.filter (fun l => l.n != n)
    let s := s.dropPackets key n
    if ls.isEmpty then { s with sheaves := merase s.sheaves key } else { s with sheaves := mset s.sheaves key { x with lanes := ls, held := false } }

/-! ### Kill (R253, R445) -/

/-- Frees the scan channels of a context (R418). -/
def State.freeScans (s : State) (c : Nat) : State :=
  let chs := (s.scans.filter (fun e => e.2.held && e.2.ctx == c)).map (·.1)
  ({ s with scans := mmap s.scans (fun _ x => if x.ctx == c then { x with held := false } else x) } : State).cancelXfers (fun w => match w with | .scan ch => chs.contains ch | _ => false)
/-- Ends the transactions of a context with a cause, and frees them: no strand is left to do it. -/
def State.endTxns (s : State) (c cause : Nat) : State :=
  let ts := (s.txns.filter (fun e => e.2.ctx == c)).map (·.1)
  let s := foldS ts s (fun s t => s.abortTxn t cause)
  let s := { s with txns := mfilter s.txns (fun _ x => x.ctx != c) }
  s.cancelXfers (fun w => match w with | .line x _ => x == c | _ => false)
/-- A kill discards COMMITTED lines without write-through (R410). Their directory entries leave, with data where the line is dirty
(R385). -/
def State.discardLines (s : State) (c : Nat) : State :=
  let gone := s.txnBuf.filter (fun e => e.2.ctx == c && e.2.state == BufState.committed)
  let s := s.countC c 0x22 gone.length
  let s := { s with txnBuf := mfilter s.txnBuf (fun _ l => !(l.ctx == c && l.state == BufState.committed)) }
  let s := s.cancelXfers (fun w => match w with | .through n => gone.any (fun e => e.1 == n) | _ => false)
  foldS gone s (fun s e => match s.dirAt (s.bufRLine e.2) with
    | some d => if d.user == .transaction then s.departLine { d with pinned := false } none else s
    | none => s)
/-- Writes of a completion that have been sent and not acknowledged. -/
def State.sentWrites (s : State) (x : Completion) : Nat :=
  x.left -
  (((s.ports.flatMap (·.2)).filter (fun h => match h.item with | .write _ _ _ n | .atomic _ _ _ _ _ n _ _ => n == x.n)).length +
   (s.ownWrites.filter (fun w => w.completion == x.n)).length +
   (s.streams.map (fun k => (k.2.space.filter (fun r => r.2 == x.n)).length + (k.2.spilled.filter (· == x.n)).length)).foldl (· + ·) 0 +
   (s.allDelivs.map (fun d => (d.2.2.excWait.filter (fun w => w.n == x.n)).length)).foldl (· + ·) 0 +
   (s.completions.filter (fun y => match y.fin with | .element _ _ p => p == x.n | _ => false)).length)
/-- Reads of tables, descriptors, counts and images that the engine has asked for under a context's ASID and that have not
returned (R455). -/
def Context.openReads (x : Context) : Nat :=
  (if x.blocked then 1 else 0) +
  (match x.strand.state with
   | .waiting (.armImage ..) | .waiting (.scanBlk ..) | .waiting (.xwrite ..) | .waiting (.xcommit ..) | .waiting (.launch ..) => 1
   | _ => 0) +
  (x.delivs.map (fun d => (if d.2.raw.isNone then 1 else 0) + (if d.2.excWait.isEmpty then 0 else 1) +
    (d.2.keys.filter (fun k => k.2.full || (k.2.keyEntry.isNone && !k.2.waiting.isEmpty))).length)).foldl (· + ·) 0
/-- The accesses of a context that have been sent and not performed, as a kill leaves them. -/
def State.leaveGhosts (s : State) (c : Nat) : State :=
  let a := s.asid c
  let x := s.ctx c
  { s with ghosts := s.ghosts ++ x.strand.loads.map (fun l => (a, l.n)) ++
      (s.completions.filter (fun y => y.ctx == c)).flatMap (fun y => List.replicate (s.sentWrites y) (a, y.n)) ++
      List.replicate x.openReads (a, readGhost c) }
/-- The collector discards everything of a context (R360). -/
def State.discardDelivery (s : State) (c : Nat) : State :=
  let ns := (s.completions.filter (fun x => x.ctx == c)).map (·.n)
  let keep := fun (i : CItem) => i.ctx != c
  let s := { s with
    feQ := s.feQ.filter keep, schedQ := s.schedQ.filter keep, fwdQ := s.fwdQ.filter keep,
    walkQ := mmap s.walkQ (fun _ q => q.filter (fun h => keep h.item)),
    completions := s.completions.filter (fun x => x.ctx != c),
    ownWrites := s.ownWrites.filter (fun w => !ns.contains w.completion),
    ports := mmap s.ports (fun _ q => q.filter (fun h => match h.item with
      | .write _ _ _ n | .atomic _ _ _ _ _ n _ _ => !ns.contains n)) }
  s.modCtx c (fun x => { x with delivs := [] })
/-- The records of an overflow area, with its open fresh runs. -/
def Ovf.records (o : Ovf) : List OvfRec :=
  (o.runs.filter (fun r => r.state == .live)).flatMap (·.recs) ++ o.fresh.flatMap (fun f => f.2.recs)
/-- Queries in an overflow area. -/
def Ovf.queries (o : Ovf) : Nat := o.records.length
/-- NACK, cause 4, for a query held for another instance (R480). -/
def State.nackKilled (s : State) (c : Nat) (o : Origin) : State := s.sendPacket (fwdHeader s 5 1 0 o.inst o.inst c 0 o.token 4 0) none []
/-- Every query of a context ends CTX_KILLED (R68, R225, R445). A query held for another instance is no query of this context's
own: it is answered with NACK (R480), and its origin counts what becomes of it (assumption 119). -/
def State.killQueries (s : State) (c : Nat) : State :=
  let mine := s.pool.filter (fun e => e.2.ctx == c)
  let spawned := (s.spawnBufs.map (fun b => (b.2.filter (fun r => r.ctx == c)).length)).foldl (· + ·) 0
  -- members whose run is still being written are counted in the run
  let origins := (mine.filter (fun e => match e.2.place with | .spilling _ => false | _ => true)).map (fun e => e.2.origin) ++
    (s.ctx c).ovf.records.map (·.origin)
  let n := (origins.filter Option.isNone).length + spawned
  let s := foldS (origins.filterMap id) s (fun s o => s.nackKilled c o)
  let s := { s with sheaves := mfilter s.sheaves (fun _ x => x.cohort.ctx != c),
                    spawnBufs := mfilter (mmap s.spawnBufs (fun _ b => b.filter (fun r => r.ctx != c))) (fun _ b => !b.isEmpty),
                    octets := mmap s.octets (fun _ o => { o with queue := o.queue.filter (fun p =>
                      ((mget s.sheaves p.sheaf).map (fun x => x.cohort.ctx)) != some c) }),
                    fwdWait := s.fwdWait.filter (fun p => !mine.any (fun e => e.1 == p)) }
  let s := foldS mine s (fun s e => (s.leaveCohort e.1).releaseSlot e.1)
  let s := (s.countC c 0xA n).modCtx c (fun x => { x with ovf := { Ovf.reset with nextRseq := x.ovf.nextRseq }, cut := none })
  s.settleWatch
/-- Fills and spill or reload transfers of a context are given up. -/
def State.killTransfers (s : State) (c : Nat) : State :=
  let s := s.dropFills (fun id => id.ctx == c)
  let s := { s with leafFills := s.leafFills.filter (fun f => f.id.ctx != c) }
  s.cancelXfers (fun w => match w with | .leaf _ id => id.ctx == c | .run x _ => x == c | _ => false)
/-- DETAIL of CTX_KILL (R437). -/
def killDetail (cause pc : Nat) (fa : DWord) : Nat := cause + pc % 65536 * 65536 + fbit fa 12 32 * 2 ^ 32
/-- Kills a context (R253, R445): ignored unless it is OPEN or CLOSING. -/
def State.kill (s : State) (c cause unit pc : Nat) (fa : DWord) : State :=
  match (s.ctx c).state with
  | .opened | .closing =>
    let s := ((s.report 0x16 2 c unit noUnit (killDetail cause pc fa)).count 63 1).leaveGhosts c
    let s := s.modCtx c (fun x => { x with
      state := .killing, killCause := cause, cdMode := .idle, cdVal := 0, barrier := none, arrivals := [], released := [],
      strand := { x.strand with state := .halted, loads := [], stores := [], held := [] } })
    let s := ((s.clearUrgent c).endTxns c 4).discardLines c
    let s := (s.freeScans c).discardDelivery c
    -- the staging ranges and collector-store spaces of its streams are discarded at once (R322)
    let s := foldS (s.streamsOf c) s (fun s k => (s.modStream k (fun x => { x with space := [], spilled := [] })).cancelStream k)
    ((s.killQueries c).killTransfers c).settleMsgs
  | _ => s
/-- An illegal instruction of a strand or of a lane (R252, R253). -/
def State.illegal (s : State) (c unit pc : Nat) : State := s.kill c 1 unit pc 0

/-! ### Close (R444) -/

/-- A context enters CLOSING. -/
def State.close (s : State) (c : Nat) : State :=
  match (s.ctx c).state with
  | .opened =>
    let s := s.modCtx c (fun x => { x with
      state := .closing, cdMode := .idle, cdVal := 0, barrier := none, strand := { x.strand with state := .halted } })
    let s := ((s.clearUrgent c).endTxns c 5).freeScans c
    foldS (s.streamsOf c) s (fun s k =>
      let x := s.stream k
      if x.state == .armed then s.idleStream k
      else if smKind x.image = 2 then (s.modStream k (fun x => { x with state := .running, closing := true })).settleStream k
      else s.cancelStream k)
  | _ => s

/-! ### What a closed context leaves behind -/

/-- The cohorts of a context whose boughs are gone, its leaf fills and its leaf blocks go. -/
def State.dropBlocksOf (s : State) (c : Nat) : State :=
  { s with
    cohorts := s.cohorts.filter (fun x => x.id.ctx != c || s.placedOrFilling x.id),
    leafFills := s.leafFills.filter (fun f => f.id.ctx != c),
    groves := s.groves.map (fun (g : Grove) => { g with leafCache := g.leafCache.filter (fun b => b.id.ctx != c) }) }
/-- Residency, crowns, blocks and readings of a context go when it is CLOSED: a later open reads everything anew. -/
def State.forgetContext (s : State) (c : Nat) : State :=
  let s := { s with crowns := s.crowns.filter (fun r => r.ctx != c) }
  let s := s.dropFills (fun id => id.ctx == c)
  let s := foldS (s.slots.filter (fun e => match e.2.occ with | some id => id.ctx == c | none => false)) s (fun s e => s.leaveSlot e.1)
  s.dropBlocksOf c
/-- COMMAND writes that a context leaves behind unperformed (R451, R458). -/
def State.leaveCommands (s : State) (c : Nat) : State :=
  { s with ghosts := s.ghosts ++ (s.ctx c).wins.flatMap (fun w => w.2.cmdPend.map (fun _ => (s.asid c, cmdGhost c w.1))) }
/-- The context becomes CLOSED; its counters and its last codes stay readable. -/
def State.setClosed (s : State) (c cause : Nat) : State :=
  ((s.leaveCommands c).forgetContext c).modCtx c (fun x => { Context.reset with openCode := x.openCode, endCause := cause, cnt := x.cnt })
/-- KILLING_DONE (R445). -/
def doKillingDone (c : Nat) (s : State) : State :=
  let x := s.ctx c
  if x.state == .killing && !s.pool.any (fun e => e.2.ctx == c) && !s.sheaves.any (fun e => e.2.cohort.ctx == c) &&
     !s.xfers.any (fun e => e.ctx == c) && !s.txnBuf.any (fun e => e.2.ctx == c) then s.setClosed c x.killCause
  else s

/-! ### The deadline cut (R226 to R229) -/

/-- The cut of a context covers a query or record of a class and an order of admission: DISPLAY, admitted before it. -/
def Context.covers (x : Context) (cls admitted : Nat) : Bool :=
  cls == 0 && (match x.cut with | some t => decide (admitted < t) | none => false)
/-- The cut covers a pool query that has not executed END. -/
def State.cutCovers (s : State) (q : Query) : Bool := (s.ctx q.ctx).covers q.cls q.admitted && q.place != .ending
/-- The cut is over when it has ended every query it covers (R228); the collector then flushes what holds DISPLAY entries once the
last LATE chain has been placed (R349). -/
def State.settleCut (s : State) (c : Nat) : State :=
  let x := s.ctx c
  if x.cut.isSome && !s.pool.any (fun e => e.2.ctx == c && s.cutCovers e.2) &&
     !x.ovf.runs.any (fun r => r.state == .live && r.recs.any (fun y => x.covers r.cls y.admitted)) then
    (s.modCtx c (fun x => { x with cut := none })).cutFlush c
  else s
/-- Ends one lane LATE; its walk state is what stands in the lane (R229). -/
def State.lateLane (s : State) (key : Nat) (l : Lane) : State := (s.removeLane key l.n).finishOk l.slot l.ws true .scheduler
/-- Ends the covered lanes of a sheaf that are at an instruction boundary. -/
def State.cutSheaf (s : State) (key : Nat) : State :=
  match mget s.sheaves key with
  | none => s
  | some x =>
    let busy := match x.wait with | .ready => [] | .testn g _ | .testb g _ | .leaf g _ => g
    foldS (x.lanes.filter (fun l => !busy.contains l.n && (match mget s.pool l.slot with | some q => s.cutCovers q | none => false))) s
      (fun s l => s.lateLane key l)
/-- Ends a covered query that no lane walks. -/
def State.cutQuery (s : State) (e : Nat × Query) : State :=
  match e.2.place with
  | .parked _ _ => (s.leaveCohort e.1).finishOk e.1 e.2.ws true .scheduler
  | .forwarded _ => (({ s with fwdWait := s.fwdWait.filter (· != e.1) } : State).finishOk e.1 e.2.ws true .scheduler).settleWatch
  | _ => s
/-- The cut covers records of a run. -/
def Context.coversRun (x : Context) (r : Run) : Bool := r.state == .live && r.recs.any (fun y => x.covers r.cls y.admitted)
/-- Reads the DISPLAY runs of a context from head to tail, as reload transfers (R227, R306). -/
def State.readCutRuns (s : State) (c : Nat) : State :=
  foldS ((s.ctx c).ovf.runs.filter (fun r => (s.ctx c).coversRun r && r.written)) s (fun s r => s.requestOnce (.run c r.rseq) c r.cls)
/-- The run that the cut of a context reads next. -/
def Context.cutRun (x : Context) : Option Run := x.ovf.runs.find? (fun r => x.coversRun r && r.written)
/-- Some cut has runs to read: they come ahead of every other reload (R227). -/
def State.cutReads (s : State) : Bool := s.ctxs.any (fun e => e.2.cutRun.isSome)
/-- The cut begins: what was admitted before now is covered. -/
def State.startCut (s : State) (c : Nat) : State := s.takeId.2.modCtx c (fun x => { x with cut := some s.takeId.1 })
/-- Cuts the sheaves of a context. -/
def State.cutSheaves (s : State) (c : Nat) : State := foldS s.sheaves s (fun s e => if e.2.cohort.ctx = c then s.cutSheaf e.1 else s)
/-- Cuts the queries of a context that no lane walks. -/
def State.cutPool (s : State) (c : Nat) : State := foldS (s.pool.filter (fun e => e.2.ctx == c && s.cutCovers e.2)) s State.cutQuery
/-- The deadline cut of a context (R227). -/
def State.cutContext (s : State) (c : Nat) : State :=
  (((((s.startCut c).closeFresh c 0).cutSheaves c).cutPool c).readCutRuns c).settleCut c
/-- A run is gone: its records no longer count. -/
def State.dropRun (s : State) (c rseq : Nat) : State :=
  s.modOvf c (fun o => { o with
    count := o.count - ((o.runs.filter (fun r => r.rseq == rseq)).map (fun r => r.recs.length)).foldl (· + ·) 0,
    runs := o.runs.map (fun r => if r.rseq == rseq then { r with state := .done, recs := [] } else r) })
/-- A run that failed its second reading is discarded (R224). -/
def State.loseRun (s : State) (c rseq count : Nat) : State :=
  ((s.countC c 2 count).report 0x11 2 c noUnit noUnit rseq).dropRun c rseq
/-- The COUNT that two readings of a run leave: none when one of them was intact. -/
def runLost (first second : RunRead) : Option Nat :=
  match first, second with
  | .damaged _, .damaged n => some n.toNat
  | _, _ => none
/-- The status and records of the LATE chain of a record that holds no pool slot (R229): a FRESH record has no results. -/
def lateChain (r : OvfRec) : Nat × List Rec32 :=
  match r.ws with
  | some ws => chainOf r.record ws r.spawned true
  | none => (stLATE, [resultRecord (qTag r.record) stLATE (1 + (if r.spawned then 32 else 0)) 0 1 (qKind r.record) 0 absent absent 0 0 (qUser0 r.record)])
/-- The chain of a record that the cut ends without a pool slot (R229). -/
def cutItem (c : Nat) (r : OvfRec) : CItem := chainItem c none r.record r.cls (lateChain r).1 (lateChain r).2
/-- A spilled record ends LATE: its chain goes to the collector, or to the origin of the query (R227, R480). -/
def State.lateRec (s : State) (c : Nat) (r : OvfRec) : State :=
  match r.origin with
  | none => { s with schedQ := s.schedQ ++ [cutItem c r] }
  | some o => s.sendResult c ((r.ws.map (·.emitsSent)).getD 0) o (lateChain r).2
/-- The line requests of a reading of a run. -/
def State.runReads (s : State) (c : Nat) (r : Run) : List (DWord × LineWork) :=
  (List.range r.lines).map (fun i => (s.areaLine c (r.start + i), .read (.runLine c r.rseq i)))
/-- A run is read under its transfer, and once more when the first reading was damaged (R224); the transfer is then done. -/
def State.readRun (s : State) (c : Nat) (r : Run) (first : RunRead) : State :=
  let w := XferWhat.run c r.rseq
  let s := s.linesBack w
  (match first with
   | .intact => s
   | .damaged _ => s.again w (s.runReads c r)).finishXfer w
/-- CUT_RUN_READ (R227, Spilled): the first run of the cut that is left has been read; each record ends, and STATE = DONE is
written. -/
def doCutRunRead (c rseq : Nat) (first second : RunRead) (s : State) : State :=
  match (s.ctx c).cutRun with
  | none => s
  | some r =>
    if r.rseq ≠ rseq || !s.hasSlot (.run c rseq) then s
    else
      let s := s.readRun c r first
      match (if r.rereads = 0 then runLost first second else runLost first first) with
      | some n => (s.loseRun c rseq n).settleCut c
      | none =>
        let s := (s.dropRun c rseq).writeTracked c [(addr64 (s.areaLine c r.start) 1, [2])]
        (foldS r.recs (s.countC c 3 r.recs.length) (fun s y => s.lateRec c y)).settleCut c

/-! ### The countdown (R453, R454) -/

/-- Ends a WAITC.T that the countdown times. -/
def State.endTimed (s : State) (c : Nat) (code : DWord) : State :=
  match (s.ctx c).strand.state with
  | .waiting (.waitc rd _ _ true) => s.wake c rd code
  | _ => s
/-- The value of a countdown has reached 0: the cut of a DEADLINE, or TIMEOUT of a TIMER. -/
def State.countdownZero (s : State) (c : Nat) : State :=
  match (s.ctx c).cdMode with
  | .idle => s
  | .deadline => ((s.modCtx c (fun x => { x with cdMode := .idle, cdVal := 0 })).clearUrgent c).cutContext c
  | .timer =>
    let s := s.modCtx c (fun x => { x with cdMode := .idle, cdVal := 0 })
    -- a counter condition that holds in the same cycle wins (R454)
    match (s.ctx c).strand.state with
    | .waiting (.waitc _ ctr n true) => s.endTimed c (if reached (mgetD (s.ctx c).recv ctr 0) n then 0 else 1)
    | _ => s
/-- The countdown of a context is armed and has come to 0. -/
def Context.cdDue (x : Context) : Bool := x.cdMode != .idle && x.cdVal == 0
/-- COUNTDOWN_ZERO. -/
def doCountdownZero (c : Nat) (s : State) : State := if (s.ctx c).cdDue then s.countdownZero c else s
/-- CTX_CD_SET: a host write to the countdown of an OPEN context (R454, R539). With a DEADLINE that has reached 0 the cut is made
before the write. -/
def doCtxCdSet (c : Nat) (v : Word) (s : State) : State :=
  if (s.ctx c).state != .opened then s
  else
    let s := if (s.ctx c).cdMode == .deadline then doCountdownZero c s else s
    let x := s.ctx c
    if v = 0 then
      (if x.cdMode == .deadline then (s.modCtx c (fun x => { x with cdMode := .idle, cdVal := 0 })).clearUrgent c else s)
    else
      let s := if x.cdMode == .timer then s.endTimed c 2 else s
      (s.modCtx c (fun x => { x with cdMode := .deadline, cdVal := v.toNat })).clearUrgent c

/-! ### Opening (R440 to R443) -/

/-- Address of a context's descriptor. -/
def State.descAddr (s : State) (c : Nat) : DWord := addr64 s.dev.ctxTableBase (256 * c)
/-- OPEN is refused with code 8 whatever the context holds (R504, R511, R520); so it is while a chain RESET waits
(assumption 54). No rule disables a sequencer core. -/
def State.openBarred (s : State) : Bool := s.dev.svcEn || s.dev.pwrState == 2 || decide (3 ≤ s.dev.serviceState) || s.chainLong == some .reset
/-- CTX_OPEN (R443): accepted only in CLOSED. -/
def doCtxOpen (c : Nat) (s : State) : State :=
  if (s.ctx c).state != .closed || s.openBarred then s.modCtx c (fun x => { x with openCode := 8 })
  else (s.modCtx c (fun x => { x with state := .opening, pendKill := false, pendClose := false, killAsids := [] })).readAs s.dev.drvAsid.toNat (s.descAddr c) (.ctxDesc c)
/-- Check 7 of R443 over the fields of R440. -/
def descBad (d : Unit256) : Bool :=
  let wk := (List.range 16).map (dWkind d)
  fld d 1 8 == 0 || decide (fld d 2 8 < fld d 1 8) || decide (3 < dTopClass d) || (dKeyEn d && decide (1023 < dKeySlot d)) ||
  dScenes d == 0 || dPoolQuota d == 0 || decide (524288 < dPoolQuota d) || decide (524288 < dSpawnPool d) ||
  decide (64 < dMaxTxn d) || decide (8 < dMaxScan d) || dMaxDims d % 32 != 0 || dDelivs d == 0 || decide (4096 < dDelivs d) ||
  decide (2047 < dStreamFirst d) || decide (2048 < dStreamCount d) || decide (2048 < dStreamFirst d + dStreamCount d) ||
  wk.contains 3 || (dSeqImage d).toNat % 64 != 0 || (dSceneTable d).toNat % 64 != 0 || (dDelivTable d).toNat % 64 != 0 ||
  (dWalkTable d).toNat % 32 != 0 || (dOvfBase d).toNat % 128 != 0 || decide (dOvfLines d < 64) ||
  (wk.contains 2 && (dCmdBase d).toNat % 65536 != 0) || (dConsAddr d).toNat % 128 != 0
/-- The stream range overlaps that of a context that is not CLOSED (check 8). -/
def State.streamsOverlap (s : State) (c : Nat) (d : Unit256) : Bool :=
  s.ctxs.any (fun e => e.1 != c && e.2.state != .closed && e.2.state != .opening &&
    decide (dStreamFirst d < dStreamFirst e.2.desc + dStreamCount e.2.desc) &&
    decide (dStreamFirst e.2.desc < dStreamFirst d + dStreamCount d) && decide (0 < dStreamCount d) && decide (0 < dStreamCount e.2.desc))
/-- Fields of an image header (R232). -/
def imIfmt (h : Rec64) : Nat := fld h 0 8
def imTarget (h : Rec64) : Nat := fld h 2 8
def imWords (h : Rec64) : Nat := fld h 4 32
def imEntry (h : Rec64) : Nat := fld h 8 16
/-- The code's CRC as read (R232). -/
def imCrcOk (h : Rec64) (code : List Word) : Bool := crc32c (code.flatMap (fun w => bytesOf w 4)) == (fldv h 16 32 : Word)
/-- The checks of R233 up to the entry indices, with what fails: 2 HEADER, 3 LEVEL. -/
def imHeaderBad (h : Rec64) (ifmt : Nat) (entries : List Nat) : Option Nat :=
  if imIfmt h ≠ ifmt ∨ fld h 1 8 ≠ 1 then some 2
  else if 1 < fld h 3 8 then some 3
  else if imWords h < 1 ∨ 65536 < imWords h then some 2
  else if entries.any (fun e => decide (imWords h ≤ e)) then some 2
  else none
/-- The checks of an image's header that come before its code is read (R233): what LAUNCH and OPEN answer differs. -/
def seqHeaderOk (h : Rec64) : Bool := (imHeaderBad h 1 [imEntry h]).isNone && imTarget h == 0
/-- Check 2 of R443 over the sequencer image: what the open reads of it, header and, when its header passes, code, came. An image
whose address is misaligned is not read (R233). -/
def imageUnread (rd : OpenRead) (d : Unit256) : Bool :=
  (dSeqImage d).toNat % 64 == 0 && (match rd.header with
    | none => true
    | some h => seqHeaderOk h && rd.code.isNone)
/-- The code of an open, 0 when every check passes (R443). -/
def State.openCodeOf (s : State) (c : Nat) (rd : OpenRead) : Nat :=
  match rd.desc with
  | none => 7
  | some d =>
    if imageUnread rd d then 7
    else if fld d 0 8 = 2 ∨ fld d 0 8 = 3 then 1
    else if fld d 0 8 ≠ 1 then 3
    else if 1 < fld d 1 8 then 1
    else if 256 < dMaxK d ∨ 256 < dMaxDims d ∨ 1024 < dMaxNfeat d ∨ 16 < dMaxNout d then 2
    else if descBad d then 3
    else if s.streamsOverlap c d then 5
    else if dKeyEn d && (mget s.keys (dKeySlot d)).isNone then 6
    else match rd.header, rd.code with
      | some h, some code => if seqHeaderOk h && code.length == imWords h && imCrcOk h code then 0 else 4
      | _, _ => 4
/-- The reads of an image that R233 and R443 make: the header, and the code when the header passes (assumption 118). -/
def State.readImage (s : State) (asid c : Nat) (a : DWord) (withCode : Bool) : State :=
  let s := s.readAs asid a (.imageHeader c)
  if withCode then s.readAs asid (addr64 a 64) (.imageCode c) else s
/-- The sequencer image is read under the ASID of the descriptor. -/
def State.readSeqImage (s : State) (c : Nat) (rd : OpenRead) : State :=
  match rd.desc with
  | some d => if (dSeqImage d).toNat % 64 = 0 then
      s.readImage (dAsid d) c (dSeqImage d) ((rd.header.map seqHeaderOk).getD false) else s
  | none => s
/-- The strand at open (R239): every register 0 but x1, the context number, and x2, the descriptor's address. -/
def openStrand (c : Nat) (descAddr : DWord) (h : Rec64) : Strand :=
  { Strand.reset with
    pc := imEntry h, words := imWords h, state := .ready,
    x := ((List.replicate 32 (0 : DWord)).set 1 (BitVec.ofNat 64 c)).set 2 descAddr }
/-- OPEN_COMPLETE (R443, R446). -/
def doOpenComplete (c : Nat) (rd : OpenRead) (s : State) : State :=
  let x := s.ctx c
  if x.state != .opening then s
  else
    let code := s.openCodeOf c rd
    let s := s.readSeqImage c rd
    match code, rd.desc, rd.header with
    | 0, some d, some h =>
      let s := s.modCtx c (fun x => { Context.reset with
        state := .opened, level := 1, desc := d, cnt := x.cnt, endCause := x.endCause, strand := openStrand c (s.descAddr c) h })
      -- a debug unlock kills every context with KEY_EN = 1 (R463)
      if x.killAsids.contains (dAsid d) then s.kill c 2 noUnit 0 0
      else if x.pendKill || (dKeyEn d && s.dev.unlock == .killing) then s.kill c 3 noUnit 0 0 else if x.pendClose then s.close c else s
    | _, _, _ => s.modCtx c (fun x => { Context.reset with openCode := code, cnt := x.cnt, endCause := x.endCause })
/-- CTX_CLOSE (R444, R446). -/
def doCtxClose (c : Nat) (s : State) : State :=
  match (s.ctx c).state with
  | .opening => s.modCtx c (fun x => { x with pendClose := true })
  | .opened => s.close c
  | _ => s
/-- CTX_KILL (R445, R446). -/
def doCtxKill (c : Nat) (s : State) : State :=
  match (s.ctx c).state with
  | .opening => s.modCtx c (fun x => { x with pendKill := true })
  | _ => s.kill c 3 noUnit 0 0

/-! ### Translation (R456 to R458) -/

/-- TRANSLATION_FAULT (R456). -/
def doTranslationFault (c : Nat) (addr : DWord) (s : State) : State :=
  match (s.ctx c).state with
  | .opening => s.modCtx c (fun x => { Context.reset with openCode := 7, cnt := x.cnt, endCause := x.endCause })
  | _ => s.kill c 2 noUnit (s.ctx c).strand.pc addr
/-- ASID_KILL (R457). The ASID of a context that is OPENING comes with its descriptor: the kill acts when the open completes
(R446). -/
def doAsidKill (asid : Nat) (s : State) : State :=
  let s := { s with ctxs := mmap s.ctxs (fun _ x => if x.state == .opening then { x with killAsids := asid :: x.killAsids } else x) }
  foldS (s.ctxs.filter (fun e => (e.2.state == .opened || e.2.state == .closing) && dAsid e.2.desc == asid)) s (fun s e => s.kill e.1 2 noUnit 0 0)
/-- A context has accesses under its ASID that have been sent and not performed: loads, writes under completions, COMMAND writes,
reads of tables, and lines of transfers (R455). -/
def State.ctxAccesses (s : State) (e : Nat × Context) : Bool :=
  !e.2.strand.loads.isEmpty || e.2.wins.any (fun w => !w.2.cmdPend.isEmpty) || decide (0 < e.2.openReads) ||
  s.completions.any (fun x => x.ctx == e.1) || s.xfers.any (fun x => x.ctx == e.1 && decide (0 < x.out))
/-- Accesses made under an address space that have not been performed. -/
def State.accessesOpen (s : State) (asid : Nat) : Bool :=
  s.ctxs.any (fun e => e.2.state != .closed && e.2.state != .opening && dAsid e.2.desc == asid && s.ctxAccesses e) ||
  (asid == s.dev.drvAsid.toNat && s.ctxs.any (fun e => e.2.state == .opening)) ||
  s.ringPend.any (fun r => r.addr.asid == asid && !r.waiting) || s.depart.any (fun d => d.addr.asid == asid) ||
  s.ghosts.any (fun g => g.1 == asid)
/-- TRANSLATION_INVALIDATE (R458): the cached copy is dropped, and the acknowledgement waits for accesses that used it. -/
def doTranslationInvalidate (asid : Nat) (page : DWord) (s : State) : State :=
  let s := { s with tlb := s.tlb.filter (fun e => !(e.1 == asid && e.2 == page.toNat / 4096)) }
  if s.accessesOpen asid then { s with invalidates := s.invalidates ++ [(asid, page)] } else s.emit (.invalidateAck asid page)
/-- Acknowledges the invalidations whose accesses have all been performed. -/
def State.settleInvalidates (s : State) : State :=
  let ready := s.invalidates.filter (fun e => !s.accessesOpen e.1)
  let s := { s with invalidates := s.invalidates.filter (fun e => s.accessesOpen e.1) }
  foldS ready s (fun s e => s.emit (.invalidateAck e.1 e.2))

/-! ### Scene descriptors and walk table entries (R77, R233 to R236) -/

/-- The reads of a shard map that a descriptor names: its descriptor at SHARD_TABLE_BASE, and its entries (R471; assumption 118). -/
def State.readShard (s : State) (c h : Nat) (desc : Rec64) (shard : Option ShardRead) : State :=
  if !sSharded desc then s
  else
    let d := s.dev.drvAsid.toNat
    let s := s.readAs d (addr64 s.dev.shardTableBase (64 * sShardMap desc)) (.shardMap c h)
    match shard with
    | some m => s.readAs d (fldv m.desc 8 64) (.shardMap c h)
    | none => s
/-- SCENE_DESCRIPTOR_READ (R77): the reading is kept until the context closes. -/
def doSceneDescriptorRead (c h : Nat) (desc : Rec64) (shard : Option ShardRead) (s : State) : State :=
  let x := s.ctx c
  if (x.state == .opened || x.state == .closing) && (mget x.scenes h).isNone && decide (h < dScenes x.desc) then
    (s.modCtx c (fun x => { x with scenes := mset x.scenes h { desc := desc, shard := shard }, blocked := false })).readShard c h desc shard
  else s
/-- The kind that a MODE, which is a stock walk's number, belongs to; 0 for no stock walk (R38, R254). -/
def kindOfStock (n : Nat) : Nat := match n with | 1 | 2 | 3 => 1 | 4 | 5 => 2 | 6 => 3 | 7 => 4 | _ => 0
/-- The binding of a stock walk. Its image is in the engine's library, and the model starts it at word 0 (PRESUMED, assumption
120). -/
def stockBinding (n entry : Nat) : Binding :=
  { bkind := 2, stock := n, image := 0, code := [], words := none, start := 0, entry := entry, hLeaf := 0xFFFF, hHit := 0xFFFF, hEnd := 0xFFFF }
/-- IMAGE of a walk table entry (R234). -/
def weImage (e : Rec32) : DWord := fldv e 8 64
/-- What an entry needs read: its image, when BKIND and STOCK pass and the address is aligned. -/
def entryImage (n : Nat) (e : Rec32) : Option DWord :=
  let b := fld e 0 8
  let st := fld e 1 8
  if (b = 1 ∨ (b = 3 ∧ kindOfStock st = n / 16 + 1)) ∧ (weImage e).toNat % 64 = 0 then some (weImage e) else none
/-- The checks of R233 up to TARGET, for the image of an entry of BKIND b and STOCK st: the code of R235. -/
def walkHeaderBad (b st kind : Nat) (h : Rec64) : Option Nat :=
  let hooks := [fld h 10 16, fld h 12 16, fld h 14 16]
  match imHeaderBad h (if b = 1 then 2 else 3) (if b = 1 then [imEntry h] else hooks.filter (· != 0xFFFF)) with
  | some k => some k
  | none => if imTarget h ≠ (if b = 1 then kind else st) then some 5 else none
/-- Checks a walk table entry in the order of R235: its code, and its binding when the code is 0. -/
def bindEntry (n : Nat) (e : Rec32) (img : Option ImageRead) : Nat × Option Binding :=
  let b := fld e 0 8
  let st := fld e 1 8
  let kind := n / 16 + 1
  if b = 0 then (1, none)
  else if 3 < b then (2, none)
  else if b ≠ 1 ∧ kindOfStock st = 0 then (6, none)
  else if b ≠ 1 ∧ kindOfStock st ≠ kind then (5, none)
  else if b = 2 then (0, some (stockBinding st n))
  else if (weImage e).toNat % 64 ≠ 0 then (2, none)
  else match img with
  | none => (2, none)
  | some i =>
    let h := i.header
    match walkHeaderBad b st kind h with
    | some k => (k, none)
    | none =>
      if !imCrcOk h i.code || i.code.length != imWords h then (4, none)
      else if b = 1 then (0, some { bkind := 1, stock := 0, image := weImage e, code := i.code, words := some (imWords h), start := imEntry h,
                                    entry := n, hLeaf := 0xFFFF, hHit := 0xFFFF, hEnd := 0xFFFF })
      else (0, some { bkind := 3, stock := st, image := weImage e, code := i.code, words := some (imWords h), start := 0, entry := n,
                      hLeaf := fld h 10 16, hHit := fld h 12 16, hEnd := fld h 14 16 })
/-- The reads of the image that an entry needs (R233, R455; assumption 118). -/
def State.readEntryImage (s : State) (c n : Nat) (e : Rec32) (img : Option ImageRead) : State :=
  match entryImage n e with
  | some a => s.readImage (s.asid c) c a ((img.map (fun i => (walkHeaderBad (fld e 0 8) (fld e 1 8) (n / 16 + 1) i.header).isNone)).getD false)
  | none => s
/-- WALK_ENTRY_READ: the first reading of an entry, or the reading that a LAUNCH asked for (R235). An image that the entry
needs and that could not be translated kills the context (R456). -/
def doWalkEntryRead (c n : Nat) (entry : Rec32) (img : Option ImageRead) (s : State) : State :=
  let x := s.ctx c
  let launch := match x.strand.state with | .waiting (.launch rd m) => if m = n then some rd else none | _ => none
  if !(x.state == .opened || x.state == .closing) || (launch.isNone && (mget x.walks n).isSome) then s
  else
    let s := s.readEntryImage c n entry img
    match entryImage n entry, img with
    | some a, none => s.kill c 2 noUnit x.strand.pc a
    | _, _ =>
      let r := bindEntry n entry img
      let s := s.modCtx c (fun x => { x with walks := mset x.walks n r.2, blocked := false })
      match launch with
      | some rd => s.wake c rd (BitVec.ofNat 64 r.1)
      | none => s

/-! ### The commands -/

/-- COUNTDOWN_ZERO. -/
def execCountdownZero (c : CtxNo) (s : State) : Host.Outcome State Fault Refusal := .next (doCountdownZero c s)
/-- ASID_KILL. -/
def execAsidKill (asid : Word) (s : State) : Host.Outcome State Fault Refusal := .next (doAsidKill asid.toNat s)
/-- TRANSLATION_INVALIDATE. -/
def execTranslationInvalidate (asid : Word) (page : DWord) (s : State) : Host.Outcome State Fault Refusal := .next (doTranslationInvalidate asid.toNat page s)
/-- SCENE_DESCRIPTOR_READ. -/
def execSceneDescriptorRead (c : CtxNo) (h : BitVec 16) (desc : Rec64) (shard : Option ShardRead) (s : State) : Host.Outcome State Fault Refusal := .next (doSceneDescriptorRead c h.toNat desc shard (s.readBack c))
/-- WALK_ENTRY_READ. -/
def execWalkEntryRead (c : CtxNo) (n : Fin 64) (entry : Rec32) (img : Option ImageRead) (s : State) : Host.Outcome State Fault Refusal := .next (doWalkEntryRead c n entry img (s.readBack c))
/-- CUT_RUN_READ. -/
def execCutRunRead (c : CtxNo) (rseq : Nat) (first second : RunRead) (s : State) : Host.Outcome State Fault Refusal := .next (doCutRunRead c rseq first second s)

end Sys2Proof.Machine
end

