-- ==== Sys2Proof/Machine/Admission.lean ====
section
/-! DEFINITION. Machine/Admission.lean: the ingest windows (R447 to R451), the parsing of records (R31 to R33, R449), the
admission stage (R58 to R60, R77, R191, R194 to R197, R235 to R237, R392) and the spawn buffers (R251). -/
namespace Sys2Proof.Machine

/-! ### Ingest windows -/

/-- Window w of a context. -/
def Context.win (x : Context) (w : Nat) : Window := mgetD x.wins w Window.reset
def State.modWin (s : State) (c w : Nat) (f : Window → Window) : State :=
  s.modCtx c (fun x => { x with wins := mset x.wins w (f (x.win w)) })
/-- Kind of a window: 0 OFF, 1 QUERY, 2 COMMAND (R440). -/
def State.winKind (s : State) (c w : Nat) : Nat := dWkind (s.ctx c).desc w
/-- The receive counter of a window. -/
def Context.received (x : Context) (w : Nat) : DWord := mgetD x.recv w 0
/-- Adds to a receive counter, modulo 2^64 (R375). -/
def State.receive (s : State) (c w n : Nat) : State :=
  s.modCtx c (fun x => { x with recv := mset x.recv w (x.received w + BitVec.ofNat 64 n) })
/-- The byte of a window at position p, when it has arrived (R447). -/
def Window.byteAt (w : Window) (p : Nat) : Option Byte := mget w.bytes (p % 65536)
/-- The n bytes from position p, when all have arrived. -/
def Window.take (w : Window) (p : Nat) : Nat → Option (List Byte)
  | 0 => some []
  | n + 1 =>
    match w.byteAt p, w.take (p + 1) n with
    | some b, some l => some (b :: l)
    | _, _ => none
/-- The record at the parse position with its extension bytes, when all have arrived (R33). -/
def Window.head (w : Window) : Option (Rec64 × List Byte) :=
  match w.take w.parse 64 with
  | none => none
  | some bs =>
    let r : Rec64 := ofBytes 512 bs
    (w.take (w.parse + 64) (extBytes r)).map (fun e => (r, e))
/-- Puts written bytes into a window. -/
def Window.put (w : Window) (off : Nat) (data : List Byte) : Window :=
  { w with bytes := (List.range data.length).foldl (fun m i => mset m ((off + i) % 65536) (nth data i 0)) w.bytes }
/-- Moves the parse position over n consumed bytes. -/
def Window.consume (w : Window) (n : Nat) : Window :=
  { w with parse := w.parse + n, bytes := (List.range n).foldl (fun m i => merase m ((w.parse + i) % 65536)) w.bytes }

/-! ### What admission decides of a record -/

/-- What the admission stage finds for a complete record. -/
inductive Verdict where
  | needScene (h : Nat)
  | needWalk (n : Nat)
  | refused (j : Reject)
  | miss
  | pass
  deriving DecidableEq, Repr

/-- The walk table entry that a record names (R234). -/
def walkIndex (r : Rec64) : Nat := 16 * (qKind r - 1) + qWalk r
/-- The class in which a record is admitted: no higher than TOPCLASS (R59) nor, for a spawned record, than the class of
its spawner (R28). -/
def State.classOf (s : State) (c : Nat) (r : Rec64) (floor : Nat) : Nat := max (admittedClass (qClass r) (dTopClass (s.ctx c).desc)) floor
/-- The checks of R58, once the scene descriptor (R77) and the walk table entry (R235) that they or the binding need
have been read. -/
def State.verdict (s : State) (c : Nat) (r : Rec64) (spawned : Bool) (ext : List Byte) : Verdict :=
  let x := s.ctx c
  let h := qScene r
  let unread := match admissionCheck r spawned x.desc none ext with
    | some j => j.check == 9 && (mget x.scenes h).isNone && decide (h < dScenes x.desc) && h != 0xFFFF
    | none => false
  if unread then .needScene h
  else match admissionCheck r spawned x.desc (if h = 0xFFFF then none else s.bound c h) ext with
  | some j => .refused j
  | none =>
    if missAtAdmission r then .miss
    else if (mget x.walks (walkIndex r)).isNone then .needWalk (walkIndex r)
    else .pass
/-- Asks for a scene descriptor, once (R77). -/
def State.askScene (s : State) (c h : Nat) : State :=
  let x := s.ctx c
  if x.blocked then s
  else (s.modCtx c (fun x => { x with blocked := true })).readFor c (addr64 (dSceneTable x.desc) (64 * h)) (.sceneDesc c h)
/-- Asks for a walk table entry, once (R235). -/
def State.askWalk (s : State) (c n : Nat) : State :=
  let x := s.ctx c
  if x.blocked then s
  else (s.modCtx c (fun x => { x with blocked := true })).readFor c (addr64 (dWalkTable x.desc) (32 * n)) (.walkEntry c n)
/-- The chain of a refused record (R60, R61, R63, R69). -/
def refusedItem (c cls : Nat) (delivs : Nat) (r : Rec64) (spawned : Bool) (j : Reject) : CItem :=
  let known := decide (4 < j.check)
  let entry := if qDelivery r < delivs then qDelivery r else 0
  .chain c entry none cls j.status [singleRecord r j.status j.value spawned false known] true false (qTag r) (qUser0 r) (qUser1 r) false false
/-- The chain of a record that ends MISS at admission (R46, R60, R71). -/
def missItem (c cls : Nat) (r : Rec64) (spawned : Bool) : CItem :=
  chainItem c none r cls stMISS [singleRecord r stMISS 0 spawned false true]
/-- The binding that a query takes (R236, R237), and whether it is the default. -/
def State.bindingFor (s : State) (c : Nat) (r : Rec64) : Binding × Bool :=
  let n := walkIndex r
  match mget (s.ctx c).walks n with
  | some (some b) => if b.bkind = 1 ∨ b.stock = qMode r then (b, false) else (stockBinding (qMode r) n, true)
  | _ => (stockBinding (qMode r) n, true)
/-- Where a query first parks (R191): its bough and node. -/
def State.entryPoint (s : State) (c : Nat) (r : Rec64) : Nat × Nat :=
  if qKind r = 4 then
    let rpb := max 1 (((s.bound c (qScene r)).map sRpb).getD 1)
    (qTreeFirst r / rpb, qTreeFirst r % rpb)
  else (0, 0)
/-- A query whose walk entry does not bind is counted as defaulted (R235). -/
def State.countDefault (s : State) (c : Nat) (defaulted : Bool) : State := if defaulted then s.countC c 4 1 else s
/-- A query enters a pool slot, with the extension units as they then stand. -/
def State.occupy (s : State) (p : Nat) (q : Query) (ext : FMap Unit256) : State :=
  (({ s with pool := mset s.pool p q, ext := ext } : State).writeSpine p).squallCheck
/-- Takes the lowest free pool slot and the units of a query that has not walked yet, and parks it (R54, R191, R236,
R392); none when no slot or no unit run is free. A query loaded from an overflow area keeps its order of admission. -/
def State.takeSlot (s : State) (c cls : Nat) (r : Rec64) (spawned : Bool) (data : List Unit256) (order : Option Nat)
    (src : Source) : Option State :=
  match mfree s.pool 524288, allocUnits s.ext data (collUnitCount r) with
  | some p, some (du, cu, ext) =>
    let (gen, s) := s.takeId
    let (b, defaulted) := s.bindingFor c r
    let (bough, node) := s.entryPoint c r
    let ws := freshWalk r bough node
    let q : Query := {
      ctx := c, record := r, cls := cls, spawned := spawned, place := .parked none s.now,
      cohort := { ctx := c, scene := qScene r, tag := 0, bough := bough }, binding := b, epoch := (s.ctx c).epoch,
      dataUnits := du, collUnits := cu, ws := ws, admitted := order.getD gen, gen := gen, origin := none,
      fwd := { recs := [], emits := 0, expect := none } }
    some (((s.countDefault c defaulted).occupy p q ext).parkOrForward p c (qScene r) bough 0 src)
  | _, _ => none
/-- Takes a slot when R194 lets a query of the class and context have one. -/
def State.enterPool (s : State) (c cls : Nat) (r : Rec64) (spawned : Bool) (data : List Unit256) (src : Source) : Option State :=
  if s.mayTakeSlot cls c then s.takeSlot c cls r spawned data none src else none
/-- A fresh record of an overflow area (R195, R222). -/
def State.freshRec (s : State) (cls : Nat) (r : Rec64) (spawned : Bool) (data : List Unit256) : OvfRec :=
  { record := r, cls := cls, spawned := spawned, data := data, ws := none, binding := none, epoch := 0, admitted := s.nextId, origin := none,
    checked := true }
/-- Writes a record straight into its context's overflow area (R195). -/
def State.writeDirect (s : State) (c cls : Nat) (r : OvfRec) : State :=
  let (_, s) := s.takeId
  s.writeFresh c cls r
/-- The admission of a record that passes: a pool slot, or the overflow area; none when neither takes it. -/
def State.admitPassed (s : State) (c cls : Nat) (r : Rec64) (spawned : Bool) (data : List Unit256) (src : Source) : Option State :=
  match s.enterPool c cls r spawned data src with
  | some s => some (s.count cls 1)
  | none =>
    let f := s.freshRec cls r spawned data
    if s.ovfTakesFresh c cls f then some ((s.writeDirect c cls f).count 4 1) else none
/-- Hands a chain of the admission stage to the collector. -/
def State.toFrontEnd (s : State) (i : CItem) : State := ({ s with feQ := s.feQ ++ [i] } : State).writeSpine collLine

/-! ### Ingest -/

/-- A record with its extension bytes: the admission stage can take it now, since it needs no table read, and a slot or room in the
overflow area when it passes. -/
def State.takesNow (s : State) (c : Nat) (r : Rec64) (spawned : Bool) (ext : List Byte) : Bool :=
  match s.verdict c r spawned ext with
  | .needScene _ | .needWalk _ => false
  | .refused _ | .miss => true
  | .pass => (s.admitPassed c (s.classOf c r 0) r spawned (dataUnitsOf r ext) .frontEnd).isSome
/-- The complete record at the head of a window is one that must go to the overflow area and finds no room (R196). -/
def State.headStalls (s : State) (c : Nat) (w : Window) : Bool :=
  match w.head with
  | none => false
  | some (r, ext) =>
    let r := withDepth r 0
    match s.verdict c r false ext with
    | .pass => !s.takesNow c r false ext
    | _ => false
/-- R196 refuses writes to the windows of the context. -/
def State.stalls (s : State) (c : Nat) : Bool :=
  (List.range 16).any (fun w => s.winKind c w == 1 && s.headStalls c ((s.ctx c).win w))
/-- The ingest port that takes a line: the rule of the fabric ports, over the enabled ingest ports (PRESUMED, assumption 121). -/
def State.ingestPort (s : State) (a : DWord) : Nat := s.enabledPort 0 (portOf a)
/-- The ingest ports have accepted some bytes (R231, INGEST_FULL). -/
def State.noteIngest (s : State) (a : DWord) (data : List Byte) : State :=
  { s with ingested := (pieces 128 a data).foldl (fun m p => mset m (s.ingestPort p.1) (mgetD m (s.ingestPort p.1) 0 + p.2.length)) s.ingested }
/-- A write to window w of context c at an offset (R196, R375, R448, R451). -/
def State.windowWrite (s : State) (c w off : Nat) (a : DWord) (data : List Byte) : State :=
  let x := s.ctx c
  if x.state != .opened || s.winKind c w == 0 then (s.noteIngest a data).countC c 9 1
  else if s.stalls c then (s.emit .retry).countC c 0 1
  else if s.winKind c w = 2 then
    ((s.noteIngest a data).writeFor c (addr64 (dCmdBase x.desc) (65536 * w + off)) data).modWin c w (fun y => { y with cmdPend := y.cmdPend ++ [data.length] })
  else ((s.noteIngest a data).modWin c w (fun y => y.put off data)).receive c w data.length
/-- The host fabric address of an INGEST_WRITE, from its fields (R447). -/
def ingestAddr (hi : Word) (c : CtxNo) (lo : BitVec 20) : DWord := hi ++ BitVec.ofNat 12 c ++ lo
/-- INGEST_WRITE (R447, R448, R500): a write in the range above INGEST_BASE goes to the window that each of its bytes lies in. An
address outside that range is not the block's. -/
def doIngestWrite (addr : DWord) (data : List Byte) (s : State) : State :=
  if s.dev.stage != .ready then s.emit .retry
  else foldS (pieces 65536 (addr - s.dev.ingestBase) data) s (fun s p =>
    let n := p.1.toNat
    if n < 2 ^ 32 then s.windowWrite (n / 2 ^ 20) (n / 2 ^ 16 % 16) (n % 2 ^ 16) (addr64 s.dev.ingestBase n) p.2 else s)
/-- COMMAND_BYTES_PERFORMED (R451): the oldest write of the window is performed. -/
def doCommandBytesPerformed (c w : Nat) (s : State) : State :=
  if s.ghosts.any (fun g => g.2 == cmdGhost c w) then s.ghostDone (cmdGhost c w)
  else match ((s.ctx c).win w).cmdPend with
  | [] => s
  | n :: t => (s.modWin c w (fun y => { y with cmdPend := t })).receive c w n

/-! ### Admission -/

/-- Moves the parse position over a record, and writes it to memory when it is due (R449). -/
def State.parsed (s : State) (c w n : Nat) : State :=
  let s := s.modWin c w (fun y => y.consume n)
  let x := s.ctx c
  let y := x.win w
  if y.published + 4096 ≤ y.parse || BitVec.ofNat 64 y.parse == x.received w then
    (s.modWin c w (fun y => { y with published := y.parse })).writeTracked c [(addr64 (dConsAddr x.desc) (8 * w), bytesOf (BitVec.ofNat 64 y.parse) 8)]
  else s
/-- A context whose windows are parsed: OPEN, or CLOSING with records whose bytes had all arrived (R444). -/
def Context.admits (x : Context) : Bool := x.state == .opened || x.state == .closing
/-- A spawned record waits that the admission stage can take now. -/
def State.spawnReady (s : State) : Bool :=
  s.spawnBufs.any (fun b => match b.2 with | [] => false | r :: _ => s.takesNow r.ctx r.record true [])
/-- An ingested record waits that the admission stage can take now. -/
def State.ingestReady (s : State) : Bool :=
  s.ctxs.any (fun e => e.2.admits && (List.range 16).any (fun w => s.winKind e.1 w == 1 && (match (e.2.win w).head with
    | none => false
    | some (r, ext) => s.takesNow e.1 (withDepth r 0) false ext)))
/-- Which kind of record the admission stage has taken last (R29). -/
def State.noteAdmission (s : State) (spawned : Bool) : State := { s with sched := { s.sched with spawnLast := spawned } }
/-- ADMIT_RECORD (R29, R31 to R33, R58 to R60, R195, R449). While a spawned record waits too, it is the spawned one's turn after an
ingested one. -/
def doAdmitRecord (c w : Nat) (s : State) : State :=
  let x := s.ctx c
  if !x.admits || s.winKind c w != 1 || (!s.sched.spawnLast && s.spawnReady) then s
  else match (x.win w).head with
  | none => s
  | some (r, ext) =>
    let r := withDepth r 0
    let n := 64 + extBytes r
    let cls := s.classOf c r 0
    match s.verdict c r false ext with
    | .needScene h => s.askScene c h
    | .needWalk k => s.askWalk c k
    | .refused j => ((s.parsed c w n).toFrontEnd (refusedItem c (min 3 cls) (dDelivs x.desc) r false j)).noteAdmission false
    | .miss => ((s.parsed c w n).toFrontEnd (missItem c cls r false)).noteAdmission false
    | .pass =>
      match s.admitPassed c cls r false (dataUnitsOf r ext) .frontEnd with
      | some s => (s.parsed c w n).noteAdmission false
      | none => s
/-- The record at the head of a core's spawn buffer has been taken. -/
def State.spawnTaken (s : State) (core : Nat) (rest : List SpawnRec) : State :=
  { s with spawnBufs := if rest.isEmpty then merase s.spawnBufs core else mset s.spawnBufs core rest,
           sched := { s.sched with spawnRot := core + 1, spawnLast := true } }
/-- Takes the head of a walk core's spawn buffer; none when the stage passes over the buffer (R251). -/
def State.admitSpawned (s : State) (core : Nat) : Option State :=
  match mgetD s.spawnBufs core [] with
  | [] => none
  | b :: rest =>
    let c := b.ctx
    let r := b.record
    let cls := s.classOf c r 0
    match s.verdict c r true [] with
    | .needScene h => if (s.ctx c).blocked then none else some (s.askScene c h)
    | .needWalk k => if (s.ctx c).blocked then none else some (s.askWalk c k)
    | .refused j => some ((s.spawnTaken core rest).toFrontEnd (refusedItem c (min 3 cls) (dDelivs (s.ctx c).desc) r true j))
    | .miss => some ((s.spawnTaken core rest).toFrontEnd (missItem c cls r true))
    | .pass => (s.admitPassed c cls r true [] .frontEnd).map (fun s => s.spawnTaken core rest)
/-- The walk cores in the order of the rotation. -/
def State.spawnOrder (s : State) : List Nat := (List.range 128).map (fun i => (s.sched.spawnRot + i) % 128)
/-- SPAWN_ADMIT (R29, R251). While an ingested record waits too, it is the ingested one's turn after a spawned one. -/
def doSpawnAdmit (s : State) : State :=
  if s.sched.spawnLast && s.ingestReady then s else (s.spawnOrder.findSome? s.admitSpawned).getD s

/-! ### The end of a close (R444) -/

/-- A complete record of the context still waits at the head of a window. -/
def State.recordReady (s : State) (c : Nat) : Bool :=
  (List.range 16).any (fun w => s.winKind c w == 1 && ((s.ctx c).win w).head.isSome)
/-- Some query of the context is in a place of R189, or waits to be admitted. -/
def State.hasQueries (s : State) (c : Nat) : Bool :=
  s.recordReady c || s.pool.any (fun e => e.2.ctx == c) || decide (0 < (s.ctx c).ovf.queries) ||
  s.spawnBufs.any (fun b => b.2.any (fun r => r.ctx == c))
/-- A chain or an emission group of the context waits at a source of the collector. -/
def State.itemsWait (s : State) (c : Nat) : Bool :=
  let mine := fun (i : CItem) => i.ctx == c
  s.feQ.any mine || s.schedQ.any mine || s.fwdQ.any mine || s.walkQ.any (fun q => q.2.any (fun h => mine h.item))
/-- The DELIVERY streams of a context become IDLE (R323). -/
def State.endDeliveries (s : State) (c : Nat) : State :=
  foldS ((s.streamsOf c).filter (fun k => smKind (s.stream k).image == 2)) s (fun s k =>
    (s.cancelXfers (fun w => match w with | .tile j _ => j == k | _ => false)).idleStream k)
/-- CLOSING_DONE (R323, R360, R444): once no query is left the collector flushes; when every write is acknowledged the
DELIVERY streams end, and with every COMMITTED line written through the context is CLOSED (assumption 36). -/
def doClosingDone (c : Nat) (s : State) : State :=
  if (s.ctx c).state != .closing || s.hasQueries c || s.itemsWait c then s
  else
    let s := s.closeFlush c
    let s := if s.collectorIdle c then s.endDeliveries c else s
    if (s.streamsOf c).isEmpty && s.collectorIdle c && !s.txnBuf.any (fun e => e.2.ctx == c) then s.setClosed c 0 else s

/-! ### The commands -/

/-- INGEST_WRITE. -/
def execIngestWrite (hi : Word) (c : CtxNo) (lo : BitVec 20) (data : List Byte) (s : State) : Host.Outcome State Fault Refusal :=
  .next (doIngestWrite (ingestAddr hi c lo) data s)
/-- COMMAND_BYTES_PERFORMED. -/
def execCommandBytesPerformed (c : CtxNo) (w : WindowNo) (s : State) : Host.Outcome State Fault Refusal :=
  .next (doCommandBytesPerformed c w s)
/-- ADMIT_RECORD. -/
def execAdmitRecord (c : CtxNo) (w : WindowNo) (s : State) : Host.Outcome State Fault Refusal := .next (doAdmitRecord c w s)
/-- SPAWN_ADMIT. -/
def execSpawnAdmit (s : State) : Host.Outcome State Fault Refusal := .next (doSpawnAdmit s)

end Sys2Proof.Machine
end

