-- ==== Sys2Proof/Machine/Scheduler.lean ====
section
/-! DEFINITION. Machine/Scheduler.lean: the release of sheaves (R211 to R216, R188), the end of an adaptation interval
(R193, R204, R207, R208, R216, R319), squalls, spills and reloads (R217 to R225), and the commands of the fill path. -/
namespace Sys2Proof.Machine

/-! ### Reading the spine (R187, R188, R432) -/

/-- Ends a query with an error code (R66, R188). One that is being spilled leaves its run, which then holds the others
(assumption 122); one that has executed END has ended. -/
def State.failQuery (s : State) (p code : Nat) (src : Source) : State :=
  match mget s.pool p with
  | none => s
  | some q =>
    match q.place with
    | .parked _ _ => (s.leaveCohort p).finishErr p stERR_DATA code src
    | .running w i n => (s.removeLane (sheafKey w i) n).finishErr p stERR_DATA code src
    | .forwarded _ => ({ s with fwdWait := s.fwdWait.filter (· != p) } : State).finishErr p stERR_DATA code src |>.settleWatch
    | .spilling rseq =>
      (s.modOvf q.ctx (fun o => { o with
        count := o.count - 1,
        runs := o.runs.map (fun r => if r.rseq == rseq then { r with recs := r.recs.filter (fun y => y.admitted != q.admitted) } else r) })).finishErr
        p stERR_DATA code src
    | .ending => s
/-- The slot of a query is read; an error that is not corrected ends the query (R188). -/
def State.readSlot (s : State) (p : Nat) (err : Option EccError) : State :=
  match s.spineRead p err with
  | (s, false) => s
  | (s, true) => s.failQuery p errPOOL_UE .scheduler

/-- SHEAF_RELEASE (R212): the members' slots are read as the sheaf is formed; errs names those that an error is found in (R188). -/
def doSheafRelease (id : CohortId) (g : Nat) (errs : List (Nat × EccError)) (s : State) : State :=
  match s.cohort id with
  | none => s
  | some c =>
    match s.releaseOf c g with
    | none => s
    | some (ms, _) =>
      let s := foldS ms s (fun s e => s.readSlot e.1 ((errs.find? (fun x => x.1 == e.1)).map (·.2)))
      match s.cohort id with
      | none => s
      | some c => s.releaseSheaf c g

/-! ### The end of an interval -/

/-- CORE cycles of the walk cores of groves in RUN in one interval (R204). -/
def State.coreSlots (s : State) : Nat := 8 * s.runGroves.length * 163840
/-- R204. -/
def State.adaptT (s : State) : State :=
  let d := s.sched
  if s.param 9 ≠ 1 then s
  else if 2097152 * 3 < d.ivFillLines * 4 then
    (if d.fillT < s.param 8 then ({ s with sched := { d with fillT := d.fillT * 2 } } : State).count 9 1 else s)
  else if d.ivFillLines * 2 < 2097152 ∧ s.coreSlots < d.ivStarve * 8 then
    (if s.param 7 < d.fillT then ({ s with sched := { d with fillT := d.fillT / 2 } } : State).count 10 1 else s)
  else s
/-- R319. -/
def State.adaptD (s : State) : State :=
  let d := s.sched
  let n := s.leafPfD
  if s.coreSlots < d.ivLeafWait * 8 then (if n < 64 then { s with leafPfD := min 64 (max 1 (n * 2)) } else s)
  else if d.ivLeafWait * 32 < s.coreSlots ∧ d.ivPfIssued < d.ivPfUnused * 2 then { s with leafPfD := n / 2 }
  else s
/-- R216: the octets whose banks gave more than DRIZZLE_BUSY sixteenths of their cycles to tests; a value of 16 suspends none
(R192). -/
def State.suspendDrizzle (s : State) : State :=
  let busy := fun (o : Octet) => decide (s.param 16 < 16 ∧ s.param 16 * 655360 < o.busy * 16)
  let n := (s.octets.filter (fun e => busy e.2)).length
  ({ s with octets := mmap s.octets (fun _ o => { o with drizzleOff := busy o, busy := 0 }) } : State).count 22 n
/-- Slots that hold no crown bough, in non-retired octets of groves in RUN (R208, R230). -/
def State.plainSlots (s : State) : Nat :=
  64 * (s.runGroves.map (fun g => (s.octets' g).length)).foldl (· + ·) 0 - s.runGroves.length * s.crownLoad
/-- R208. -/
def State.repin (s : State) : State :=
  let p := s.plainSlots - s.param 15
  let res := s.slots.filter (fun e => e.2.occ.isSome && e.2.testable && !e.2.leaving && !e.2.crown)
  let top := ((sortBy (fun e => [2 ^ 32 - s.slotUse e.2, e.1]) res).take p).map (·.1)
  { s with slots := mmap s.slots (fun k r => { r with pinned := top.contains k }) }
/-- R207, with the count of R210 as it stood before the halving. -/
def State.halveUse (s : State) : State :=
  { s with cohorts := s.cohorts.map (fun c => { c with endUse := c.useCount, useCount := c.useCount / 2 }) }
/-- Pending parameters take effect (R193, R537); a write of FILL_T_INIT sets T (R192). -/
def State.applyParams (s : State) : State :=
  let d := s.sched
  ({ s with sched := { d with params := d.pend, fillT := if d.tInit then nth d.pend 6 0 else d.fillT, tInit := false } } : State).squallCheck
/-- INTERVAL_END. -/
def doIntervalEnd (s : State) : State :=
  let s := s.adaptT.adaptD.suspendDrizzle.repin.halveUse.applyParams
  { s with sched := { s.sched with
      intervals := s.sched.intervals + 1, ivFillLines := 0, ivStarve := 0, ivLeafWait := 0, ivPfIssued := 0, ivPfUnused := 0 } }

/-! ### Spills (R218, R219) -/

/-- SPILL_COHORT: during a squall one run is spilled. -/
def doSpillCohort (s : State) : State :=
  if s.sched.squall then
    match s.spillChoice with
    | some (c, cls) => s.spillMembers c.id (s.membersOfClass c cls) cls
    | none => s
  else s
/-- SPILL_ACKNOWLEDGED (R219): the members' slots are freed; the cut then ends the run if it covers it (R228). -/
def doSpillAcknowledged (c rseq : Nat) (s : State) : State :=
  let x := s.ctx c
  match x.ovf.runs.find? (fun r => r.rseq == rseq) with
  | none => s
  | some r =>
    if r.written || !s.hasSlot (.run c rseq) then s
    else
      let s := (s.linesBack (.run c rseq)).modOvf c (fun o => { o with runs := o.runs.map (fun y => if y.rseq == rseq then { y with written := true } else y) })
      let s := foldS (s.pool.filter (fun e => e.2.ctx == c && e.2.place == .spilling rseq)) s (fun s e => s.releaseSlot e.1)
      let s := s.finishXfer (.run c rseq)
      if x.coversRun r then
        s.requestOnce (.run c rseq) c r.cls
      else s
/-- FRESH_RUN_CLOSE (R225). -/
def doFreshRunClose (c cls : Nat) (s : State) : State := s.closeFresh c cls

/-! ### Reload (R223, R224) -/

/-- The area of a context as reload finds it: an open fresh run closes when the area would otherwise be empty (R225). -/
def State.exposeHead (s : State) (c : Nat) : State :=
  let o := (s.ctx c).ovf
  if o.runs.isEmpty then
    match o.fresh with
    | (k, _) :: _ => s.closeFresh c k
    | [] => s
  else s
/-- The run at the head of a context's area. -/
def State.headRun (s : State) (c : Nat) : Option Run := ((s.exposeHead c).ctx c).ovf.runs.head?
/-- Extension units that the records of a run take. -/
def runUnits (r : Run) : Nat := (r.recs.map (fun x => x.data.length + collUnitCount x.record)).foldl (· + ·) 0
/-- A head run may be reloaded (R223, R228). -/
def State.reloadable (s : State) (c : Nat) (r : Run) : Bool :=
  let x := s.ctx c
  r.state == .live && r.written && x.admits && !(r.cls == 0 && x.cut.isSome) &&
  decide (s.occupied + r.recs.length ≤ s.param 3) && decide (s.used c + r.recs.length ≤ dPoolQuota x.desc) &&
  decide (s.extUsed + runUnits r ≤ s.param 5)
/-- The context whose head run is reloaded: the highest class, then the rotation by context number. -/
def State.reloadChoice (s : State) : Option (Nat × Run) :=
  leastBy (fun e => [e.2.cls, (e.1 + 4096 - s.sched.reloadRot % 4096) % 4096])
    (s.ctxs.filterMap (fun e => match s.headRun e.1 with
      | some r => if s.reloadable e.1 r then some (e.1, r) else none
      | none => none))
/-- Parks one reloaded record: fresh on its entry bough, any other where its run says (R222, R223, R236, R392). -/
def State.reloadRec (s : State) (c : Nat) (run : Run) (r : OvfRec) : Option State :=
  match r.ws, r.binding with
  | some ws, some b =>
    match mfree s.pool 524288, allocUnits s.ext r.data (collUnitCount r.record) with
    | some p, some (du, cu, ext) =>
      let (gen, s) := s.takeId
      let q : Query := {
        ctx := c, record := r.record, cls := r.cls, spawned := r.spawned, place := .parked none s.now,
        cohort := { ctx := c, scene := run.scene, tag := run.tag, bough := run.bough }, binding := b, epoch := r.epoch,
        dataUnits := du, collUnits := cu, ws := ws, admitted := r.admitted, gen := gen, origin := r.origin,
        fwd := { recs := [], emits := 0, expect := none } }
      some (((s.occupy p q ext).syncColl q ws).parkOrForward p c run.scene run.bough ws.clines .scheduler)
    | _, _ => none
  | _, _ =>
    if r.checked then s.takeSlot c r.cls r.record r.spawned r.data (some r.admitted) .scheduler
    else match s.verdict c r.record r.spawned [] with
      | .refused j => some (s.toFrontEnd (refusedItem c r.cls (dDelivs (s.ctx c).desc) r.record r.spawned j))
      | .miss => some (s.toFrontEnd (missItem c r.cls r.record r.spawned))
      | _ => s.takeSlot c r.cls r.record r.spawned r.data (some r.admitted) .scheduler
/-- The table read that the checks of a run's records need first (R77, R235). -/
def State.unreadOf (s : State) (c : Nat) (run : Run) : Option Verdict :=
  run.recs.findSome? (fun r => if r.checked then none else match s.verdict c r.record r.spawned [] with
    | .needScene h => some (.needScene h)
    | .needWalk k => some (.needWalk k)
    | _ => none)
/-- Parks every record of a run; none when some unit run finds no place (assumption 25). -/
def State.reloadAll (c : Nat) (run : Run) : List OvfRec → State → Option State
  | [], s => some s
  | r :: t, s =>
    match s.reloadRec c run r with
    | some s => State.reloadAll c run t s
    | none => none
/-- RELOAD_RUN (R223, R306): the run is read under a transfer, which may have to wait for its slot; first is what the reading
found, second a reading after a damaged one (R224). The runs of a deadline cut come first (R227). -/
def doReloadRun (first second : RunRead) (s : State) : State :=
  if s.sched.squall || s.cutReads then s
  else match s.reloadChoice with
  | none => s
  | some (c, run) =>
    let s1 := (s.exposeHead c).requestOnce (.run c run.rseq) c run.cls
    let turn := fun (s : State) => ({ s with sched := { s.sched with reloadRot := (c + 1) % 4096 } } : State)
    if !s1.hasSlot (.run c run.rseq) then s1
    else
      let s1 := s1.readRun c run first
      -- a reading that the fabric failed counts as the first (R429)
      match (if run.rereads = 0 then runLost first second else runLost first first) with
      | some n => turn (s1.loseRun c run.rseq n)
      | none =>
        match s.unreadOf c run with
        | some (.needScene h) => s.askScene c h
        | some (.needWalk k) => s.askWalk c k
        | _ =>
          match State.reloadAll c run run.recs (s1.dropRun c run.rseq) with
          | some s2 => turn (s2.count 15 run.recs.length)
          | none => s

/-! ### The commands -/

/-- COHORT_AGE_LIMIT. -/
def execCohortAgeLimit (id : CohortId) (s : State) : Host.Outcome State Fault Refusal := .next (doCohortAgeLimit id s)
/-- FILL_ISSUE. -/
def execFillIssue (s : State) : Host.Outcome State Fault Refusal := .next (doFillIssue s)
/-- FILL_VICTIM_TIMEOUT. -/
def execFillVictimTimeout (id : CohortId) (s : State) : Host.Outcome State Fault Refusal := .next (doFillVictimTimeout id s)
/-- TRAILER_RETURN. -/
def execTrailerReturn (id : CohortId) (line : Line) (s : State) : Host.Outcome State Fault Refusal := .next (doTrailerReturn id line s)
/-- FILL_LINE_RETURN. -/
def execFillLineReturn (id : CohortId) (n : Fin 65) (line : Line) (s : State) : Host.Outcome State Fault Refusal :=
  .next (doFillLineReturn id n line s)
/-- DECRYPT_DONE. -/
def execDecryptDone (id : CohortId) (s : State) : Host.Outcome State Fault Refusal := .next (doDecryptDone id s)
/-- PLACEMENT_CAPTURE. -/
def execPlacementCapture (g : GroveNo) (s : State) : Host.Outcome State Fault Refusal := .next (doPlacementCapture g s)
/-- BOUGH_TESTABLE. -/
def execBoughTestable (o : OctetNo) (sl : SlotNo) (s : State) (errs : List (Fin 64 × EccError) := []) : Host.Outcome State Fault Refusal :=
  .next (doBoughTestable o sl errs s)
/-- VICTIM_SLOT_FREED. -/
def execVictimSlotFreed (o : OctetNo) (sl : SlotNo) (s : State) : Host.Outcome State Fault Refusal := .next (doVictimSlotFreed o sl s)
/-- FILL_URGENT. -/
def execFillUrgent (c : CtxNo) (s : State) : Host.Outcome State Fault Refusal := .next (doFillUrgent c s)
/-- SHEAF_RELEASE. -/
def execSheafRelease (id : CohortId) (g : GroveNo) (s : State) (errs : List (Fin 524288 × EccError) := []) : Host.Outcome State Fault Refusal :=
  .next (doSheafRelease id g (errs.map (fun e => (e.1.val, e.2))) s)
/-- INTERVAL_END. -/
def execIntervalEnd (s : State) : Host.Outcome State Fault Refusal := .next (doIntervalEnd s)
/-- SPILL_COHORT. -/
def execSpillCohort (s : State) : Host.Outcome State Fault Refusal := .next (doSpillCohort s)
/-- SPILL_ACKNOWLEDGED. -/
def execSpillAcknowledged (c : CtxNo) (rseq : Nat) (s : State) : Host.Outcome State Fault Refusal := .next (doSpillAcknowledged c rseq s)
/-- FRESH_RUN_CLOSE. -/
def execFreshRunClose (c : CtxNo) (cls : QClass) (s : State) : Host.Outcome State Fault Refusal := .next (doFreshRunClose c cls s)
/-- RELOAD_RUN. -/
def execReloadRun (first second : RunRead) (s : State) : Host.Outcome State Fault Refusal := .next (doReloadRun first second s)

end Sys2Proof.Machine
end

