-- ==== Sys2Proof/Machine/Issue.lean ====
section
/-! DEFINITION. Machine/Issue.lean: what the issue of an instruction checks and does for a strand or an issue group
(R240, R242, R252, R258, R260 to R262), and the instructions common to all program kinds (R263 to R274). -/
namespace Sys2Proof.Machine

/-! ### Issue by a sheaf (R242) -/

/-- The sheaf in a slot that may issue: it is there and waits for nothing. -/
def State.issuing (s : State) (core sh : Nat) : Option Sheaf :=
  match mget s.sheaves (sheafKey core sh) with
  | some x => if x.wait == .ready && !x.group.isEmpty then some x else none
  | none => none
/-- PC of the issue group. -/
def Sheaf.pc (x : Sheaf) : Nat := match x.group with | l :: _ => l.pc | [] => 0
/-- WORDS of the image that the group runs: none for a stock walk, whose length the manual does not give
(assumption 11). -/
def Sheaf.words (x : Sheaf) : Option Nat := if x.handler || x.binding.bkind == 1 then x.binding.words else none
/-- A word index lies at or above WORDS (R260). -/
def beyond (words : Option Nat) (pc : Nat) : Bool := match words with | some n => decide (n ≤ pc) | none => false
/-- The instruction at a PC does not lie wholly inside the image (R260). -/
def pcBad (words : Option Nat) (pc : Nat) (long : Bool) : Bool := beyond words (if long then pc + 1 else pc)
/-- Words of an instruction (R259). -/
def iwords (long : Bool) : Nat := if long then 2 else 1
/-- A lane has issued one instruction (R243). -/
def Lane.counted (l : Lane) : Lane := { l with icount := l.icount + 1 }
/-- The lane goes on after an instruction. -/
def Lane.advance (l : Lane) (long : Bool) : Lane := { l.counted with pc := l.pc + iwords long }
/-- The group issues an illegal instruction: its context is killed (R253). -/
def State.sheafIllegal (s : State) (core : Nat) (x : Sheaf) : State := s.illegal x.cohort.ctx core x.pc
/-- Issues an instruction for the group of a sheaf: nothing happens when the sheaf cannot issue; an instruction outside
the image, or whose operands are not legal, kills the context; otherwise the effect runs. -/
def State.issue (s : State) (core sh : Nat) (long : Bool) (legal : Sheaf → Bool) (eff : Sheaf → State) : State :=
  match s.issuing core sh with
  | none => s
  | some x => if pcBad x.words x.pc long || !legal x then s.sheafIllegal core x else eff x
/-- Puts a sheaf back in its slot. -/
def State.putSheaf (s : State) (core sh : Nat) (x : Sheaf) : State := { s with sheaves := mset s.sheaves (sheafKey core sh) x }
/-- The numbers of the issue group. -/
def Sheaf.groupNs (x : Sheaf) : List Nat := x.group.map (·.n)
/-- Issues an instruction that changes each lane of the group alone. -/
def State.laneOp (s : State) (core sh : Nat) (long : Bool) (lat : Nat) (legal : Sheaf → Bool) (f : Lane → Lane) : State :=
  s.issue core sh long legal (fun x => s.putSheaf core sh { x.mapLanes x.groupNs (fun l => f (l.advance long)) with lat := lat })

/-! ### Issue by a strand (R240, R261) -/

/-- The strand of a context may issue an instruction that uses the registers: it is READY and none of them awaits a load
or an atomic. -/
def State.strandReady (s : State) (c : Nat) (uses : List Nat) : Bool :=
  let t := (s.ctx c).strand
  (s.ctx c).state == .opened && t.state == .ready && uses.all (fun n => !t.awaits n)
/-- Issues a strand instruction. -/
def State.strandIssue (s : State) (c : Nat) (uses : List Nat) (long legal : Bool) (lat : Nat) (eff : State → State) : State :=
  if !s.strandReady c uses then s
  else
    let t := (s.ctx c).strand
    if pcBad (some t.words) t.pc long || !legal then s.illegal c noUnit t.pc
    else eff (s.modStrand c (fun t => { t with pc := t.pc + iwords long, lat := lat }))
/-- Writes a strand register of a context. -/
def State.setReg (s : State) (c : Nat) (f : BitVec 6) (v : DWord) : State := s.modStrand c (fun t => t.setX f v)
/-- Reads a strand register of a context. -/
def State.getReg (s : State) (c : Nat) (f : BitVec 6) : DWord := (s.ctx c).strand.rx f

/-! ### Integer instructions (R263 to R266) -/

/-- NOP (R269). -/
def doNop (i : Issuer) (s : State) : State :=
  match i with
  | .strand c => s.strandIssue c [] false true 1 id
  | .sheaf core sh => s.laneOp core sh false 1 (fun _ => true) id
/-- IOP (R263, R264). -/
def doIop (i : Issuer) (f : Fields) (s : State) : State :=
  match i with
  | .strand c =>
    let a := s.getReg c f.a
    let b := s.getReg c f.b
    s.strandIssue c [f.a.toNat, f.b.toNat, f.d.toNat] false (isX f.d && isX f.a && isX f.b && (iop f.minor.toNat a b).isSome)
      (iopLatency true f.minor.toNat) (fun s => s.setReg c f.d ((iop f.minor.toNat a b).getD 0))
  | .sheaf core sh =>
    s.laneOp core sh false (iopLatency false f.minor.toNat)
      (fun x => isVDst x.handler f.d && isV f.a && isV f.b && (iop f.minor.toNat (0 : Word) 0).isSome)
      (fun l => l.setV f.d ((iop f.minor.toNat (l.rv f.a) (l.rv f.b)).getD 0))
/-- IOPI: the immediate is sign-extended (R263). -/
def doIopi (i : Issuer) (f : Fields) (s : State) : State :=
  match i with
  | .strand c =>
    let a := s.getReg c f.a
    s.strandIssue c [f.a.toNat, f.d.toNat] true (isX f.d && isX f.a && (iop f.minor.toNat a (sext64 f.imm)).isSome)
      (iopLatency true f.minor.toNat) (fun s => s.setReg c f.d ((iop f.minor.toNat a (sext64 f.imm)).getD 0))
  | .sheaf core sh =>
    s.laneOp core sh true (iopLatency false f.minor.toNat)
      (fun x => isVDst x.handler f.d && isV f.a && (iop f.minor.toNat (0 : Word) 0).isSome)
      (fun l => l.setV f.d ((iop f.minor.toNat (l.rv f.a) f.imm).getD 0))
/-- MOVI with minor 0x00 (R265). -/
def doMovi (i : Issuer) (f : Fields) (s : State) : State :=
  match i with
  | .strand c => s.strandIssue c [f.d.toNat] true (isX f.d && minorIs f 0) 1 (fun s => s.setReg c f.d (sext64 f.imm))
  | .sheaf core sh => s.laneOp core sh true 1 (fun x => isVDst x.handler f.d && minorIs f 0) (fun l => l.setV f.d f.imm)
/-- MOVIH: sequencer images only (R265). -/
def doMovih (i : Issuer) (f : Fields) (s : State) : State :=
  match i with
  | .strand c =>
    s.strandIssue c [f.a.toNat, f.d.toNat] true (isX f.d && isX f.a && minorIs f 1) 1 (fun s =>
      s.setReg c f.d (f.imm ++ ((s.getReg c f.a).setWidth 32 : Word)))
  | .sheaf core sh => s.issue core sh true (fun _ => false) (fun _ => s)
/-- CMP (R266). -/
def doCmp (i : Issuer) (f : Fields) (s : State) : State :=
  match i with
  | .strand c =>
    let a := s.getReg c f.a
    let b := s.getReg c f.b
    s.strandIssue c [f.a.toNat, f.b.toNat, f.d.toNat] false (isX f.d && isX f.a && isX f.b && (cmpHolds f.minor.toNat a b).isSome)
      1 (fun s => s.setReg c f.d (if (cmpHolds f.minor.toNat a b).getD false then 1 else 0))
  | .sheaf core sh =>
    s.laneOp core sh false 1 (fun _ => isPDst f.d && isV f.a && isV f.b && (cmpHolds f.minor.toNat (0 : Word) 0).isSome)
      (fun l => l.setP f.d ((cmpHolds f.minor.toNat (l.rv f.a) (l.rv f.b)).getD false))

/-! ### Branches (R260, R262, R267, R268) -/

/-- A branch of a strand: taken to a target, or not. A taken one delays the next issue by 2 cycles, the other by 1. -/
def State.strandBranch (s : State) (c : Nat) (uses : List Nat) (long legal taken : Bool) (target : Nat) (eff : State → State) : State :=
  let w := (s.ctx c).strand.words
  s.strandIssue c uses long (legal && !(taken && decide (w ≤ target))) (if taken then 2 else 1) (fun s =>
    if taken then (eff s).modStrand c (fun t => { t with pc := target }) else s)
/-- A branch of an issue group, each lane on its own condition. -/
def State.laneBranch (s : State) (core sh : Nat) (long : Bool) (legal : Sheaf → Bool) (taken : Lane → Bool) (target : Lane → Nat)
    (eff : Lane → Lane) : State :=
  s.issue core sh long
    (fun x => legal x && !x.group.any (fun l => taken l && beyond x.words (target l)))
    (fun x => s.putSheaf core sh { x.mapLanes x.groupNs (fun l =>
        if taken l then { eff l.counted with pc := target l } else l.advance long) with
      lat := if x.group.any taken then 2 else 1 })
/-- BR. -/
def doBr (i : Issuer) (f : Fields) (s : State) : State :=
  match i with
  | .strand c => s.strandBranch c [] true (minorIs f 0) true f.imm.toNat id
  | .sheaf core sh => s.laneBranch core sh true (fun _ => minorIs f 0) (fun _ => true) (fun _ => f.imm.toNat) id
/-- BRT and BRF. -/
def State.condBranch (s : State) (i : Issuer) (f : Fields) (onTrue : Bool) : State :=
  match i with
  | .strand c => s.strandBranch c [f.a.toNat] true (isX f.a && minorIs f (if onTrue then 1 else 2)) (branchTaken onTrue (s.getReg c f.a != 0)) f.imm.toNat id
  | .sheaf core sh => s.laneBranch core sh true (fun _ => isP f.a && minorIs f (if onTrue then 1 else 2)) (fun l => branchTaken onTrue (l.rp f.a)) (fun _ => f.imm.toNat) id
def doBrt (i : Issuer) (f : Fields) (s : State) : State := s.condBranch i f true
def doBrf (i : Issuer) (f : Fields) (s : State) : State := s.condBranch i f false
/-- CALL: rd receives the word after the instruction. -/
def doCall (i : Issuer) (f : Fields) (s : State) : State :=
  match i with
  | .strand c =>
    let ra := (s.ctx c).strand.pc + 2
    s.strandBranch c [f.d.toNat] true (isX f.d && minorIs f 3) true f.imm.toNat (fun s => s.setReg c f.d (BitVec.ofNat 64 ra))
  | .sheaf core sh =>
    s.laneBranch core sh true (fun x => isVDst x.handler f.d && minorIs f 3) (fun _ => true) (fun _ => f.imm.toNat)
      (fun l => l.setV f.d (BitVec.ofNat 32 (l.pc + 2)))
/-- RET: the target is a word index in a register. -/
def doRet (i : Issuer) (f : Fields) (s : State) : State :=
  match i with
  | .strand c => s.strandBranch c [f.a.toNat] false (isX f.a && minorIs f 0) true (s.getReg c f.a).toNat id
  | .sheaf core sh => s.laneBranch core sh false (fun _ => isV f.a && minorIs f 0) (fun _ => true) (fun l => (l.rv f.a).toNat) id
/-- ILLEGAL_INSTRUCTION: a word that R252 forbids kills the context (R253). -/
def doIllegalInstruction (i : Issuer) (s : State) : State :=
  match i with
  | .strand c => s.strandIssue c [] false false 1 id
  | .sheaf core sh => s.issue core sh false (fun _ => false) (fun _ => s)

/-! ### Lane arithmetic (R270 to R274) -/

/-- The result of FOP; none for a reserved minor. -/
def fopResult (minor : Nat) (a b d : Word) : Option Word :=
  match minor with
  | 0x00 => some (fadd a b)
  | 0x01 => some (fsub a b)
  | 0x02 => some (fmul a b)
  | 0x03 => some (fdiv a b)
  | 0x04 => some (ffma a b d)
  | 0x05 => some (fmin a b)
  | 0x06 => some (fmax a b)
  | 0x07 => some (fsqrtw a)
  | 0x08 => some (fabsw a)
  | 0x09 => some (fnegate a)
  | _ => none
/-- Latency in CORE cycles (R305). -/
def fopLatency (minor : Nat) : Nat :=
  match minor with
  | 0x03 => 12
  | 0x07 => 14
  | _ => 4
/-- FSQRT, FABS and FNEG leave B unused. -/
def fopUnary (minor : Nat) : Bool := 7 ≤ minor && minor ≤ 9
def doFop (core sh : Nat) (f : Fields) (s : State) : State :=
  let m := f.minor.toNat
  s.laneOp core sh false (fopLatency m)
    (fun x => isVDst x.handler f.d && isV f.a && (fopUnary m || isV f.b) && decide (m ≤ 0x09))
    (fun l => l.setV f.d ((fopResult m (l.rv f.a) (l.rv f.b) (l.rv f.d)).getD 0))
def doFcmp (core sh : Nat) (f : Fields) (s : State) : State :=
  let m := f.minor.toNat
  s.laneOp core sh false 4 (fun _ => isPDst f.d && isV f.a && isV f.b && decide (m ≤ 0x07))
    (fun l => l.setP f.d ((fcmpHolds m (l.rv f.a) (l.rv f.b)).getD false))
def doCvt (core sh : Nat) (f : Fields) (s : State) : State :=
  let m := f.minor.toNat
  s.laneOp core sh false 2 (fun x => isVDst x.handler f.d && isV f.a && decide (m ≤ 0x07))
    (fun l => l.setV f.d ((cvtOp m (l.rv f.a)).getD 0))
def doSel (core sh : Nat) (f : Fields) (s : State) : State :=
  let m := f.minor.toNat
  s.laneOp core sh false 1 (fun x => isVDst x.handler f.d && isV f.a && isV f.b && decide (m < 8))
    (fun l => l.setV f.d (if l.pred m then l.rv f.a else l.rv f.b))
def doPlog (core sh : Nat) (f : Fields) (s : State) : State :=
  let m := f.minor.toNat
  s.laneOp core sh false 1 (fun _ => isPDst f.d && isP f.a && (plogUnary m || isP f.b) && decide (m ≤ 0x05))
    (fun l => l.setP f.d ((plogOp m (l.rp f.a) (l.rp f.b)).getD false))

/-! ### Special registers (R244, R274) -/

/-- The K-th held entry's VALUE, or 0 while fewer are held. -/
def kthValue (r : Rec64) (ws : WalkState) : Word :=
  match ws.coll[qK r - 1]? with
  | some h => if qK r = 0 then 0 else h.value
  | none => 0
/-- The instance that admitted a query. -/
def State.originOf (s : State) (q : Query) : Nat := match q.origin with | some o => o.inst | none => s.dev.instId
/-- Reads a special register; none for a reserved number. -/
def State.specialReg (s : State) (core sh n : Nat) (l : Lane) (q : Query) : Option Word :=
  let r := q.record
  let w := l.ws
  let n32 := fun (k : Nat) => some (BitVec.ofNat 32 k)
  if n < 0x10 then some (fldv r (4 * n) 32)
  else match n with
  | 0x10 => n32 (qKind r)
  | 0x11 => n32 (qMode r)
  | 0x12 => n32 q.cls
  | 0x13 => n32 (qK r)
  | 0x14 => n32 (qScene r)
  | 0x15 => n32 (qMask r).toNat
  | 0x16 => n32 (qFlags r).toNat
  | 0x17 => some (qTag r)
  | 0x18 => n32 w.bough
  | 0x19 => n32 w.node
  | 0x1A => n32 (sceneAt q w)
  | 0x1B => n32 w.path.length
  | 0x1C => n32 w.stack.length
  | 0x1D => some (w.trail.setWidth 32)
  | 0x1E => some (w.trail.extractLsb' 32 32)
  | 0x1F => some w.tmax
  | 0x20 => n32 w.coll.length
  | 0x21 => some (kthValue r w)
  | 0x22 => n32 w.tree
  | 0x23 => n32 w.rows
  | 0x24 => some (w.uflags.setWidth 32)
  | 0x28 => n32 l.n
  | 0x29 => n32 sh
  | 0x2A => n32 core
  | 0x2B => n32 (core / 8)
  | 0x2C => n32 q.ctx
  | 0x2D => n32 s.dev.instId
  | 0x2E => n32 (s.originOf q)
  | _ => none
/-- Numbers that a lane may read. -/
def specialReadable (n : Nat) : Bool := n < 0x25 || (0x28 ≤ n && n < 0x2F)
/-- Numbers that a lane may write: q.user1, w.tmax and w.uflags. -/
def specialWritable (n : Nat) : Bool := n == 0x0F || n == 0x1F || n == 0x24
/-- w.tmax after a write of v: min(v, TMAX), unchanged for a NaN (R244). -/
def writeTmax (r : Rec64) (old v : Word) : Word :=
  if (v32 v).isNan then old
  else
    -- only a RAY record has TMAX; another query takes v as written (assumption 38)
    if qKind r != 1 || (e32 v).le (e32 (qTmax r)) then v else qTmax r
/-- A record with USER1 replaced. -/
def withUser1 (r : Rec64) (w : Word) : Rec64 := setFld r 60 32 w.toNat
/-- One lane's write of a special register. -/
def State.writeSpecial (s : State) (key n : Nat) (l : Lane) (v : Word) : State :=
  match n with
  | 0x0F => s.modQuery l.slot (fun q => { q with record := withUser1 q.record v })
  | 0x1F =>
    match mget s.pool l.slot with
    | some q => s.modSheaf key (fun x => x.mapLanes [l.n] (fun y => { y with ws := { y.ws with tmax := writeTmax q.record y.ws.tmax v } }))
    | none => s
  | _ => s.modSheaf key (fun x => x.mapLanes [l.n] (fun y => { y with ws := { y.ws with uflags := v.setWidth 16 } }))
/-- MOVS. -/
def doMovs (core sh : Nat) (f : Fields) (s : State) : State :=
  let m := f.minor.toNat
  let n := m % 64
  if m < 128 then
    s.issue core sh false (fun x => m < 64 && isVDst x.handler f.d && specialReadable n) (fun x =>
      s.putSheaf core sh { x.mapLanes x.groupNs (fun l =>
        (l.advance false).setV f.d (match mget s.pool l.slot with
          | some q => (s.specialReg core sh n l q).getD 0
          | none => 0)) with lat := 1 })
  else
    s.issue core sh false (fun _ => m < 192 && isV f.a && specialWritable n) (fun x =>
      foldS x.group (s.putSheaf core sh { x.mapLanes x.groupNs (fun l => l.advance false) with lat := 1 })
        (fun s l => s.writeSpecial (sheafKey core sh) n l (l.rv f.a)))

/-! ### Long walks (R243) -/

/-- WALK_LONG: once for each lane whose count has reached 2^20 since its last start or resume. -/
def doWalkLong (core sh n : Nat) (s : State) : State :=
  match mget s.sheaves (sheafKey core sh) with
  | none => s
  | some x =>
    match x.lanes.find? (fun l => l.n == n) with
    | none => s
    | some l =>
      if 1048576 ≤ l.icount && !l.long then
        let tag := match mget s.pool l.slot with | some q => (qTag q.record).toNat | none => 0
        let c := x.cohort.ctx
        ((s.modSheaf (sheafKey core sh) (fun x => x.mapLanes [n] (fun l => { l with long := true }))).countC c 5 1).report 0x12 2 c core noUnit tag
      else s

/-! ### The commands -/

/-- NOP. -/
def execNop (i : Issuer) (s : State) : Host.Outcome State Fault Refusal := .next (doNop i s)
/-- IOP. -/
def execIop (i : Issuer) (f : Fields) (s : State) : Host.Outcome State Fault Refusal := .next (doIop i f s)
/-- IOPI. -/
def execIopi (i : Issuer) (f : Fields) (s : State) : Host.Outcome State Fault Refusal := .next (doIopi i f s)
/-- MOVI. -/
def execMovi (i : Issuer) (f : Fields) (s : State) : Host.Outcome State Fault Refusal := .next (doMovi i f s)
/-- MOVIH. -/
def execMovih (i : Issuer) (f : Fields) (s : State) : Host.Outcome State Fault Refusal := .next (doMovih i f s)
/-- CMP. -/
def execCmp (i : Issuer) (f : Fields) (s : State) : Host.Outcome State Fault Refusal := .next (doCmp i f s)
/-- BR. -/
def execBr (i : Issuer) (f : Fields) (s : State) : Host.Outcome State Fault Refusal := .next (doBr i f s)
/-- BRT. -/
def execBrt (i : Issuer) (f : Fields) (s : State) : Host.Outcome State Fault Refusal := .next (doBrt i f s)
/-- BRF. -/
def execBrf (i : Issuer) (f : Fields) (s : State) : Host.Outcome State Fault Refusal := .next (doBrf i f s)
/-- CALL. -/
def execCall (i : Issuer) (f : Fields) (s : State) : Host.Outcome State Fault Refusal := .next (doCall i f s)
/-- RET. -/
def execRet (i : Issuer) (f : Fields) (s : State) : Host.Outcome State Fault Refusal := .next (doRet i f s)
/-- ILLEGAL_INSTRUCTION. -/
def execIllegalInstruction (i : Issuer) (s : State) : Host.Outcome State Fault Refusal := .next (doIllegalInstruction i s)
/-- FOP. -/
def execFop (core : CoreNo) (sh : SheafNo) (f : Fields) (s : State) : Host.Outcome State Fault Refusal := .next (doFop core sh f s)
/-- FCMP. -/
def execFcmp (core : CoreNo) (sh : SheafNo) (f : Fields) (s : State) : Host.Outcome State Fault Refusal := .next (doFcmp core sh f s)
/-- CVT. -/
def execCvt (core : CoreNo) (sh : SheafNo) (f : Fields) (s : State) : Host.Outcome State Fault Refusal := .next (doCvt core sh f s)
/-- SEL. -/
def execSel (core : CoreNo) (sh : SheafNo) (f : Fields) (s : State) : Host.Outcome State Fault Refusal := .next (doSel core sh f s)
/-- PLOG. -/
def execPlog (core : CoreNo) (sh : SheafNo) (f : Fields) (s : State) : Host.Outcome State Fault Refusal := .next (doPlog core sh f s)
/-- MOVS. -/
def execMovs (core : CoreNo) (sh : SheafNo) (f : Fields) (s : State) : Host.Outcome State Fault Refusal := .next (doMovs core sh f s)
/-- WALK_LONG. -/
def execWalkLong (core : CoreNo) (sh : SheafNo) (l : LaneNo) (s : State) : Host.Outcome State Fault Refusal := .next (doWalkLong core sh l s)

end Sys2Proof.Machine
end

