-- ==== Sys2Proof/Machine/Walk.lean ====
section
/-! DEFINITION. Machine/Walk.lean: the bank tests of a sheaf (R164 to R168, R278 to R280), child lists, the short stack and
the trail (R275, R276, R285 to R287), recorded results (R290, R291) and how a lane leaves its sheaf (R246 to R249). -/
namespace Sys2Proof.Machine

/-! ### Lanes that change or leave -/

/-- Changes one lane of a sheaf. -/
def State.modLane (s : State) (key n : Nat) (f : Lane → Lane) : State := s.modSheaf key (fun x => x.mapLanes [n] f)
/-- The lane leaves its sheaf and its walk state goes back to its pool slot (R24, R246). -/
def State.leaveSheaf (s : State) (key : Nat) (l : Lane) (ws : WalkState) : State :=
  let s := ((s.removeLane key l.n).modQuery l.slot (fun q => { q with ws := ws })).writeSpine l.slot
  match mget s.pool l.slot with
  | some q => s.syncColl q ws
  | none => s
/-- The lane leaves and its query parks on a bough, or is forwarded to the bough's holder (R246, R473). -/
def State.parkLane (s : State) (key : Nat) (l : Lane) (ws : WalkState) (h b clines : Nat) : State :=
  match mget s.pool l.slot with
  | none => s
  | some q => (s.leaveSheaf key l ws).parkOrForward l.slot q.ctx h b clines (.walk (key / 48 / 8))
/-- The lane is parked again on its own bough and will resume at its present instruction (R167, R246). -/
def State.reparkLane (s : State) (key : Nat) (l : Lane) (q : Query) : State :=
  s.parkLane key l { l.ws with resumePc := some l.pc } (sceneAt q l.ws) l.ws.bough l.ws.clines
/-- The lane's query ends ERR_DATA (R435). -/
def State.failLane (s : State) (key : Nat) (l : Lane) (code : Nat) : State :=
  (s.removeLane key l.n).finishErr l.slot stERR_DATA code (.walk (key / 48 / 8))
/-- The query of a lane. -/
def State.laneQuery (s : State) (l : Lane) : Option Query := mget s.pool l.slot
/-- The lanes of a sheaf by number. -/
def Sheaf.lane (x : Sheaf) (n : Nat) : Option Lane := x.lanes.find? (fun l => l.n == n)
/-- The scene descriptor under which a lane walks. -/
def State.laneScene (s : State) (q : Query) (l : Lane) : Rec64 := (s.bound q.ctx (sceneAt q l.ws)).getD 0
/-- Instructions that a handler may not issue (R252). -/
def Sheaf.walkOnly (x : Sheaf) : Bool := !x.handler

/-! ### TESTN (R278 to R280) -/

/-- The limit of a PROBE test: min(r2, va), or r2 when va is NaN (R278). -/
def probeLimit (r : Rec64) (va : Word) : Word :=
  let r2 := radius2 (qRadius r)
  if (v32 va).isNan || (e32 r2).le (e32 va) then r2 else va
/-- Feature i of a query as its data units hold it. -/
def State.featureOf (s : State) (q : Query) (i : Nat) : BitVec 16 := fldv (mgetD s.ext (nth q.dataUnits (i / 128) 0) 0) (2 * (i % 128)) 16
/-- The vector of a query. -/
def State.vectorOf (s : State) (q : Query) : List Byte := (q.dataUnits.flatMap (fun u => bytesOf (mgetD s.ext u 0) 256)).take (qDims q.record)
/-- The answer of the banks to a lane, or of a dropped bough (R421). -/
def State.bankAnswer (s : State) (x : Sheaf) (q : Query) (l : Lane) (va : Word) : Except Nat (List ChildAns) :=
  let r := q.record
  let d := s.laneScene q l
  match x.octetSlot with
  | none => .ok (if sFmt d = 3 then [{ slot := 0, ref := 0, clines := 0, key := 0, exit := 0, score := 0, cn := 0 }] else [])
  | some k =>
    let ls := (s.slot k).lines
    let n := l.ws.node
    match sFmt d, qKind r with
    | 1, 1 => testBox ls n (rayAt r l.ws.path) (q16 (qTime r)) (qTmin r) l.ws.tmax (qMask r)
    | 1, 2 => testProbe ls n (rayAt r l.ws.path).o (probeLimit r va) (qMask r)
    | 3, 4 => testSplit ls n (qNfeat r) (s.featureOf q)
    | 2, 3 => testBall ls n (qDims r) (qEtype r) (qMetric r) (s.vectorOf q)
    | _, _ => .error errNODE
/-- The node lines that a test of node n reads (R93, R97, R99, R168). -/
def testedLines (d r : Rec64) (ls : List Line) (n : Nat) : List Nat :=
  let all := if sFmt d = 2 then (List.range (1 + 8 * cdiv (qDims r) 128)).map (n + ·)
    else if sFmt d = 1 ∧ qKind r = 1 ∧ boxMotion (nth ls n 0) then [n, n + 1] else [n]
  all.filter (· < ls.length)
/-- The operand segments that a lane's test looks up (R172). -/
def State.testSegments (s : State) (x : Sheaf) (q : Query) (l : Lane) : List (Nat × Nat) :=
  let d := s.laneScene q l
  match x.octetSlot with
  | none => []
  | some k =>
    if sFmt d = 2 then dataSegments q.dataUnits (qDims q.record)
    else if sFmt d = 3 then
      let line := nth (s.slot k).lines l.ws.node 0
      ((List.range 7).map (fun i => fbit line (8 * (4 + 2 * i)) 10)).filterMap (fun f =>
        if f < qNfeat q.record then some (nth q.dataUnits (f / 128) 0, f % 128 / 32) else none)
    else []
/-- A child as the child list holds it (R275, R277). -/
def childEntry (q : Query) (ws : WalkState) (c : ChildAns) : ChildEntry :=
  { type := refType c.ref, ref := c.ref, clines := c.clines, key := c.key, exit := c.exit, score := c.score, cn := c.cn,
    slot := c.slot, bough := ws.bough, scene := sceneAt q ws, ilevel := ws.path.length, start := 0 }
/-- The packet of a lane's test in bough slot k (R164, R174). -/
def State.testPacket (s : State) (key k : Nat) (x : Sheaf) (l : Lane) (q : Query) : Packet :=
  let d := s.laneScene q l
  { sheaf := key, lane := l.n, bank := l.ws.node % 8, cls := q.cls, arrived := s.bankNow, slot := k, node := l.ws.node,
    block := none, reads := (testedLines d q.record (s.slot k).lines l.ws.node).length,
    dims := if sFmt d = 2 then qDims q.record else 0, fp8 := qEtype q.record != 0, segs := s.testSegments x q l, served := false }
/-- The packets of a TESTN: one for each lane of the issue group; none for a dropped bough, which no bank holds (R421). -/
def State.testPackets (s : State) (key : Nat) (x : Sheaf) : List Packet :=
  match x.octetSlot with
  | none => []
  | some k => x.group.filterMap (fun l => (s.laneQuery l).map (s.testPacket key k x l))
/-- Hands packets to the octet that holds a sheaf's bough: its input stage takes all of them, or none while a bank that they
name lacks room (R174). -/
def State.sendPackets (s : State) (x : Sheaf) (ps : List Packet) : Option State :=
  match x.octetSlot with
  | none => some s
  | some k => if (s.octet (k / 64)).hasRoom ps then some (s.enqueue (k / 64) ps) else none
/-- TESTN is issued: the group waits for its answers. While the octet lacks room for its packets the instruction is held. -/
def doTestn (core sh : Nat) (f : Fields) (s : State) : State :=
  let key := sheafKey core sh
  s.issue core sh false (fun x => x.walkOnly && isV f.d && isV f.a) (fun x =>
    match s.sendPackets x (s.testPackets key x) with
    | none => s
    | some s => s.putSheaf core sh { x.mapLanes x.groupNs Lane.counted with wait := .testn x.groupNs f, lat := 22 })
/-- The spine lines that hold operand segments (R172, R187). -/
def segmentLines (l : List (Nat × Nat)) : List Nat := firsts (l.map (fun e => 524288 + 2 * e.1 + e.2 / 2))
/-- Reads spine lines of extension units, with what the check of the first found: the state, and whether one gave an
uncorrectable error (R188). -/
def State.readUnits (s : State) (err : Option EccError) : List Nat → State × Bool
  | [] => (s, false)
  | n :: t =>
    match s.spineRead n err with
    | (s, bad) => match s.readUnits none t with
      | (s, bad') => (s, bad || bad')
/-- What an operand list of errors says of a lane. -/
def laneError (errs : List (LaneNo × EccError)) (n : Nat) : Option EccError := (errs.find? (fun e => e.1.val == n)).map (fun e => e.2)
/-- Reads the bank lines of a lane's test, errs naming the node lines in which an error was found: the state, and whether the
lane cannot use them, which invalidates the bough's slot (R167, R177 to R179). -/
def State.readTested (s : State) (x : Sheaf) (d r : Rec64) (l : Lane) (errs : List (LaneNo × Fin 64 × EccError)) : State × Bool :=
  match x.octetSlot with
  | none => (s, false)
  | some k =>
    if s.retired (k / 64) then (s, true)
    else
      let err := fun (n : Nat) => (errs.find? (fun e => e.1.val == l.n && e.2.1.val == n)).map (fun e => e.2.2)
      match s.readLines k err (testedLines d r (s.slot k).lines l.ws.node) with
      | (s, bad) => (if bad then s.invalidate k else s, bad)
/-- The answer to one lane of a TESTN (R166, R167, R188, R227, R279). -/
def State.answerLane (s : State) (key : Nat) (f : Fields) (errs : List (LaneNo × Fin 64 × EccError)) (units : List (LaneNo × EccError))
    (l : Lane) : State :=
  match mget s.sheaves key, s.laneQuery l with
  | some x, some q =>
    if s.cutCovers q then s.lateLane key l
    else
      let d := s.laneScene q l
      match s.readUnits (laneError units l.n) (segmentLines (s.testSegments x q l)) with
      | (s, true) => s.failLane key l errEXT_UE
      | (s, false) =>
        match s.readTested x d q.record l errs with
        | (s, true) => s.reparkLane key l q
        | (s, false) =>
          let lines := match x.octetSlot with | some k => (s.slot k).lines.length | none => 64
          match s.bankAnswer x q l (l.rv f.a) with
          | .error e => s.failLane key l e
          | .ok cs =>
            match firstBreach l.ws.node l.ws.bough lines (sBoughs d) (sSharded d) cs with
            | some e => s.failLane key l e
            | none => s.modLane key l.n (fun l =>
                { l.setV f.d (BitVec.ofNat 32 cs.length) with
                  pc := l.pc + 1, clist := cs.map (childEntry q l.ws),
                  ws := { l.ws with incomplete := l.ws.incomplete || x.octetSlot.isNone } })
  | _, _ => s
/-- The octet has served the packets of a sheaf: the passes that did, which lanes found a parity error in an operand segment
(R424), and the end of their places in the queues. A retired octet serves none (R184). -/
def State.servePackets (s : State) (key : Nat) (x : Sheaf) (parity : List LaneNo) : State :=
  match x.octetSlot with
  | none => s
  | some k =>
    let o := k / 64
    let mine := (s.octet o).queue.filter (fun p => p.sheaf == key)
    let s := if s.retired o then s else s.serveSheaf o key
    let s := foldS (mine.filter (fun p => parity.any (fun n => n.val == p.lane))) s (fun s p => s.segmentParity o p.segs)
    s.takeAnswers o key
/-- TEST_ANSWER (R280): the answers of a TESTN, for every lane of the group together: errs names the node lines, and units the
lanes in whose extension units, an error was found; parity the lanes in whose operand segments. -/
def doTestAnswer (core sh : Nat) (errs : List (LaneNo × Fin 64 × EccError)) (units : List (LaneNo × EccError)) (parity : List LaneNo)
    (s : State) : State :=
  let key := sheafKey core sh
  match mget s.sheaves key with
  | none => s
  | some x =>
    match x.wait with
    | .testn grp f =>
      foldS (grp.filterMap x.lane) ((s.putSheaf core sh { x with wait := .ready }).servePackets key x parity)
        (fun s l => s.answerLane key f errs units l)
    | _ => s

/-! ### Child lists, stack and trail (R285 to R287) -/

/-- Stable insertion by KEY after every entry that does not come later. -/
def insertChild (desc : Bool) (e : ChildEntry) : List ChildEntry → List ChildEntry
  | [] => [e]
  | y :: t =>
    let before := if desc then fcompare e.key y.key == some .gt else fcompare e.key y.key == some .lt
    if before then e :: y :: t else y :: insertChild desc e t
/-- A child list sorted by KEY. -/
def sortChildren (desc : Bool) (l : List ChildEntry) : List ChildEntry := l.foldl (fun acc e => insertChild desc e acc) []
/-- ORDER: PRUNE removes entries beyond va. A sort is stable by slot. -/
def orderList (desc prune : Bool) (va : Word) (l : List ChildEntry) : List ChildEntry :=
  let kept := if prune then l.filter (fun e => fcompare e.key va != (if desc then some .lt else some .gt)) else l
  sortChildren desc (sortBy (fun (e : ChildEntry) => [e.slot]) kept)
def doOrder (core sh : Nat) (f : Fields) (s : State) : State :=
  let m := f.minor
  s.laneOp core sh false 2 (fun x => x.walkOnly && isV f.a && decide (m.toNat < 4))
    (fun l => { l with clist := orderList (m.getLsbD 0) (m.getLsbD 1) (l.rv f.a) l.clist })
/-- TYPE as CHILD gives it (R88, R286). -/
def typeCode : RefType → Nat
  | .empty => 0
  | .node => 1
  | .bough => 2
  | .leaf => 3
  | .remote => 4
  | .ret => 8
/-- A field of a child-list entry. -/
def entryField (e : ChildEntry) (k : Nat) : Word :=
  match k with
  | 0 => BitVec.ofNat 32 (typeCode e.type)
  | 1 => e.ref
  | 2 => BitVec.ofNat 32 e.clines
  | 3 => e.key
  | 4 => e.exit
  | 5 => e.score
  | 6 => e.cn
  | 7 => BitVec.ofNat 32 e.slot
  | _ => BitVec.ofNat 32 e.start
/-- A field of a candidate. -/
def candField (c : Candidate) (k : Nat) : Word :=
  match k with
  | 0 => c.hit.value
  | 1 => c.hit.prim
  | 2 => c.hit.inst
  | 3 => c.hit.aux1 ++ c.hit.aux0
  | 4 => BitVec.ofNat 32 c.haze
  | _ => BitVec.ofNat 32 ((if c.hit.backface then 1 else 0) + (if c.hit.suspect then 2 else 0))
/-- CHILD. -/
def childField (l : Lane) (buffer : Bool) (k : Nat) (va : Word) : Word :=
  if buffer then
    if va = 0xFFFFFFFF then BitVec.ofNat 32 l.cbuf.length
    else match l.cbuf[va.toNat]? with | some c => candField c k | none => 0
  else
    if va = 0xFFFFFFFF then BitVec.ofNat 32 l.clist.length
    else match l.clist[va.toNat]? with | some e => entryField e k | none => 0
/-- MINOR of CHILD: its list and field are defined, and bits 6 to 4 are 0. -/
def childMinorOk (m : BitVec 8) : Bool :=
  let k := m.toNat % 16
  m.toNat / 16 % 8 == 0 && (if m.msb then decide (k ≤ 5) else decide (k ≤ 8))
def doChild (core sh : Nat) (f : Fields) (s : State) : State :=
  s.laneOp core sh false 1 (fun x => isVDst x.handler f.d && isV f.a && childMinorOk f.minor)
    (fun l => l.setV f.d (childField l f.minor.msb (f.minor.toNat % 16) (l.rv f.a)))
/-- One push (R285): the entry takes the current bough, scene and instance level; a full stack loses its bottom entry and
sets LOST. The head of the list is the top of the stack. -/
def pushEntry (q : Query) (ws : WalkState) (e : ChildEntry) : WalkState :=
  let e := { e with bough := ws.bough, scene := sceneAt q ws, ilevel := ws.path.length }
  { ws with stack := (e :: ws.stack).take 12,
            trail := if 12 ≤ ws.stack.length then ws.trail ||| (1 <<< 63 : DWord) else ws.trail }
/-- PUSH: entries count − 1 down to 1, or to 0 with ALL, so that the lowest index ends on top. -/
def pushList (q : Query) (all : Bool) (ws : WalkState) (l : List ChildEntry) : WalkState :=
  ((if all then l else l.drop 1).reverse).foldl (pushEntry q) ws
/-- Changes each lane of the issue group of sheaf x by its query. -/
def State.putQueries (s : State) (core sh : Nat) (x : Sheaf) (lat : Nat) (f : Query → Lane → Lane) : State :=
  s.putSheaf core sh { x.mapLanes x.groupNs (fun l =>
    match s.laneQuery l with
    | some q => f q (l.advance false)
    | none => l.advance false) with lat := lat }
/-- Issues an instruction that changes each lane of the group by its query. -/
def State.queryOp (s : State) (core sh : Nat) (lat : Nat) (legal : Sheaf → Bool) (f : Query → Lane → Lane) : State :=
  s.issue core sh false legal (fun x => s.putQueries core sh x lat f)
def doPush (core sh : Nat) (f : Fields) (s : State) : State :=
  let all := f.minor.getLsbD 0
  s.queryOp core sh 2 (fun x => x.walkOnly && decide (f.minor.toNat < 2))
    (fun q l => { l with ws := pushList q all l.ws l.clist, clist := if all then [] else l.clist })
/-- POP (R285). -/
def doPop (core sh : Nat) (f : Fields) (s : State) : State :=
  s.laneOp core sh false 2 (fun x => x.walkOnly && isPDst f.d)
    (fun l => match l.ws.stack with
      | e :: t => { l.setP f.d true with clist := [e], ws := { l.ws with stack := t } }
      | [] => { l.setP f.d false with clist := [] })
/-- DESCEND (R286). -/
def descend (q : Query) (l : Lane) : Lane × Word :=
  let l := { l with cbuf := [] }
  match l.clist with
  | [] => (l, 0)
  | e :: _ =>
    let ws := l.ws
    let here := e.ilevel == ws.path.length && e.scene == sceneAt q ws && e.bough == ws.bough
    let ws := if e.ilevel < ws.path.length then { ws with path := ws.path.take e.ilevel } else ws
    let l := { l with clist := [], ws := ws }
    match e.type with
    | .empty => (l, 0)
    | .node => if here then ({ l with ws := { ws with node := refNode e.ref } }, 1) else ({ l with held := some { e with type := .ret } }, 8)
    | .bough => ({ l with held := some e }, 2)
    | .leaf => ({ l with held := some e }, 3)
    | .remote => ({ l with held := some e }, 4)
    | .ret => ({ l with held := some e }, 8)
def doDescend (core sh : Nat) (f : Fields) (s : State) : State :=
  s.queryOp core sh 2 (fun x => x.walkOnly && isV f.d) (fun q l => let r := descend q l; r.1.setV f.d r.2)
/-- TRAIL (R287): the new trail, and what vd receives. -/
def trailOp (minor : Nat) (t : DWord) (va : Word) : Option (DWord × Option Word) :=
  let top : DWord := 1 <<< 63
  let lost : DWord := t &&& top
  let low : DWord := t &&& ~~~ top
  match minor with
  | 0x00 => some (0, none)
  | 0x01 => some (lost ||| (((low <<< 3) ||| (va.setWidth 64 &&& 7)) &&& ~~~ top), none)
  | 0x02 => some (lost ||| (low >>> 3), none)
  | 0x03 => some (t, some (if va.toNat ≤ 20 then BitVec.ofNat 32 (fbit low (3 * va.toNat) 3) else 0))
  | 0x04 => some (t, some (if t.msb then 1 else 0))
  | 0x05 => some (low, none)
  | _ => none
/-- GET and LOST use vd; DOWN and GET use va. -/
def trailOperands (m : Nat) (f : Fields) : Bool :=
  (if m == 3 || m == 4 then isV f.d else true) && (if m == 1 || m == 3 then isV f.a else true)
def doTrail (core sh : Nat) (f : Fields) (s : State) : State :=
  let m := f.minor.toNat
  s.laneOp core sh false 1 (fun x => x.walkOnly && decide (m ≤ 5) && trailOperands m f)
    (fun l => match trailOp m l.ws.trail (l.rv f.a) with
      | some (t, w) =>
        let l := { l with ws := { l.ws with trail := t } }
        (match w with | some v => l.setV f.d v | none => l)
      | none => l)

/-! ### Recorded results (R290, R291) -/

/-- Records a result under the query's MODE: the walk state, and whether the held results changed. TOPK is recorded by
COLLECT ENTRY alone, SUM not at all. -/
def recordHit (r : Rec64) (topk : Bool) (ws : WalkState) (h : Hit) : WalkState × Bool :=
  match qMode r with
  | 1 =>
    match ws.best with
    | none => ({ ws with best := some h }, true)
    | some b => if hitBefore r h b then ({ ws with best := some h }, true) else (ws, false)
  | 2 => if ws.best.isNone then ({ ws with best := some h }, true) else (ws, false)
  | 3 | 4 | 5 => let c := collectHit r h ws.coll; ({ ws with coll := c.1 }, c.2)
  | 6 => if topk then (let c := collectHit r h ws.coll; ({ ws with coll := c.1 }, c.2)) else (ws, false)
  | _ => (ws, false)
/-- LOWER (R290). -/
def lowerTmax (r : Rec64) (ws : WalkState) : WalkState :=
  if qKind r != 1 then ws
  else match qMode r with
    | 1 => match ws.best with | some b => { ws with tmax := writeTmax r ws.tmax b.value } | none => ws
    | 3 => match ws.coll[qK r - 1]? with | some h => { ws with tmax := writeTmax r ws.tmax h.value } | none => ws
    | _ => ws
/-- Writes the walk states of a group back into the units that hold their collections (R56). -/
def State.syncGroup (s : State) (key : Nat) (ns : List Nat) : State :=
  match mget s.sheaves key with
  | none => s
  | some x => foldS (x.lanes.filter (fun l => ns.contains l.n)) s (fun s l => match s.laneQuery l with
    | some q => if q.collUnits.isEmpty then s else s.syncColl q l.ws
    | none => s)
/-- Adds a value to a sum: rd_near of finite values; with a value that is not finite, or a sum out of range, the result
is not stated and is a free value (R156, assumption 21). -/
def State.addTo (s : State) (acc v : Word) : Word × State :=
  if (v32 acc).finite && (v32 v).finite && (v32 (sumAdd acc v)).finite then (sumAdd acc v, s)
  else let (x, s) := s.draw; (x.setWidth 32, s)
/-- Adds values to the sums of a walk state from index j on. -/
def State.addSums (s : State) : List Word → List Word → List Word × State
  | a :: acc, v :: vs =>
    let (x, s) := s.addTo a v
    let (r, s) := s.addSums acc vs
    (x :: r, s)
  | acc, _ => (acc, s)
/-- COLLECT ENTRY: the entry that vA to vA + 3 give. -/
def entryHit (l : Lane) (a : Nat) : Hit :=
  { value := l.reg a, prim := l.reg (a + 1), inst := l.reg (a + 2), aux0 := fldv (l.reg (a + 3)) 0 16, aux1 := fldv (l.reg (a + 3)) 2 16,
    backface := false, suspect := false }
def doCollectEntry (core sh : Nat) (f : Fields) (s : State) : State :=
  s.issue core sh false (fun x => x.walkOnly && decide (f.a.toNat ≤ 20) && minorIs f 0) (fun x =>
    (s.putQueries core sh x 2 (fun q l => { l with ws := (recordHit q.record true l.ws (entryHit l f.a.toNat)).1 })).syncGroup (sheafKey core sh) x.groupNs)
/-- COLLECT SUM of one lane of a FOREST query: candidate VALUE j into sum j. -/
def State.sumLane (s : State) (key : Nat) (l : Lane) : State :=
  match s.laneQuery l with
  | some q =>
    if qKind q.record = 4 then
      let (sums, s) := s.addSums l.ws.sums (l.cbuf.map (·.hit.value))
      s.modLane key l.n (fun y => { y with ws := { y.ws with sums := sums, sumSuspect := y.ws.sumSuspect || l.cbuf.any (·.hit.suspect) } })
    else s
  | none => s
/-- COLLECT SUM. -/
def doCollectSum (core sh : Nat) (f : Fields) (s : State) : State :=
  let key := sheafKey core sh
  s.issue core sh false (fun x => x.walkOnly && minorIs f 1) (fun x =>
    let s := s.putSheaf core sh { x.mapLanes x.groupNs (fun l => l.advance false) with lat := 4 }
    (foldS x.group s (fun s l => s.sumLane key l)).syncGroup key x.groupNs)
/-- COLLECT SUMV of one lane of a FOREST query: va into sum vb, when vb is below NOUT. -/
def State.sumvLane (s : State) (key : Nat) (va vb : Word) (l : Lane) : State :=
  match s.laneQuery l with
  | some q =>
    let i := vb.toNat
    if qKind q.record = 4 ∧ i < qNout q.record then
      let (v, s) := s.addTo (nth l.ws.sums i 0) va
      s.modLane key l.n (fun y => { y with ws := { y.ws with sums := y.ws.sums.set i v } })
    else s
  | none => s
/-- COLLECT SUMV. -/
def doCollectSumv (core sh : Nat) (f : Fields) (s : State) : State :=
  let key := sheafKey core sh
  s.issue core sh false (fun x => x.walkOnly && isV f.a && isV f.b && minorIs f 2) (fun x =>
    let s := s.putSheaf core sh { x.mapLanes x.groupNs (fun l => l.advance false) with lat := 2 }
    (foldS x.group s (fun s l => s.sumvLane key (l.rv f.a) (l.rv f.b) l)).syncGroup key x.groupNs)
/-- COLLECT CLEAR. The mark that a sum rests on SUSPECT data stays (DESIGN CHOICE, assumption 123). -/
def clearColl (r : Rec64) (ws : WalkState) : WalkState :=
  if qKind r = 4 then { ws with sums := List.replicate (qNout r) 0 } else if modeCollects (qMode r) then { ws with coll := [] } else ws
def doCollectClear (core sh : Nat) (f : Fields) (s : State) : State :=
  s.issue core sh false (fun x => x.walkOnly && minorIs f 3) (fun x =>
    (s.putQueries core sh x 1 (fun q l => { l with ws := clearColl q.record l.ws })).syncGroup (sheafKey core sh) x.groupNs)

end Sys2Proof.Machine
end

