-- ==== Sys2Proof/Machine/Output.lean ====
section
/-! DEFINITION. Machine/Output.lean: the leaf tests of a sheaf (R281 to R284, R425), hits and the handler hooks (R255,
R268, R290), leaving a bough (R246 to R249, R288, R289, R294), EMIT (R292) and SPAWN (R250, R251, R293). -/
namespace Sys2Proof.Machine

/-! ### Lookups of a group (R317) -/

/-- The lane holds a LEAF reference. -/
def Lane.holdsLeaf (l : Lane) : Bool := match l.held with | some e => e.type == .leaf | none => false
/-- The held LEAF block of a lane and its lines, when it holds one. -/
def State.wantedBlock (s : State) (l : Lane) : Option (BlockId × Nat) := if l.holdsLeaf then s.heldBlock l else none
/-- One lookup of the lane's held block by LEAF or TESTB: a served one is counted once. -/
def State.lookHeld (s : State) (key : Nat) (l : Lane) : State :=
  match s.wantedBlock l with
  | none => s
  | some (id, n) =>
    if l.served || l.skips id then s
    else
      let cls := match s.laneQuery l with | some q => q.cls | none => 3
      match s.lookup (key / 48 / 8) id n cls false with
      | (s, some _) => s.modLane key l.n (fun y => { y with served := true })
      | (s, none) => s
/-- Every lane's block is there, or dropped (R422). -/
def State.heldReady (s : State) (g : Nat) (l : Lane) : Bool :=
  match s.wantedBlock l with
  | none => true
  | some (id, _) => l.skips id || (s.peekBlock g id).isSome
/-- A lane after its leaf call: marks of the call are gone. -/
def Lane.callDone (l : Lane) : Lane := { l with noTest := [], served := false }

/-! ### TESTB (R281) -/

/-- A lane whose TESTB may score a block: a VECTOR query that holds a LEAF reference. -/
def State.scores (s : State) (l : Lane) : Bool := l.holdsLeaf && (match s.laneQuery l with | some q => qKind q.record == 3 | none => false)
/-- The packets of a TESTB: one for each lane that scores a block (R170). They enter the octet at the bank of their lane
(assumption 114). -/
def State.vecPackets (s : State) (key : Nat) (x : Sheaf) : List Packet :=
  match x.octetSlot with
  | none => []
  | some k => (x.group.filter s.scores).filterMap (fun l => match s.laneQuery l, s.heldBlock l with
    | some q, some (id, _) => some {
        sheaf := key, lane := l.n, bank := l.n % 8, cls := q.cls, arrived := s.bankNow, slot := k, node := 0, block := some id,
        reads := 0, dims := qDims q.record, fp8 := qEtype q.record != 0, segs := dataSegments q.dataUnits (qDims q.record), served := false }
    | _, _ => none)
/-- TESTB is issued: blocks are looked up, and the group waits. While the octet lacks room for its packets it is held (R174). -/
def doTestb (core sh : Nat) (f : Fields) (s : State) : State :=
  let key := sheafKey core sh
  s.issue core sh false (fun x => x.walkOnly && isV f.d) (fun x =>
    match s.sendPackets x (s.vecPackets key x) with
    | none => s
    | some s =>
      let s := s.putSheaf core sh { x.mapLanes x.groupNs (fun l => { l.counted with served := false, noTest := [] }) with wait := .testb x.groupNs f, lat := 1 }
      foldS (x.group.filter s.scores) s (fun s l => s.lookHeld key l))
/-- The rows of a held VEC block merged into the collection (R281). -/
def mergeRows (r : Rec64) (ws : WalkState) (hs : List Hit) : WalkState :=
  { ws with coll := hs.foldl (fun c h => (collectHit r h c).1) ws.coll, rows := ws.rows + hs.length }
/-- TESTB of a lane that has nothing to score. -/
def State.mergeNothing (s : State) (key : Nat) (f : Fields) (l : Lane) (inc : Bool) : State :=
  s.modLane key l.n (fun y =>
    { y.callDone.setV f.d 0 with pc := y.pc + 1, ws := { y.ws with incomplete := y.ws.incomplete || inc } })
/-- TESTB of a lane that scores the block of its LEAF reference e: the score and the merge. -/
def State.scoreLane (s : State) (key : Nat) (x : Sheaf) (f : Fields) (l : Lane) (q : Query) (e : ChildEntry) : State :=
  match s.laneLook (key / 48 / 8) q l e.scene (refIndex e.ref) e.clines with
  | .missing => s
  | .dropped => s.mergeNothing key f l true
  | .here ls sus =>
    let r := q.record
    let d := (s.bound q.ctx e.scene).getD 0
    if leafFmtBad (leafPermitted (sFmt d)) d e.clines ls then s.failLane key l errLEAF_FMT
    else if lfFmt ls ≠ 0x45 then s.mergeNothing key f l false
    else if leafFieldBad ls (sEtype d) (sDims d) then s.failLane key l errLEAF_FIELD
    else
      let n := if qBudget r = 0 then lfCount ls else min (lfCount ls) (qBudget r - l.ws.rows)
      let hs := vecRows r (s.vectorOf q) ls n (sus || s.boughSuspect x)
      s.modLane key l.n (fun y =>
        { y.callDone.setV f.d (BitVec.ofNat 32 n) with pc := y.pc + 1, ws := mergeRows r y.ws hs })
/-- TESTB of one lane: the reading of its vector, in which unit says that an error was found (R188), and its merge. -/
def State.mergeLane (s : State) (key : Nat) (x : Sheaf) (f : Fields) (units : List (LaneNo × EccError)) (l : Lane) : State :=
  match s.laneQuery l with
  | none => s
  | some q =>
    if s.cutCovers q then s.lateLane key l
    else if (match x.octetSlot with | some k => s.retired (k / 64) | none => false) then s.reparkLane key l.callDone q
    else match (if s.scores l then l.held else none) with
      | none => s.mergeNothing key f l false
      | some e =>
        match s.readUnits (laneError units l.n) (segmentLines (dataSegments q.dataUnits (qDims q.record))) with
        | (s, true) => s.failLane key l errEXT_UE
        | (s, false) => s.scoreLane key x f l q e
/-- A read finds a parity error in a block of a leaf cache: the block is invalidated and fetched again (R424). -/
def State.blockParity (s : State) (g cls : Nat) (id : BlockId) : State :=
  match s.peekBlock g id with
  | none => s
  | some b =>
    let s := (s.modGrove g (fun x => { x with leafCache := x.leafCache.filter (fun y => !(y.id == id && y.staged == b.staged)) })).count 55 1
    if (s.peekBlock g id).isSome || (s.leafFillOf g id).isSome then s else s.leafFill g id b.lines.length cls false false
/-- TESTB_MERGE: once every lane's block is there, the banks have scored its rows, and they are merged. units names the lanes in
whose extension units an error was found; segs those in whose operand segments, and blocks the leaf blocks in which, a parity
error was (R424). -/
def doTestbMerge (core sh : Nat) (units : List (LaneNo × EccError)) (segs : List LaneNo) (blocks : List BlockId) (s : State) : State :=
  let key := sheafKey core sh
  match mget s.sheaves key with
  | none => s
  | some x =>
    match x.wait with
    | .testb grp f =>
      let s := foldS blocks s (fun s id => s.blockParity (core / 8) x.cls id)
      let ls := grp.filterMap x.lane
      let s := foldS (ls.filter s.scores) s (fun s l => s.lookHeld key l)
      let ls := match mget s.sheaves key with | some x => grp.filterMap x.lane | none => []
      if ls.all (fun l => !s.scores l || s.heldReady (core / 8) l) then
        let s := (s.modSheaf key (fun x => { x with wait := .ready })).servePackets key x segs
        ((foldS ls s (fun s l => s.mergeLane key x f units l)).syncGroup key grp).drainLeaf (core / 8)
      else s
    | _ => s

/-! ### LEAF (R282 to R284) -/

/-- What a leaf call gives for one lane. -/
inductive LeafOut where
  /-- A block is not there; the haze blocks it still needs, with their lines. -/
  | wait (need : List (Nat × Nat))
  /-- The descriptor of the scene to be entered has not been read (R77). -/
  | scene (h : Nat)
  | err (code : Nat)
  | done (l : Lane) (lat busy : Nat)
  deriving DecidableEq, Repr

def leafDONE : Word := 0x40000000
def leafENTERED : Word := 0x80000000
/-- A call that does nothing but set DONE. -/
def leafNothing (f : Fields) (l : Lane) : LeafOut := .done (l.setV f.d leafDONE) 1 0
/-- The next index with an entry at or after i, or the end of the block. -/
def nextEntry (ls : List Line) (i : Nat) : Nat :=
  (((List.range (leafTotal ls - i)).map (i + ·)).find? (fun k => lfFmt ls != 0x41 || (triEntry ls k).isSome)).getD (max i (leafTotal ls))
/-- Cycles for which a leaf pipe is occupied by a call (R528). -/
def leafBusy (fmt : Nat) (a : LeafAcc) : Nat :=
  match fmt with
  | 0x43 => 2 * a.tested
  | 0x44 => cdiv a.tested 4
  | 0x46 => 1
  | _ => a.tested + 8 * (a.fallbacks - 1) + a.hazeReads
/-- LEAF on an INSTANCE block (R118, R283). An INST_ID of 0xFFFF_FFFF, which R117 does not permit and R435 lists no check of, is
taken as any other (DESIGN CHOICE, assumption 127). -/
def State.enterInstance (s : State) (q : Query) (l : Lane) (e : ChildEntry) (ls : List Line) (f : Fields) : LeafOut :=
  let r := q.record
  let ray := rayAt r l.ws.path
  let start := l.leafStart f
  match instNext r ray ls start with
  | none => .done ({ l with held := none }.setV f.d (leafDONE ||| BitVec.ofNat 32 (lfCount ls))) (14 + 2 * (lfCount ls - start)) (2 * (lfCount ls - start))
  | some i =>
    let o := 16 + 64 * i
    let h := blk ls (o + 48) 16
    let after := if blk ls (o + 51) 8 % 2 = 1 then i + 2 else i + 1
    let next := instNext r ray ls after
    let ctx := s.ctx q.ctx
    if (mget ctx.scenes h).isNone && decide (h < dScenes ctx.desc) then .scene h
    else match s.bound q.ctx h with
    | none => .err errINSTANCE_SCENE
    | some d =>
      if sFmt d ≠ 1 then .err errINSTANCE_SCENE
      else if 4 ≤ l.ws.path.length then .err errINSTANCE_DEPTH
      else
        let ws := match next with
          | some j => pushEntry q l.ws { e with type := .leaf, start := j }
          | none => l.ws
        let xf := instXform ls i
        let level : PathLevel := { leafLine := refIndex e.ref, entry := i, scene := h, instId := blkv ls (o + 52) 32, xform := xf.1, xform1 := xf.2 }
        let ws := { ws with path := ws.path ++ [level] }
        let held : ChildEntry := { type := .bough, ref := 2 <<< 29, clines := 0, key := 0, exit := 0, score := 0, cn := 0, slot := 0,
                                   bough := l.ws.bough, scene := h, ilevel := ws.path.length, start := 0 }
        let skipped := (i - start) + (match next with | some j => j - after | none => lfCount ls - after)
        let vd := leafENTERED ||| (match next with | some j => BitVec.ofNat 32 (j % 65536) | none => leafDONE ||| BitVec.ofNat 32 (lfCount ls))
        .done ({ l with ws := ws, held := some held }.setV f.d vd) (14 + 2 * skipped) (2 * (skipped + 1))
/-- LEAF of one lane. -/
def State.leafLane (s : State) (g : Nat) (x : Sheaf) (q : Query) (f : Fields) (l : Lane) : LeafOut :=
  if !l.holdsLeaf then leafNothing f l
  else match l.held with
  | none => leafNothing f l
  | some e =>
    match s.laneLook g q l e.scene (refIndex e.ref) e.clines with
    | .missing => .wait []
    | .dropped => leafNothing f { l with ws := { l.ws with incomplete := true } }
    | .here ls sus =>
      let d := (s.bound q.ctx e.scene).getD 0
      if !leafSeen q.record ls then leafNothing f l
      else if leafFmtBad (leafPermitted (sFmt d)) d e.clines ls then .err errLEAF_FMT
      else if !leafTested q.record (lfFmt ls) then leafNothing f l
      else if leafFieldBad ls (sEtype d) (sDims d) then .err errLEAF_FIELD
      else if lfFmt ls = 0x47 then s.enterInstance q l e ls f
      else
        let a := leafCall (s.leafCtx x q l e.scene sus) (s.laneLook g q l e.scene) ls (l.leafStart f)
        if !a.needs.isEmpty then .wait a.needs
        else match a.err with
        | some c => .err c
        | none =>
          let next := nextEntry ls a.next
          let vd := BitVec.ofNat 32 (next % 65536) ||| (if lfFmt ls = 0x46 || !entriesRemain ls next then leafDONE else 0)
          .done ({ l with cbuf := a.cands, ws := { l.ws with incomplete := l.ws.incomplete || a.incomplete } }.setV f.d vd)
            (leafLatency (lfFmt ls) a) (leafBusy (lfFmt ls) a)
/-- LEAF is issued: blocks are looked up, and the group waits (R284). -/
def doLeaf (core sh : Nat) (f : Fields) (s : State) : State :=
  let key := sheafKey core sh
  s.issue core sh false (fun x => x.walkOnly && isV f.d && isV f.a) (fun x =>
    let s := s.putSheaf core sh { x.mapLanes x.groupNs (fun l => { l.counted with served := false, noTest := [] }) with wait := .leaf x.groupNs f, lat := 1 }
    foldS x.group s (fun s l => s.lookHeld key l))
/-- LEAF_FILL_INSTALL (R106, R318, R422): the lines of a leaf fill have arrived. A fill that waits for its transfer slot, or
whose handle has been handed on, awaits none. -/
def doLeafFillInstall (g : Nat) (id : BlockId) (lines : List Line) (s : State) : State :=
  match s.leafFillOf g id with
  | some f => if f.queued || !s.hasSlot (.leaf g id) then s else (s.linesBack (.leaf g id)).leafArrived g f lines
  | none => s

/-! ### Hooks (R255) -/

/-- The lane enters a hook with its inputs. -/
def Lane.enterHook (l : Lane) (h : Hook) (entry : Nat) (ins : List Word) (p1 : Bool) : Lane :=
  let v := (List.range ins.length).foldl (fun v i => v.set (8 + i) (nth ins i 0)) l.v
  { ({ l with v := v } : Lane).setPred 1 p1 with hook := some h, pc := entry }
/-- Inputs of H_LEAF and H_HIT for a candidate. -/
def leafInputs (c : Candidate) : List Word := [c.hit.value, c.hit.prim, c.hit.inst, BitVec.ofNat 32 c.haze]
def hitInputs (h : Hit) : List Word := [h.value, h.prim, h.inst, h.aux1 ++ h.aux0]
/-- The first UNSURE candidate at or after an index. -/
def firstUnsure (cs : List Candidate) (i : Nat) : Option (Nat × Candidate) :=
  ((List.range cs.length).filterMap (fun k => (cs[k]?).map (fun c => (k, c)))).find? (fun e => i ≤ e.1 && 2 ≤ e.2.haze)
/-- A binding names a hook: BKIND 3 and an entry other than 0xFFFF. -/
def hookOn (b : Binding) (entry : Nat) : Bool := b.bkind == 3 && entry != 0xFFFF
/-- The lane goes on at the stock walk's PC, through H_LEAF for the next UNSURE candidate if there is one. -/
def Lane.afterLeaf (l : Lane) (b : Binding) (pc i : Nat) : Lane :=
  match firstUnsure l.cbuf i with
  | some (k, c) =>
    if hookOn b b.hLeaf then l.enterHook (.leaf pc k) b.hLeaf (leafInputs c) (c.haze == 3) else { l with hook := none, pc := pc }
  | none => { l with hook := none, pc := pc }

/-! ### The result of a LEAF (R284, R425, R432) -/

/-- A pipe of a grove fails a residue check; one that fails twice within 2^24 CORE cycles is disabled (R425). -/
def State.pipeFails (s : State) (g : Nat) (inj : Bool) (p : Nat) : State :=
  let x := s.grove g
  let s := s.count 56 1
  let twice := match mget x.pipeFail p with | some t => decide (s.coreNow - t < 16777216) | none => false
  let s := s.modGrove g (fun y => { y with pipeFail := mset y.pipeFail p s.coreNow })
  if twice then
    ((((s.modGrove g (fun y => { y with pipeEn := y.pipeEn &&& ~~~ (BitVec.ofNat 24 (2 ^ p)) })).count 57 1).logInj inj 8 1 noUnit (24 * g + p) noUnit 0).interrupt 1).settleService
  else s
/-- The enabled pipe of a grove, other than one that must not take the test, that takes it: the lowest-numbered free one, or, while
all are occupied, the one that is free first (R16, R528). -/
def State.choosePipe (s : State) (g : Nat) (other : Option Nat) : Option Nat :=
  let x := s.grove g
  leastBy (fun p => [mgetD x.pipeFree p 0 - s.coreNow, p])
    ((List.range 24).filter (fun p => x.pipeEn.getLsbD p && some p != other))
/-- A pipe is occupied by a test (R528). -/
def State.occupyPipe (s : State) (g p busy : Nat) : State :=
  (s.modGrove g (fun x => { x with pipeFree := mset x.pipeFree p (max (mgetD x.pipeFree p 0) s.coreNow + busy) })).count 18 busy
/-- The residue check of a test's result on pipe p of a grove fails: as the sender says, or by an armed injection (true), whose
error meets the next result of its pipe (R430, R432, R543). -/
def State.residueBad (s : State) (g p : Nat) (residue : List (Fin 24)) : Option Bool :=
  let i := s.integ
  if !s.integOn 6 then none
  else if residue.any (fun x => x.val == p) then some false
  else if i.injArmed && i.injKind == 5 && i.injUnit == 24 * g + p then some true
  else none
/-- A leaf test runs on a pipe; one whose residue check fails runs again, once, on another enabled pipe, or on the same where there
is no other (R16, R425). -/
def State.runPipe (s : State) (g busy : Nat) (residue : List (Fin 24)) : State × List (Fin 24) :=
  match s.choosePipe g none with
  | none => (s, residue)
  | some p =>
    let s := s.occupyPipe g p busy
    match s.residueBad g p residue with
    | none => (s, residue)
    | some inj =>
      let again := (s.choosePipe g (some p)).getD p
      let s := (if inj then s.disarm else s).pipeFails g inj p
      (s.occupyPipe g again busy, if inj then residue else residue.filter (fun x => x.val != p))
/-- LEAF_RESULT of one lane; the list is of the pipes whose residue check fails. -/
def State.leafApply (s : State) (key : Nat) (x : Sheaf) (f : Fields) (residue : List (Fin 24)) (l : Lane) : State × List (Fin 24) :=
  match s.laneQuery l with
  | none => (s, residue)
  | some q =>
    if s.cutCovers q then (s.lateLane key l, residue)
    else match s.leafLane (key / 48 / 8) x q f l with
    | .err c => (s.failLane key l c, residue)
    | .done l' _ busy =>
      let r := if busy = 0 then (s, residue) else s.runPipe (key / 48 / 8) busy residue
      (r.1.modLane key l.n (fun _ => l'.callDone.afterLeaf x.binding (l.pc + 1) 0), r.2)
    | _ => (s, residue)
/-- LEAF_RESULT of the lanes of a group, in lane order. -/
def State.leafApplyAll (s : State) (key : Nat) (x : Sheaf) (f : Fields) (residue : List (Fin 24)) : List Lane → State
  | [] => s
  | l :: t => match s.leafApply key x f residue l with
    | (s, r) => s.leafApplyAll key x f r t
/-- What keeps a lane's leaf call from completing: the state once it has been asked for, or nothing. -/
def State.askLeaf (s : State) (g : Nat) (q : Query) (l : Lane) (o : LeafOut) : State :=
  match o, l.held with
  | .wait ns, some h => foldS ns s (fun s n => (s.lookup g (s.blockId q.ctx h.scene n.1 n.2 q.epoch) n.2 q.cls true).1)
  | .scene n, _ => s.askScene q.ctx n
  | _, _ => s
/-- A leaf call cannot complete yet: a block is missing, a descriptor has not been read, or no pipe of the grove is enabled. -/
def State.leafBlocked (s : State) (g : Nat) : LeafOut → Bool
  | .wait _ | .scene _ => true
  | .done _ _ busy => busy != 0 && (s.choosePipe g none).isNone
  | .err _ => false
/-- LEAF_RESULT: once every block that a lane of the group needs is there, the whole group completes (R284). Blocks found missing
are filled, and a scene about to be entered for the first time is read. residue names the pipes whose residue check fails;
parity the leaf blocks in which a read found a parity error (R424). -/
def doLeafResult (core sh : Nat) (residue : List (Fin 24)) (parity : List BlockId) (s : State) : State :=
  let key := sheafKey core sh
  let g := core / 8
  match mget s.sheaves key with
  | none => s
  | some x =>
    match x.wait with
    | .leaf grp f =>
      let s := foldS parity s (fun s id => s.blockParity g x.cls id)
      let s := foldS (grp.filterMap x.lane) s (fun s l => s.lookHeld key l)
      match mget s.sheaves key with
      | none => s
      | some x =>
        let ls := grp.filterMap x.lane
        let outs := (ls.filterMap (fun l => (s.laneQuery l).map (fun q => (l, q, s.leafLane g x q f l)))).filter (fun e => !s.cutCovers e.2.1)
        if outs.any (fun e => s.leafBlocked g e.2.2) then foldS outs s (fun s e => s.askLeaf g e.2.1 e.1 e.2.2)
        else
          let lat := (outs.map (fun e => match e.2.2 with | .done _ t _ => t | _ => 1)).foldl max 1
          ((s.modSheaf key (fun x => { x with wait := .ready, lat := lat })).leafApplyAll key x f residue ls).drainLeaf g
    | _ => s

/-! ### Ends (R249, R269, R294) -/

/-- The chains of lanes that end fit the walk cores' handle queue; a lane of a forwarded query needs no room (R359). -/
def State.endRoom (s : State) (g : Nat) (ls : List Lane) : Bool :=
  let qs := (ls.filterMap s.laneQuery).filter (fun q => q.origin.isNone)
  match qs with
  | [] => true
  | q :: _ => s.walkRoom g q.cls qs.length
/-- One lane ends with END flags. -/
def State.endLane (s : State) (key : Nat) (l : Lane) (flags : Nat) : State :=
  (s.removeLane key l.n).finishOk l.slot (endFlags l.ws flags) false (.walk (key / 48 / 8))
/-- One lane ends, or enters H_END first. -/
def State.endOrHook (s : State) (key : Nat) (b : Binding) (l : Lane) (flags : Nat) : State :=
  if hookOn b b.hEnd then
    s.modLane key l.n (fun y => y.counted.enterHook (.fin y.pc flags) b.hEnd [BitVec.ofNat 32 y.ws.coll.length] true)
  else s.endLane key l flags
/-- The next instruction of a sheaf is held by collector back-pressure (R330, R359). -/
def State.hold (s : State) (key : Nat) : State := s.modSheaf key (fun x => { x with held := true })
/-- Lanes of a sheaf may end: those that do so at once have room for their chains; a hook comes first (R255, R359). -/
def State.mayEnd (s : State) (g : Nat) (b : Binding) (ls : List Lane) : Bool := hookOn b b.hEnd || s.endRoom g ls
/-- WALK_END. -/
def doWalkEnd (core sh : Nat) (f : Fields) (s : State) : State :=
  let key := sheafKey core sh
  s.issue core sh false (fun x => x.walkOnly && minorIs f 1) (fun x =>
    if s.mayEnd (core / 8) x.binding x.group then foldS x.group s (fun s l => s.endOrHook key x.binding l f.a.toNat) else s.hold key)

/-! ### HIT and the return from a hook (R268, R290) -/

/-- HIT of one lane, at once: the candidate's hit is recorded, and pd says whether the held results changed. -/
def hitLane (r : Rec64) (idx pd : Nat) (lower : Bool) (l : Lane) : Lane :=
  match l.cbuf[idx]? with
  | none => l.setPred pd false
  | some c =>
    let w := recordHit r false l.ws c.hit
    let ws := if lower && w.2 then lowerTmax r w.1 else w.1
    ({ l with ws := ws } : Lane).setPred pd w.2
/-- HIT of one lane, through H_HIT when a hit is about to be recorded. HIT is the one instruction that enters it; COLLECT ENTRY and
the merge of a TESTB record without it (DESIGN CHOICE, assumption 128). -/
def hitOrHook (b : Binding) (r : Rec64) (idx pd : Nat) (lower : Bool) (l : Lane) : Lane :=
  match l.cbuf[idx]? with
  | some c =>
    if hookOn b b.hHit && (recordHit r false l.ws c.hit).2 then
      l.counted.enterHook (.hit (l.pc + 1) idx pd lower) b.hHit (hitInputs c.hit) true
    else hitLane r idx pd lower (l.advance false)
  | none => hitLane r idx pd lower (l.advance false)
/-- HIT. -/
def doHit (core sh : Nat) (f : Fields) (s : State) : State :=
  s.issue core sh false (fun x => x.walkOnly && isPDst f.d && isV f.a && decide (f.minor.toNat < 2)) (fun x =>
    (s.putSheaf core sh { x.mapLanes x.groupNs (fun l => match s.laneQuery l with
      | some q => hitOrHook x.binding q.record (l.rv f.a).toNat (f.d.toNat - 32) (f.minor.getLsbD 0) l
      | none => l.advance false) with lat := 2 }).syncGroup (sheafKey core sh) x.groupNs)
/-- The handler of one lane returns. -/
def State.returnLane (s : State) (key : Nat) (b : Binding) (l : Lane) : State :=
  let p1 := l.pred 1
  match l.hook with
  | none => s
  | some (.leaf pc i) =>
    s.modLane key l.n (fun y =>
      let y := y.counted
      let y := { y with cbuf := if p1 then y.cbuf.modify i (fun c => { c with haze := 0 }) else y.cbuf.eraseIdx i }
      y.afterLeaf b pc (if p1 then i + 1 else i))
  | some (.hit pc i pd lower) =>
    match s.laneQuery l with
    | none => s
    | some q => s.modLane key l.n (fun y =>
        let y := { y.counted with hook := none, pc := pc }
        if p1 then hitLane q.record i pd lower y else y.setPred pd false)
  | some (.fin _ flags) => s.endLane key l flags
/-- The lane's return ends its query. -/
def Lane.returnsEnd (l : Lane) : Bool := match l.hook with | some (.fin _ _) => true | _ => false
/-- RET.H: illegal outside a handler image (R268). -/
def doRetH (i : Issuer) (s : State) : State :=
  match i with
  | .strand c => s.strandIssue c [] false false 1 id
  | .sheaf core sh =>
    let key := sheafKey core sh
    s.issue core sh false (fun x => x.handler) (fun x =>
      if s.endRoom (core / 8) (x.group.filter Lane.returnsEnd) then
        (foldS x.group s (fun s l => s.returnLane key x.binding l)).syncGroup key x.groupNs
      else s.hold key)

/-! ### YIELD and FWD (R246, R288, R289) -/

/-- The held reference is one that YIELD takes. -/
def Lane.yields (l : Lane) : Bool := match l.held with | some e => e.type == .bough || e.type == .ret | none => false
/-- YIELD of one lane: onto a bough's node 0, or back to the node that a RETURN entry records, in the scene at the end of the
present path (DESIGN CHOICE, assumption 124); no CLINES is at hand for that one, and its fill reads the trailer first
(DESIGN CHOICE, assumption 125). -/
def State.yieldLane (s : State) (key : Nat) (l : Lane) : State :=
  match l.held, s.laneQuery l with
  | some e, some q =>
    let ws := { l.ws with resumePc := some (l.pc + 1) }
    if e.type = .ret then s.parkLane key l { ws with bough := e.bough, node := refNode e.ref } (sceneAt q ws) e.bough 0
    else s.parkLane key l { ws with bough := refIndex e.ref, node := 0 } (sceneAt q ws) (refIndex e.ref) e.clines
  | _, _ => s
/-- YIELD with MINOR 0x00. -/
def doYield (core sh : Nat) (f : Fields) (s : State) : State :=
  let key := sheafKey core sh
  s.issue core sh false (fun x => x.walkOnly && minorIs f 0 && x.group.all Lane.yields) (fun x => foldS x.group s (fun s l => s.yieldLane key l))
/-- No further tree is to be visited after tree t − 1 (R288). -/
def treesDone (r d : Rec64) (t : Nat) : Bool :=
  if qTreeCount r = 0 then decide (sTrees d ≤ t) else decide (qTreeFirst r + qTreeCount r ≤ t)
/-- YIELD.TREE of one lane. -/
def State.treeLane (s : State) (key : Nat) (b : Binding) (l : Lane) : State :=
  match s.laneQuery l with
  | none => s
  | some q =>
    let d := s.laneScene q l
    let t := l.ws.tree + 1
    if treesDone q.record d t then s.endOrHook key b l 0
    else
      let rpb := max 1 (sRpb d)
      let ws := { l.ws with tree := t, stack := [], trail := 0, resumePc := some (l.pc + 1), bough := t / rpb, node := t % rpb }
      s.parkLane key l ws (sceneAt q ws) (t / rpb) 0
/-- The lane's query is a FOREST query. -/
def State.isForest (s : State) (l : Lane) : Bool := match s.laneQuery l with | some q => qKind q.record == 4 | none => false
/-- The lane's YIELD.TREE acts as END. -/
def State.treeEnds (s : State) (l : Lane) : Bool :=
  match s.laneQuery l with | some q => treesDone q.record (s.laneScene q l) (l.ws.tree + 1) | none => false
/-- YIELD with MINOR 0x01. -/
def doYieldTree (core sh : Nat) (f : Fields) (s : State) : State :=
  let key := sheafKey core sh
  s.issue core sh false (fun x => x.walkOnly && minorIs f 1 && x.group.all s.isForest) (fun x =>
    if s.mayEnd (core / 8) x.binding (x.group.filter s.treeEnds) then foldS x.group s (fun s l => s.treeLane key x.binding l) else s.hold key)
/-- The lane holds a REMOTE reference. -/
def Lane.holdsRemote (l : Lane) : Bool := match l.held with | some e => e.type == .remote | none => false
/-- FWD of one lane. -/
def State.fwdLane (s : State) (key : Nat) (l : Lane) : State :=
  match l.held, s.laneQuery l with
  | some e, some q =>
    let ws := { l.ws with resumePc := some (l.pc + 1), bough := refIndex e.ref, node := 0 }
    s.parkLane key l ws (sceneAt q ws) (refIndex e.ref) e.clines
  | _, _ => s
/-- FWD. -/
def doFwd (core sh : Nat) (_f : Fields) (s : State) : State :=
  let key := sheafKey core sh
  s.issue core sh false (fun x => x.walkOnly && x.group.all Lane.holdsRemote) (fun x => foldS x.group s (fun s l => s.fwdLane key l))

/-! ### EMIT (R292, R480) -/

/-- The 32 bytes of an emission from vA to vA + 7. -/
def emission (l : Lane) (a : Nat) : Rec32 := mkRec 256 ((List.range 8).map (fun n => (4 * n, 32, (l.reg (a + n)).toNat)))
/-- The lanes of a group whose emissions go to a delivery entry, in lane order, by entry in order of first use. -/
def State.emitItems (s : State) (c cls a : Nat) (ls : List Lane) : List CItem :=
  let es := ls.filterMap (fun l => (s.laneQuery l).bind (fun q => if q.origin.isNone then some (qDelivery q.record, q, l) else none))
  ((es.map (·.1)).reverse.dedup.reverse).map (fun d =>
    let mine := es.filter (fun e => e.1 == d)
    .emits c d cls (mine.map (fun e => (qTag e.2.1.record, qUser0 e.2.1.record, qUser1 e.2.1.record, emission e.2.2 a)))
      (mine.map (fun e => e.2.2.slot)))
/-- Emissions of forwarded queries go to their origins (R480). -/
def State.emitAway (s : State) (key a : Nat) (l : Lane) : State :=
  match s.laneQuery l with
  | some q =>
    match q.origin with
    | some o => (s.sendPacket (fwdHeader s 3 2 0 o.inst o.inst q.ctx 0 o.token 1 0) none [emission l a]).modLane key l.n
        (fun y => { y with ws := { y.ws with emitsSent := y.ws.emitsSent + 1 } })
    | none => s
  | none => s
/-- EMIT. -/
def doEmit (core sh : Nat) (f : Fields) (s : State) : State :=
  let key := sheafKey core sh
  let a := f.a.toNat
  s.issue core sh false (fun x => x.walkOnly && decide (a ≤ 16)) (fun x =>
    let items := s.emitItems x.cohort.ctx x.cls a x.group
    if !s.walkRoom (core / 8) x.cls items.length then s.hold key
    else
      let s := s.putSheaf core sh { x.mapLanes x.groupNs (fun l => l.advance false) with lat := 1, held := false }
      let s := foldS items s (fun s i => s.toSource (.walk (core / 8)) x.cls i)
      foldS x.group s (fun s l => s.emitAway key a l))

/-! ### SPAWN (R27, R28, R43, R250, R251) -/

/-- The record that SPAWN creates: vA to vA + 15, with DEPTH and the class as R28 and R43 give them. -/
def spawnRecord (q : Query) (l : Lane) (a : Nat) : Rec64 :=
  let r : Rec64 := mkRec 512 ((List.range 16).map (fun n => (4 * n, 32, (l.reg (a + n)).toNat)))
  let r := withDepth r (qDepth q.record + 1)
  if qClass r < q.cls then withClass r q.cls else r
/-- Spawned queries of a context that hold a pool slot; those that are being spilled count until their run is acknowledged, as
used[x] of R194 counts them (R251; assumption 126). -/
def State.spawnedHeld (s : State) (c : Nat) : Nat := (s.pool.filter (fun e => e.2.ctx == c && e.2.spawned)).length
/-- SPAWN of one lane (R251): the state, and whether the record was created. The checks of a record bound for the overflow area whose
scene descriptor or walk entry has not been read are left to its reload, since the lane never waits (R30). -/
def State.spawnLane (s : State) (core : Nat) (q : Query) (l : Lane) (a : Nat) : State × Bool :=
  let c := q.ctx
  let d := (s.ctx c).desc
  let r := spawnRecord q l a
  let cls := min 3 (s.classOf c r 0)
  let buf := mgetD s.spawnBufs core []
  if dSpawnDepth d ≤ qDepth q.record then (s.countC c 8 1, false)
  else if 64 ≤ buf.length || decide (dSpawnPool d ≤ s.spawnedHeld c) || !s.mayTakeSlot cls c then
    let fresh := s.freshRec cls r true []
    if !s.ovfTakesFresh c cls fresh then (s.countC c 1 1, false)
    else match s.verdict c r true [] with
    | .needScene _ | .needWalk _ => ((s.countC c 7 1).writeDirect c cls { fresh with checked := false }, true)
    | .refused j => ((s.countC c 7 1).toFrontEnd (refusedItem c cls (dDelivs d) r true j), true)
    | .miss => ((s.countC c 7 1).toFrontEnd (missItem c cls r true), true)
    | .pass => ((s.countC c 7 1).writeDirect c cls fresh, true)
  else ((({ s with spawnBufs := mset s.spawnBufs core (buf ++ [{ ctx := c, record := r }]) } : State)).countC c 6 1, true)
/-- The spawns of a group, in ascending lane order, each with its predicate. -/
def State.spawnLanes (s : State) (core key pd a : Nat) (ls : List Lane) : State :=
  foldS ls s (fun s l => match s.laneQuery l with
    | none => s
    | some q => match s.spawnLane core q l a with
      | (s, made) => s.modLane key l.n (fun y => y.setPred pd made))
/-- SPAWN. -/
def doSpawn (core sh : Nat) (f : Fields) (s : State) : State :=
  let key := sheafKey core sh
  s.issue core sh false (fun _ => isPDst f.d && decide (f.a.toNat ≤ 8)) (fun x =>
    (s.spawnLanes core key (f.d.toNat - 32) f.a.toNat x.group).modSheaf key (fun y =>
      { y.mapLanes x.groupNs (fun l => l.advance false) with lat := 2 }))

/-! ### The commands -/

/-- TESTN. -/
def execTestn (core : CoreNo) (sh : SheafNo) (f : Fields) (s : State) : Host.Outcome State Fault Refusal := .next (doTestn core sh f s)
/-- TEST_ANSWER. -/
def execTestAnswer (core : CoreNo) (sh : SheafNo) (errs : List (LaneNo × Fin 64 × EccError)) (s : State)
    (units : List (LaneNo × EccError) := []) (parity : List LaneNo := []) : Host.Outcome State Fault Refusal :=
  .next (doTestAnswer core sh errs units parity s)
/-- TESTB. -/
def execTestb (core : CoreNo) (sh : SheafNo) (f : Fields) (s : State) : Host.Outcome State Fault Refusal := .next (doTestb core sh f s)
/-- TESTB_MERGE. -/
def execTestbMerge (core : CoreNo) (sh : SheafNo) (s : State) (units : List (LaneNo × EccError) := []) (segs : List LaneNo := [])
    (blocks : List BlockId := []) : Host.Outcome State Fault Refusal := .next (doTestbMerge core sh units segs blocks s)
/-- LEAF. -/
def execLeaf (core : CoreNo) (sh : SheafNo) (f : Fields) (s : State) : Host.Outcome State Fault Refusal := .next (doLeaf core sh f s)
/-- LEAF_FILL_INSTALL. -/
def execLeafFillInstall (g : GroveNo) (id : BlockId) (lines : List Line) (s : State) : Host.Outcome State Fault Refusal :=
  .next (doLeafFillInstall g id lines s)
/-- LEAF_RESULT. -/
def execLeafResult (core : CoreNo) (sh : SheafNo) (residue : List (Fin 24)) (s : State) (parity : List BlockId := []) :
    Host.Outcome State Fault Refusal := .next (doLeafResult core sh residue parity s)
/-- ORDER. -/
def execOrder (core : CoreNo) (sh : SheafNo) (f : Fields) (s : State) : Host.Outcome State Fault Refusal := .next (doOrder core sh f s)
/-- CHILD. -/
def execChild (core : CoreNo) (sh : SheafNo) (f : Fields) (s : State) : Host.Outcome State Fault Refusal := .next (doChild core sh f s)
/-- PUSH. -/
def execPush (core : CoreNo) (sh : SheafNo) (f : Fields) (s : State) : Host.Outcome State Fault Refusal := .next (doPush core sh f s)
/-- POP. -/
def execPop (core : CoreNo) (sh : SheafNo) (f : Fields) (s : State) : Host.Outcome State Fault Refusal := .next (doPop core sh f s)
/-- DESCEND. -/
def execDescend (core : CoreNo) (sh : SheafNo) (f : Fields) (s : State) : Host.Outcome State Fault Refusal := .next (doDescend core sh f s)
/-- TRAIL. -/
def execTrail (core : CoreNo) (sh : SheafNo) (f : Fields) (s : State) : Host.Outcome State Fault Refusal := .next (doTrail core sh f s)
/-- YIELD. -/
def execYield (core : CoreNo) (sh : SheafNo) (f : Fields) (s : State) : Host.Outcome State Fault Refusal := .next (doYield core sh f s)
/-- YIELD.TREE. -/
def execYieldTree (core : CoreNo) (sh : SheafNo) (f : Fields) (s : State) : Host.Outcome State Fault Refusal := .next (doYieldTree core sh f s)
/-- FWD. -/
def execFwd (core : CoreNo) (sh : SheafNo) (f : Fields) (s : State) : Host.Outcome State Fault Refusal := .next (doFwd core sh f s)
/-- HIT. -/
def execHit (core : CoreNo) (sh : SheafNo) (f : Fields) (s : State) : Host.Outcome State Fault Refusal := .next (doHit core sh f s)
/-- COLLECT ENTRY. -/
def execCollectEntry (core : CoreNo) (sh : SheafNo) (f : Fields) (s : State) : Host.Outcome State Fault Refusal := .next (doCollectEntry core sh f s)
/-- COLLECT SUM. -/
def execCollectSum (core : CoreNo) (sh : SheafNo) (f : Fields) (s : State) : Host.Outcome State Fault Refusal := .next (doCollectSum core sh f s)
/-- COLLECT SUMV. -/
def execCollectSumv (core : CoreNo) (sh : SheafNo) (f : Fields) (s : State) : Host.Outcome State Fault Refusal := .next (doCollectSumv core sh f s)
/-- COLLECT CLEAR. -/
def execCollectClear (core : CoreNo) (sh : SheafNo) (f : Fields) (s : State) : Host.Outcome State Fault Refusal := .next (doCollectClear core sh f s)
/-- EMIT. -/
def execEmit (core : CoreNo) (sh : SheafNo) (f : Fields) (s : State) : Host.Outcome State Fault Refusal := .next (doEmit core sh f s)
/-- SPAWN. -/
def execSpawn (core : CoreNo) (sh : SheafNo) (f : Fields) (s : State) : Host.Outcome State Fault Refusal := .next (doSpawn core sh f s)
/-- END in a lane. -/
def execWalkEnd (core : CoreNo) (sh : SheafNo) (f : Fields) (s : State) : Host.Outcome State Fault Refusal := .next (doWalkEnd core sh f s)
/-- RET.H. -/
def execRetH (i : Issuer) (s : State) : Host.Outcome State Fault Refusal := .next (doRetH i s)

end Sys2Proof.Machine
end

