-- ==== Sys2Proof/Machine/Sequencer.lean ====
section
/-! DEFINITION. Machine/Sequencer.lean: the strand instructions that reach memory, counters and the walk table (R269, R296
to R298, R303, R304), and the order of a strand's accesses (R364, R368 to R371). -/
namespace Sys2Proof.Machine

/-- A register of 64 bits that holds a code. -/
def code64 (n : Nat) : DWord := BitVec.ofNat 64 n

/-- STRAND_END (R269): the strand halts; with CLOSE its context is closed. -/
def doStrandEnd (c : Nat) (f : Fields) (s : State) : State :=
  s.strandIssue c [] false (minorIs f 1) 1 (fun s =>
    let s := s.modStrand c (fun t => { t with state := .halted })
    if f.a.getLsbD 0 then s.close c else s)

/-! ### Memory accesses -/

/-- Bytes of an access. -/
def Access.bytes : Access → Nat
  | .load n _ _ => n
  | .amo _ n _ _ _ _ => n
  | .store bs _ _ => bs.length
/-- The access is a release (R368). -/
def Access.rel : Access → Bool
  | .load _ _ _ => false
  | .amo _ _ _ _ ar _ => ar
  | .store _ r _ => r
/-- Two accesses reach one line (R371). -/
def sharesLine (a : DWord) (n : Nat) (b : DWord) (m : Nat) : Bool :=
  let last := fun (x : DWord) (k : Nat) => lineOf (addr64 x (k - 1))
  lineOf a == lineOf b || lineOf a == last b m || last a n == lineOf b || last a n == last b m
/-- The accesses that a new access waits for: acquires whose read is not performed; accesses to the same line that are
still held back; and, for a release, every access not performed (R364, R371). -/
def Strand.mustWait (t : Strand) (w : Access) (a : DWord) : List Nat :=
  ((t.loads.filter (·.acq)).map (·.n) ++
   (t.held.filter (fun h => sharesLine a w.bytes h.addr h.what.bytes)).map (·.n) ++
   (if w.rel then t.loads.map (·.n) ++ t.stores else [])).dedup
/-- A strand makes an access; rd receives what a load or an atomic returns. -/
def State.access (s : State) (c : Nat) (a : DWord) (rd : Nat) (sx : Bool) (w : Access) : State :=
  let after := (s.ctx c).strand.mustWait w a
  let (n, s) := match w with
    | .store _ _ _ => s.addCompletion c 0 1 .store
    | _ => s.takeId
  let s := s.modStrand c (fun t => match w with
    | .load size acq _ => { t with loads := t.loads ++ [{ n := n, rd := rd, size := size, sx := sx, atomic := false, acq := acq }] }
    | .amo _ size _ _ ar _ => { t with loads := t.loads ++ [{ n := n, rd := rd, size := size, sx := sx, atomic := true, acq := ar }] }
    | .store _ _ _ => { t with stores := t.stores ++ [n] })
  let h : HeldAccess := { n := n, after := after, addr := a, what := w }
  if after.isEmpty then s.sendAccess c h else s.modStrand c (fun t => { t with held := t.held ++ [h] })

/-- LD (R296). -/
def doLd (c : Nat) (f : Fields) (s : State) : State :=
  let m := f.minor
  s.strandIssue c [f.a.toNat, f.d.toNat] true (isX f.d && isX f.a && decide (m.toNat < 32)) 8 (fun s =>
    s.access c (s.getReg c f.a + sext64 f.imm) f.d.toNat (m.getLsbD 2) (.load (2 ^ (m.toNat % 4)) (m.getLsbD 3) (m.getLsbD 4)))
/-- The lines that a load or an atomic reads. -/
def State.loadLines (s : State) (c n : Nat) : List DWord :=
  s.out.filterMap (fun o => match o with
    | .read _ _ a (.load c' m _ _ _) => if c' = c ∧ m = n then some (lineOf a) else none
    | .read _ _ a (.amo c' m _ _ _ _ _ _) => if c' = c ∧ m = n then some (lineOf a) else none
    | _ => none)
/-- LOAD_DATA_RETURN (R296, R297): the data of a load or an atomic that has been sent. A loaded value is extended as SX
says; the old value that a 4-byte atomic returns is zero-extended. A read of a killed context returns for R458 alone. -/
def doLoadDataReturn (c n : Nat) (data : DWord) (s : State) : State :=
  let t := (s.ctx c).strand
  match t.loads.find? (fun x => x.n == n) with
  | none => s.ghostDone n
  | some x =>
    if t.held.any (fun h => h.n == n) then s
    else
      (s.modStrand c (fun t => { t.set x.rd (extend x.size x.sx data) with
        loads := t.loads.filter (fun y => y.n != n), fails := (s.loadLines c n).foldl (fun m a => merase m a.toNat) t.fails })).accessDone c n
/-- ST (R296): the low bytes of rb. -/
def doSt (c : Nat) (f : Fields) (s : State) : State :=
  let m := f.minor
  s.strandIssue c [f.a.toNat, f.b.toNat] true (isX f.a && isX f.b && decide (m.toNat < 32) && !m.getLsbD 2) 1 (fun s =>
    s.access c (s.getReg c f.a + sext64 f.imm) 0 false
      (.store (bytesOf (s.getReg c f.b) (2 ^ (m.toNat % 4))) (m.getLsbD 3) (m.getLsbD 4)))
/-- AMO (R297): an address that is not naturally aligned is illegal. -/
def doAmo (c : Nat) (f : Fields) (s : State) : State :=
  let m := f.minor
  let sz := m.toNat / 16 % 4
  let size := 2 ^ sz
  let a := s.getReg c f.a
  s.strandIssue c [f.a.toNat, f.b.toNat, f.d.toNat] false
    (isX f.d && isX f.a && isX f.b && decide (m.toNat % 16 ≤ 9) && decide (2 ≤ sz) && a.toNat % size == 0) 8 (fun s =>
    s.access c a f.d.toNat false
      (.amo (m.toNat % 16) size (extend size false (s.getReg c f.b)) (extend size false (s.getReg c f.d)) (m.getLsbD 6) (m.getLsbD 7)))

/-! ### Receive counters (R298, R375, R454) -/

/-- RDC. -/
def doRdc (c : Nat) (f : Fields) (s : State) : State :=
  s.strandIssue c [f.a.toNat, f.d.toNat] false (isX f.d && isX f.a && minorIs f 0) 2 (fun s =>
    let n := (s.getReg c f.a).toNat
    s.setReg c f.d (if 15 < n then 3 else mgetD (s.ctx c).recv n 0))
/-- WAITC. -/
def doWaitc (c : Nat) (f : Fields) (s : State) : State :=
  s.strandIssue c [f.a.toNat, f.b.toNat, f.d.toNat] false (isX f.d && isX f.a && isX f.b && minorIs f 1) 2 (fun s =>
    let n := (s.getReg c f.a).toNat
    if 15 < n then s.setReg c f.d 3 else s.waitOn c (.waitc f.d.toNat n (s.getReg c f.b) false))
/-- WAITC.T: rd holds the timeout on entry. -/
def doWaitcT (c : Nat) (f : Fields) (s : State) : State :=
  s.strandIssue c [f.a.toNat, f.b.toNat, f.d.toNat] false (isX f.d && isX f.a && isX f.b && minorIs f 2) 2 (fun s =>
    let n := (s.getReg c f.a).toNat
    let target := s.getReg c f.b
    let t := min (s.getReg c f.d).toNat (2 ^ 32 - 1)
    if 15 < n then s.setReg c f.d 3
    else if t = 0 then s.setReg c f.d (if reached (mgetD (s.ctx c).recv n 0) target then 0 else 1)
    else if (s.ctx c).cdMode == .deadline then s.setReg c f.d 2
    else (s.modCtx c (fun x => { x with cdMode := .timer, cdVal := t })).waitOn c (.waitc f.d.toNat n target true))
/-- WAITC_MET: the condition of the wait holds; a timed wait gives the countdown back. -/
def doWaitcMet (c : Nat) (s : State) : State :=
  match (s.ctx c).strand.state with
  | .waiting (.waitc rd n target timed) =>
    if reached (mgetD (s.ctx c).recv n 0) target then
      (if timed then s.modCtx c (fun x => { x with cdMode := .idle, cdVal := 0 }) else s).wake c rd 0
    else s
  | _ => s

/-! ### Fences (R369) and LAUNCH (R235, R303) -/

/-- FENCE. -/
def doFence (c : Nat) (f : Fields) (s : State) : State :=
  let m := f.minor.toNat
  s.strandIssue c [] false (decide (m < 8) && m % 4 != 0) 2 (fun s => s.waitOn c (.fence (m % 4) (f.minor.getLsbD 2)))
/-- The ordering of a fence holds: an acquire has every load and atomic performed, a release every access. -/
def Strand.fenceHolds (t : Strand) (mode : Nat) : Bool := t.loads.isEmpty && (mode == 1 || t.stores.isEmpty)
/-- FENCE_DONE. -/
def doFenceDone (c : Nat) (s : State) : State :=
  match (s.ctx c).strand.state with
  | .waiting (.fence mode _) => if (s.ctx c).strand.fenceHolds mode then s.wake c 0 0 else s
  | _ => s
/-- Every earlier store and atomic of the strand has been performed, and no acquire is outstanding (R364, R370). -/
def Strand.quiet (t : Strand) : Bool := t.stores.isEmpty && !t.loads.any (fun x => x.atomic || x.acq)
/-- Issues an instruction that reads memory for its strand: it is passed over until R370 lets it read. -/
def State.readIssue (s : State) (c : Nat) (uses : List Nat) (legal : Bool) (eff : State → State) : State :=
  if (s.ctx c).strand.quiet || !legal then s.strandIssue c uses false legal 2 eff else s
/-- LAUNCH: the entry is read again, whatever was read of it before. -/
def doLaunch (c : Nat) (f : Fields) (s : State) : State :=
  s.readIssue c [f.a.toNat, f.d.toNat] (isX f.d && isX f.a) (fun s =>
    let n := (s.getReg c f.a).toNat
    if 63 < n then s.setReg c f.d 2
    else (s.waitOn c (.launch f.d.toNat n)).readFor c (addr64 (dWalkTable (s.ctx c).desc) (32 * n)) (.walkEntry c n))

/-! ### The commands -/

/-- STRAND_END. -/
def execStrandEnd (c : CtxNo) (f : Fields) (s : State) : Host.Outcome State Fault Refusal := .next (doStrandEnd c f s)
/-- LD. -/
def execLd (c : CtxNo) (f : Fields) (s : State) : Host.Outcome State Fault Refusal := .next (doLd c f s)
/-- LOAD_DATA_RETURN. -/
def execLoadDataReturn (c : CtxNo) (n : Nat) (data : DWord) (s : State) : Host.Outcome State Fault Refusal := .next (doLoadDataReturn c n data s)
/-- ST. -/
def execSt (c : CtxNo) (f : Fields) (s : State) : Host.Outcome State Fault Refusal := .next (doSt c f s)
/-- AMO. -/
def execAmo (c : CtxNo) (f : Fields) (s : State) : Host.Outcome State Fault Refusal := .next (doAmo c f s)
/-- RDC. -/
def execRdc (c : CtxNo) (f : Fields) (s : State) : Host.Outcome State Fault Refusal := .next (doRdc c f s)
/-- WAITC. -/
def execWaitc (c : CtxNo) (f : Fields) (s : State) : Host.Outcome State Fault Refusal := .next (doWaitc c f s)
/-- WAITC_T. -/
def execWaitcT (c : CtxNo) (f : Fields) (s : State) : Host.Outcome State Fault Refusal := .next (doWaitcT c f s)
/-- WAITC_MET. -/
def execWaitcMet (c : CtxNo) (s : State) : Host.Outcome State Fault Refusal := .next (doWaitcMet c s)
/-- FENCE. -/
def execFence (c : CtxNo) (f : Fields) (s : State) : Host.Outcome State Fault Refusal := .next (doFence c f s)
/-- FENCE_DONE. -/
def execFenceDone (c : CtxNo) (s : State) : Host.Outcome State Fault Refusal := .next (doFenceDone c s)
/-- LAUNCH. -/
def execLaunch (c : CtxNo) (f : Fields) (s : State) : Host.Outcome State Fault Refusal := .next (doLaunch c f s)

end Sys2Proof.Machine
end

