-- ==== Sys2Proof/Machine/Streams.lean ====
section
/-! DEFINITION. Machine/Streams.lean: the stream instructions (R299, R300, R315, R322), the checks of a descriptor image
(R310), tiles from issue to retirement (R306 to R316), the rate of R327, preload (R324, R325) and the stall break
(R332, R333). -/
namespace Sys2Proof.Machine

/-! ### Descriptors and their owner (R299, R440) -/

/-- The stream belongs to the context. -/
def State.ownsStream (s : State) (c k : Nat) : Bool :=
  let d := (s.ctx c).desc
  decide (dStreamFirst d ≤ k) && decide (k < dStreamFirst d + dStreamCount d)
/-- The checks of R310 that the image alone decides. -/
def imageBad (m : Line) : Bool :=
  let e := smElog m
  let unit := if smKind m = 1 then 128 else smEsize m
  smVer m != 1 || !(smKind m == 1 || smKind m == 2 || smKind m == 3) || decide (3 < smClass m) ||
  decide (smLead m < 1) || decide (16 < smLead m) ||
  (smKind m == 1 && (decide (e < 7) || decide (13 < e))) || (smKind m == 2 && (decide (e < 5) || decide (13 < e))) ||
  (smKind m == 3 && e != 3) ||
  (List.range 5).any (fun i => smCount m i == 0) || decide (2 ^ 40 < smCount m 0 * smTiles m) ||
  (smBase m).toNat % unit != 0 || (List.range 5).any (fun i => (smStride m i).toNat % unit != 0)
/-- Staging lines that a STAGE stream uses in each grove: first and one past the last (R310, R315). -/
def stageRange (m : Line) : Nat × Nat := (smStageOff m, smStageOff m + 2 * smLead m * smTileLines m)
/-- The further checks of R310 for a STAGE stream. -/
def State.stageBad (s : State) (c : Nat) (m : Line) : Bool :=
  let r := stageRange m
  (smStride m 0).toNat != smEsize m || smGroves m &&& s.dev.groveEn == 0 || (s.bound c (smScene m)).isNone ||
  decide (s.stageLines < r.2) ||
  s.streams.any (fun e =>
    let n := e.2.image
    let q := stageRange n
    e.2.state != .idle && smKind n == 1 && smGroves n &&& smGroves m &&& s.dev.groveEn != 0 &&
    decide (r.1 < q.2) && decide (q.1 < r.2))
/-- A STAGE image names a handle whose descriptor has not been read: it is read before R310 can be decided
(assumption 40). -/
def State.sceneUnread (s : State) (c h : Nat) : Bool := decide (h < dScenes (s.ctx c).desc) && h != 0xFFFF && (s.scene c h).isNone

/-- Issues an instruction on the stream that ra names, with its minor. -/
def State.streamIssue (s : State) (c : Nat) (f : Fields) (minor : Nat) (eff : State → Nat → State) : State :=
  s.strandIssue c [f.a.toNat, f.d.toNat] false (isX f.d && isX f.a && minorIs f minor) 2 (fun s =>
    let k := (s.getReg c f.a).toNat
    if s.ownsStream c k then eff s k else s.setReg c f.d 3)
/-- STRM ARM (R299, R370): the image is read. -/
def doStrmArm (c : Nat) (f : Fields) (s : State) : State :=
  s.readIssue c [f.a.toNat, f.b.toNat, f.d.toNat] (isX f.d && isX f.a && isX f.b && minorIs f 0) (fun s =>
    let k := (s.getReg c f.a).toNat
    if !s.ownsStream c k then s.setReg c f.d 3
    else if (s.stream k).state != .idle then s.setReg c f.d 4
    else (s.waitOn c (.armImage f.d.toNat k (s.getReg c f.b))).readFor c (s.getReg c f.b) (.streamImage c))
/-- A stream armed with an image (R299, R311). -/
def Stream.armed (c : Nat) (m : Line) : Stream :=
  { Stream.reset with state := .armed, owner := c, image := m, base := smBase m, bases := [(0, smBase m)] }
/-- STREAM_IMAGE_READ (R310): the stream becomes ARMED, or is refused with FORMAT. -/
def doStreamImageRead (c : Nat) (m : Line) (s : State) : State :=
  match (s.ctx c).strand.state with
  | .waiting (.armImage rd k _) =>
    if imageBad m then s.wake c rd 5
    else if smKind m == 1 && s.sceneUnread c (smScene m) then s.askScene c (smScene m)
    else if smKind m == 1 && s.stageBad c m then s.wake c rd 5
    else (s.modStream k (fun _ => Stream.armed c m)).wake c rd 0
  | _ => s
/-- STRM REARM (R300): at once when no transfer of the arming is left or outstanding, otherwise into the pending slot. -/
def doStrmRearm (c : Nat) (f : Fields) (s : State) : State :=
  s.readIssue c [f.a.toNat, f.b.toNat, f.d.toNat] (isX f.d && isX f.a && isX f.b && minorIs f 1) (fun s =>
    let k := (s.getReg c f.a).toNat
    let b := s.getReg c f.b
    let x := s.stream k
    if !s.ownsStream c k then s.setReg c f.d 3
    else if x.state == .idle then s.setReg c f.d 6
    else if x.issuedAll && x.again.isEmpty && x.inflight.isEmpty then (s.modStream k (fun x => x.rearm b)).setReg c f.d 0
    else if x.pend.isSome then ((s.modStream k (fun x => { x with pend := some b })).countC c 0xB 1).setReg c f.d 2
    else (s.modStream k (fun x => { x with pend := some b })).setReg c f.d 1)
/-- START of a RUNNING STAGE stream (R315): the oldest full half is released, or the START is held for the next half
that becomes full; a third one that would be held is counted. -/
def State.releaseStart (s : State) (k : Nat) : State :=
  let x := s.stream k
  match x.fullHalves with
  | h :: _ => (s.releaseHalf k h).settleHalves k
  | [] =>
    if x.heldStarts < 2 then s.modStream k (fun x => { x with heldStarts := x.heldStarts + 1 })
    else s.countC x.owner 0xC 1
/-- STRM START (R299, R315, R322). -/
def doStrmStart (c : Nat) (f : Fields) (s : State) : State :=
  s.streamIssue c f 2 (fun s k =>
    let x := s.stream k
    match x.state with
    | .idle => s.setReg c f.d 6
    | .armed => (s.modStream k (fun x => { x with state := .running })).setReg c f.d 0
    | .stopped => ((s.modStream k (fun x => { x with state := .running })).settleStream k).setReg c f.d 0
    | .running => (if smKind x.image = 1 then s.releaseStart k else s).setReg c f.d 0)
/-- STRM STOP (R322). -/
def doStrmStop (c : Nat) (f : Fields) (s : State) : State :=
  s.streamIssue c f 3 (fun s k =>
    match (s.stream k).state with
    | .idle => s.setReg c f.d 6
    | .running => (s.modStream k (fun x => { x with state := .stopped })).setReg c f.d 0
    | _ => s.setReg c f.d 0)
/-- STRM CANCEL (R299): the strand waits until the stream is IDLE. -/
def doStrmCancel (c : Nat) (f : Fields) (s : State) : State :=
  s.streamIssue c f 4 (fun s k =>
    if (s.stream k).state == .idle then s.setReg c f.d 0
    else (s.waitOn c (.cancel f.d.toNat k)).cancelStream k)
/-- The STAT word (R299): the state, REARM pending, and the transfers of the current arming that are not retired. -/
def Stream.stat (x : Stream) : DWord :=
  let st := match x.state with | .idle => 0 | .armed => 1 | .running => 2 | .stopped => 3
  BitVec.ofNat 64 (st + (if x.pend.isSome then 4 else 0) + 2 ^ 32 * (x.inflight.filter (fun j => decide (x.tileBase ≤ j))).length)
/-- STRM STAT. -/
def doStrmStat (c : Nat) (f : Fields) (s : State) : State := s.streamIssue c f 5 (fun s k => s.setReg c f.d (s.stream k).stat)

/-! ### Tiles -/

/-- The stream issues tiles: it is RUNNING and not under CANCEL. -/
def Stream.issues (x : Stream) : Bool := x.state == .running && !x.cancelling
/-- The lead and the halves allow the next tile (R313, R315, R320). -/
def Stream.mayIssue (x : Stream) : Bool :=
  x.issues && decide (x.nextTile < x.tileBase + smTiles x.image) &&
  (match smKind x.image with
   | 1 => decide (x.nextTile / smLead x.image < x.halvesFreed + 2)
   | 2 => decide (x.nextTile < x.elem / smCount x.image 0 + smLead x.image)
   | _ => decide (x.outstanding.length < smLead x.image))
/-- Records in the spaces of DELIVERY streams take elements whose tiles have become ready. -/
def State.drainStreams (s : State) : State :=
  foldS (s.streams.filter (fun e => !e.2.space.isEmpty)) s (fun s e => s.streamDrain e.1)
/-- Tile j of a stream is issued: its transfer is asked for (R306, R311). -/
def State.issueTile (s : State) (k j : Nat) : State :=
  let x := s.stream k
  ((s.modStream k (fun x => { x with inflight := x.inflight ++ [j] })).request (.tile k j) x.owner (smClass x.image)).streamDrain k
/-- STREAM_TILE_ISSUE (R311, R313, R315, R320): a tile that a stall break took back goes first (R332). -/
def doStreamTileIssue (k : Nat) (s : State) : State :=
  let x := s.stream k
  match (if x.issues then x.again else []) with
  | j :: t => (s.modStream k (fun x => { x with again := t })).issueTile k j
  | [] =>
    if !x.mayIssue then s
    else
      let j := x.nextTile
      (s.modStream k (fun x => { x with nextTile := j + 1, outstanding := x.outstanding ++ [j], undone := x.undone ++ [j] })).issueTile k j
/-- The groves whose leaf caches take a stream's tiles: those it names that are active and neither in DRAIN nor in FROST
(R309, R514). -/
def State.stageGroves (s : State) (m : Line) : List Nat :=
  (List.range 16).filter (fun g => (smGroves m).getLsbD g && s.active g && (s.grove g).state == .run)
/-- The whole leaf blocks of a staged tile that pass their checks, with their leaf line indices (R316); bad lists the lines that the
fabric failed to read, and at' is the line reached. A header that gives no lines, or more than are left, or that was not read,
ends the tile. -/
def stagedBlocks (bad : List Nat) (index at' : Nat) : Nat → List Line → List (Nat × List Line)
  | 0, _ => []
  | fuel + 1, ls =>
    let n := lfLines ls
    if ls.isEmpty || n = 0 || decide (ls.length < n) || bad.contains at' then []
    else
      let b := ls.take n
      let rest := stagedBlocks bad (index + n) (at' + n) fuel (ls.drop n)
      if leafCrcOk b && !(List.range n).any (fun i => bad.contains (at' + i)) then (index, b) :: rest else rest
/-- A block as the staging part holds it. -/
def stagedBlock (x : Stream) (k j : Nat) (b : Nat × List Line) : LeafBlock :=
  { id := { ctx := x.owner, scene := smScene x.image, tag := 0, index := b.1 }, lines := b.2, suspect := false, prefetched := false,
    looked := false, lastUse := 0, staged := some (k, j) }
/-- The blocks of a staged tile that are used: decrypted when the scene is KEYED (R124), and none, each counted and logged, for a
context without a key (R462). -/
def State.stagedUse (s : State) (c : Nat) (m : Line) (d : Rec64) (good : List (Nat × List Line)) : List (Nat × List Line) × State :=
  if !sKeyed d then (good, s)
  else match s.keyOf c with
    | some k => (good.map (fun b => (b.1, decryptLeaf k b.1 b.2)), s)
    | none => ([], foldS good s (fun s b => s.keylessLeaf c noUnit b.1 (smScene m)))
/-- The blocks of a tile are handed to the leaf handle queues of the groves that take it (R20, R329); its transfer can retire once
every handle has entered (R307). -/
def State.handTile (s : State) (k j : Nat) (blocks : List LeafBlock) : State :=
  let m := (s.stream k).image
  let gs := s.stageGroves m
  let h := LeafHandle.tile k j blocks
  let s := s.modStream k (fun x => { x with installed := mset x.installed j (mgetD x.installed j []) })
  let s := (foldS gs s (fun s g => s.pushLeaf g (smClass m) h)).settleLeafXfer 0 h
  foldS gs s (fun s g => s.drainLeaf g)
/-- STAGED_TILE_INSTALL (R316): the lines of a tile have arrived. A stream under CANCEL has no transfer that awaits any. -/
def doStagedTileInstall (k j : Nat) (ls : List Line) (s : State) : State :=
  let x := s.stream k
  let w := XferWhat.tile k j
  if x.state == .idle || smKind x.image != 1 || !s.hasSlot w then s
  else
    let bad := ((s.xferOf w).map (·.bad)).getD []
    let s := s.linesBack w
    match s.bound x.owner (smScene x.image) with
    | none => s.finishXfer w
    | some d =>
      let index := (x.tileAddr j 0 - sLeafBase d).toNat / 128
      match s.stagedUse x.owner x.image d (stagedBlocks bad index 0 (smTileLines x.image) (ls.take (smTileLines x.image))) with
      | (bs, s) => s.handTile k j (bs.map (stagedBlock x k j))
/-- A tile is complete: installed in every grove that takes it, its last write acknowledged, or its entries taken (R312). -/
def State.tileDone (s : State) (k j : Nat) : Bool :=
  let x := s.stream k
  x.state != .idle && x.undone.contains j && !x.again.contains j &&
  (match smKind x.image with
   | 1 => (match mget x.installed j with
     | some gs => (s.stageGroves x.image).all gs.contains
     | none => false)
   | 2 => decide ((j + 1) * smCount x.image 0 ≤ x.elem) && mgetD x.unacked j 0 == 0
   | _ => decide ((j + 1) * smCount x.image 0 ≤ x.plDone))
/-- TILE_COMPLETE (R312): the receive counter advances by the tile's bytes. -/
def doTileComplete (k j : Nat) (s : State) : State :=
  let x := s.stream k
  let m := x.image
  if !s.tileDone k j then s
  else
    let s := s.modStream k (fun x => { x with
      undone := x.undone.filter (· != j), unacked := merase x.unacked j,
      completed := if smKind m = 1 then x.completed ++ [j] else x.completed })
    let s := if smKind m = 2 then s.finishXfer (.tile k j) else s
    let s := if smCntEn m then s.receive x.owner (smCounter m) (smTileBytes m) else s
    (if smKind m = 1 then s.settleHalves k else s).settleStream k
/-- TRANSFER_RETIRE (R307): the slot is free for the next transfer; a stream goes on when it was its last. -/
def doTransferRetire (n : Nat) (s : State) : State :=
  match s.xfers.find? (fun x => x.n == n && x.fin && !x.waiting) with
  | none => s
  | some x =>
    let s := (s.dropXfer n).drainStreams
    match x.what with
    | .tile k j =>
      if (s.stream k).state == .idle then s
      else (s.modStream k (fun y => { y with
        inflight := y.inflight.filter (· != j),
        outstanding := if smKind y.image = 2 then y.outstanding.filter (· != j) else y.outstanding })).settleStream k
    | _ => s

/-! ### The rate (R327) -/

/-- Bytes consumed in the window. -/
def Stream.windowBytes (x : Stream) : Nat :=
  if smKind x.image = 1 ∧ smUses x.image ≠ 0 then x.windowLookups * (smLead x.image * smTileBytes x.image) / smUses x.image
  else x.consumed
/-- STREAM_RATE_UPDATE, for every stream. -/
def doStreamRateUpdate (s : State) : State :=
  { s with streams := mmap s.streams (fun _ x => { x with rate := (3 * x.rate + x.windowBytes) / 4, consumed := 0, windowLookups := 0 }) }

/-! ### Preload (R324, R325) -/

/-- An entry is skipped. -/
def State.skipEntry (s : State) (k : Nat) : State := (s.countC (s.stream k).owner 0xE 1).modStream k Stream.entryDone
/-- The entry names a bough that cannot be preloaded here: a handle that is not bound, a bough outside the scene, or a
bough that the shard map places elsewhere. -/
def State.entryBad (s : State) (c h b : Nat) : Bool :=
  match s.bound c h with
  | none => true
  | some d => decide (sBoughs d ≤ b) || (s.holderFor c h b).isSome
/-- PRELOAD_ENTRY: the next element of the stream. The last entry of a tile shows that its lines have returned. -/
def doPreloadEntry (k : Nat) (entry : DWord) (s : State) : State :=
  let x := s.stream k
  let j := x.plDone / smCount x.image 0
  if x.state == .idle || smKind x.image != 3 || x.cancelling || x.plWait.isSome || !x.outstanding.contains j || !s.hasSlot (.tile k j) then s
  else
    let c := x.owner
    let h := fld entry 0 16
    let b := fld entry 4 32
    if s.sceneUnread c h then s.askScene c h
    else
      let s := if (x.plDone + 1) % smCount x.image 0 = 0 then (s.linesBack (.tile k j)).finishXfer (.tile k j) else s
      if s.entryBad c h b then s.skipEntry k
      else
        let id := (s.preloadFill k entry).id
        if s.resident id || s.underFill id then s.modStream k Stream.entryDone
        else if s.isCrownBough id then (s.crownPark id).modStream k Stream.entryDone
        else s.modStream k (fun x => { x with plWait := some (entry, s.now) })
/-- PRELOAD_TIMEOUT: neither a slot nor a victim was found in time. -/
def doPreloadTimeout (k : Nat) (s : State) : State := if (s.stream k).plWait.isSome then s.skipEntry k else s

/-! ### Stall break (R332, R333) -/

/-- The stream that holds the oldest resource which a stream waits for: a transfer slot, or an entry of a leaf handle queue
(assumption 77). Such a stream is BLOCKED. -/
def State.blockedOn (s : State) (k : Nat) : Option Nat :=
  if s.xfers.any (fun x => x.waiting && (match x.what with | .tile j _ => j == k | _ => false)) then
    s.xfers.findSome? (fun x => match x.what with | .tile j _ => if j ≠ k ∧ !x.waiting then some j else none | _ => none)
  else match s.leafHeld.find? (fun h => h.2.2.ofStream k) with
    | some (g, _, _) => (mgetD s.leafQ g []).findSome? (fun e => match e.item with | .tile j _ _ => if j ≠ k then some j else none | .block .. => none)
    | none => none
/-- The chain of records from a stream on, up to its return to the start; none when it does not return. -/
def State.waitCycle (s : State) (start : Nat) : Nat → Nat → Option (List Nat)
  | 0, _ => none
  | fuel + 1, k =>
    match s.blockedOn k with
    | none => none
    | some j => if j = start then some [k] else (s.waitCycle start fuel j).map (k :: ·)
/-- Records as lines, four to a line. -/
def recLinesOf (rs : List Rec32) : List Line := toLines (cdiv rs.length 4) (recBytes rs)
/-- The records that lines hold. -/
def recsOfLines (n : Nat) (ls : List Line) : List Rec32 :=
  let bs := ls.flatMap (fun l => bytesOf l 128)
  (List.range n).map (fun i => ofBytes 256 ((bs.drop (32 * i)).take 32))
/-- The unreleased halves of a STAGE stream are discarded, and their tiles are to be issued again (R332). -/
def State.breakStage (s : State) (k : Nat) : State :=
  (((s.dropStaged k).orphanTiles k).dropTileHandles k).modStream k (fun x => { x with again := x.outstanding, inflight := [], installed := [] })
/-- The records in the space of a DELIVERY stream go to the overflow area of its context, under a transfer (R306, R332). -/
def State.breakDelivery (s : State) (k : Nat) : State :=
  let x := s.stream k
  let c := s.ctx x.owner
  match c.ovf.placeStall (dOvfLines c.desc) k (recLinesOf (x.space.map (·.1))) with
  | (rseq, o) =>
    ((s.addRuns x.owner c.ovf.nextRseq o (fun r => r.rseq != rseq)).modStream k (fun x =>
      { x with space := [], spilled := x.space.map (·.2) })).request (.run x.owner rseq) x.owner (smClass x.image)
/-- Breaks a stream's hold: a DELIVERY stream's space goes to the overflow area, a STAGE stream's unreleased halves are
discarded. None when the stream's hold cannot be broken. -/
def State.breakStream (s : State) (k : Nat) : Option State :=
  let x := s.stream k
  match smKind x.image with
  | 1 => some (s.breakStage k).pumpXfers
  | 2 =>
    let c := s.ctx x.owner
    if x.space.isEmpty || !x.spilled.isEmpty ||
       !ovfFits (dOvfLines c.desc) c.ovf (c.ovf.freshLens 4 none) [1 + cdiv x.space.length 4] 0 then none
    else some (s.breakDelivery k)
  | _ => none
/-- STALL_BREAK: the wait cycle of the stream is broken at the member of lowest class, then highest number, whose hold
can be broken. -/
def doStallBreak (k : Nat) (s : State) : State :=
  match s.waitCycle k (s.streams.length + 1) k with
  | none => s
  | some ms =>
    let order := sortBy (fun j => [3 - smClass (s.stream j).image, 2048 - j]) ms
    match order.findSome? (fun j => (s.breakStream j).map (fun s' => (j, s'))) with
    | some (j, s') => s'.countC (s.stream j).owner 0xF 1
    | none => s
/-- The run that holds stall-break data of a stream, with the data. -/
def State.stallRun (s : State) (k : Nat) : Option (Run × List Line) :=
  (s.ctx (s.stream k).owner).ovf.runs.findSome? (fun r => match r.stall with
    | some (j, ls) => if j = k ∧ r.written then some (r, ls) else none
    | none => none)
/-- STALL_DATA_READBACK (R306, R333): a stream that is no longer BLOCKED reads its data back under a transfer, and has it again, in
order. -/
def doStallDataReadback (k : Nat) (s : State) : State :=
  let x := s.stream k
  match s.stallRun k with
  | none => s
  | some (r, ls) =>
    if x.spilled.isEmpty || (s.blockedOn k).isSome then s
    else
      let w := XferWhat.run x.owner r.rseq
      let s := s.requestOnce w x.owner (smClass x.image)
      if !s.hasSlot w then s
      else
        let rs := (recsOfLines x.spilled.length ls).zip x.spilled
        let s := ((s.linesBack w).finishXfer w).modOvf x.owner (fun o => { o with runs := o.runs.map (fun y =>
          if y.rseq == r.rseq then { y with stall := none } else y) })
        (s.modStream k (fun x => { x with spilled := [], space := rs ++ x.space })).streamDrain k

/-! ### The commands -/

/-- STRM_ARM. -/
def execStrmArm (c : CtxNo) (f : Fields) (s : State) : Host.Outcome State Fault Refusal := .next (doStrmArm c f s)
/-- STRM_REARM. -/
def execStrmRearm (c : CtxNo) (f : Fields) (s : State) : Host.Outcome State Fault Refusal := .next (doStrmRearm c f s)
/-- STRM_START. -/
def execStrmStart (c : CtxNo) (f : Fields) (s : State) : Host.Outcome State Fault Refusal := .next (doStrmStart c f s)
/-- STRM_STOP. -/
def execStrmStop (c : CtxNo) (f : Fields) (s : State) : Host.Outcome State Fault Refusal := .next (doStrmStop c f s)
/-- STRM_CANCEL. -/
def execStrmCancel (c : CtxNo) (f : Fields) (s : State) : Host.Outcome State Fault Refusal := .next (doStrmCancel c f s)
/-- STRM_STAT. -/
def execStrmStat (c : CtxNo) (f : Fields) (s : State) : Host.Outcome State Fault Refusal := .next (doStrmStat c f s)
/-- STREAM_TILE_ISSUE. -/
def execStreamTileIssue (k : StreamNo) (s : State) : Host.Outcome State Fault Refusal := .next (doStreamTileIssue k s)
/-- STAGED_TILE_INSTALL. -/
def execStagedTileInstall (k : StreamNo) (tile : Nat) (lines : List Line) (s : State) : Host.Outcome State Fault Refusal :=
  .next (doStagedTileInstall k tile lines s)
/-- TILE_COMPLETE. -/
def execTileComplete (k : StreamNo) (tile : Nat) (s : State) : Host.Outcome State Fault Refusal := .next (doTileComplete k tile s)
/-- TRANSFER_RETIRE. -/
def execTransferRetire (x : Nat) (s : State) : Host.Outcome State Fault Refusal := .next (doTransferRetire x s)
/-- STREAM_RATE_UPDATE. -/
def execStreamRateUpdate (s : State) : Host.Outcome State Fault Refusal := .next (doStreamRateUpdate s)
/-- PRELOAD_ENTRY. -/
def execPreloadEntry (k : StreamNo) (entry : DWord) (s : State) : Host.Outcome State Fault Refusal := .next (doPreloadEntry k entry s)
/-- PRELOAD_TIMEOUT. -/
def execPreloadTimeout (k : StreamNo) (s : State) : Host.Outcome State Fault Refusal := .next (doPreloadTimeout k s)
/-- STALL_BREAK. -/
def execStallBreak (k : StreamNo) (s : State) : Host.Outcome State Fault Refusal := .next (doStallBreak k s)
/-- STALL_DATA_READBACK. -/
def execStallDataReadback (k : StreamNo) (s : State) : Host.Outcome State Fault Refusal := .next (doStallDataReadback k s)
/-- STREAM_IMAGE_READ. -/
def execStreamImageRead (c : CtxNo) (img : Line) (s : State) : Host.Outcome State Fault Refusal := .next (doStreamImageRead c img (s.readBack c))

end Sys2Proof.Machine
end

