-- ==== Sys2Proof/Machine/Scans.lean ====
section
/-! DEFINITION. Machine/Scans.lean: the scan engine: the SCAN instructions (R301), the parameter block (R414, R415), chunks
(R416), the end of a scan (R417) and SUSPEND (R418). Engine writes to the block are acknowledged by WRITE_ACKNOWLEDGED. -/
namespace Sys2Proof.Machine

/-! ### The parameter block (R414) -/

def pbNext (b : Rec64) : DWord := fldv b 8 64
def pbRemain (b : Rec64) : Nat := fld b 16 64
def pbRunning (b : Rec64) : DWord := fldv b 24 64
def pbExpect (b : Rec64) : DWord := fldv b 32 64
/-- The block is refused (R415). -/
def blockBad (b : Rec64) : Bool :=
  fld b 0 8 != 1 || decide (1 < fld b 1 8) || decide (2 ^ 40 < pbRemain b) ||
  (fld b 1 8 == 0 && (decide (2 ^ 32 ≤ (pbRunning b).toNat) || decide (2 ^ 32 ≤ (pbExpect b).toNat)))
/-- The running register after some bytes (R413). -/
def scanFold (poly : Bool) (r : DWord) (bs : List Byte) : DWord :=
  if poly then crc64Run r bs else (crc32cRun (r.setWidth 32) bs).setWidth 64
/-- RESULT of a running register. -/
def scanResult (poly : Bool) (r : DWord) : DWord := if poly then r else r ^^^ 0xFFFFFFFF
/-- NEXT, REMAIN and RUNNING as they lie in the block from byte 8 on. -/
def scanProgress (x : Scan) : List Byte := bytesOf x.next 8 ++ bytesOf (BitVec.ofNat 64 x.remain) 8 ++ bytesOf x.running 8

/-! ### Channels -/

/-- The context holds the channel. -/
def State.holdsScan (s : State) (c ch : Nat) : Bool := decide (ch < 8) && (s.scan ch).held && (s.scan ch).ctx == c
/-- The channel that a CRCSCAN of the context takes: the lowest-numbered free one, within MAX_SCAN (R301, R452). -/
def State.freeScan (s : State) (c : Nat) : Option Nat :=
  if dMaxScan (s.ctx c).desc ≤ ((List.range 8).filter (s.holdsScan c)).length then none
  else (List.range 8).find? (fun ch => !(s.scan ch).held)
/-- The scan of a channel finishes: the block is written, and a mismatch is reported (R416, R417). A scan that the fabric
failed finishes MISMATCH (R429). -/
def State.finishScan (s : State) (ch : Nat) : State :=
  let x := s.scan ch
  let result := scanResult x.poly x.running
  let cmp := x.cmp || x.failed
  let bad := x.failed || (x.cmp && result != x.expect)
  let status : Nat := if !cmp then 3 else if bad then 2 else 1
  let s := s.modScan ch (fun x => { x with finished := true, mismatch := bad, result := result })
  let (n, s) := s.addCompletion x.ctx 3 3 (.blockWrite ch)
  let put := fun (s : State) (off : Nat) (bs : List Byte) =>
    let a := addr64 x.block off
    (s.touch (s.asid x.ctx) a).emit (.store (s.fabricPort a) (s.asid x.ctx) a bs n false false)
  let s := put (put (put s 8 (scanProgress x)) 40 (bytesOf result 8)) 3 [BitVec.ofNat 8 status]
  if bad then
    let s := (s.countC x.ctx 0x2A 1).log 0x20 3 x.ctx ch noUnit x.block.toNat
    if x.notify then s.interrupt 3 else s
  else s

/-! ### The instructions (R301) -/

/-- CRCSCAN: the block is read first, and refused before a channel is looked for (R415). -/
def doCrcscan (c : Nat) (f : Fields) (s : State) : State :=
  s.readIssue c [f.a.toNat, f.d.toNat] (isX f.d && isX f.a && minorIs f 0) (fun s =>
    (s.waitOn c (.scanBlk f.d.toNat (s.getReg c f.a))).readFor c (s.getReg c f.a) (.scanBlock c))
/-- SCAN_BLOCK_READ (R301, R415). -/
def doScanBlockRead (c : Nat) (b : Rec64) (s : State) : State :=
  match (s.ctx c).strand.state with
  | .waiting (.scanBlk rd a) =>
    if blockBad b then s.wake c rd 257
    else match s.freeScan c with
      | none => s.wake c rd 256
      | some ch =>
        let s := s.modScan ch (fun x =>
          { held := true, ctx := c, block := a, next := pbNext b, remain := pbRemain b, running := pbRunning b,
            poly := fld b 1 8 == 1, cmp := fbit b 16 1 == 1, notify := fbit b 17 1 == 1, expect := pbExpect b, result := 0,
            finished := false, mismatch := x.mismatch, failed := false })
        let s := (s.writeTracked c [(addr64 a 3, [0])]).wake c rd (code64 ch)
        if pbRemain b = 0 then s.finishScan ch else s.request (.scan ch) c 3
  | _ => s
/-- Issues an instruction on the channel that ra names, with its minor: one that the context does not hold gives 2. -/
def State.scanIssue (s : State) (c : Nat) (f : Fields) (minor : Nat) (eff : State → Nat → State) : State :=
  s.strandIssue c [f.a.toNat, f.d.toNat] false (isX f.d && isX f.a && minorIs f minor) 2 (fun s =>
    let ch := (s.getReg c f.a).toNat
    if s.holdsScan c ch then eff s ch else s.setReg c f.d 2)
/-- SCAN WAIT: the result comes once the block is written. -/
def doScanWait (c : Nat) (f : Fields) (s : State) : State :=
  s.scanIssue c f 1 (fun s ch =>
    let x := s.scan ch
    if x.finished && !s.completions.any (fun y => y.fin == .blockWrite ch) then
      (s.modScan ch (fun y => { y with held := false })).setReg c f.d (if x.mismatch then 1 else 0)
    else s.waitOn c (.scanWait f.d.toNat ch))
/-- SCAN SUSPEND (R418): lines requested and not folded are discarded. -/
def doScanSuspend (c : Nat) (f : Fields) (s : State) : State :=
  s.scanIssue c f 2 (fun s ch =>
    let x := s.scan ch
    let s := s.writeTracked c [(addr64 x.block 8, scanProgress x), (addr64 x.block 3, [0])]
    let s := s.modScan ch (fun y => { y with held := false })
    (s.cancelXfers (fun w => w == .scan ch)).setReg c f.d 0)
/-- SCAN STAT. -/
def doScanStat (c : Nat) (f : Fields) (s : State) : State :=
  s.scanIssue c f 3 (fun s ch =>
    let x := s.scan ch
    s.setReg c f.d (code64 ((if x.finished then 0 else 1) + (if x.finished && x.mismatch then 2 else 0))))
/-- SCAN_CHUNK_ARRIVE (R416): up to 4 KiB are folded in ascending address order. -/
def doScanChunkArrive (ch : Nat) (data : List Byte) (s : State) : State :=
  let x := s.scan ch
  if !x.held || x.finished || !s.hasSlot (.scan ch) then s
  else
    let bs := data.take (min 4096 x.remain)
    let s := (s.linesBack (.scan ch)).modScan ch (fun x => { x with
        running := scanFold x.poly x.running bs, next := addr64 x.next bs.length, remain := x.remain - bs.length })
    let s := (s.countC x.ctx 0x29 bs.length).finishXfer (.scan ch)
    if x.remain = bs.length then s.finishScan ch else s.request (.scan ch) x.ctx 3

/-! ### The commands -/

/-- CRCSCAN. -/
def execCrcscan (c : CtxNo) (f : Fields) (s : State) : Host.Outcome State Fault Refusal := .next (doCrcscan c f s)
/-- SCAN_WAIT. -/
def execScanWait (c : CtxNo) (f : Fields) (s : State) : Host.Outcome State Fault Refusal := .next (doScanWait c f s)
/-- SCAN_SUSPEND. -/
def execScanSuspend (c : CtxNo) (f : Fields) (s : State) : Host.Outcome State Fault Refusal := .next (doScanSuspend c f s)
/-- SCAN_STAT. -/
def execScanStat (c : CtxNo) (f : Fields) (s : State) : Host.Outcome State Fault Refusal := .next (doScanStat c f s)
/-- SCAN_CHUNK_ARRIVE. -/
def execScanChunkArrive (ch : ScanNo) (data : List Byte) (s : State) : Host.Outcome State Fault Refusal := .next (doScanChunkArrive ch data s)
/-- SCAN_BLOCK_READ. -/
def execScanBlockRead (c : CtxNo) (blk : Rec64) (s : State) : Host.Outcome State Fault Refusal := .next (doScanBlockRead c blk (s.readBack c))

end Sys2Proof.Machine
end

