-- ==== Sys2Proof/Machine/Edits.lean ====
section
/-! DEFINITION. Machine/Edits.lean: scene-edit transactions: the XACT instructions (R302, R396 to R401, R411), the commit
point (R402), write-through (R407 to R409) and the ring's grants (R380, R384). -/
namespace Sys2Proof.Machine

/-! ### Transactions and their lines -/

/-- The transaction of a number that the context has opened. -/
def State.txnOf (s : State) (c t : Nat) : Option Txn :=
  match mget s.txns t with
  | some x => if x.ctx = c then some x else none
  | none => none
/-- The buffer line that is not OPEN (R404). -/
def BufLine.committed (l : BufLine) : Bool := match l.state with | .open _ => false | _ => true
/-- Buffer lines of a context that are COMMITTED or WRITING (R302). -/
def State.wtPending (s : State) (c : Nat) : Nat := (s.txnBuf.filter (fun e => e.2.ctx == c && e.2.committed)).length
/-- The line of a transaction's write set at an address. -/
def State.ownLineAt (s : State) (t : Nat) (a : DWord) : Option (Nat × BufLine) := (s.openLines t).find? (fun e => e.2.addr == lineOf a)
/-- Another open transaction has written the line (R399), which lies in the context's address space (R455). -/
def State.conflicts (s : State) (c t : Nat) (a : DWord) : Bool :=
  s.txnBuf.any (fun e => s.bufRLine e.2 == s.rline c a && (match e.2.state with | .open u => u != t | _ => false))
/-- Claims a buffer line for a line of memory and takes it into owned state (R398, R404). Without a FREE line the
transaction aborts (R411). -/
def State.claimLine (s : State) (t : Nat) (x : Txn) (leaf trailer : Bool) (name : Nat) (a : DWord) : State :=
  match mfree s.txnBuf 32768 with
  | none => s.abortTxn t 1
  | some n =>
    let r := s.rline x.ctx a
    let here := (s.dirAt r).isSome
    let l : BufLine := { state := .open t, ctx := x.ctx, scene := x.scene, leaf := leaf, trailer := trailer, name := name,
                         addr := lineOf a, version := 0, data := 0, ue := false, owned := here }
    let s := { s with txnBuf := mset s.txnBuf n l }
    if here then (s.modDir r (fun e => { e with user := .transaction, pinned := true })).useLine r
    else s.readOwn r (.txn n)

/-! ### The instructions (R302) -/

/-- XBEGIN (R396, R452). A handle whose descriptor has not been read is read first (assumption 40). -/
def doXbegin (c : Nat) (f : Fields) (s : State) : State :=
  let h := (s.getReg c f.a).toNat
  if s.strandReady c [f.a.toNat, f.d.toNat] && isX f.d && isX f.a && minorIs f 0 && s.sceneUnread c h then s.askScene c h
  else s.strandIssue c [f.a.toNat, f.d.toNat] false (isX f.d && isX f.a && minorIs f 0) 2 (fun s =>
    let mine := (s.txns.filter (fun e => e.2.ctx == c)).length
    if (s.bound c h).isNone then s.setReg c f.d (code64 (2 ^ 32 + 8))
    else if dMaxTxn (s.ctx c).desc ≤ mine then s.setReg c f.d (code64 (2 ^ 32 + 7))
    else match mfree s.txns 64 with
      | none => s.setReg c f.d (code64 (2 ^ 32 + 7))
      | some t =>
        let (o, s) := s.takeId
        let s := { s with txns := mset s.txns t { ctx := c, scene := h, order := o, aborted := none, committing := false } }
        (s.countC c 0x1B 1).setReg c f.d (code64 t))
/-- The memory line that an XWRITE names; none when the bough does not exist (R397). -/
def xwriteAddr (d : Rec64) (leaf : Bool) (name : Nat) : Option DWord :=
  if leaf then some (leafAddr d name)
  else if name / 64 < sBoughs d then some (nodeAddr d (name / 64) (name % 64)) else none
/-- An XWRITE on an open transaction (R397 to R399). -/
def State.xwriteOpen (s : State) (c rd t : Nat) (x : Txn) (leaf : Bool) (target src : DWord) : State :=
  match xwriteAddr ((s.bound c x.scene).getD 0) leaf target.toNat with
  | none => s.modStrand c (fun y => y.set rd 8)
  | some a =>
    if s.conflicts c t a then (s.abortTxn t 3).modStrand c (fun y => y.set rd 3)
    else
      let s := if (s.ownLineAt t a).isSome then s else s.claimLine t x leaf false target.toNat a
      match (s.txnOf c t).bind (·.aborted) with
      | some k => s.modStrand c (fun y => y.set rd (code64 k))
      | none => (s.waitOn c (.xwrite rd t leaf target src)).request (.line c src) c 0
/-- XWRITE.NODE and XWRITE.LEAF. -/
def State.xwrite (s : State) (leaf : Bool) (c : Nat) (f : Fields) : State :=
  s.readIssue c [f.a.toNat, f.b.toNat, f.d.toNat] (isX f.d && isX f.a && isX f.b && minorIs f (if leaf then 2 else 1)) (fun s =>
    let t := (s.getReg c f.d).toNat
    match s.txnOf c t with
    | none => s.setReg c f.d 6
    | some x =>
      match x.aborted with
      | some k => s.setReg c f.d (code64 k)
      | none => s.xwriteOpen c f.d.toNat t x leaf (s.getReg c f.a) (s.getReg c f.b))
def doXwriteNode (c : Nat) (f : Fields) (s : State) : State := s.xwrite false c f
def doXwriteLeaf (c : Nat) (f : Fields) (s : State) : State := s.xwrite true c f
/-- XWRITE_READ_DONE (R398, R404): the new content enters the buffer; an XWRITE whose transaction has aborted meanwhile
returns the cause. -/
def doXwriteReadDone (c : Nat) (line : Line) (s : State) : State :=
  match (s.ctx c).strand.state with
  | .waiting (.xwrite rd t leaf target src) =>
    if !s.hasSlot (.line c src) then s
    else
      match s.txnOf c t with
      | none => (s.finishXfer (.line c src)).wake c rd 6
      | some x =>
        match x.aborted with
        | some k => (s.finishXfer (.line c src)).wake c rd (code64 k)
        | none =>
          match (xwriteAddr ((s.bound c x.scene).getD 0) leaf target.toNat).bind (s.ownLineAt t) with
          | none => s
          | some e =>
            if !e.2.owned then s
            else
              let s := s.clearMark 2 0 e.1
              let s := { s with txnBuf := mset s.txnBuf e.1 { e.2 with data := line, ue := false } }
              let s := match s.injSramArmed 2 none with | some dbl => s.injectSram 2 0 e.1 dbl | none => s
              (s.finishXfer (.line c src)).wake c rd 0
  | _ => s

/-! ### Commit (R401, R402) -/

/-- The boughs with node lines in a transaction's write set. -/
def State.editedBoughs (s : State) (t : Nat) : List Nat :=
  ((s.openLines t).filterMap (fun e => if e.2.leaf || e.2.trailer then none else some (e.2.name / 64))).dedup
/-- Issues an instruction that names its operand in rd, with its minor. -/
def State.xactIssue (s : State) (c : Nat) (f : Fields) (minor : Nat) (eff : State → State) : State :=
  s.strandIssue c [f.d.toNat] false (isX f.d && minorIs f minor) 2 eff
/-- XCOMMIT (R401): the trailer lines of the edited boughs join the write set. -/
def doXcommit (c : Nat) (f : Fields) (s : State) : State :=
  s.xactIssue c f 3 (fun s =>
    let t := (s.getReg c f.d).toNat
    match s.txnOf c t with
    | none => s.setReg c f.d 6
    | some x =>
      match x.aborted with
      | some k => ({ s with txns := merase s.txns t } : State).setReg c f.d (code64 k)
      | none =>
        let d := (s.bound c x.scene).getD 0
        let s := s.waitOn c (.xcommit f.d.toNat t)
        let s := { s with txns := mset s.txns t { x with committing := true } }
        foldS ((s.editedBoughs t).map (· / 8)).dedup s (fun s n =>
          match s.txnOf c t with
          | none => s
          | some x => if x.aborted.isSome then s else s.claimLine t x false true n (addr64 (sTrailerBase d) (128 * n))))
/-- A line of memory as COMMIT_POINT was given it. -/
def memLine (mem : List (DWord × Line)) (a : DWord) : Option Line := (mem.find? (fun e => lineOf e.1 == a)).map (·.2)
/-- The newest committed version of a line (R401). -/
def State.newestVersion (s : State) (c h : Nat) (trailer : Bool) (name : Nat) : Option Line :=
  (s.bufLine c h (s.ctx c).epoch false trailer name).map (·.data)
/-- A node line as the transaction's version holds it. -/
def State.commitNode (s : State) (t c h : Nat) (d : Rec64) (mem : List (DWord × Line)) (b n : Nat) : Option Line :=
  let a := nodeAddr d b n
  match s.ownLineAt t a with
  | some e => some e.2.data
  | none => match s.newestVersion c h false (64 * b + n) with
    | some l => some l
    | none => memLine mem a
/-- A trailer line as it stood before the transaction. -/
def State.commitTrailer (s : State) (c h : Nat) (d : Rec64) (mem : List (DWord × Line)) (n : Nat) : Option Line :=
  match s.newestVersion c h true n with
  | some l => some l
  | none => memLine mem (addr64 (sTrailerBase d) (128 * n))
/-- LINES of an edited bough (R401). -/
def State.commitLines (s : State) (t b : Nat) (old : BitVec 128) : Nat :=
  (s.openLines t).foldl (fun m e => if !e.2.leaf && !e.2.trailer && e.2.name / 64 == b then max m (1 + e.2.name % 64) else m) (fld old 4 8)
/-- The recomputed trailer of a bough, whose CRC is complemented when a line of the write set was damaged (R401, R427);
none when a line that it needs is not given. -/
def State.newTrailer (s : State) (t c h : Nat) (d : Rec64) (mem : List (DWord × Line)) (b : Nat) (old : BitVec 128) : Option (BitVec 128) :=
  let n := s.commitLines t b old
  let ls := (List.range n).map (s.commitNode t c h d mem b)
  if ls.any Option.isNone then none
  else
    let tr := setFld old 4 8 n
    let crc := crc32cRun (crc32cRun 0xFFFFFFFF (ls.flatMap (fun l => bytesOf (l.getD 0) 128))) ((bytesOf tr 16).drop 4) ^^^ 0xFFFFFFFF
    let ue := (s.openLines t).any (fun e => e.2.ue && !e.2.leaf && !e.2.trailer && e.2.name / 64 == b)
    some (setFld tr 0 32 (if ue then ~~~ crc else crc).toNat)
/-- A trailer line with the trailers of the edited boughs recomputed. -/
def State.newTrailerLine (s : State) (t c h : Nat) (d : Rec64) (mem : List (DWord × Line)) (n : Nat) : Option Line :=
  ((s.editedBoughs t).filter (fun b => b / 8 == n)).foldl (fun l b =>
    match l with
    | none => none
    | some l => match s.newTrailer t c h d mem b (trailerOf l b) with
      | none => none
      | some tr => some (setFld l (16 * (b % 8)) 128 tr.toNat)) (s.commitTrailer c h d mem n)
/-- A version so old remains that the commit point waits (R394). -/
def State.epochHeld (s : State) (c : Nat) : Bool :=
  s.txnBuf.any (fun e => e.2.ctx == c && e.2.committed &&
    decide (2 ^ 31 - 1 ≤ ((BitVec.ofNat 32 ((s.ctx c).epoch + 1) : Word) - BitVec.ofNat 32 e.2.version).toNat))
/-- The commit point itself (R402): every line of the write set is COMMITTED with the new epoch, and the pins end. -/
def State.commitNow (s : State) (t c rd : Nat) (trailers : FMap Line) : State :=
  let v := ((s.ctx c).epoch + 1) % 2 ^ 32
  let addrs := (s.openLines t).map (fun e => s.bufRLine e.2)
  let s := { s with
    txnBuf := mmap s.txnBuf (fun _ l =>
      if l.state == BufState.open t then { l with state := .committed, version := v, data := if l.trailer then mgetD trailers l.name l.data else l.data }
      else l),
    dir := s.dir.map (fun (e : DirEntry) => if addrs.contains e.addr then { e with pinned := false } else e),
    txns := merase s.txns t }
  ((s.modCtx c (fun x => { x with epoch := v })).countC c 0x1C 1).wake c rd 0
/-- COMMIT_POINT (R401, R402, R427), once the engine owns every line of the write set (R398). It brings the lines of memory that the
recomputed trailers need. -/
def doCommitPoint (c : Nat) (mem : List (DWord × Line)) (s : State) : State :=
  match (s.ctx c).strand.state with
  | .waiting (.xcommit rd t) =>
    match s.txnOf c t with
    | none => s
    | some x =>
      if s.epochHeld c || (s.openLines t).any (fun e => !e.2.owned) then s
      else
        let d := (s.bound c x.scene).getD 0
        let names := ((s.editedBoughs t).map (· / 8)).dedup
        -- the lines of the write set are read for the check values (R424)
        let read := foldS ((s.openLines t).filter (fun e => !e.2.leaf && !e.2.trailer)) s (fun s e => s.readBuf e.1 none)
        let new := names.map (fun n => (n, read.newTrailerLine t c x.scene d mem n))
        if new.any (fun e => e.2.isNone) then s
        else read.commitNow t c rd (new.foldl (fun m e => mset m e.1 (e.2.getD 0)) [])
  | _ => s

/-! ### The other instructions -/

/-- XABORT. -/
def doXabort (c : Nat) (f : Fields) (s : State) : State :=
  s.xactIssue c f 4 (fun s =>
    let t := (s.getReg c f.d).toNat
    match s.txnOf c t with
    | none => s.setReg c f.d 6
    | some x =>
      match x.aborted with
      | some k => ({ s with txns := merase s.txns t } : State).setReg c f.d (code64 k)
      | none =>
        let s := s.abortTxn t 5
        ({ s with txns := merase s.txns t } : State).setReg c f.d 0)
/-- XSTAT. -/
def doXstat (c : Nat) (f : Fields) (s : State) : State :=
  s.xactIssue c f 5 (fun s =>
    s.setReg c f.d (match s.txnOf c (s.getReg c f.d).toNat with
      | none => 6
      | some x => code64 (x.aborted.getD 0)))
/-- XWTPEND. -/
def doXwtpend (c : Nat) (f : Fields) (s : State) : State :=
  s.xactIssue c f 6 (fun s => s.setReg c f.d (code64 (s.wtPending c)))
/-- XWTWAIT. -/
def doXwtwait (c : Nat) (f : Fields) (s : State) : State :=
  s.xactIssue c f 7 (fun s =>
    if s.wtPending c = 0 then s.setReg c f.d 0 else s.waitOn c (.xwtwait f.d.toNat))

/-! ### Write-through (R407, R408) -/

/-- Epoch a is older than b (R394). -/
def epochLt (a b : Nat) : Bool := epochLe a b && a != b
/-- A COMMITTED line is due (R407): no query of the context of an older epoch is left, in the pool or in the overflow area, and no
older version of the same memory line, which is one of the same context (R403). -/
def State.wtDue (s : State) (l : BufLine) : Bool :=
  !s.pool.any (fun e => e.2.ctx == l.ctx && epochLt e.2.epoch l.version) &&
  !(s.ctx l.ctx).ovf.runs.any (fun r => r.state == .live && r.recs.any (fun y => y.ws.isSome && epochLt y.epoch l.version)) &&
  !s.txnBuf.any (fun e => e.2.ctx == l.ctx && e.2.addr == l.addr && e.2.committed && epochLt e.2.version l.version)
/-- Step 2 of R408 for a node or trailer line: copies of tag 0 of its boughs leave, once R23 allows. -/
def State.dropOldBoughs (s : State) (l : BufLine) : State :=
  let old := fun (id : CohortId) => id.ctx == l.ctx && id.scene == l.scene && id.tag == 0 && l.ofBough id.bough
  let s := s.dropFills old
  foldS (s.slots.filter (fun e => match e.2.occ with | some id => old id | none => false)) s (fun s e => s.leaveSlot e.1)
/-- The block covers a leaf line of a context and scene. -/
def LeafBlock.covers (b : LeafBlock) (l : BufLine) : Bool :=
  b.id.ctx == l.ctx && b.id.scene == l.scene && l.ofBlock b.id.index b.lines.length
/-- A handle of a staged tile that covers a leaf line, with no block left. -/
def LeafHandle.uncovered (l : BufLine) : LeafHandle → LeafHandle
  | .tile k j bs => .tile k j (if bs.any (fun b => b.covers l) then [] else bs)
  | h => h
/-- Step 2 of R408 for a leaf line: every demand-part block, every fill of tag 0, and every staged tile that covers it, installed or
handed to a leaf cache, is discarded. -/
def State.dropOldBlocks (s : State) (l : BufLine) : State :=
  let tiles := s.groves.flatMap (fun g => g.leafCache.filterMap (fun b => if b.covers l then b.staged else none))
  let old := fun (f : LeafFill) => f.id.ctx == l.ctx && f.id.scene == l.scene && f.id.tag == 0 && l.ofBlock f.id.index f.count
  let gone := s.leafFills.filter old
  let s := { s with
    leafFills := s.leafFills.filter (fun f => !old f),
    groves := s.groves.map (fun (g : Grove) => { g with leafCache := g.leafCache.filter (fun b =>
      match b.staged with
      | some t => !tiles.contains t
      | none => !b.covers l) }),
    leafQ := mmap s.leafQ (fun _ q => q.map (fun (h : HEntry LeafHandle) => { h with item := h.item.uncovered l })),
    leafHeld := s.leafHeld.map (fun (h : Nat × Nat × LeafHandle) => (h.1, h.2.1, h.2.2.uncovered l)) }
  s.cancelXfers (fun w => match w with | .leaf g id => gone.any (fun f => f.grove == g && f.id == id) | _ => false)
/-- What the older versions of a written line served goes. -/
def State.dropOld (s : State) (l : BufLine) : State := if l.leaf then s.dropOldBlocks l else s.dropOldBoughs l
/-- The line is sent to memory through the departure buffer. -/
def State.sendThrough (s : State) (n : Nat) (l : BufLine) (e : DirEntry) : State :=
  let s := { s with txnBuf := mset s.txnBuf n { (mgetD s.txnBuf n l) with state := .writing, owned := false } }
  let e := { e with state := .modified, user := .transaction, pinned := false, data := l.data }
  (s.modDir e.addr (fun _ => e)).departLine e (some n)
/-- An open transaction that has written the line too takes it again. -/
def State.retakeLine (s : State) (l : BufLine) : State :=
  match s.txnBuf.find? (fun x => s.bufRLine x.2 == s.bufRLine l && !x.2.committed) with
  | some x => ({ s with txnBuf := mset s.txnBuf x.1 { x.2 with owned := false } } : State).readOwn (s.bufRLine l) (.txn x.1)
  | none => s
/-- Steps 2 and 3 of R408, once the line is owned and may be modified. -/
def State.wtWrite (s : State) (n : Nat) (l : BufLine) (e : DirEntry) : State :=
  (((s.readBuf n none).dropOld l).sendThrough n l e).retakeLine l
/-- The write-through of buffer line n may write: its transfer has a slot, and the departure buffer and the engine's limit of line
requests have room (R307, R387, R408). -/
def State.mayWrite (s : State) (n : Nat) : Bool :=
  s.hasSlot (.through n) && decide (s.depart.length < 512) && decide (s.linesOut < 32768)
/-- Goes on with the write-through of buffer line n: takes its memory line again if the engine has lost it, asks for it when a snoop
has left it shared, and writes it once it may (R382, R385, R387, R408). -/
def State.wtGo (s : State) (n : Nat) : State :=
  match mget s.txnBuf n with
  | none => s
  | some l =>
    let a := s.bufRLine l
    match s.dirAt a with
    | none => if s.ringAsked a then s else (if l.owned then s else s.countC l.ctx 0x23 1).readOwn a (.writeThrough n)
    | some e =>
      if e.state == .ownedShared then (if s.ringAsked a then s else s.upgradeLine a (.writeThrough n))
      else if s.mayWrite n then
        match s.xferOf (.through n) with
        | some x => (s.modXfer x.n (fun y => { y with out := 1 })).wtWrite n l e
        | none => s
      else s
/-- WRITE_THROUGH_DUE: a due line goes out under a transfer of the transaction lines (R306, R408). -/
def doWriteThroughDue (n : Nat) (s : State) : State :=
  match mget s.txnBuf n with
  | some l => if l.state == .committed && s.wtDue l then (s.requestOnce (.through n) l.ctx 0).wtGo n else s
  | none => s

/-! ### Re-keying (R409) -/

/-- A bough copy, cohort or fill of one identity takes another. -/
def State.rekey (s : State) (a b : CohortId) : State :=
  if (s.cohort a).isNone && !s.placedOrFilling a then s else
  let ren := fun (id : CohortId) => if id == a then b else id
  let s := s.dropFills (fun id => id == b)
  let s := foldS (s.slots.filter (fun e => e.2.occ == some b)) s (fun s e => s.leaveSlot e.1)
  let cohorts := match s.cohort a, s.cohort b with
    | some x, some y =>
      let z := { y with members := y.members ++ x.members, useCount := max x.useCount y.useCount, endUse := max x.endUse y.endUse,
                        forced := x.forced || y.forced, aged := x.aged || y.aged, urgent := x.urgent || y.urgent,
                        lastRelease := max x.lastRelease y.lastRelease, dropped := x.dropped }
      (s.cohorts.filter (fun c => c.id != a)).map (fun c => if c.id == b then z else c)
    | _, _ => s.cohorts.map (fun c => { c with id := ren c.id })
  { s with
    cohorts := cohorts,
    slots := mmap s.slots (fun _ r => { r with occ := r.occ.map ren, next := r.next.map ren }),
    fills := s.fills.map (fun f => { f with id := ren f.id }),
    hq := mmap s.hq (fun _ q => q.map (fun h => { h with item := ren h.item })),
    pool := mmap s.pool (fun _ q => { q with cohort := ren q.cohort }),
    sheaves := mmap s.sheaves (fun _ x => { x with cohort := ren x.cohort }),
    xfers := s.xfers.map (fun x => match x.what with | .fill id => { x with what := .fill (ren id) } | _ => x) }
/-- A crown whose last buffer line of tag v is gone: its set of copies becomes that of tag 0, or leaves where tag 0 is
replicated already. -/
def State.rekeyCrown (s : State) (r : CrownRec) : State :=
  match s.crownRec r.ctx r.scene 0 with
  | some z =>
    if z.ok || !r.ok then (if r.ok then s.removeCrown r else { s with crowns := s.crowns.filter (· != r) })
    else
      let s := { s with crowns := (s.crowns.filter (· != z)).map (fun x => if x == r then { x with tag := 0 } else x) }
      foldS (List.range r.n) s (fun s b => s.rekey { ctx := r.ctx, scene := r.scene, tag := r.tag, bough := b } { ctx := r.ctx, scene := r.scene, tag := 0, bough := b })
  | none =>
    let s := { s with crowns := s.crowns.map (fun x => if x == r then { x with tag := 0 } else x) }
    foldS (List.range r.n) s (fun s b => s.rekey { ctx := r.ctx, scene := r.scene, tag := r.tag, bough := b } { ctx := r.ctx, scene := r.scene, tag := 0, bough := b })
/-- Buffer lines of a version of a context and scene. -/
def State.versionLines (s : State) (l : BufLine) : List BufLine :=
  (s.txnBuf.filter (fun e => e.2.ctx == l.ctx && e.2.scene == l.scene && e.2.version == l.version && e.2.committed)).map (·.2)
/-- Re-keys the boughs whose last line of the version a freed line was. -/
def State.rekeyBoughs (s : State) (l : BufLine) : State :=
  let left := s.versionLines l
  let bs := if l.trailer then (List.range 8).map (fun i => 8 * l.name + i) else [l.name / 64]
  let s := foldS (bs.filter (fun b => !left.any (fun x => x.ofBough b))) s (fun s b =>
    s.rekey { ctx := l.ctx, scene := l.scene, tag := l.version, bough := b } { ctx := l.ctx, scene := l.scene, tag := 0, bough := b })
  match s.crownRec l.ctx l.scene l.version with
  | some r => if (List.range r.n).any (fun b => left.any (fun x => x.ofBough b)) then s else s.rekeyCrown r
  | none => s
/-- Re-keys the blocks whose last line of the version a freed line was. -/
def State.rekeyBlocks (s : State) (l : BufLine) : State :=
  let left := s.versionLines l
  let mine := fun (id : BlockId) (n : Nat) =>
    id.ctx == l.ctx && id.scene == l.scene && id.tag == l.version && l.ofBlock id.index n && !left.any (fun x => x.ofBlock id.index n)
  let ids := s.groves.flatMap (fun g => g.leafCache.filterMap (fun b => if mine b.id b.lines.length then some b.id else none)) ++
    s.leafFills.filterMap (fun f => if mine f.id f.count then some f.id else none)
  let ren := fun (id : BlockId) => if ids.contains id then { id with tag := 0 } else id
  let renH := fun (h : LeafHandle) => match h with | .block id ls sus => LeafHandle.block (ren id) ls sus | h => h
  { s with
    groves := s.groves.map (fun (g : Grove) => { g with leafCache := g.leafCache.map (fun b => { b with id := ren b.id }) }),
    leafFills := s.leafFills.map (fun f => { f with id := ren f.id }),
    leafQ := mmap s.leafQ (fun _ q => q.map (fun (h : HEntry LeafHandle) => { h with item := renH h.item })),
    leafHeld := s.leafHeld.map (fun (h : Nat × Nat × LeafHandle) => (h.1, h.2.1, renH h.2.2)),
    octets := mmap s.octets (fun _ o => { o with queue := o.queue.map (fun p => { p with block := p.block.map ren }), rowBuf := o.rowBuf.map ren }),
    sheaves := mmap s.sheaves (fun _ x => { x with lanes := x.lanes.map (fun y => { y with noTest := y.noTest.map ren }) }),
    xfers := s.xfers.map (fun x => match x.what with | .leaf g id => { x with what := .leaf g (ren id) } | _ => x) }
/-- A strand whose XWTWAIT has nothing left to wait for returns 0. -/
def State.settleWt (s : State) (c : Nat) : State :=
  match (s.ctx c).strand.state with
  | .waiting (.xwtwait rd) => if s.wtPending c = 0 then s.wake c rd 0 else s
  | _ => s
/-- WRITE_THROUGH_ACK (R408, R409). -/
def doWriteThroughAck (n : Nat) (s : State) : State :=
  match mget s.txnBuf n with
  | none => s
  | some l =>
    if l.state != .writing then s
    else
      let s := { s with txnBuf := merase s.txnBuf n }
      let s := ((s.clearMark 2 0 n).count 44 1).finishXfer (.through n)
      (if l.leaf then s.rekeyBlocks l else s.rekeyBoughs l).settleWt l.ctx

/-! ### Grants (R379, R380, R383) -/

/-- A line that nothing needs any more has been granted: it is clean and leaves (R385, R411). -/
def State.unwanted (s : State) (a : RLine) (data : Line) : State :=
  if (s.dirAt a).isSome then s
  else
    let s := s.enterDir a data .transaction false
    match s.dirAt a with
    | some e => s.departLine e none
    | none => s
/-- The buffer line n stands for a line of the ring. -/
def State.bufLineFor (s : State) (n : Nat) (a : RLine) : Option BufLine :=
  match mget s.txnBuf n with
  | some l => if s.bufRLine l == a then some l else none
  | none => none
/-- A READ_OWN is granted: sectors that wait for the line are merged, and its user goes on. A buffer line that asked for it and no
longer stands for it, because its transaction has aborted or its context has been killed, needs it no more. -/
def State.granted (s : State) (r : RingPend) (data : Line) : State :=
  match r.use with
  | .coll => (s.enterDir r.addr data .collector false).mergeAll r.addr
  | .writeThrough n =>
    match s.bufLineFor n r.addr with
    | some l =>
      if l.state == .committed then
        let s := s.enterDir r.addr data .transaction false
        (({ s with txnBuf := mset s.txnBuf n { l with owned := true } } : State).mergeAll r.addr).wtGo n
      else s.unwanted r.addr data
    | none => s.unwanted r.addr data
  | .txn n =>
    match s.bufLineFor n r.addr with
    | some l =>
      let s := s.enterDir r.addr data .transaction (!l.committed)
      ({ s with txnBuf := mset s.txnBuf n { l with owned := true } } : State).mergeAll r.addr
    | none => s.unwanted r.addr data
/-- An UPGRADE is granted. The data that the ring delivers with it counts where a snoop has crossed the request (R383). -/
def State.upgraded (s : State) (r : RingPend) (data : Line) : State :=
  let s := (s.modDir r.addr (fun e => { e with state := .modified, data := if r.crossed then data else e.data })).mergeAll r.addr
  match r.use with
  | .writeThrough n => s.wtGo n
  | _ => s
/-- RING_GRANT: the oldest request for the line that has been issued is granted; requests that waited for a way of its set are tried
again (R384). -/
def doRingGrant (asid : Nat) (addr : DWord) (data : Line) (s : State) : State :=
  let a : RLine := { asid := asid, addr := lineOf addr }
  match s.ringPend.find? (fun r => r.addr == a && !r.waiting) with
  | none => s
  | some r =>
    let s := { s with ringPend := s.ringPend.erase r }
    (if r.upgrade then s.upgraded r data else s.granted r data).pumpRing

/-! ### The commands -/

/-- XBEGIN. -/
def execXbegin (c : CtxNo) (f : Fields) (s : State) : Host.Outcome State Fault Refusal := .next (doXbegin c f s)
/-- XWRITE_NODE. -/
def execXwriteNode (c : CtxNo) (f : Fields) (s : State) : Host.Outcome State Fault Refusal := .next (doXwriteNode c f s)
/-- XWRITE_LEAF. -/
def execXwriteLeaf (c : CtxNo) (f : Fields) (s : State) : Host.Outcome State Fault Refusal := .next (doXwriteLeaf c f s)
/-- XWRITE_READ_DONE. -/
def execXwriteReadDone (c : CtxNo) (line : Line) (s : State) : Host.Outcome State Fault Refusal := .next (doXwriteReadDone c line (s.readBack c))
/-- XCOMMIT. -/
def execXcommit (c : CtxNo) (f : Fields) (s : State) : Host.Outcome State Fault Refusal := .next (doXcommit c f s)
/-- COMMIT_POINT. -/
def execCommitPoint (c : CtxNo) (mem : List (DWord × Line)) (s : State) : Host.Outcome State Fault Refusal := .next (doCommitPoint c mem (s.readBack c))
/-- XABORT. -/
def execXabort (c : CtxNo) (f : Fields) (s : State) : Host.Outcome State Fault Refusal := .next (doXabort c f s)
/-- XSTAT. -/
def execXstat (c : CtxNo) (f : Fields) (s : State) : Host.Outcome State Fault Refusal := .next (doXstat c f s)
/-- XWTPEND. -/
def execXwtpend (c : CtxNo) (f : Fields) (s : State) : Host.Outcome State Fault Refusal := .next (doXwtpend c f s)
/-- XWTWAIT. -/
def execXwtwait (c : CtxNo) (f : Fields) (s : State) : Host.Outcome State Fault Refusal := .next (doXwtwait c f s)
/-- WRITE_THROUGH_DUE. -/
def execWriteThroughDue (n : Fin 32768) (s : State) : Host.Outcome State Fault Refusal := .next (doWriteThroughDue n s)
/-- WRITE_THROUGH_ACK. -/
def execWriteThroughAck (n : Fin 32768) (s : State) : Host.Outcome State Fault Refusal := .next (doWriteThroughAck n s)

end Sys2Proof.Machine
end

