-- ==== Sys2Proof/Machine/Integrity.lean ====
section
/-! DEFINITION. Machine/Integrity.lean: fabric failures (R429), the scrubbers (R180, R187, R188, R424, R426, R427), the
known-answer injections (R181 to R183), and parity errors of control state (R428). -/
namespace Sys2Proof.Machine

/-! ### Fabric failures (R429). A repeat sends the same request again; the model does not list it twice. Where R429 settles no
kind, as for the writes of a spill run or of a write-through and the reads of tables, counts and preload tiles, the request is
repeated with a new count of failures (DESIGN CHOICE, assumption 129). -/

/-- A transfer fails for the fourth time at an address. -/
def State.fabricFail (s : State) (c : Nat) (port : Nat) (a : DWord) : State := (s.count 60 1).log 0x0A 1 c port noUnit (lineOf a).toNat
/-- A failure of a request that has failed n times before: the repeat is counted, and the new count kept; after the fourth
the request is settled. -/
def State.failOnce (s : State) (n : Nat) (keep : State → Nat → State) (settle : State → State) : State :=
  if n < 3 then keep (s.count 59 1) (n + 1) else settle s
/-- A line of a transfer fails, for a context: its failures are counted by its number; after the fourth the kind of the transfer
decides. -/
def State.lineFails (s : State) (x : Xfer) (line c : Nat) (a : DWord) (settle : State → State) : State :=
  s.failOnce (mgetD x.fails line 0)
    (fun s k => s.modXfer x.n (fun y => { y with fails := mset y.fails line k }))
    (fun s => settle ((s.modXfer x.n (fun y => { y with fails := merase y.fails line })).fabricFail c (s.fabricPort a) a))
/-- The transfer that serves something and is at work. -/
def State.atWork (s : State) (w : XferWhat) : Option Xfer := s.xfers.find? (fun x => x.what == w && !x.waiting && !x.fin)
/-- The line of a fill that failed: its check fails (R419). A trailer that never came leaves no line to ask for. -/
def State.fillLineFails (s : State) (id : CohortId) (d : Rec64) (f : Fill) (n : Nat) : State :=
  let a := if n = 64 then trailerAddr d id.bough else nodeAddr d id.bough n
  s.failOnce (mgetD f.fails n 0) (fun s k => s.modFill id (fun f => { f with fails := mset f.fails n k })) (fun s =>
    let s := s.fabricFail id.ctx (s.fabricPort a) a
    (s.modFill id (fun f =>
      if f.stage == .trailer then { f with stage := .lines, count := some 1, got := [(0, 0), (64, 0)], forcedBad := true }
      else { f with got := mset f.got n 0, forcedBad := true })).checkFill id)
/-- The line of a leaf fill that failed: the block fails its check (R422). -/
def State.leafLineFails (s : State) (g : Nat) (f : LeafFill) (d : Rec64) (x : Xfer) (line : Nat) : State :=
  s.lineFails x line f.id.ctx (leafAddr d (f.id.index + line)) (fun s => s.leafArrived g { f with forcedBad := true } [])
/-- The reading of a run of queries fails (R224, R429): it is read once more, then lost. -/
def State.readingFails (s : State) (c : Nat) (r : Run) (x : Xfer) : State :=
  if r.rereads = 0 then
    ((s.modOvf c (fun o => { o with runs := o.runs.map (fun y => if y.rseq == r.rseq then { y with rereads := 1 } else y) })).modXfer x.n
      (fun y => { y with todo := s.runReads c r, out := 0, fails := [] })).pumpLines
  else
    let s := (s.finishXfer (.run c r.rseq)).loseRun c r.rseq r.recs.length
    if (s.ctx c).cut.isSome then s.settleCut c else { s with sched := { s.sched with reloadRot := (c + 1) % 4096 } }
/-- A line of the transfer of a run fails: the reading of a run of queries fails R224. -/
def State.runLineFails (s : State) (c : Nat) (r : Run) (x : Xfer) (line : Nat) : State :=
  s.lineFails x line c (s.areaLine c (r.start + line)) (fun s =>
    if r.written && r.state == .live then s.readingFails c r x else s)
/-- A line of a scan chunk fails: the scan finishes MISMATCH. -/
def State.scanLineFails (s : State) (ch : Nat) (x : Xfer) (line : Nat) : State :=
  let y := s.scan ch
  match (linesOf y.next (min 4096 y.remain))[line]? with
  | none => s
  | some a => s.lineFails x line y.ctx a (fun s => ((s.modScan ch (fun x => { x with failed := true })).finishXfer (.scan ch)).finishScan ch)
/-- A line of a stream's tile fails: a block of a STAGE tile that it lies in is not staged, as one that fails its check (R316, R422). -/
def State.tileLineFails (s : State) (k j : Nat) (x : Xfer) (line : Nat) : State :=
  let y := s.stream k
  match (tileLineAddrs y.image (y.arming j).2 (j - (y.arming j).1))[line]? with
  | none => s
  | some a => s.lineFails x line y.owner a (fun s =>
    if smKind y.image = 1 then s.modXfer x.n (fun z => { z with bad := z.bad ++ [line] }) else s)
/-- The port and address at which something under a completion was sent last. -/
def State.sentAt (s : State) (n : Nat) : Option (Nat × DWord) :=
  s.out.findSome? (fun o => match o with
    | .deliver p _ a _ k => if k = n then some (p, a) else none
    | .atomic p _ a _ _ _ k _ => if k = n then some (p, a) else none
    | .store p _ a _ k _ _ => if k = n then some (p, a) else none
    | _ => none)
/-- A write or atomic under completion n fails: it is dropped. -/
def State.writeFails (s : State) (n : Nat) : State :=
  match s.completions.find? (fun x => x.n == n), s.sentAt n with
  | some x, some (p, a) =>
    s.failOnce x.fails (fun s k => s.modCompletion n (fun y => { y with fails := k }))
      (fun s => ((s.modCompletion n (fun y => { y with fails := 0 })).fabricFail x.ctx p a).ackWrite n)
  | _, _ => s
/-- The reads that the engine has asked for under a context's tables. -/
def ReadKind.tableOf (c : Nat) : ReadKind → Bool
  | .sceneDesc c' _ | .walkEntry c' _ | .ctxDesc c' | .deliveryEntry c' _ | .keyEntry c' _ _ | .excConsumed c' _ | .binConsumed c' _ _
  | .imageHeader c' | .imageCode c' | .shardMap c' _ | .trailerLine c' => c' == c
  | _ => false
/-- A read of a table, descriptor or count of a context fails. -/
def State.tableFails (s : State) (c : Nat) (addr : DWord) : State :=
  if (s.ctx c).state == .closed || !s.out.any (fun o => match o with | .read _ _ a k => a == addr && k.tableOf c | _ => false) then s
  else
    s.failOnce (mgetD (s.ctx c).readFails addr.toNat 0)
      (fun s k => s.modCtx c (fun x => { x with readFails := mset x.readFails addr.toNat k }))
      (fun s => (s.modCtx c (fun x => { x with readFails := merase x.readFails addr.toNat })).fabricFail c (s.fabricPort addr) addr)
/-- The lines that a strand waits to read (R429, last row). -/
def State.strandReads (s : State) (c : Nat) : List DWord :=
  let t := (s.ctx c).strand
  (match t.state with
   | .waiting (.armImage _ _ a) | .waiting (.scanBlk _ a) => [lineOf a]
   | .waiting (.xwrite _ _ _ _ src) => [lineOf src]
   | .waiting (.launch _ n) =>
     lineOf (addr64 (dWalkTable (s.ctx c).desc) (32 * n)) :: s.out.filterMap (fun o => match o with
       | .read _ _ a (.imageHeader c') | .read _ _ a (.imageCode c') => if c' = c then some (lineOf a) else none
       | _ => none)
   | _ => []) ++
  (t.loads.filter (fun x => !t.held.any (fun h => h.n == x.n))).flatMap (fun x => s.loadLines c x.n)
/-- A line that a strand reads fails: after the fourth time as a translation fault of that access (R253). -/
def State.strandReadFails (s : State) (c : Nat) (addr : DWord) : State :=
  if !(s.strandReads c).contains (lineOf addr) then s
  else
    s.failOnce (mgetD (s.ctx c).strand.fails (lineOf addr).toNat 0)
      (fun s k => s.modStrand c (fun t => { t with fails := mset t.fails (lineOf addr).toNat k }))
      (fun s => (s.fabricFail c (s.fabricPort addr) addr).kill c 2 noUnit (s.ctx c).strand.pc addr)
/-- FABRIC_RETRY: the fabric reports one request as failed. -/
def doFabricRetry (item : FabricItem) (s : State) : State :=
  match item with
  | .fill id line =>
    match s.fillOf id, s.bound id.ctx id.scene with
    | some f, some d =>
      if (f.stage == .trailer && line.val == 64) ||
         (f.stage == .lines && (mget f.got line).isNone && (line.val == 64 || decide (line < f.count.getD 0))) then s.fillLineFails id d f line
      else s
    | _, _ => s
  | .leafFill g id line =>
    match s.leafFillOf g id, s.bound id.ctx id.scene, s.atWork (.leaf g id) with
    | some f, some d, some x => if line.val < f.count && !f.queued then s.leafLineFails g f d x line else s
    | _, _, _ => s
  | .run c rseq line =>
    match (s.ctx c).ovf.runs.find? (fun r => r.rseq == rseq), s.atWork (.run c rseq) with
    | some r, some x => if line < r.lines then s.runLineFails c r x line else s
    | _, _ => s
  | .scan ch line =>
    match s.atWork (.scan ch) with
    | some x => if (s.scan ch).held && !(s.scan ch).finished then s.scanLineFails ch x line else s
    | none => s
  | .tile k j line =>
    match s.atWork (.tile k j) with
    | some x => s.tileLineFails k j x line
    | none => s
  | .through n =>
    match s.atWork (.through n), mget s.txnBuf n with
    | some x, some l => if l.state == .writing then s.lineFails x 0 l.ctx l.addr id else s
    | _, _ => s
  | .table c addr => s.tableFails c addr
  | .delivery n => s.writeFails n
  | .strandRead c addr => s.strandReadFails c addr

/-! ### Bank scrubs and known answers (R178 to R183) -/

/-- The bank's grove has its banks running: it is active, in FROST too (R494, R503, R514). -/
def State.bankRuns (s : State) (b : Nat) : Bool :=
  s.dev.stage == .ready && (s.grove (b / 100)).state != .inactive
/-- The slot whose bough holds a line of a physical bank. -/
def State.slotAtLine (s : State) (b line : Nat) : Option Nat :=
  match s.logicalOf b with
  | none => none
  | some i =>
    let k := slotOfLine (12 * (b / 100) + i / 8) line
    if (s.slot k).occ.isSome && decide (8 * (line % 8) + i % 8 < (s.slot k).lines.length) then some k else none
/-- SCRUB_READ (R178 to R180): an uncorrectable error outside every placed bough is counted and nothing more. -/
def doScrubRead (b : Nat) (err : Option EccError) (s : State) : State :=
  if !s.integOn 1 || !s.bankRuns b then s
  else
    let line := (s.bank b).scrub
    let s := match s.slotAtLine b line with
      | some k => (match s.bankRead b line err with
        | (s, true) => s.invalidate k
        | (s, false) => s)
      | none =>
        if s.bankFinds b line err == some true then (s.clearMark 0 b line).count 48 1 else (s.bankRead b line err).1
    s.modBank b (fun x => if line = 511 then { x with scrub := 0, ce := 0 } else { x with scrub := line + 1 })
/-- A wrong known answer is armed for a bank in service (R432, R543). -/
def State.katInj (s : State) (b : Nat) : Bool :=
  let i := s.integ
  i.injArmed && i.injKind == 3 && i.injUnit == b && !(s.bank b).failed &&
  (match s.logicalOf b with | some k => !s.retired (12 * (b / 100) + k / 8) | none => true)
/-- KAT_INJECTION (R181 to R183), of every physical bank, failed or not: the 16 patterns are used in rotation, from the one after
the four of bring-up (R182). -/
def doKatInjection (b : Nat) (pass : Bool) (s : State) : State :=
  if !s.integOn 5 || !s.bankRuns b then s
  else
    let inj := s.katInj b
    let pat := ((s.bank b).kat + 4) % 16
    let s := s.modBank b (fun x => { x with kat := (x.kat + 1) % 16 })
    if pass && !inj then s
    else
      let s := if inj then s.disarm else s
      (((s.count 49 1).logInj inj 3 1 noUnit (s.bankUnit b) b pat).interrupt 1).failBank b

/-! ### The spine (R187, R188, R426) -/

/-- What the scrub of a line of the collector store that cannot be used damages: which item lies in the line, if any, is a free
value. -/
def State.collUncorrected (s : State) (inj : Bool) : State :=
  match s.draw with
  | (v, s) => match s.collHolds[v.toNat % (s.collHolds.length + 1)]? with
    | some t => s.collFault inj t
    | none => s
/-- What a spine line that cannot be used brings (R188, R426). -/
def State.spineUncorrected (s : State) (inj : Bool) (line : Nat) : State :=
  if line < 524288 then s.failQuery line errPOOL_UE .scheduler
  else if line < collLine then
    match s.pool.find? (fun e => (e.2.dataUnits ++ e.2.collUnits).contains ((line - 524288) / 2)) with
    | some e => s.failQuery e.1 errEXT_UE .scheduler
    | none => s
  else s.collUncorrected inj
/-- SPINE_SCRUB (R187). -/
def doSpineScrub (err : Option EccError) (s : State) : State :=
  if !s.integOn 2 || s.dev.stage != .ready then s
  else
    let line := s.integ.spineScrub
    match ({ s with integ := { s.integ with spineScrub := (line + 1) % 917504 } } : State).spineRead line err with
    | (s, false) => s
    | (s, true) => s.spineUncorrected err.isNone line

/-! ### The transaction buffer and the directory (R424, R427) -/

/-- TXN_SCRUB. -/
def doTxnScrub (err : Option EccError) (s : State) : State :=
  if !s.integOn 3 || s.dev.stage != .ready then s
  else
    let n := s.integ.txnScrub
    ({ s with integ := { s.integ with txnScrub := (n + 1) % 32768 } } : State).readBuf n err
/-- The transaction buffer no longer owns a memory line. -/
def State.disownLine (s : State) (a : RLine) : State :=
  { s with txnBuf := mmap s.txnBuf (fun _ l => if s.bufRLine l == a then { l with owned := false } else l) }
/-- An entry of the presence directory is lost with its line. -/
def State.loseDir (s : State) (a : RLine) : State := (s.dropDir a).disownLine a
/-- An entry of the departure buffer is lost with its line. -/
def State.loseDepart (s : State) (a : RLine) : State := { s with depart := s.depart.filter (fun d => d.addr != a) }
/-- One line of a set of the directory is lost; which one is a free value. -/
def State.loseDirLine (s : State) (k v : Nat) : State :=
  let here := (s.dir.filter (fun e => dirSet e.addr == k)).map (·.addr)
  let gone := (s.depart.filter (fun e => dirSet e.addr == k)).map (·.addr)
  let i := v % max 1 (here.length + gone.length)
  match here[i]? with
  | some a => s.loseDir a
  | none => match gone[i - here.length]? with
    | some a => s.loseDepart a
    | none => s
/-- DIR_SCRUB: one set of the directory and of the departure buffer. An uncorrectable entry is discarded as "Other control
state" of R428; which of the set's entries it is, is a free value. A corrected entry is counted nowhere. -/
def doDirScrub (err : Option EccError) (s : State) : State :=
  if !s.integOn 4 || s.dev.stage != .ready then s
  else
    let k := s.integ.dirScrub
    let s := { s with integ := { s.integ with dirScrub := (k + 1) % 4096 } }
    if err == some .uncorrectable || (err.isSome && !s.integOn 0) then
      match ((s.count 58 1).report 9 1 noUnit noUnit noUnit 6).draw with
      | (v, s) => s.loseDirLine k v.toNat
    else s

/-! ### Control state (R428, R544) -/

/-- Counts and logs a parity error; rows other than the first three send a message. -/
def State.parity (s : State) (inj : Bool) (structure' c unit : Nat) (tell : Bool) : State :=
  let s := (s.count 58 1).logInj inj 9 1 c unit noUnit structure'
  if tell then s.interrupt 1 else s
/-- The fill is asked for again from its first line. -/
def State.reissueFill (s : State) (id : CohortId) : State :=
  match s.fillOf id, s.bound id.ctx id.scene with
  | some f, some d =>
    match f.stage with
    | .victim _ _ | .xferWait => s
    | _ =>
      let again := trailerFirst d id (((s.cohort id).map (·.clines)).getD 0)
      let s := s.finishXfer (.fill id)
      let s := s.modFill id (fun x => { x with got := [], forcedBad := false, fails := [], stage := .xferWait, suspect := false, held := [],
                                               count := if again then none else x.count })
      ({ s with hq := mmap s.hq (fun _ q => q.filter (fun h => h.item != id)) } : State).request (.fill id) id.ctx f.cls
  | _, _ => s
/-- The structure number of control state (R544). -/
def ctrlStruct : CtrlFault → Nat
  | .cohort _ => 1
  | .slotMap _ _ => 2
  | .lane _ _ _ => 3
  | .strand _ => 4
  | .stream _ => 5
  | _ => 6
/-- The entry carries check bits of its own and no parity (R424). -/
def ctrlEcc : CtrlFault → Bool
  | .dirEntry _ _ | .departEntry _ _ | .placementHandle _ _ | .leafHandle _ _ => true
  | _ => false
/-- A handle in a placement queue is discarded: its fill is asked for again. -/
def State.losePlacement (s : State) (g i : Nat) : Option State :=
  ((mgetD s.hq g [])[i]?).map (fun h => s.reissueFill h.item)
/-- A handle in a leaf handle queue is discarded: the block is asked for again, and a tile is staged in the grove with nothing. -/
def State.loseLeafHandle (s : State) (g i : Nat) : Option State :=
  match (mgetD s.leafQ g [])[i]? with
  | none => none
  | some h =>
    let s := { s with leafQ := mset s.leafQ g ((mgetD s.leafQ g []).eraseIdx i) }
    match h.item with
    | .tile k j _ => some (s.modStream k (fun x => { x with installed := mset x.installed j (g :: mgetD x.installed j []) }))
    | .block id _ _ =>
      match s.leafFillOf g id with
      | none => some s
      | some f =>
        some (({ s with leafFills := s.leafFills.map (fun (x : LeafFill) =>
          if x.grove == g && x.id == id then { x with queued := false, forcedBad := false } else x) } : State).request (.leaf g id) id.ctx f.cls)
/-- What becomes of an item of control state in which an error was found (R428); none when the item does not exist. -/
def State.ctrlFault (s : State) (inj : Bool) (x : CtrlFault) : Option State :=
  let other := fun (c : Nat) => s.parity inj 6 c noUnit true
  match x with
  | .cohort id =>
    match s.cohort id with
    | some c => if c.rebuilding then none else some ((s.parity inj 1 id.ctx noUnit false).modCohort id (fun c => { c with rebuilding := true }))
    | none => none
  | .slotMap o sl => some ((s.parity inj 2 noUnit o.val false).invalidate (slotKey o sl))
  | .lane core sh l =>
    match (mget s.sheaves (sheafKey core sh)).bind (fun x => x.lane l) with
    | none => none
    | some y =>
      let c := match s.laneQuery y with | some q => q.ctx | none => noUnit
      some ((s.parity inj 3 c core.val true).failLane (sheafKey core sh) y errLANE_PARITY)
  | .strand c =>
    if (s.ctx c).state == .opened then some ((s.parity inj 4 c noUnit true).modStrand c (fun t => { t with state := .halted })) else none
  | .stream k =>
    if (s.stream k).state == .idle then none else some ((s.parity inj 5 (s.stream k).owner noUnit true).cancelStream k)
  | .otherFill id => if (s.fillOf id).isSome then some ((other id.ctx).reissueFill id) else none
  | .otherQuery p =>
    match mget s.pool p with
    | some q => some ((other q.ctx).failQuery p errLANE_PARITY .scheduler)
    | none => none
  | .dirEntry asid addr =>
    let a : RLine := { asid := asid.toNat, addr := lineOf addr }
    if (s.dirAt a).isSome then some ((other noUnit).loseDir a) else none
  | .departEntry asid addr =>
    let a : RLine := { asid := asid.toNat, addr := lineOf addr }
    if s.depart.any (fun d => d.addr == a) then some ((other noUnit).loseDepart a) else none
  | .placementHandle g i => (other noUnit).losePlacement g i
  | .leafHandle g i => (other noUnit).loseLeafHandle g i
/-- A parity error is armed for the next write of this item's class (R432): which item that write met is what the command brings
(assumption 23). -/
def State.ctrlArmed (s : State) (x : CtrlFault) : Bool :=
  s.integ.injArmed && s.integ.injKind == 4 && s.integ.injUnit == ctrlStruct x
/-- SCHED_SWEEP (R428): the sweep, or a use of control state, finds an error in an item, which is the injected one where one is armed
for its class. With PARITY 0 parity errors are ignored (R430). -/
def doSchedSweep (err : Option CtrlFault) (s : State) : State :=
  match err with
  | none => s
  | some x =>
    if s.dev.stage != .ready || !(s.integOn 7 || ctrlEcc x) then s
    else if s.ctrlArmed x then ((s.disarm).ctrlFault true x).getD s
    else (s.ctrlFault false x).getD s
/-- COHORT_ENTRY_REBUILT (R428): the members are the parked queries whose walk state names the cohort, in order of arrival, and
CLINES is what the first of them holds; what the pool slots do not hold starts anew. -/
def doCohortEntryRebuilt (id : CohortId) (s : State) : State :=
  match s.cohort id with
  | none => s
  | some c =>
    if !c.rebuilding then s
    else
      let ms := s.pool.filter (fun e => e.2.cohort == id && (match e.2.place with | .parked _ _ => true | _ => false))
      let ps := sortBy (fun (e : Nat × Query) => [e.2.arrived, e.2.admitted, e.1]) ms
      let clines := ((ps.map (fun e => e.2.ws.clines)).find? (· != 0)).getD 0
      (s.modCohort id (fun _ => { Cohort.fresh id clines with members := ps.map (·.1) })).lapse id

/-! ### The commands -/

/-- FABRIC_RETRY. -/
def execFabricRetry (item : FabricItem) (s : State) : Host.Outcome State Fault Refusal := .next (doFabricRetry item s)
/-- SCRUB_READ. -/
def execScrubRead (bank : BankNo) (err : Option EccError) (s : State) : Host.Outcome State Fault Refusal := .next (doScrubRead bank err s)
/-- SPINE_SCRUB. -/
def execSpineScrub (err : Option EccError) (s : State) : Host.Outcome State Fault Refusal := .next (doSpineScrub err s)
/-- TXN_SCRUB. -/
def execTxnScrub (err : Option EccError) (s : State) : Host.Outcome State Fault Refusal := .next (doTxnScrub err s)
/-- DIR_SCRUB. -/
def execDirScrub (err : Option EccError) (s : State) : Host.Outcome State Fault Refusal := .next (doDirScrub err s)
/-- KAT_INJECTION. -/
def execKatInjection (bank : BankNo) (pass : Bool) (s : State) : Host.Outcome State Fault Refusal := .next (doKatInjection bank pass s)
/-- SCHED_SWEEP. -/
def execSchedSweep (err : Option CtrlFault) (s : State) : Host.Outcome State Fault Refusal := .next (doSchedSweep err s)
/-- COHORT_ENTRY_REBUILT. -/
def execCohortEntryRebuilt (id : CohortId) (s : State) : Host.Outcome State Fault Refusal := .next (doCohortEntryRebuilt id s)

end Sys2Proof.Machine
end

