-- ==== Sys2Proof/Machine/Forward.lean ====
section
/-! DEFINITION. Machine/Forward.lean: forward packets at the holder and at the origin (R470, R474 to R485), and the pass
barrier (R303, R486 to R488). -/
namespace Sys2Proof.Machine

/-! ### Packets (R474 to R476) -/

/-- The instance takes packets: it has an address and is READY (R470, R500). -/
def State.takesPackets (s : State) : Bool := s.dev.addressed && s.dev.stage == .ready && s.dev.pwrState == 1
/-- A packet that R476 discards. -/
def State.packetBad (s : State) (hdr : Rec64) (ptype flits : Nat) : Bool :=
  pType hdr != ptype || pVer hdr != 1 || pDst hdr != s.dev.instId || pFlits hdr != flits
/-- A discarded packet is counted and logged; the port at which it came in is a free value. Bit 16 of DETAIL belongs to both
fields of R490 and holds either (assumption 49). -/
def State.fwdBad (s : State) (hdr : Rec64) : State :=
  let (v, s) := s.draw
  (s.count 68 1).report 0x31 1 noUnit (v.toNat % 4) noUnit (pSrc hdr ||| 2 ^ 16 * pType hdr)
/-- Any packet from an instance sets its watchdog count to 0 (R484). -/
def State.heardFrom (s : State) (src : Nat) : State :=
  if (mget s.watch src).isSome then { s with watch := mset s.watch src 0 } else s
/-- Acts on a packet whose header is right. -/
def State.onPacket (s : State) (hdr : Rec64) (ptype flits : Nat) (act : State → State) : State :=
  if !s.takesPackets then s
  else if s.packetBad hdr ptype flits then s.fwdBad hdr
  else act (s.heardFrom (pSrc hdr))
/-- Flits of a packet that carries records. -/
def recFlits (n : Nat) : Nat := 1 + cdiv n 2

/-! ### At the holder (R477, R478, R480) -/

/-- Answers a QUERY packet with NACK (R477). -/
def State.nackTo (s : State) (hdr : Rec64) (cause : Nat) : State :=
  s.sendPacket (fwdHeader s 5 1 0 (pOrigin hdr) (pOrigin hdr) (pCtx hdr) 0 (pToken hdr) cause 0) none []
/-- What a forwarded query carries of its origin. -/
def packetOrigin (hdr : Rec64) : Origin := { inst := pOrigin hdr, token := pToken hdr, hops := pHops hdr }
/-- A pool slot for a forwarded query, which parks on ARG0 under the holder's epoch (R477, R478). -/
def State.takeForwarded (s : State) (hdr : Rec64) (q : QueryImage) : Option State :=
  let c := pCtx hdr
  let h := pScene hdr
  if !s.mayTakeSlot q.cls c then none
  else match mfree s.pool 524288, allocUnits s.ext q.data (collUnitCount q.record) with
    | some p, some (du, cu, ext) =>
      let (gen, s) := s.takeId
      let (b, defaulted) := s.bindingFor c q.record
      let e := (s.ctx c).epoch
      let id : CohortId := { ctx := c, scene := h, tag := s.boughTag c h (pArg0 hdr) e, bough := pArg0 hdr }
      let x : Query := {
        ctx := c, record := q.record, cls := q.cls, spawned := q.spawned, place := .parked none s.now, cohort := id, binding := b,
        epoch := e, dataUnits := du, collUnits := cu, ws := q.ws, admitted := gen, gen := gen, origin := some (packetOrigin hdr),
        fwd := { recs := [], emits := 0, expect := none } }
      some (((((s.countDefault c defaulted).occupy p x ext).syncColl x q.ws).park p id q.ws.clines).count q.cls 1)
    | _, _ => none
/-- Without a pool slot the query goes to the overflow area with its walk state, as a run of one record that is not FRESH
(R477). -/
def State.writeForwarded (s : State) (hdr : Rec64) (q : QueryImage) : Option State :=
  let c := pCtx hdr
  let h := pScene hdr
  let (b, defaulted) := s.bindingFor c q.record
  let e := (s.ctx c).epoch
  let r : OvfRec := { record := q.record, cls := q.cls, spawned := q.spawned, data := q.data, ws := some q.ws, binding := some b,
                      epoch := e, admitted := s.nextId, origin := some (packetOrigin hdr), checked := true }
  if !s.ovfTakesRun c [r] then none
  else
    let (_, s) := s.takeId
    let x := s.ctx c
    let (rseq, o) := x.ovf.place (dOvfLines x.desc) q.cls false h (pArg0 hdr) (s.boughTag c h (pArg0 hdr) e) [r] false
    let s := s.addRuns c x.ovf.nextRseq { o with count := o.count + 1 } (fun r => r.rseq != rseq)
    some (((s.countDefault c defaulted).request (.run c rseq) c q.cls).count 4 1)
/-- A holder that holds queries of an origin counts what it has sent there (R484). -/
def State.keepBeat (s : State) (origin : Nat) : State :=
  if (mget s.beats origin).isSome then s else { s with beats := mset s.beats origin 0 }
/-- QUERY_PACKET. A descriptor or walk entry that has not been read is read first, and the command is repeated (assumption
40); without room in the pool or the area it waits in the same way. -/
def doQueryPacket (hdr : Rec64) (q : QueryImage) (s : State) : State :=
  let units := pArg1 hdr % 256
  let coll := pArg1 hdr / 256 % 256
  let flits := if units = q.data.length ∧ coll = collUnitCount q.record then 3 + 4 * (units + coll) else 256
  -- a record's reserved bits are ignored (R4)
  let q := { q with record := withDepth q.record (fld q.record 52 8) }
  s.onPacket hdr 1 flits (fun s =>
    let c := pCtx hdr
    let h := pScene hdr
    if pIdent hdr != identWord then s.nackTo hdr 3
    else if decide (4096 ≤ c) || (s.ctx c).state != .opened then s.nackTo hdr 1
    else if s.sceneUnread c h then s.askScene c h
    else if !((s.bound c h).map sSharded).getD false then s.nackTo hdr 2
    else if (mget (s.ctx c).walks (walkIndex q.record)).isNone then s.askWalk c (walkIndex q.record)
    else match s.takeForwarded hdr q with
      | some s => (s.count 66 1).keepBeat (pOrigin hdr)
      | none => match s.writeForwarded hdr q with
        | some s => (s.count 66 1).keepBeat (pOrigin hdr)
        | none => s)
/-- The holder holds a query of an origin. -/
def State.holdsFor (s : State) (origin : Nat) : Bool :=
  let mine := fun (o : Option Origin) => match o with | some o => o.inst == origin | none => false
  s.pool.any (fun e => mine e.2.origin) || s.ctxs.any (fun e => e.2.ovf.runs.any (fun r => r.recs.any (fun y => mine y.origin)))
/-- HEARTBEAT_SEND (R484): nothing has gone to the origin for 262,144 FAB cycles. -/
def doHeartbeatSend (dst : Nat) (s : State) : State :=
  if !s.holdsFor dst then { s with beats := merase s.beats dst }
  else if mgetD s.beats dst 0 < 262144 then s
  else s.sendPacket (fwdHeader s 6 1 0 dst dst 0 0 0 0 0) none []

/-! ### At the origin (R481 to R485) -/

/-- The pool slot of the Forwarded query that a TOKEN names (R482). -/
def State.forwarded (s : State) (hdr : Rec64) : Option (Nat × Query) :=
  let p := (pToken hdr).toNat % 2 ^ 19
  match mget s.pool p with
  | some q => (match q.place with
    | .forwarded _ => if tokenOf p q.gen == pToken hdr then some (p, q) else none
    | _ => none)
  | none => none
/-- A packet that names no Forwarded query is discarded (R482). -/
def State.fwdDiscard (s : State) (hdr : Rec64) : State := if pCtx hdr < 4096 then s.countC (pCtx hdr) 0x2B 1 else s
/-- The chain is complete: every record up to the last is there, and the emissions announced have come (R481). -/
def FwdRx.chain (f : FwdRx) : Option (List Rec32) :=
  match mget f.recs 0, f.expect with
  | some r, some n =>
    let count := fld r 8 16
    if (List.range count).all (fun i => (mget f.recs i).isSome) && f.emits == n then some ((List.range count).map (fun i => mgetD f.recs i 0)) else none
  | _, _ => none
/-- Delivers the chain of a forwarded query once it is complete. -/
def State.settleForward (s : State) (p : Nat) : State :=
  match mget s.pool p with
  | none => s
  | some q => match q.fwd.chain with
    | none => s
    | some rs =>
      let s := ({ s with fwdWait := s.fwdWait.filter (· != p) } : State).modQuery p (fun q => q.at .ending)
      (s.toSource .forward q.cls (chainItem q.ctx (some p) q.record q.cls (fld (nth rs 0 0) 4 8) rs)).settleWatch
/-- RESULT_PACKET. -/
def doResultPacket (hdr : Rec64) (recs : List Rec32) (s : State) : State :=
  s.onPacket hdr 2 (if recs.length ≤ 64 then recFlits recs.length else 256) (fun s =>
    match s.forwarded hdr with
    | none => s.fwdDiscard hdr
    | some (p, q) =>
      let got := (List.range recs.length).foldl (fun m i => mset m (pArg0 hdr + i) (nth recs i 0)) q.fwd.recs
      (s.modQuery p (fun q => { q with fwd := { q.fwd with recs := got, expect := some (pArg1 hdr) } })).settleForward p)
/-- EMIT_PACKET: the emissions are applied as they arrive, under the TAG and the USER words of the query. -/
def doEmitPacket (hdr : Rec64) (ems : List Rec32) (s : State) : State :=
  s.onPacket hdr 3 (if ems.length = pArg0 hdr then recFlits ems.length else 256) (fun s =>
    match s.forwarded hdr with
    | none => s.fwdDiscard hdr
    | some (p, q) =>
      let r := q.record
      let s := s.modQuery p (fun q => { q with fwd := { q.fwd with emits := q.fwd.emits + ems.length } })
      let s := s.toSource .forward q.cls (.emits q.ctx (qDelivery r) q.cls (ems.map (fun e => (qTag r, qUser0 r, qUser1 r, e))) [p])
      s.settleForward p)
/-- HANDOFF. -/
def doHandoff (hdr : Rec64) (s : State) : State :=
  s.onPacket hdr 4 1 (fun s =>
    match s.forwarded hdr with
    | none => s.fwdDiscard hdr
    | some (p, _) =>
      let d := pArg0 hdr % 2 ^ 17
      let s := (s.modQuery p (fun q => q.at (.forwarded d))).settleWatch
      if (mget s.watch d).isNone && s.watch.length < 4096 then { s with watch := mset s.watch d 0 } else s)
/-- NACK (R483). -/
def doNack (hdr : Rec64) (s : State) : State :=
  s.onPacket hdr 5 1 (fun s =>
    let s := s.count 67 1
    let cause := pArg0 hdr
    match s.forwarded hdr with
    | none => s
    | some (p, q) =>
      let s := s.report 0x32 2 q.ctx noUnit noUnit (pSrc hdr + 2 ^ 32 * (cause % 256))
      let s := if cause = 3 then s.addLost (pSrc hdr) none
               else if cause = 1 ∨ cause = 2 ∨ cause = 4 then s.addLost (pSrc hdr) (some q.ctx) else s
      (({ s with fwdWait := s.fwdWait.filter (· != p) } : State).finishErr p stFORWARD_LOST errSHARD_LOST .forward).settleWatch)
/-- HEARTBEAT: the packet has been heard. -/
def doHeartbeat (hdr : Rec64) (s : State) : State := s.onPacket hdr 6 1 id
/-- WATCHDOG_EXPIRE (R484): nothing has come from the holder for 1,048,576 FAB cycles. -/
def doWatchdogExpire (d : Nat) (s : State) : State :=
  if mgetD s.watch d 0 < 1048576 then s
  else
    let mine := (s.pool.filter (fun e => e.2.place == .forwarded d && !s.fwdWait.contains e.1)).map (·.1)
    let s := foldS mine s (fun s p => s.finishErr p stFORWARD_LOST errFORWARD_TIMEOUT .forward)
    (((s.addLost d none).report 0x30 1 noUnit noUnit noUnit d)).settleWatch

/-! ### The pass barrier (R486 to R488) -/

/-- The children of this instance in the barrier tree. -/
def State.children (s : State) : List Nat :=
  ((List.range 64).map (fun k => 64 * s.dev.instId + 1 + k)).filter (fun i => decide (i < s.dev.barN))
/-- No query of the context that this instance admitted is Forwarded. -/
def State.noneForwarded (s : State) (c : Nat) : Bool :=
  !s.pool.any (fun e => e.2.ctx == c && e.2.origin.isNone && (match e.2.place with | .forwarded _ => true | _ => false))
/-- Adds to a receive counter. -/
def State.addRecv (s : State) (c n k : Nat) : State :=
  s.modCtx c (fun x => { x with recv := mset x.recv n (mgetD x.recv n 0 + BitVec.ofNat 64 k) })
/-- BARRIER (R303): the instruction has no minors, and MINOR is ignored (R258). -/
def doBarrier (c : Nat) (f : Fields) (s : State) : State :=
  s.strandIssue c [f.a.toNat, f.d.toNat] false (isX f.d && isX f.a) 2 (fun s =>
    let p := (s.getReg c f.a).toNat % 2 ^ 32
    (s.modCtx c (fun x => { x with barrier := some { pass := p, sent := false, lost := false } })).waitOn c (.barrier f.d.toNat p))
/-- The barrier of a context ends with 0 or 1. -/
def State.endBarrier (s : State) (c : Nat) (b : Barrier) (lost : Bool) : State :=
  let s := s.modCtx c (fun x => { x with
    barrier := none, arrivals := x.arrivals.filter (fun a => a.1 != b.pass), released := x.released.filter (fun a => a.1 != b.pass) })
  let s := if lost then s else s.countC c 0x2D 1
  match (s.ctx c).strand.state with
  | .waiting (.barrier rd _) => s.wake c rd (if lost then 1 else 0)
  | _ => s
/-- Sends RELEASE to the children in ascending order. -/
def State.sendRelease (s : State) (c pass : Nat) (lost : Bool) : State :=
  foldS s.children s (fun s i => s.sendPacket (fwdHeader s 8 1 0 i 0 c 0 0 pass (if lost then 1 else 0)) none [])
/-- A child's ARRIVE for a pass has come, or has been made up for. -/
def Context.hasArrived (x : Context) (pass i : Nat) : Bool := x.arrivals.any (fun a => a.1 == pass && a.2.1 == i)
/-- A child is lost: 64 is added on its behalf (R488). -/
def State.loseChild (s : State) (c : Nat) (b : Barrier) (i : Nat) : State :=
  let s := ((s.addRecv c 14 64).countC c 0x2E 1).report 0x33 2 c noUnit noUnit (b.pass + 2 ^ 32 * i)
  s.modCtx c (fun x => { x with arrivals := x.arrivals ++ [(b.pass, i, true)], barrier := x.barrier.map (fun b => { b with lost := true }) })
/-- Children in the lost set that have not arrived. -/
def State.loseListed (s : State) (c : Nat) (b : Barrier) : State :=
  foldS (s.children.filter (fun i => s.isLost i c && !(s.ctx c).hasArrived b.pass i)) s (fun s i => s.loseChild c b i)
/-- A non-root instance whose ARRIVE has gone acts on its RELEASE (R487). -/
def State.settleBarrier (s : State) (c : Nat) : State :=
  match (s.ctx c).barrier with
  | none => s
  | some b =>
    if b.sent && reached (mgetD (s.ctx c).recv 15 0) (BitVec.ofNat 64 (64 * (b.pass + 1))) then
      let lost := (s.ctx c).released.any (fun r => r.1 == b.pass && r.2)
      (s.sendRelease c b.pass lost).endBarrier c b lost
    else s
/-- ARRIVE_SEND (R487): the conditions hold, and the instance sends ARRIVE to its parent, or as the root RELEASE. -/
def doArriveSend (c : Nat) (s : State) : State :=
  match (s.ctx c).barrier with
  | none => s
  | some b =>
    if b.sent || !s.noneForwarded c then s
    else
      let s := s.loseListed c b
      if !reached (mgetD (s.ctx c).recv 14 0) (BitVec.ofNat 64 (64 * s.children.length * (b.pass + 1))) then s
      else
        let lost := ((s.ctx c).barrier.map (·.lost)).getD false || (s.ctx c).arrivals.any (fun a => a.1 == b.pass && a.2.2)
        if s.dev.instId = 0 then (s.sendRelease c b.pass lost).endBarrier c b lost
        else
          let up := (s.dev.instId - 1) / 64
          let s := s.sendPacket (fwdHeader s 7 1 0 up 0 c 0 0 b.pass (if lost then 1 else 0)) none []
          (s.modCtx c (fun x => { x with barrier := some { b with sent := true, lost := lost } })).settleBarrier c
/-- The context of a barrier packet can take it. -/
def State.takesBarrier (s : State) (hdr : Rec64) : Bool :=
  decide (pCtx hdr < 4096) && ((s.ctx (pCtx hdr)).state == .opened || (s.ctx (pCtx hdr)).state == .closing)
/-- ARRIVE (R486). -/
def doArrive (hdr : Rec64) (s : State) : State :=
  s.onPacket hdr 7 1 (fun s =>
    if !s.takesBarrier hdr then s
    else (s.addRecv (pCtx hdr) 14 64).modCtx (pCtx hdr) (fun x => { x with arrivals := x.arrivals ++ [(pArg0 hdr, pSrc hdr, pArg1 hdr % 2 == 1)] }))
/-- RELEASE (R486, R487). -/
def doRelease (hdr : Rec64) (s : State) : State :=
  s.onPacket hdr 8 1 (fun s =>
    if !s.takesBarrier hdr then s
    else ((s.addRecv (pCtx hdr) 15 64).modCtx (pCtx hdr) (fun x => { x with released := x.released ++ [(pArg0 hdr, pArg1 hdr % 2 == 1)] })).settleBarrier (pCtx hdr))
/-- BARRIER_TIMEOUT (R488): the limit of BAR_TIMEOUT is reached; 0 is no limit. -/
def doBarrierTimeout (c : Nat) (s : State) : State :=
  match (s.ctx c).barrier with
  | none => s
  | some b =>
    if s.dev.barTimeout = 0 then s
    else if b.sent then
      ((s.countC c 0x2E 1).report 0x33 2 c noUnit noUnit (b.pass + 2 ^ 32 * 0x1FFFF)).endBarrier c b true
    else if !s.noneForwarded c then s
    else foldS (s.children.filter (fun i => !(s.ctx c).hasArrived b.pass i)) s (fun s i => (s.addLost i none).loseChild c b i)

/-! ### The commands -/

/-- QUERY_PACKET. -/
def execQueryPacket (hdr : Rec64) (q : QueryImage) (s : State) : Host.Outcome State Fault Refusal := .next (doQueryPacket hdr q s)
/-- RESULT_PACKET. -/
def execResultPacket (hdr : Rec64) (recs : List Rec32) (s : State) : Host.Outcome State Fault Refusal := .next (doResultPacket hdr recs s)
/-- EMIT_PACKET. -/
def execEmitPacket (hdr : Rec64) (emissions : List Rec32) (s : State) : Host.Outcome State Fault Refusal := .next (doEmitPacket hdr emissions s)
/-- HANDOFF. -/
def execHandoff (hdr : Rec64) (s : State) : Host.Outcome State Fault Refusal := .next (doHandoff hdr s)
/-- NACK. -/
def execNack (hdr : Rec64) (s : State) : Host.Outcome State Fault Refusal := .next (doNack hdr s)
/-- HEARTBEAT. -/
def execHeartbeat (hdr : Rec64) (s : State) : Host.Outcome State Fault Refusal := .next (doHeartbeat hdr s)
/-- HEARTBEAT_SEND. -/
def execHeartbeatSend (dst : InstId) (s : State) : Host.Outcome State Fault Refusal := .next (doHeartbeatSend dst.toNat s)
/-- WATCHDOG_EXPIRE. -/
def execWatchdogExpire (holder : InstId) (s : State) : Host.Outcome State Fault Refusal := .next (doWatchdogExpire holder.toNat s)
/-- BARRIER. -/
def execBarrier (c : CtxNo) (f : Fields) (s : State) : Host.Outcome State Fault Refusal := .next (doBarrier c f s)
/-- ARRIVE_SEND. -/
def execArriveSend (c : CtxNo) (s : State) : Host.Outcome State Fault Refusal := .next (doArriveSend c s)
/-- ARRIVE. -/
def execArrive (hdr : Rec64) (s : State) : Host.Outcome State Fault Refusal := .next (doArrive hdr s)
/-- RELEASE. -/
def execRelease (hdr : Rec64) (s : State) : Host.Outcome State Fault Refusal := .next (doRelease hdr s)
/-- BARRIER_TIMEOUT. -/
def execBarrierTimeout (c : CtxNo) (s : State) : Host.Outcome State Fault Refusal := .next (doBarrierTimeout c s)

end Sys2Proof.Machine
end

