-- ==== Sys2Proof/Machine/Nvm.lean ====
section
/-! DEFINITION. Machine/Nvm.lean: the NVM sectors, their staged images and their window (R506 to R509, R511, R546), and
stores (R303, R510). -/
namespace Sys2Proof.Machine

/-! ### Sectors (R506, R507) -/

/-- The n bytes from an address on, out of the cells from there on. -/
def takeBytes : Nat → Nat → List Host.Cell → List Byte
  | 0, _, _ => []
  | n + 1, a, [] => 0 :: takeBytes n (a + 1) []
  | n + 1, a, (k, v) :: t => if k = a then v :: takeBytes n (a + 1) t else 0 :: takeBytes n (a + 1) ((k, v) :: t)
/-- The 4,096 bytes of a sector. -/
def sectorBytes (m : List Host.Cell) (n : Nat) : List Byte := takeBytes 4096 (4096 * n) (m.dropWhile (fun e => decide (e.1 < 4096 * n)))
/-- The cells of bytes at an address, zeros left out. -/
def cellsOf : Nat → List Byte → List Host.Cell
  | _, [] => []
  | a, b :: t => if b = 0 then cellsOf (a + 1) t else (a, b) :: cellsOf (a + 1) t
/-- A memory with the content of sectors n to n + k − 1 taken from another list of cells. -/
def spliceSectors (m : List Host.Cell) (n k : Nat) (new : List Host.Cell) : List Host.Cell :=
  m.filter (fun e => decide (e.1 < 4096 * n)) ++ new ++ m.filter (fun e => decide (4096 * (n + k) ≤ e.1))
/-- A memory with the bytes of one sector replaced. -/
def setSector (m : List Host.Cell) (n : Nat) (bs : List Byte) : List Host.Cell := spliceSectors m n 1 (cellsOf (4096 * n) (bs.take 4096))
/-- The cells of sectors n to n + k − 1. -/
def sectorCells (m : List Host.Cell) (n k : Nat) : List Host.Cell :=
  m.filter (fun e => decide (4096 * n ≤ e.1) && decide (e.1 < 4096 * (n + k)))

/-- The 32-bit field at byte off of a sector. -/
def secWord (bs : List Byte) (off : Nat) : Word := ofBytes 32 ((bs.drop off).take 4)
/-- GEN of a sector (R507). -/
def secGen (bs : List Byte) : Word := secWord bs 4
/-- CRC of a sector as R507 computes it. -/
def secCrc (bs : List Byte) : Word := crc32c (bs.drop 16 ++ bs.take 12)
/-- A sector is valid (R508). -/
def secValid (n : Nat) (bs : List Byte) : Bool :=
  (nth bs 0 0).toNat == 1 && (nth bs 1 0).toNat == n && secWord bs 12 == secCrc bs
/-- The valid copy of a pair (R508), out of a memory: its first copy in sectors a on, its second in sectors b on, of k sectors
each. A copy of several sectors is valid when each is, and its GEN is that of its first (assumption 50). -/
def pairCopy (m : List Host.Cell) (a b k : Nat) : Option (List Byte) :=
  let copy := fun (n : Nat) => (List.range k).map (fun i => (n + i, sectorBytes m (n + i)))
  let ok := fun (l : List (Nat × List Byte)) => l.all (fun e => secValid e.1 e.2)
  let all := fun (l : List (Nat × List Byte)) => l.flatMap (·.2)
  let x := copy a
  let y := copy b
  match ok x, ok y with
  | true, true => some (if serialAfter (secGen (all y)) (secGen (all x)) then all y else all x)
  | true, false => some (all x)
  | false, true => some (all y)
  | false, false => none
/-- GEN of the walk-core patch in use, 0 for the built-in one (R508, R515). -/
def State.walkPatchGen (s : State) : Word := ((pairCopy s.nvm 13 17 4).map secGen).getD 0
/-- The erase-pending mark of R463 stands in the state sector; its place there is the model's own (assumption 12). -/
def eraseMarkAt : Nat := 4096 * 62 + 16
def State.markErase (s : State) (b : Bool) : State :=
  { s with nvm := memWrite s.nvm eraseMarkAt (if b then 1 else 0) }.modDev (fun d => { d with erasePending := b })

/-! ### Stores (R303, R510) -/

/-- The staged image of a sector has been loaded (R509). -/
def State.staged? (s : State) (n : Nat) : Bool := s.dev.stageLoaded || decide (n < 25) || decide (61 < n)
/-- The outcome of a STORE or NVSTORE that names a sector: 0 DONE, 1 DENIED, 2 BUSY, 3 FAILED. -/
def State.storeOutcome (s : State) (n outcome : Nat) : State := s.modDev (fun d => { d with lastSector := n, lastOutcome := outcome })
/-- A store or erase is in progress. -/
def State.nvmWorking (s : State) : Bool := s.dev.nvmBusy.isSome || s.dev.eraseBusy
/-- A store begins, once the sector's image is loaded. -/
def State.beginStore (s : State) (who : StoreBy) (n : Nat) : State :=
  s.modDev (fun d => { d with nvmBusy := some { who := who, sector := n, started := s.staged? n } })
/-- NVSTORE (R303): denied before it finds another store in progress. -/
def doNvstore (c : Nat) (f : Fields) (s : State) : State :=
  s.readIssue c [f.a.toNat, f.d.toNat] (isX f.d && isX f.a) (fun s =>
    let n := (s.getReg c f.a).toNat
    if 63 < n then s.setReg c f.d 1
    else if !dNvmStore (s.ctx c).desc || n == 0 || n == 62 || n == 63 then (s.storeOutcome n 1).setReg c f.d 1
    else if s.nvmWorking then (s.storeOutcome n 2).setReg c f.d 2
    else (s.beginStore (.strand c) n).waitOn c (.nvstore f.d.toNat n))
/-- The bytes that a STORE writes (R508): the staged image under a GEN raised by 1, the sector's count of STOREs and the CRC.
GEN rises from the staged one (assumption 51). -/
def storeBytes (image old : List Byte) : List Byte :=
  let h := image.take 4 ++ bytesOf (secGen image + 1) 4 ++ bytesOf (secWord old 8 + 1) 4
  let rest := image.drop 16
  h ++ bytesOf (crc32c (rest ++ h)) 4 ++ rest
/-- Free bytes: eight for each value drawn. -/
def State.drawBytes : Nat → State → List Byte × State
  | 0, s => ([], s)
  | n + 1, s =>
    let (v, s) := s.draw
    let (bs, s) := State.drawBytes n s
    (bytesOf v 8 ++ bs, s)
/-- Replaces the bytes of a sector in NVM. -/
def State.putNvm (s : State) (n : Nat) (bs : List Byte) : State := { s with nvm := setSector s.nvm n bs }
/-- Replaces the bytes of a sector in its staged image. -/
def State.putStaged (s : State) (n : Nat) (bs : List Byte) : State := { s with staged := setSector s.staged n bs }
/-- A sector whose store failed holds what cannot be known; f says what is known of it all the same. -/
def State.spoilNvm (s : State) (n : Nat) (f : List Byte → List Byte) : State :=
  match s.drawBytes 512 with
  | (free, s) => s.putNvm n (f free)
/-- The strand that waits for a store has its result. -/
def State.answerStore (s : State) (st : Store) (ok : Bool) : State :=
  match st.who with
  | .chain => s
  | .strand c => match (s.ctx c).strand.state with
    | .waiting (.nvstore rd k) => if k = st.sector then s.wake c rd (if ok then 0 else 3) else s
    | _ => s
/-- The store under way has performed its read-back (R510). A sector that fails it holds what cannot be known. -/
def State.finishStore (s : State) (st : Store) (ok : Bool) : State :=
  let n := st.sector
  let bs := storeBytes (sectorBytes s.staged n) (sectorBytes s.nvm n)
  let t := if ok then (s.putStaged n bs).putNvm n bs else ((s.putStaged n bs).spoilNvm n id).count 72 1
  ((t.modDev (fun d => { d with nvmBusy := none })).storeOutcome n (if ok then 0 else 3)).answerStore st ok
/-- Power fails: the sector being stored is left without a valid header (R510), its bytes otherwise not known. -/
def State.breakStore (s : State) : State :=
  match s.dev.nvmBusy with
  | some st =>
    if st.started then s.spoilNvm st.sector (fun free => (if nth free 0 0 == 1 then (0 : Byte) else nth free 0 0) :: free.drop 1)
    else s
  | none => s
/-- STAGED_NVM_LOAD (R509): one event for the load of the sectors 25 to 61; a store that waited for it begins. -/
def doStagedNvmLoad (s : State) : State :=
  if s.dev.stage != .ready || s.dev.stageLoaded then s
  else ({ s with staged := spliceSectors s.staged 25 37 (sectorCells s.nvm 25 37) } : State).modDev (fun d =>
    { d with stageLoaded := true, nvmBusy := d.nvmBusy.map (fun x => { x with started := true }) })

/-! ### The window (R546) -/

/-- NVM_PTR advances by 8 within its sector. -/
def nextPtr (p : Nat) : Nat := p / 4096 * 4096 + (p % 4096 + 8) % 4096
/-- The staged word at NVM_PTR; the secret sector reads as 0 (R511). -/
def State.nvmWord (s : State) : DWord :=
  if s.dev.nvmPtr / 4096 = 63 then 0 else ofBytes 64 (memReadBytes s.staged s.dev.nvmPtr 8)
/-- NVM_PTR names a sector whose staged image is loaded. -/
def State.ptrLoaded (s : State) : Bool := s.staged? (s.dev.nvmPtr / 4096)
def State.advancePtr (s : State) : State := s.modDev (fun d => { d with nvmPtr := nextPtr d.nvmPtr })
/-- An 8-byte write of the staged word at NVM_PTR, which advances whether or not the write is ignored; chain says that a POKE
makes it. A write that falls in a sector being stored sets STAGE_BUSY. -/
def State.nvmPut (s : State) (chain : Bool) (v : DWord) : State :=
  let n := s.dev.nvmPtr / 4096
  let storing := match s.dev.nvmBusy with | some st => st.sector == n | none => false
  if storing then (s.modDev (fun d => { d with stageBusy := true })).advancePtr
  else if n = 62 || ((n = 0 || n = 63) && !(chain && s.dev.svcEn)) then s.advancePtr
  else ({ s with staged := memWriteBytes s.staged s.dev.nvmPtr (bytesOf v 8) } : State).advancePtr

/-! ### The commands -/

/-- NVSTORE. -/
def execNvstore (c : CtxNo) (f : Fields) (s : State) : Host.Outcome State Fault Refusal := .next (doNvstore c f s)
/-- STAGED_NVM_LOAD. -/
def execStagedNvmLoad (s : State) : Host.Outcome State Fault Refusal := .next (doStagedNvmLoad s)

end Sys2Proof.Machine
end

