-- ==== Sys2Proof/Machine/Groves.lean ====
section
/-! DEFINITION. Machine/Groves.lean: FROST, drain and THAW of groves (R503, R512 to R515, R535), repairs (R184 to R186,
R515, R536) and the sequencer patch (R516). -/
namespace Sys2Proof.Machine

/-- Outcomes in RESULT of GROVE_STATE. -/
def grNONE : Nat := 0
def grOK : Nat := 1
def grDENIED : Nat := 2
def grTIMEOUT : Nat := 3
/-- Sets a grove's state and its RESULT. -/
def State.setGrove (s : State) (g : Nat) (st : GroveState) (r : Nat) : State := s.modGrove g (fun x => { x with state := st, result := r })

/-! ### FROST (R512, R513) -/

/-- Crown members assigned to a grove go to the others in the rotation of R213. -/
def State.reassign (s : State) (g : Nat) : State :=
  foldS (s.pool.filter (fun e => match e.2.place with | .parked (some h) _ => h == g | _ => false)) s (fun s e =>
    match s.rotateGrove with
    | (h, s) => s.modQuery e.1 (fun q => match q.place with | .parked _ t => q.at (.parked h t) | _ => q))
/-- What entering DRAIN does at once: nothing is placed in the grove any more, crown members go elsewhere, and a bough there
on which queries are parked leaves (assumption 52). -/
def State.startDrain (s : State) (g : Nat) : State :=
  let s := (s.setGrove g .drain grNONE).modGrove g (fun x => { x with drainSince := s.now })
  let s := (s.unreserve (fun k => groveOfSlot k == g)).reassign g
  foldS (s.slots.filter (fun e => groveOfSlot e.1 == g && s.slotMembers e.2 && !e.2.leaving)) s (fun s e =>
    match e.2.occ with
    | some id => if s.replicated id then s else s.invalidate e.1
    | none => s)
/-- Another active grove is in RUN. -/
def State.otherRuns (s : State) (g : Nat) : Bool := s.runGroves.any (· != g)
/-- FROST of an active grove (R512). A grove in FROST stays there with OK; one in DRAIN does not change (assumption 53). -/
def State.frost (s : State) (g : Nat) : State :=
  match (s.grove g).state with
  | .run => if s.otherRuns g then (s.startDrain g).settleService else s.modGrove g (fun x => { x with result := grDENIED })
  | .frost => s.modGrove g (fun x => { x with result := grOK })
  | .drain | .inactive => s
/-- The grove holds no lane and no test in flight (R513). -/
def State.groveIdle (s : State) (g : Nat) : Bool := !s.sheaves.any (fun e => e.1 / 48 / 8 == g)
/-- Leaf fills of a grove dropped. -/
def State.dropLeafFills (s : State) (g : Nat) : State := { s with leafFills := s.leafFills.filter (fun f => f.grove != g) }
/-- The drain completes (R513, R514): the leaf cache is emptied, and its fills are given up. -/
def State.enterFrost (s : State) (g : Nat) : State :=
  let s := ((s.setGrove g .frost grOK).modGrove g (fun x => { x with leafCache := [] })).dropLeafFills g
  (s.cancelXfers (fun w => match w with | .leaf h _ => h == g | _ => false)).settleService
/-- The drain took longer than FROST_DRAIN_MAX (R513). -/
def State.abortFrost (s : State) (g : Nat) : State := ((s.setGrove g .run grTIMEOUT).count 71 1).settleService

/-! ### THAW (R512, R515) -/

/-- THAW of an active grove. -/
def State.thaw (s : State) (g : Nat) : State :=
  match (s.grove g).state with
  | .run => s.modGrove g (fun x => { x with result := grOK })
  | .drain => (s.setGrove g .run grOK).settleService
  | .frost => s.modGrove g (fun x => { x with thawing := true, result := grNONE })
  | .inactive => s
/-- The octets of a grove whose 8 logical banks are all served by banks that have not failed (R186). -/
def State.soundOctets (s : State) (g : Nat) : List Nat :=
  (List.range 12).filter (fun o => (List.range 8).all (fun b => !(s.bank (100 * g + nth (s.grove g).repairMap (8 * o + b) 0)).failed))
/-- The steps of a thaw (R515). -/
def State.finishThaw (s : State) (g : Nat) : State :=
  let back := (s.soundOctets g).foldl (fun (m : BitVec 16) o => m ||| BitVec.ofNat 16 (2 ^ o)) 0
  (s.modGrove g (fun x => { x with
    state := .run, result := grOK, thawing := false, pipeEn := 0xFFFFFF, pipeFail := [], retired := x.retired &&& ~~~ back,
    patchGen := s.walkPatchGen })).settleService

/-! ### Repairs (R186, R515, R536) -/

/-- The logical bank that REPAIR_SEL names; none for an octet above 11. -/
def Grove.selected (x : Grove) : Option Nat :=
  let o := x.repairSel % 16
  if 11 < o then none else some (8 * o + x.repairSel / 16 % 8)
/-- A write to REPAIR_MAP (R536). -/
def State.repairWrite (s : State) (g phys : Nat) : State :=
  let x := s.grove g
  let free := fun (k : Nat) => !x.spareBad.getLsbD k && !x.spareUsed.getLsbD k
  match x.selected with
  | some b =>
    if x.state == .frost && x.repair.isNone && decide (96 ≤ phys) && decide (phys < 100) && free (phys - 96) then
      s.modGrove g (fun x => { x with repair := some { bank := b, phys := phys } })
    else if x.state == .inactive then s else s.modGrove g (fun x => { x with repairErr := true })
  | none => if x.state == .inactive then s else s.modGrove g (fun x => { x with repairErr := true })
/-- Spares that a repair map uses. -/
def sparesOf (m : List Nat) : BitVec 4 := m.foldl (fun (v : BitVec 4) p => if 96 ≤ p ∧ p < 100 then v ||| BitVec.ofNat 4 (2 ^ (p - 96)) else v) 0
/-- Lines of a bank that read with an injected uncorrectable error (R432). -/
def State.markedLines (s : State) (b : Nat) : List Nat :=
  (s.integ.injMarks.filter (fun m => m.1 == 0 && m.2.1 == b && (m.2.2.2 || !s.integOn 0))).map (·.2.2.1)
/-- Slots of an octet with one of some lines, whatever their boughs have there, are invalidated (R186). -/
def State.loseLines (s : State) (o : Nat) (ls : List Nat) : State :=
  foldS (s.slots.filter (fun e => decide (e.1 / 64 = o) && e.2.occ.isSome && ls.any (fun l => decide (l / 8 = e.1 % 64)))) s (fun s e => s.invalidate e.1)
/-- REPAIR_COMPLETE (R186, R515): the lines that could not be copied, and whether the four injections passed. A wrong answer
armed for the spare (R432) meets the first of them; which of the four patterns another failure is logged with is a free value
(DESIGN CHOICE, assumption 101: R182 and R437 do not say). -/
def doRepairComplete (g : Nat) (uncopied : List (Fin 512)) (pass : Bool) (s : State) : State :=
  match (s.grove g).repair with
  | none => s
  | some r =>
    let b := 100 * g + r.phys
    let o := 12 * g + r.bank / 8
    let s := s.loseLines o (uncopied.map Fin.val ++ s.markedLines (100 * g + nth (s.grove g).repairMap r.bank 0))
    let s := s.modGrove g (fun x => { x with repair := none })
    let inj := s.katInj b
    let first := (s.bank b).kat + 4
    let s := s.modBank b (fun x => { x with kat := (x.kat + 4) % 16 })
    if pass && !inj then
      s.modGrove g (fun x =>
        let old := nth x.repairMap r.bank 0
        let m := x.repairMap.set r.bank r.phys
        { x with repairMap := m, spareUsed := sparesOf m,
                 spareBad := if 96 ≤ old ∧ (s.bank (100 * g + old)).failed then x.spareBad ||| BitVec.ofNat 4 (2 ^ (old - 96)) else x.spareBad })
    else
      match (if inj then (0, s.disarm) else (match s.draw with | (v, s) => (v.toNat % 4, s))) with
      | (i, s) =>
        ((((s.count 49 1).logInj inj 3 1 noUnit (s.bankUnit b) b ((first + i) % 16)).interrupt 1).failBank b).modGrove g (fun x => { x with repairErr := true })

/-! ### The sequencer patch (R516) -/

/-- SEQ_PATCH_CMD APPLY: the staged pair is checked; 1 APPLYING, 3 FAILED. The patch changes nothing that the manual lays
down. While one is being applied the command is not taken up again. -/
def State.patchApply (s : State) : State :=
  if s.dev.seqPatchStatus = 1 then s
  else if (pairCopy s.staged 5 9 4).isSome then s.modDev (fun d => { d with seqPatchStatus := 1, seqPatchCores := 0 })
  else s.modDev (fun d => { d with seqPatchStatus := 3, seqPatchCores := 0 })
/-- SEQ_PATCH_DONE: the last of the 16 sequencer cores has loaded the patch. -/
def doSeqPatchDone (s : State) : State :=
  if s.dev.seqPatchStatus = 1 then s.modDev (fun d => { d with seqPatchStatus := 2, seqPatchCores := 16 }) else s

/-! ### The commands -/

/-- REPAIR_COMPLETE. -/
def execRepairComplete (g : GroveNo) (uncopied : List (Fin 512)) (pass : Bool) (s : State) : Host.Outcome State Fault Refusal := .next (doRepairComplete g uncopied pass s)
/-- SEQ_PATCH_DONE. -/
def execSeqPatchDone (s : State) : Host.Outcome State Fault Refusal := .next (doSeqPatchDone s)

end Sys2Proof.Machine
end

