-- ==== Sys2Proof/Machine/Security.lean ====
section
/-! DEFINITION. Machine/Security.lean: key slots and key commands (R459, R460, R547), debug unlock (R463, R464), lines that
the engine gives up (R501, R504), and the commands after which an unlock, a reset or a power-down can go on. -/
namespace Sys2Proof.Machine

/-! ### Key slots -/

/-- KEY_RESULT: 0 none, 1 OK, 2 FAILED, 3 KEY_BUSY, 4 BUSY. -/
def keyOK : Nat := 1
def keyFAILED : Nat := 2
def keyKEY_BUSY : Nat := 3
def keyBUSY : Nat := 4
/-- Bit 1 of KEY_SLOT_STATE: a context that is not CLOSED names the slot (R460). -/
def State.keyNamed (s : State) (k : Nat) : Bool := s.ctxs.any (fun e => e.2.state != .closed && dKeyEn e.2.desc && dKeySlot e.2.desc == k)
/-- A command ends: KEY_BUF is written to 0 (R547). -/
def State.endKey (s : State) (result : Nat) : State :=
  { s with keyCmd := none, keyResult := result, keyBuf := List.replicate 10 0 }
/-- No key command is taken: one is in progress (R547), or an erase is (R464). -/
def State.keyBarred (s : State) : Bool := s.keyCmd.isSome || s.dev.eraseBusy
/-- LOAD and UNWRAP (R459, R460). -/
def State.keyStart (s : State) (k : Nat) (cmd : KeyCmd) : State :=
  if s.keyBarred then { s with keyResult := keyBUSY }
  else if s.keyNamed k then s.endKey keyKEY_BUSY
  else { s with keyCmd := some cmd, keyResult := 0 }
/-- CLEAR (R460). -/
def State.keyClear (s : State) (k : Nat) : State :=
  if s.keyBarred then { s with keyResult := keyBUSY }
  else if s.keyNamed k then s.endKey keyKEY_BUSY
  else { s with keys := merase s.keys k }.endKey keyOK
/-- A write of KEY_BUF (R547). -/
def State.keyPut (s : State) (i : Nat) (v : DWord) : State :=
  if s.keyCmd.isSome then { s with keyResult := keyBUSY } else { s with keyBuf := s.keyBuf.set i v }
/-- The key material of 72 bytes: K1, K2, SALT. -/
def keyOf72 (bs : List Byte) : KeySlot :=
  { k1 := ofBytes 256 (bs.take 32), k2 := ofBytes 256 ((bs.drop 32).take 32), salt := ofBytes 64 ((bs.drop 64).take 8) }
/-- The material of a command: UNWRAP fails when the secret sector is not valid or its check does (R459, R464). -/
def State.keyMaterial (s : State) (cmd : KeyCmd) : Option KeySlot :=
  let buf := s.keyBuf.flatMap (fun v => bytesOf v 8)
  match cmd with
  | .load _ => some (keyOf72 (buf.take 72))
  | .unwrap _ =>
    let sec := sectorBytes s.nvm 63
    if secValid 63 sec then (keyUnwrapBytes (bytesOf (Config.deviceKey sec) 32) buf).map keyOf72 else none
/-- KEY_CMD_DONE (R459). -/
def doKeyCmdDone (s : State) : State :=
  match s.keyCmd with
  | none => s
  | some cmd =>
    let k := match cmd with | .load k => k | .unwrap k => k
    match s.keyMaterial cmd with
    | some x => if x.k1 == x.k2 || s.dev.debugOpen then { s with keys := merase s.keys k }.endKey keyFAILED
                else { s with keys := mset s.keys k x }.endKey keyOK
    | none => { s with keys := merase s.keys k }.endKey keyFAILED

/-! ### Debug unlock (R463, R464) -/

/-- Contexts that are not CLOSED and have KEY_EN = 1. -/
def State.keyed (s : State) : List Nat := (s.ctxs.filter (fun e => e.2.state != .closed && dKeyEn e.2.desc)).map (·.1)
/-- Steps 2 and 3: every key slot goes, the mark is written, and the secret sector is being erased. -/
def State.startErase (s : State) : State :=
  ({ s with keys := [] }.markErase true).modDev (fun d => { d with eraseBusy := true, unlock := .erasing })
/-- Step 1: every keyed context is killed with cause 3. -/
def State.killKeyed (s : State) : State := foldS s.keyed s (fun s c => s.kill c 3 noUnit 0 0)
/-- Step 1 goes on: a keyed context that has opened meanwhile is killed too; it ends once every keyed context is CLOSED and no
store or erase is in progress (R510). -/
def State.settleUnlock (s : State) : State :=
  if s.dev.unlock == .killing then
    let s := s.killKeyed
    if s.keyed.isEmpty && !s.nvmWorking then s.startErase else s
  else s
/-- DBG_UNLOCK: taken up in RUN, when none is running. -/
def doDbgUnlock (s : State) : State :=
  if s.dev.stage != .ready || s.dev.pwrState != 1 || s.dev.unlock != .idle then s
  else (s.modDev (fun d => { d with unlock := .killing })).settleUnlock

/-- The secret sector is erased, its staged image too, which no path could read (assumption 55). -/
def State.eraseSecret (s : State) : State := { s with nvm := setSector s.nvm 63 [], staged := setSector s.staged 63 [] }
/-- DBG_ERASE_DONE: the erase ends and is read back. Anything unerased repeats steps 2 to 4; else debug opens. The erase that a
reset resumed (R464) opens nothing. -/
def doDbgEraseDone (erased : Bool) (s : State) : State :=
  if !s.dev.eraseBusy then s
  else if !erased then (if s.dev.unlock == .erasing then s.startErase else s)
  else
    let s := s.eraseSecret
    if s.dev.unlock == .erasing then
      (if s.keys.isEmpty then (s.markErase false).modDev (fun d => { d with eraseBusy := false, unlock := .idle, debugOpen := true })
       else s.startErase)
    else ((s.markErase false).modDev (fun d => { d with eraseBusy := false })).settleUnlock

/-! ### Lines that the engine gives up (R501, R504) -/

/-- The engine keeps no line: it is in DRAIN, or a chain RESET is under way. -/
def State.givesUp (s : State) : Bool := s.dev.pwrState == 2 || s.chainLong == some .reset
/-- Every line of the directory departs as far as the departure buffer has room (R385). -/
def State.expelLines (s : State) : State := foldS s.dir s (fun s e => s.departLine e none)
/-- The directory and the departure buffer are empty, and no line is on its way. -/
def State.noLines (s : State) : Bool := s.dir.isEmpty && s.depart.isEmpty && s.ringPend.isEmpty
/-- Every context is CLOSED. -/
def State.allClosed (s : State) : Bool := s.ctxs.all (fun e => e.2.state == .closed)
/-- A grove as EZ_GROVE_EN leaves it. -/
def groveFor (en : BitVec 16) (g : Nat) : Grove := { Grove.reset with state := if en.getLsbD g then .run else .inactive }
/-- The state in which bring-up starts (R494, R499): what the block was sent and what it sent stay in the model's queues. -/
def State.bringup (s : State) (st : PowerStage) (en : BitVec 16) (svc : Bool) : State :=
  { State.reset with
    pending := s.pending, out := s.out, freeCtr := s.freeCtr, nextId := s.nextId, nvm := s.nvm,
    groves := (List.range 16).map (groveFor en),
    dev := { Dev.reset with stage := st, groveEn := en, svcEn := svc } }
/-- Bring-up in a chain RESET keeps the count of cycles, the chain's address and held frame, and the debug state (R464, R468,
R501). -/
def State.chainBringup (s : State) : State :=
  let t := s.bringup .bringup s.dev.groveEn s.dev.svcEn
  { t with chainLong := s.chainLong, chainHeld := s.chainHeld,
           dev := { t.dev with fab := s.dev.fab, instId := s.dev.instId, addressed := s.dev.addressed, debugOpen := s.dev.debugOpen } }
/-- A chain RESET runs stages 2 to 7 once every context is CLOSED and no line is left (R501). It waits for a store in
progress; an erase in progress is completed afterwards (R464). The clocks go on, and so do their counts. -/
def State.settleReset (s : State) : State :=
  if s.chainLong == some .reset && s.dev.stage == .ready && s.allClosed && s.noLines && s.dev.nvmBusy.isNone then
    (foldS s.invalidates s (fun s e => s.emit (.invalidateAck e.1 e.2))).chainBringup
  else s
/-- What a snoop, a grant, an acknowledgement or the end of a context lets go on. -/
def State.settleAll (s : State) : State :=
  let s := if s.givesUp then s.expelLines else s
  s.settleUnlock.settleReset

/-! ### The commands -/

/-- DBG_UNLOCK. -/
def execDbgUnlock (s : State) : Host.Outcome State Fault Refusal := .next (doDbgUnlock s)
/-- DBG_ERASE_DONE. -/
def execDbgEraseDone (erased : Bool) (s : State) : Host.Outcome State Fault Refusal := .next (doDbgEraseDone erased s)
/-- KEY_CMD_DONE. -/
def execKeyCmdDone (s : State) : Host.Outcome State Fault Refusal := .next (doKeyCmdDone s)
/-- SNOOP_SHARED. -/
def execSnoopShared (addr : DWord) (s : State) (asid : Word := 0) : Host.Outcome State Fault Refusal := .next (doSnoopShared asid.toNat addr s)
/-- SNOOP_OWN. -/
def execSnoopOwn (addr : DWord) (s : State) (asid : Word := 0) : Host.Outcome State Fault Refusal := .next (doSnoopOwn asid.toNat addr s).settleAll
/-- SNOOP_INVAL. -/
def execSnoopInval (addr : DWord) (s : State) (asid : Word := 0) : Host.Outcome State Fault Refusal := .next (doSnoopInval asid.toNat addr s).settleAll
/-- EVICT_ACK. -/
def execEvictAck (addr : DWord) (s : State) (asid : Word := 0) : Host.Outcome State Fault Refusal := .next (doEvictAck asid.toNat addr s).settleAll
/-- RING_GRANT. -/
def execRingGrant (addr : DWord) (data : Line) (s : State) (asid : Word := 0) : Host.Outcome State Fault Refusal := .next (doRingGrant asid.toNat addr data s).settleAll
/-- CLOSING_DONE. -/
def execClosingDone (c : CtxNo) (s : State) : Host.Outcome State Fault Refusal := .next (doClosingDone c s).settleAll
/-- KILLING_DONE. -/
def execKillingDone (c : CtxNo) (s : State) : Host.Outcome State Fault Refusal := .next (doKillingDone c s).settleAll
/-- OPEN_COMPLETE: an open that fails leaves its context CLOSED. -/
def execOpenComplete (c : CtxNo) (rd : OpenRead) (s : State) : Host.Outcome State Fault Refusal := .next (doOpenComplete c rd s).settleAll
/-- TRANSLATION_FAULT. -/
def execTranslationFault (c : CtxNo) (addr : DWord) (s : State) : Host.Outcome State Fault Refusal := .next (doTranslationFault c addr s).settleAll

end Sys2Proof.Machine
end

