-- ==== Sys2Proof/Machine/Registers.lean ====
section
/-! DEFINITION. Machine/Registers.lean: the register window (R530 to R548): what a read of each register gives, what a write
of each does, and the commands that write registers. -/
namespace Sys2Proof.Machine

/-! ### Reading -/

/-- A register from (bit, width, value) fields; other bits read 0. -/
def regOf (fs : List (Nat × Nat × Nat)) : DWord := BitVec.ofNat 64 (fs.foldl (fun a f => a + f.2.2 % 2 ^ f.2.1 * 2 ^ f.1) 0)
/-- One bit. -/
def b1 (b : Bool) : Nat := if b then 1 else 0
/-- The registers of a grove (R535): one that is fused off reads 0, except STATE. -/
def State.groveReg (s : State) (g off : Nat) : DWord :=
  let x := s.grove g
  if x.state == .inactive then (if off = 8 then 3 else 0)
  else match off with
  | 8 => regOf [(0, 2, match x.state with | .run => 0 | .drain => 1 | .frost => 2 | .inactive => 3), (2, 2, x.result),
      (4, 12, x.retired.toNat), (16, 4, x.spareBad.toNat), (20, 4, x.spareUsed.toNat), (24, 24, x.pipeEn.toNat),
      (48, 1, b1 x.repair.isSome), (49, 1, b1 x.repairErr)]
  | 0x10 => regOf [(0, 7, x.repairSel)]
  | 0x18 => match x.selected with | some b => regOf [(0, 7, nth x.repairMap b 0)] | none => 0
  | 0x20 => regOf [(0, 32, x.patchGen.toNat)]
  | _ => 0
/-- CTX_CNT (R540): two of the counters are levels. -/
def State.ctxCounter (s : State) (c n : Nat) : DWord :=
  if n = 0x24 then BitVec.ofNat 64 (s.wtPending c)
  else if n = 0x2F then BitVec.ofNat 64 (s.used c)
  else if n < 0x2F then mgetD (s.ctx c).cnt n 0 else 0
/-- DEV_CNT[n] (R542): two of them are levels. -/
def State.devCounter (s : State) (n : Nat) : DWord :=
  if n = 45 then BitVec.ofNat 64 s.txnBuf.length
  else if n = 46 then BitVec.ofNat 64 s.txns.length
  else if n < 73 then mgetD s.devCnt n 0 else 0
/-- The registers of the selected context. -/
def State.ctxReg (s : State) (off : Nat) : DWord :=
  let c := s.dev.ctxSel
  let x := s.ctx c
  match off with
  | 0x1020 => regOf [(0, 3, match x.state with | .closed => 0 | .opening => 1 | .opened => 2 | .closing => 3 | .killing => 4),
      (8, 8, x.openCode), (16, 8, x.level), (24, 2, x.endCause), (26, 2, match x.cdMode with | .idle => 0 | .deadline => 1 | .timer => 2)]
  | 0x1028 => regOf [(0, 32, x.cdVal)]
  | 0x1038 => regOf [(0, 32, x.epoch)]
  | 0x1040 => regOf [(0, 32, x.ovf.head)]
  | 0x1048 => regOf [(0, 32, x.ovf.tail)]
  | 0x1050 => regOf [(0, 25, x.ovf.count)]
  | 0x1058 => regOf [(0, 8, s.dev.cntSel)]
  | 0x1060 => s.ctxCounter c s.dev.cntSel
  | _ => if 0x1080 ≤ off ∧ off < 0x1100 then mgetD x.recv ((off - 0x1080) / 8) 0 else 0
/-- 64 KiB units that so many bytes of a share take. -/
def shareUnits (n : Nat) : Nat := cdiv n 65536
/-- Units of the BIN share that hold anything: a chain in transit holds something too. -/
def State.binUnits (s : State) : Nat := max (shareUnits s.binUsed) (if s.chainsInTransit then 1 else 0)
/-- A record of the log at its head (R545). -/
def State.logHead (s : State) : Rec32 := if s.integ.head = s.integ.tail then 0 else mgetD s.integ.recs (s.integ.head.toNat % 256) 0
/-- The registers of the integrity region. -/
def State.integReg (s : State) (off : Nat) : DWord :=
  let i := s.integ
  if off < 0x4400 then s.devCounter ((off - 0x4000) / 8)
  else match off with
  | 0x4800 => regOf [(0, 8, i.ctl.toNat), (31, 1, b1 (i.ctl != 0xFF))]
  | 0x4808 => regOf [(0, 4, i.injKind), (4, 2, i.injSram), (16, 11, i.injUnit), (31, 1, b1 i.injArmed)]
  | 0x4C00 => regOf [(0, 32, i.head.toNat)]
  | 0x4C08 => regOf [(0, 32, i.tail.toNat)]
  | 0x4E00 => regOf [(0, 4, i.intEn.toNat), (8, 4, i.intPend.toNat)]
  | _ =>
    if 0x4C20 ≤ off ∧ off < 0x4C40 then fldv s.logHead (off - 0x4C20) 64
    else if 0x4E10 ≤ off ∧ off < 0x4E50 then
      let g := (off - 0x4E10) / 16
      if off % 16 = 0 then nth i.intAddr g 0 else regOf [(0, 32, (nth i.intData g 0).toNat)]
    else 0
/-- The scan registers. -/
def State.scanReg (s : State) (off : Nat) : DWord :=
  let k := (off - 0x5000) / 16
  let x := s.scan k
  if 8 ≤ k then 0
  else if off % 16 = 8 then x.running
  else regOf [(0, 1, b1 x.held), (1, 1, b1 x.mismatch), (2, 1, b1 x.poly), (16, 12, if x.held then x.ctx else 0)]
/-- The registers of the NVM window other than NVM_DATA. -/
def State.nvmReg (s : State) (off : Nat) : DWord :=
  let d := s.dev
  match off with
  | 0x6000 => regOf [(0, 18, d.nvmPtr)]
  | 0x6008 => s.nvmWord
  | 0x6010 => regOf [(0, 1, b1 s.nvmWorking), (1, 1, b1 d.svcEn), (2, 1, b1 d.erasePending), (3, 6, d.lastSector),
      (9, 2, d.lastOutcome), (11, 1, b1 d.stageBusy), (12, 1, b1 d.stageLoaded)]
  | 0x6018 => regOf [(0, 6, d.nvmDefaulted.toNat)]
  | 0x6028 => regOf [(0, 2, d.seqPatchStatus), (16, 5, d.seqPatchCores)]
  | _ => 0
/-- The lost-set entry that LOST_SEL names. -/
def State.lostReg (s : State) : DWord :=
  match mget s.lost s.dev.lostSel with
  | some e => regOf [(0, 17, e.inst), (17, 12, e.ctx.getD 0), (29, 1, b1 e.ctx.isNone), (31, 1, 1)]
  | none => 0
/-- The security, maintenance and debug registers. -/
def State.maintReg (s : State) (off : Nat) : DWord :=
  let d := s.dev
  match off with
  | 0x7008 => regOf [(0, 1, b1 s.keyCmd.isSome), (1, 3, s.keyResult)]
  | 0x7010 => regOf [(0, 10, d.keySel)]
  | 0x7018 => regOf [(0, 1, b1 (mget s.keys d.keySel).isSome), (1, 1, b1 (s.keyNamed d.keySel))]
  | 0x8000 => regOf [(0, 17, d.instId), (31, 1, b1 d.addressed)]
  | 0x8008 => d.ingestBase
  | 0x8010 => d.shardTableBase
  | 0x8018 => regOf [(0, 18, d.barN)]
  | 0x8020 => regOf [(0, 32, d.barTimeout.toNat)]
  | 0x8028 => regOf [(0, 10, d.lostSel)]
  | 0x8030 => s.lostReg
  | 0x8040 => regOf [(0, 11, s.lost.length)]
  | 0x8048 => regOf [(0, 1, b1 d.debugOpen), (1, 1, b1 (d.unlock != .idle))]
  | 0x8050 => regOf [(0, 1, b1 (d.debugOpen && d.traceEn))]
  | _ => 0
/-- The registers of the identity and power regions that answer before READY (R500). -/
def State.earlyReg (s : State) (off : Nat) : DWord :=
  let d := s.dev
  match off with
  | 0x0000 => regOf [(0, 16, Config.revision.toNat), (16, 16, 0x0E21)]
  | 0x0008 => 1
  | 0x0010 => regOf [(0, 5, onesFrom d.groveEn 0 16), (16, 16, d.groveEn.toNat)]
  | 0x0018 => regOf [(0, 8, d.serviceState)]
  | 0x0100 => regOf [(0, 2, d.pwrState), (2, 2, d.pwrLastCmd), (4, 1, b1 d.offReady)]
  | _ => 0
/-- The rest of the power, scheduler and context regions. -/
def State.lowReg (s : State) (off : Nat) : DWord :=
  let d := s.dev
  match off with
  | 0x0110 => BitVec.ofNat 64 s.now
  | 0x0118 => BitVec.ofNat 64 s.bankNow
  | 0x0120 => d.portDisable &&& 0x003FFFFFFFFFFFFF
  | 0x0128 => regOf [(0, 32, d.frostDrainMax.toNat)]
  | 0x0888 => regOf [(0, 17, s.sched.fillT)]
  | 0x0890 => regOf [(0, 1, b1 s.sched.squall), (1, 1, b1 s.sched.paramErr), (12, 20, s.occupied), (32, 18, s.extUsed)]
  | 0x1000 => d.ctxTableBase
  | 0x1008 => regOf [(0, 32, d.drvAsid.toNat)]
  | 0x1018 => regOf [(0, 12, d.ctxSel)]
  | 0x2000 => regOf [(0, 11, d.strmSel)]
  | 0x2008 => (s.stream d.strmSel).stat
  | 0x2010 => regOf [(0, 14, s.stageLines)]
  | 0x2018 => regOf [(0, 7, s.leafPfD)]
  | 0x2020 => regOf [(0, 1, b1 s.stageParamErr)]
  | 0x3000 => regOf [(0, 9, s.shareBin), (9, 9, s.shareAcc), (18, 9, s.shareGrid)]
  | 0x3008 => regOf [(0, 9, s.binUnits), (9, 9, shareUnits s.accUsed), (18, 9, shareUnits s.gridUsed)]
  | 0x3018 => regOf [(0, 1, b1 s.collectErr)]
  | _ => 0
/-- The 8 bytes at a multiple of 8 as a read gives them (R531); before READY only the identity region and two states do
(R500). Reading NVM_DATA also advances its pointer, which the commands that read it do. -/
def State.regRead (s : State) (off : Nat) : DWord :=
  if off < 0x100 ∨ off = 0x100 then s.earlyReg off
  else if s.dev.stage != .ready then 0
  else if 0x400 ≤ off ∧ off < 0x800 then s.groveReg ((off - 0x400) / 64) (off % 64)
  else if 0x800 ≤ off ∧ off < 0x888 then regOf [(0, 32, nth s.sched.pend ((off - 0x800) / 8) 0)]
  else if 0x1020 ≤ off ∧ off < 0x1100 then s.ctxReg off
  else if off < 0x4000 then s.lowReg off
  else if off < 0x5000 then s.integReg off
  else if off < 0x6000 then s.scanReg off
  else if off < 0x7000 then s.nvmReg off
  else s.maintReg off

/-! ### Scheduler parameters (R192, R193, R537) -/

/-- A power of two of the FILL_T range. -/
def fillTOk (v : Nat) : Bool := [256, 512, 1024, 2048, 4096, 8192, 16384, 32768, 65536].contains v
/-- The range of parameter n. -/
def paramRange (n v : Nat) : Bool :=
  match n with
  | 0 | 1 | 2 | 3 => decide (v ≤ 524288)
  | 4 | 5 => decide (v ≤ 131072)
  | 6 | 7 | 8 => fillTOk v
  | 9 => decide (v ≤ 1)
  | 10 => decide (1 ≤ v) && decide (v ≤ 65536)
  | 12 | 13 | 14 => decide (1 ≤ v)
  | 15 => decide (64 ≤ v) && decide (v ≤ 12288)
  | 16 => decide (v ≤ 16)
  | _ => true
/-- The relations of R193 over a set of values. -/
def paramsAgree (p : List Nat) : Bool :=
  let v := fun (n : Nat) => nth p n 0
  decide (v 0 + v 1 ≤ v 3) && decide (v 3 < v 2) && decide (v 5 < v 4) && decide (v 7 ≤ v 6) && decide (v 6 ≤ v 8)
/-- Bits of the field of parameter n; the bits above are reserved and ignored (R4, R537). -/
def paramBits (n : Nat) : Nat := nth [20, 20, 20, 20, 18, 18, 17, 17, 17, 1, 17, 32, 32, 32, 32, 14, 5] n 32
/-- A write to SCHED_PARAM[n], checked against the pending values (R537). -/
def State.paramPut (s : State) (n w : Nat) : State :=
  let v := w % 2 ^ paramBits n
  let p := s.sched.pend.set n v
  if paramRange n v && paramsAgree p then { s with sched := { s.sched with pend := p, tInit := s.sched.tInit || n == 6 } }
  else { s with sched := { s.sched with paramErr := true } }

/-! ### Streams and collector -/

/-- LEAF_STAGE_LINES (R314). -/
def State.stageLinesPut (s : State) (v : Nat) : State :=
  if v ≤ 8192 && !s.streams.any (fun e => e.2.state != .idle && smKind e.2.image == 1) then { s with stageLines := v }
  else { s with stageParamErr := true }
/-- LEAF_PF_DEPTH (R319). -/
def State.pfDepthPut (s : State) (v : Nat) : State := if v ≤ 64 then { s with leafPfD := v } else { s with stageParamErr := true }
/-- COLLECT_SHARES (R358, R541). -/
def State.sharesPut (s : State) (v : Word) : State :=
  let b := fbit v 0 9
  let a := fbit v 9 9
  let g := fbit v 18 9
  let binBusy := decide (0 < s.binUsed) || s.chainsInTransit
  if decide (b + a + g ≤ 256) && (b == s.shareBin || !binBusy) && (a == s.shareAcc || s.accUsed == 0) && (g == s.shareGrid || s.gridUsed == 0) then
    { s with shareBin := b, shareAcc := a, shareGrid := g }
  else { s with collectErr := true }
/-- COLLECT_FLUSH (R349, R351): without effect unless the context is OPEN and the entry has been read. -/
def State.flushPut (s : State) (v : Word) : State :=
  let e := fbit v 0 12
  let c := fbit v 16 12
  if (s.ctx c).state == .opened && (s.deliv c e).raw.isSome && (s.deliv c e).valid then s.flushEntry c e else s

/-! ### Integrity -/

/-- INJ_CTL (R543). -/
def State.injPut (s : State) (v : Word) : State :=
  let kind := fbit v 0 4
  let sram := fbit v 4 2
  let unit := fbit v 16 11
  let armed := fbit v 31 1 == 1
  let unitOk := match kind with
    | 1 | 2 => sram != 0 || decide (unit < 1600)
    | 3 => decide (unit < 1600)
    | 4 => decide (1 ≤ unit) && decide (unit ≤ 6)
    | 5 => decide (unit < 384)
    | _ => true
  let sramOk := kind == 0 || decide (2 < kind) || sram != 3
  if s.integ.injArmed || decide (5 < kind) || !sramOk || !unitOk || (armed && kind == 0) then s
  else { s with integ := { s.integ with injKind := kind, injSram := sram, injUnit := unit, injArmed := armed } }
/-- ERRLOG_HEAD (R545). -/
def State.headPut (s : State) (v : Word) : State :=
  if (v - s.integ.head).toNat ≤ s.integ.held then { s with integ := { s.integ with head := v } } else s
/-- The log holds a record of a group beyond its head. -/
def State.logHas (s : State) (g : Nat) : Bool :=
  (List.range s.integ.held).any (fun i => fld (mgetD s.integ.recs ((s.integ.head.toNat + i) % 256) 0) 6 8 % 4 == g)
/-- Clears PENDING bits; a group of which the log holds a record sends its message again at once (R438). -/
def State.pendClear (s : State) (mask : BitVec 4) : State :=
  let was := s.integ.intPend &&& mask
  let s := { s with integ := { s.integ with intPend := s.integ.intPend &&& ~~~ mask } }
  foldS ((List.range 4).filter (fun g => was.getLsbD g && s.logHas g)) s (fun s g => s.interrupt g)

/-! ### Contexts, maintenance -/

/-- A base register takes a value only while every context is CLOSED (R538). -/
def State.basePut (s : State) (r : BaseReg) (v : DWord) : State :=
  if s.allClosed then s.modDev (fun d => match r with
    | .ctxTableBase => { d with ctxTableBase := v &&& ~~~ 0xFF }
    | .drvAsid => { d with drvAsid := v.setWidth 32 }
    | .ingestBase => { d with ingestBase := v &&& 0xFFFFFFFF00000000 }
    | .shardTableBase => { d with shardTableBase := v &&& ~~~ 0x3F })
  else s
/-- LOST_CLEAR. -/
def State.lostPut (s : State) (v : Word) : State :=
  if fbit v 31 1 = 1 then { s with lost := [] } else { s with lost := merase s.lost (fbit v 0 10) }
/-- TRACE_EN (R548). -/
def State.tracePut (s : State) (v : Word) : State := if s.dev.debugOpen then s.modDev (fun d => { d with traceEn := v.getLsbD 0 }) else s
/-- CTX_CMD. -/
def State.ctxCmd (s : State) (c cmd : Nat) : State :=
  match cmd with
  | 1 => doCtxOpen c s
  | 2 => doCtxClose c s
  | 3 => doCtxKill c s
  | _ => s
/-- PWR_CMD OFF (R504): the engine gives up its lines. -/
def State.pwrOff (s : State) : State :=
  if s.dev.pwrState = 2 then s
  else if s.allClosed && !s.nvmWorking then (s.modDev (fun d => { d with pwrState := 2, pwrLastCmd := 1 })).expelLines
  else s.modDev (fun d => { d with pwrLastCmd := 2 })
/-- KEY_CMD. -/
def State.keyOp (s : State) (k op : Nat) : State :=
  match op with
  | 1 => s.keyStart k (.load k)
  | 2 => s.keyStart k (.unwrap k)
  | 3 => s.keyClear k
  | _ => s

/-! ### Writing a register -/

/-- A write to some of the 8 bytes at a multiple of 8: which halves it names, and their value (R531). -/
structure RegWrite where
  lo : Bool
  hi : Bool
  v : DWord
  deriving DecidableEq, Repr
/-- The low 32 bits. -/
def RegWrite.low (w : RegWrite) : Word := w.v.setWidth 32
/-- The new value of a 64-bit register. -/
def RegWrite.over (w : RegWrite) (old : DWord) : DWord :=
  let m : DWord := (if w.lo then 0xFFFFFFFF else 0) ||| (if w.hi then 0xFFFFFFFF00000000 else 0)
  (old &&& ~~~ m) ||| (w.v &&& m)
/-- Acts on a 32-bit register. -/
def RegWrite.onLow (w : RegWrite) (s : State) (f : Word → State) : State := if w.lo then f w.low else s
/-- The registers of a grove (R535). -/
def State.groveWrite (s : State) (g off : Nat) (w : RegWrite) : State :=
  if (s.grove g).state == .inactive then s
  else match off with
  | 0 => w.onLow s (fun v => match fbit v 0 2 with | 1 => s.frost g | 2 => s.thaw g | _ => s)
  | 8 => if w.hi && w.v.getLsbD 49 then s.modGrove g (fun x => { x with repairErr := false }) else s
  | 0x10 => w.onLow s (fun v => s.modGrove g (fun x => { x with repairSel := fbit v 0 7 }))
  | 0x18 => w.onLow s (fun v => s.repairWrite g (fbit v 0 7))
  | _ => s
/-- The registers of the integrity region. -/
def State.integWrite (s : State) (off : Nat) (w : RegWrite) : State :=
  let i := s.integ
  match off with
  | 0x4800 => w.onLow s (fun v => { s with integ := { i with ctl := v.setWidth 8 } })
  | 0x4808 => w.onLow s (fun v => s.injPut v)
  | 0x4C00 => w.onLow s (fun v => s.headPut v)
  | 0x4E00 => w.onLow s (fun v => ({ s with integ := { i with intEn := v.setWidth 4 } } : State).pendClear (fldv v 1 4))
  | _ =>
    if 0x4E10 ≤ off ∧ off < 0x4E50 then
      let g := (off - 0x4E10) / 16
      if off % 16 = 0 then { s with integ := { i with intAddr := i.intAddr.set g (w.over (nth i.intAddr g 0)) } }
      else w.onLow s (fun v => { s with integ := { i with intData := i.intData.set g v } })
    else s
/-- The scheduler, context, stream and collector registers. -/
def State.lowWrite (s : State) (off : Nat) (w : RegWrite) : State :=
  match off with
  | 0x0108 => w.onLow s (fun v => if fbit v 0 2 = 1 then s.pwrOff else s)
  | 0x0128 => w.onLow s (fun v => if v = 0 then s else s.modDev (fun d => { d with frostDrainMax := v }))
  | 0x0890 => w.onLow s (fun v => if v.getLsbD 1 then { s with sched := { s.sched with paramErr := false } } else s)
  | 0x1000 => s.basePut .ctxTableBase (w.over s.dev.ctxTableBase)
  | 0x1008 => w.onLow s (fun v => s.basePut .drvAsid (v.setWidth 64))
  | 0x1010 => w.onLow s (fun v => s.ctxCmd (fbit v 0 12) (fbit v 12 2))
  | 0x1018 => w.onLow s (fun v => s.modDev (fun d => { d with ctxSel := fbit v 0 12 }))
  | 0x1030 => let v := w.over 0; doCtxCdSet (fbit v 32 12) (v.setWidth 32) s
  | 0x1058 => w.onLow s (fun v => s.modDev (fun d => { d with cntSel := fbit v 0 8 }))
  | 0x2000 => w.onLow s (fun v => s.modDev (fun d => { d with strmSel := fbit v 0 11 }))
  | 0x2010 => w.onLow s (fun v => s.stageLinesPut (fbit v 0 14))
  | 0x2018 => w.onLow s (fun v => s.pfDepthPut (fbit v 0 7))
  | 0x2020 => w.onLow s (fun v => if v.getLsbD 0 then { s with stageParamErr := false } else s)
  | 0x3000 => w.onLow s (fun v => s.sharesPut v)
  | 0x3010 => w.onLow s (fun v => s.flushPut v)
  | 0x3018 => w.onLow s (fun v => if v.getLsbD 0 then { s with collectErr := false } else s)
  | _ => s
/-- The NVM, security, maintenance and debug registers. NVM_DATA takes 8-byte writes only (R546). -/
def State.highWrite (s : State) (chain : Bool) (off : Nat) (w : RegWrite) : State :=
  match off with
  | 0x6000 => w.onLow s (fun v => s.modDev (fun d => { d with nvmPtr := 8 * fbit v 3 15 }))
  | 0x6008 => if w.lo && w.hi then s.nvmPut chain w.v else s
  | 0x6010 => w.onLow s (fun v => if v.getLsbD 11 then s.modDev (fun d => { d with stageBusy := false }) else s)
  | 0x6020 => w.onLow s (fun v => if v.getLsbD 0 then s.patchApply else s)
  | 0x7000 => w.onLow s (fun v => s.keyOp (fbit v 0 10) (fbit v 12 2))
  | 0x7010 => w.onLow s (fun v => s.modDev (fun d => { d with keySel := fbit v 0 10 }))
  | 0x8008 => s.basePut .ingestBase (w.over s.dev.ingestBase)
  | 0x8010 => s.basePut .shardTableBase (w.over s.dev.shardTableBase)
  | 0x8018 => w.onLow s (fun v => let n := fbit v 0 18
                                  if 1 ≤ n ∧ n ≤ 131072 then s.modDev (fun d => { d with barN := n }) else s)
  | 0x8020 => w.onLow s (fun v => s.modDev (fun d => { d with barTimeout := v }))
  | 0x8028 => w.onLow s (fun v => s.modDev (fun d => { d with lostSel := fbit v 0 10 }))
  | 0x8038 => w.onLow s (fun v => s.lostPut v)
  | 0x8050 => w.onLow s (fun v => s.tracePut v)
  | _ =>
    if 0x7040 ≤ off ∧ off < 0x7090 then
      let i := (off - 0x7040) / 8
      s.keyPut i (w.over (nth s.keyBuf i 0))
    else s
/-- A write to the 8 bytes at a multiple of 8 of the window, by the host or by a POKE. Every other offset is reserved. -/
def State.regWrite (s : State) (chain : Bool) (off : Nat) (w : RegWrite) : State :=
  if 0x400 ≤ off ∧ off < 0x800 then s.groveWrite ((off - 0x400) / 64) (off % 64) w
  else if 0x800 ≤ off ∧ off < 0x888 then w.onLow s (fun v => s.paramPut ((off - 0x800) / 8) v.toNat)
  else if off < 0x4000 then s.lowWrite off w
  else if off < 0x5000 then s.integWrite off w
  else s.highWrite chain off w
/-- An access of so many bytes that acts (R531): 4 or 8 bytes, naturally aligned. -/
def accessOf (off size : Nat) (v : DWord) : Option (Nat × RegWrite) :=
  if size = 8 ∧ off % 8 = 0 then some (off, { lo := true, hi := true, v := v })
  else if size = 4 ∧ off % 8 = 0 then some (off, { lo := true, hi := false, v := v &&& 0xFFFFFFFF })
  else if size = 4 ∧ off % 8 = 4 then some (off - 4, { lo := false, hi := true, v := v <<< 32 })
  else none
/-- An access is to NVM_DATA in a sector whose staged image is not loaded (R509). -/
def State.nvmEarly (s : State) (off : Nat) : Bool := off == 0x6008 && !s.ptrLoaded
/-- What the register port does with a write (R500, R532): nothing without clocks; a fabric retry before READY. -/
def State.hostWrite (s : State) (act : State → State) : State :=
  match s.dev.stage with
  | .ready => (act s).settleAll
  | .bringup => s.emit .retry
  | .off | .held | .pll => s

/-! ### The commands -/

def doRegisterWrite (off size : Nat) (v : DWord) (s : State) : State :=
  s.hostWrite (fun s => match accessOf off size v with
    | none => s
    | some (o, w) => if s.nvmEarly o && w.lo && w.hi then s.emit .retry else s.regWrite false o w)
/-- NVM_DATA_READ: the read returns the word; before READY it returns 0 (R500). -/
def doNvmDataRead (s : State) : State :=
  match s.dev.stage with
  | .ready => if s.ptrLoaded then (s.emit (.regData s.nvmWord)).advancePtr else s.emit .retry
  | .bringup => s.emit (.regData 0)
  | .off | .held | .pll => s

/-- CTX_CD_SET. -/
def execCtxCdSet (c : CtxNo) (value : Word) (s : State) : Host.Outcome State Fault Refusal := .next (s.hostWrite (doCtxCdSet c value))
/-- CTX_OPEN. -/
def execCtxOpen (c : CtxNo) (s : State) : Host.Outcome State Fault Refusal := .next (s.hostWrite (doCtxOpen c))
/-- CTX_CLOSE. -/
def execCtxClose (c : CtxNo) (s : State) : Host.Outcome State Fault Refusal := .next (s.hostWrite (doCtxClose c))
/-- CTX_KILL. -/
def execCtxKill (c : CtxNo) (s : State) : Host.Outcome State Fault Refusal := .next (s.hostWrite (doCtxKill c))
/-- PWR_CMD_OFF. -/
def execPwrCmdOff (s : State) : Host.Outcome State Fault Refusal := .next (s.hostWrite State.pwrOff)
/-- REPAIR_MAP_WRITE. -/
def execRepairMapWrite (g : GroveNo) (phys : BitVec 7) (s : State) : Host.Outcome State Fault Refusal := .next (s.hostWrite (fun s => s.repairWrite g phys.toNat))
/-- SEQ_PATCH_APPLY. -/
def execSeqPatchApply (s : State) : Host.Outcome State Fault Refusal := .next (s.hostWrite State.patchApply)
/-- KEY_LOAD. -/
def execKeyLoad (k : KeyNo) (s : State) : Host.Outcome State Fault Refusal := .next (s.hostWrite (fun s => s.keyStart k (.load k)))
/-- KEY_UNWRAP. -/
def execKeyUnwrap (k : KeyNo) (s : State) : Host.Outcome State Fault Refusal := .next (s.hostWrite (fun s => s.keyStart k (.unwrap k)))
/-- KEY_CLEAR. -/
def execKeyClear (k : KeyNo) (s : State) : Host.Outcome State Fault Refusal := .next (s.hostWrite (fun s => s.keyClear k))
/-- KEY_BUF_WRITE. -/
def execKeyBufWrite (i : Fin 10) (value : DWord) (s : State) : Host.Outcome State Fault Refusal := .next (s.hostWrite (fun s => s.keyPut i value))
/-- NVM_DATA_READ. -/
def execNvmDataRead (s : State) : Host.Outcome State Fault Refusal := .next (doNvmDataRead s)
/-- NVM_DATA_WRITE. -/
def execNvmDataWrite (value : DWord) (s : State) : Host.Outcome State Fault Refusal := .next (s.hostWrite (fun s => if s.ptrLoaded then s.nvmPut false value else s.emit .retry))
/-- SCHED_PARAM_WRITE. -/
def execSchedParamWrite (n : Fin 17) (value : Word) (s : State) : Host.Outcome State Fault Refusal := .next (s.hostWrite (fun s => s.paramPut n value.toNat))
/-- LEAF_STAGE_LINES_WRITE. -/
def execLeafStageLinesWrite (value : Word) (s : State) : Host.Outcome State Fault Refusal := .next (s.hostWrite (fun s => s.stageLinesPut (fbit value 0 14)))
/-- LEAF_PF_DEPTH_WRITE. -/
def execLeafPfDepthWrite (value : Word) (s : State) : Host.Outcome State Fault Refusal := .next (s.hostWrite (fun s => s.pfDepthPut (fbit value 0 7)))
/-- COLLECT_SHARES_WRITE. -/
def execCollectSharesWrite (value : Word) (s : State) : Host.Outcome State Fault Refusal := .next (s.hostWrite (fun s => s.sharesPut value))
/-- COLLECT_FLUSH. -/
def execCollectFlush (value : Word) (s : State) : Host.Outcome State Fault Refusal := .next (s.hostWrite (fun s => s.flushPut value))
/-- INTEG_CTL_WRITE. -/
def execIntegCtlWrite (value : Word) (s : State) : Host.Outcome State Fault Refusal := .next (s.hostWrite (fun s => { s with integ := { s.integ with ctl := value.setWidth 8 } }))
/-- INJ_CTL_WRITE. -/
def execInjCtlWrite (value : Word) (s : State) : Host.Outcome State Fault Refusal := .next (s.hostWrite (fun s => s.injPut value))
/-- ERRLOG_HEAD_WRITE. -/
def execErrlogHeadWrite (value : Word) (s : State) : Host.Outcome State Fault Refusal := .next (s.hostWrite (fun s => s.headPut value))
/-- PENDING_CLEAR. -/
def execPendingClear (mask : BitVec 4) (s : State) : Host.Outcome State Fault Refusal := .next (s.hostWrite (fun s => s.pendClear mask))
/-- LOST_CLEAR. -/
def execLostClear (value : Word) (s : State) : Host.Outcome State Fault Refusal := .next (s.hostWrite (fun s => s.lostPut value))
/-- TRACE_EN_WRITE. -/
def execTraceEnWrite (value : Word) (s : State) : Host.Outcome State Fault Refusal := .next (s.hostWrite (fun s => s.tracePut value))
/-- BASE_REGISTER_WRITE. -/
def execBaseRegisterWrite (r : BaseReg) (value : DWord) (s : State) : Host.Outcome State Fault Refusal := .next (s.hostWrite (fun s => s.basePut r value))

end Sys2Proof.Machine
end

