-- ==== Sys2Proof/Machine/Chain.lean ====
section
/-! DEFINITION. Machine/Chain.lean: the maintenance chain (R465 to R470, R500, R501, R509, R511, R512), the commands that can
end a long chain command, and power, reset and bring-up (R494, R499 to R504). -/
namespace Sys2Proof.Machine

/-! ### Frames (R466) -/

/-- A frame on the chain. -/
abbrev Frame := BitVec 128
def frOp (f : Frame) : Nat := fbit f 0 4
def frBcast (f : Frame) : Bool := f.getLsbD 4
def frTarget (f : Frame) : Nat := fbit f 5 17
def frStatus (f : Frame) : Nat := fbit f 24 4
def frAddr (f : Frame) : Nat := fld f 4 16
def frData (f : Frame) : DWord := fldv f 8 64
/-- STATUS codes. -/
def csOK : Nat := 1
def csBUSY : Nat := 2
def csDENIED : Nat := 3
def csBAD_ARG : Nat := 4
/-- The frame with an outcome: STATUS is written when it holds NONE, or over a broadcast when the outcome is not OK. -/
def frAnswer (f : Frame) (bcast : Bool) (o : Nat) : Frame :=
  if frStatus f = 0 || (bcast && o != csOK) then (f &&& ~~~ ((0xF : Frame) <<< 24)) ||| (BitVec.ofNat 128 o <<< 24) else f
def frWithData (f : Frame) (v : DWord) : Frame := setFld f 8 64 v.toNat
/-- An instance acts on a frame (R467). -/
def State.acts (s : State) (f : Frame) : Bool := frBcast f || (s.dev.addressed && frTarget f == s.dev.instId)
/-- The frame is repeated on the chain output. -/
def State.repeatFrame (s : State) (f : Frame) : State := s.emit (.frame f)
/-- Repeats a frame with an outcome. -/
def State.outcome (s : State) (f : Frame) (o : Nat) : State := s.repeatFrame (frAnswer f (frBcast f) o)

/-! ### Commands of the chain (R467, R468) -/

/-- ENUM: BCAST is taken as 1; DATA[17:0] counts the instance. -/
def State.enum (s : State) (f : Frame) : State :=
  let v := frData f
  let n : DWord := (v &&& ~~~ 0x3FFFF) ||| ((v + 1) &&& 0x3FFFF)
  (s.modDev (fun d => { d with addressed := false, instId := 0 })).repeatFrame (frAnswer (frWithData f n) true csOK)
/-- ASSIGN: the first instance without an address that receives the frame with STATUS NONE takes it. -/
def State.assign (s : State) (f : Frame) : State :=
  if s.dev.addressed || frStatus f != 0 then s.repeatFrame f
  else if (frData f).toNat / 2 ^ 17 ≠ 0 then s.repeatFrame (frAnswer f false csBAD_ARG)
  else (s.modDev (fun d => { d with addressed := true, instId := (frData f).toNat })).repeatFrame (frAnswer f false csOK)
/-- What IDENT returns. -/
def State.identData (s : State) : DWord :=
  regOf [(0, 16, Config.revision.toNat), (16, 16, 0x0E21), (32, 17, s.dev.instId), (49, 5, onesFrom s.dev.groveEn 0 16)]
def State.ident (s : State) (f : Frame) : State :=
  if frBcast f then s.outcome f csBAD_ARG else s.outcome (frWithData f s.identData) csOK
/-- PEEK: a read of NVM_DATA advances its pointer (R546). -/
def State.peek (s : State) (f : Frame) : State :=
  let a := frAddr f
  if frBcast f || a % 8 != 0 then s.outcome f csBAD_ARG
  else if s.nvmEarly a then s.outcome f csBUSY
  else
    let t := s.outcome (frWithData f (s.regRead a)) csOK
    if a = 0x6008 then t.advancePtr else t
def State.poke (s : State) (f : Frame) : State :=
  let a := frAddr f
  if a % 8 ≠ 0 then s.outcome f csBAD_ARG
  else if s.nvmEarly a then s.outcome f csBUSY
  else ((s.regWrite true a { lo := true, hi := true, v := frData f }).settleAll).outcome f csOK
/-- RESET (R501): every context is killed, and the directory is emptied. -/
def State.chainReset (s : State) (f : Frame) : State :=
  let s := { s.outcome f csOK with chainLong := some .reset }
  let s := foldS s.openCtxs s (fun s c => doCtxKill c s)
  s.settleAll
/-- STORE: what a frame asks for is checked before it finds another store in progress. -/
def State.chainStore (s : State) (f : Frame) : State :=
  let n := frAddr f
  if frBcast f || 63 < n then s.outcome f csBAD_ARG
  else if n == 62 || ((n == 0 || n == 63) && !s.dev.svcEn) then (s.storeOutcome n 1).outcome f csDENIED
  else if s.nvmWorking then (s.storeOutcome n 2).outcome f csBUSY
  else { (s.beginStore .chain n).outcome f csOK with chainLong := some (.store n) }
/-- FROST and THAW of an inactive grove. -/
def State.noGrove (s : State) (f : Frame) : Bool := frBcast f || decide (15 < frAddr f) || (s.grove (frAddr f)).state == .inactive
def State.chainFrost (s : State) (f : Frame) : State :=
  let g := frAddr f
  if s.noGrove f then s.outcome f csBAD_ARG
  else
    let was := (s.grove g).state
    let s := s.frost g
    if was == .run then
      (if (s.grove g).state == .drain then { s.outcome f csOK with chainLong := some (.frost g) } else s.outcome f csDENIED)
    else s.outcome f csOK
def State.chainThaw (s : State) (f : Frame) : State :=
  let g := frAddr f
  if s.noGrove f then s.outcome f csBAD_ARG
  else
    let s := (s.thaw g).outcome f csOK
    if (s.grove g).state == .frost then { s with chainLong := some (.thaw g) } else s
/-- A frame that reaches the instance: ENUM and ASSIGN are for every instance; others only for one that acts. Before READY all
but IDENT find BUSY (R500). -/
def State.frame (s : State) (f : Frame) : State :=
  match frOp f with
  | 1 => s.enum f
  | 2 => s.assign f
  | op =>
    if !s.acts f then s.repeatFrame f
    else if op = 3 then s.ident f
    else if s.dev.stage != .ready then s.outcome f csBUSY
    else match op with
      | 4 => s.peek f
      | 5 => s.poke f
      | 6 => s.chainReset f
      | 7 => s.chainStore f
      | 8 => s.chainFrost f
      | 9 => s.chainThaw f
      | _ => s.outcome f csBAD_ARG
/-- The MAINT clock runs. -/
def State.clocked (s : State) : Bool := s.dev.stage == .bringup || s.dev.stage == .ready
/-- A frame arrives: during a long command the first one is held (R469). -/
def State.takeFrame (s : State) (f : Frame) : State :=
  if !s.clocked then s
  else if s.chainLong.isSome then (if s.chainHeld.isNone then { s with chainHeld := some f } else s)
  else s.frame f
/-- A command of the table that carries a frame: the frame must hold its OP. -/
def State.onFrame (s : State) (op : Nat) (f : Frame) : State := if frOp f = op then s.takeFrame f else s
/-- A long command completes: the held frame is acted on and repeated (R469). -/
def State.releaseChain (s : State) : State :=
  let s' := { s with chainLong := none, chainHeld := none }
  match s.chainHeld with
  | some f => s'.frame f
  | none => s'
/-- The long command in progress, if any, has completed. A RESET completes with READY. -/
def State.longDone (s : State) : Bool :=
  match s.chainLong with
  | some (.store _) => s.dev.nvmBusy.isNone
  | some (.frost g) => (s.grove g).state != .drain
  | some (.thaw g) => !(s.grove g).thawing
  | some .reset | none => false
def State.settleChain (s : State) : State := if s.longDone then s.releaseChain else s

/-! ### Events that can complete a long command -/

/-- NVM_STORE_DONE (R510). -/
def doNvmStoreDone (ok : Bool) (s : State) : State :=
  match s.dev.nvmBusy with
  | some st => if st.started then ((s.finishStore st ok).settleAll).settleChain else s
  | none => s
/-- GROVE_CMD (R512, R535). -/
def doGroveCmdFrost (g : Nat) (s : State) : State := (s.hostWrite (fun s => s.frost g)).settleChain
def doGroveCmdThaw (g : Nat) (s : State) : State := (s.hostWrite (fun s => s.thaw g)).settleChain
/-- GROVE_DRAIN_COMPLETE (R513). -/
def doGroveDrainComplete (g : Nat) (s : State) : State :=
  if (s.grove g).state == .drain && s.groveIdle g then (s.enterFrost g).settleChain else s
/-- FROST_DRAIN_TIMEOUT (R513): FROST_DRAIN_MAX FAB cycles have passed in DRAIN. -/
def doFrostDrainTimeout (g : Nat) (s : State) : State :=
  if (s.grove g).state == .drain && decide ((s.grove g).drainSince + s.dev.frostDrainMax.toNat ≤ s.now) then (s.abortFrost g).settleChain
  else s
/-- THAW_COMPLETE (R515): a repair under way is completed first. -/
def doThawComplete (g : Nat) (s : State) : State :=
  if (s.grove g).thawing && (s.grove g).repair.isNone then (s.finishThaw g).settleChain else s

/-! ### Power-on reset and bring-up (R494, R499) -/

/-- POWER_ON_RESET: the inputs are sampled at the rise of EZ_PORST_N. -/
def doPowerOnReset (en : BitVec 16) (svc : Bool) (s : State) : State :=
  if s.dev.stage == .held || s.dev.stage == .off then s.bringup .pll en svc else s
/-- PLL_LOCK: the clocks start. -/
def doPllLock (s : State) : State :=
  if s.dev.stage == .pll then s.modDev (fun d => { d with stage := .bringup, fab := 0 }) else s
/-- PORST_FALL (R502): everything is reset; the NVM keeps what it holds. -/
def doPorstFall (s : State) : State := if s.dev.stage == .off then s else s.breakStore.bringup .held 0 false
/-- POWER_REMOVED (R503). -/
def doPowerRemoved (s : State) : State := s.breakStore.bringup .off 0 false
/-- OFF_READY (R504). -/
def doOffReady (s : State) : State :=
  if s.dev.pwrState == 2 && s.noLines then s.modDev (fun d => { d with offReady := true }) else s

/-- NVM_DEFAULTED (R508). -/
def nvmDefaults (m : List Host.Cell) : BitVec 6 :=
  let bad := [!secValid 0 (sectorBytes m 0), (pairCopy m 1 2 1).isNone, (pairCopy m 3 4 1).isNone, (pairCopy m 5 9 4).isNone,
    (pairCopy m 13 17 4).isNone, (pairCopy m 21 23 2).isNone]
  BitVec.ofNat 6 (((List.range 6).map (fun i => if nth bad i false then 2 ^ i else 0)).foldl (· + ·) 0)
/-- A repair map names a physical bank of the grove for each logical bank, no bank twice (R157). -/
def mapOk (m : List Nat) : Bool := m.length == 96 && m.all (fun p => decide (p < 100)) && decide m.Nodup
/-- The repair maps in use (R157, R185, R506): without a valid copy every map is the default one. -/
def State.loadMaps (s : State) : State :=
  match pairCopy s.nvm 1 2 1 with
  | none => s
  | some bs => foldS ((List.range 16).filter s.active) s (fun s g =>
      let x := Config.repairMapOf (bs.drop 16) g
      if mapOk x.1 then s.modGrove g (fun y => { y with repairMap := x.1, spareBad := x.2, spareUsed := sparesOf x.1 }) else s)
/-- Registers whose reset value a configuration sector may give: those that are RW and start nothing (assumption 12). -/
def configurable (off : Nat) : Bool :=
  [0x128, 0x1000, 0x1008, 0x1018, 0x1058, 0x2000, 0x2010, 0x2018, 0x3000, 0x4800, 0x4E00, 0x4E10, 0x4E18, 0x4E20, 0x4E28, 0x4E30,
   0x4E38, 0x4E40, 0x4E48, 0x6000, 0x7010, 0x8008, 0x8010, 0x8018, 0x8020, 0x8028].contains off
/-- The scheduler parameters that configuration writes give; a value out of its range, and a set that breaks R193, leave the
defaults. -/
def configParams (ws : List (Nat × DWord)) : List Nat :=
  let ps := (List.range 17).map (fun n => match ws.find? (fun e => e.1 == 0x800 + 8 * n) with
    | some e => if paramRange n (e.2.toNat % 2 ^ paramBits n) then e.2.toNat % 2 ^ paramBits n else nth schedDefaults n 0
    | none => nth schedDefaults n 0)
  if paramsAgree ps then ps else schedDefaults
/-- Parameters in force from bring-up. -/
def State.putParams (s : State) (p : List Nat) : State :=
  { s with sched := { s.sched with pend := p, params := p, fillT := nth p 6 0 }, stageParamErr := false, collectErr := false }
/-- The configuration defaults in use (R492, R506). -/
def State.loadConfig (s : State) : State :=
  match pairCopy s.nvm 3 4 1 with
  | none => s
  | some bs =>
    let ws := Config.configWrites (bs.drop 16)
    (foldS (ws.filter (fun e => configurable e.1)) (s.modDev (fun d => { d with portDisable := Config.portDisableOf (bs.drop 16) }))
      (fun s e => s.regWrite false e.1 { lo := true, hi := true, v := e.2 })).putParams (configParams ws)
/-- A bank's injections of bring-up fail (R183, R499); which of their four patterns did is a free value. -/
def State.bringupKat (s : State) (b : Nat) : State :=
  if !s.active (b / 100) || (s.bank b).failed then s
  else
    let (v, s) := s.draw
    (((s.count 49 1).log 3 1 noUnit (s.bankUnit b) b (v.toNat % 4)).interrupt 1).failBank b
/-- The sectors that bring-up reads are staged, and the walk cores take their patch (R499, R508, R509). -/
def State.loadStaged (s : State) : State :=
  { s with staged := sectorCells s.nvm 0 25 ++ sectorCells s.nvm 62 2,
           groves := s.groves.map (fun (g : Grove) => { g with patchGen := s.walkPatchGen }) }
/-- READY; an erase that was pending goes on (R464). -/
def State.setReady (s : State) : State :=
  let mark := memRead s.nvm eraseMarkAt != 0
  s.modDev (fun d => { d with stage := .ready, pwrState := 1, nvmDefaulted := nvmDefaults s.nvm, erasePending := mark, eraseBusy := mark })
/-- BRINGUP_READY (R499): stages 2 to 7. -/
def doBringupReady (katFailed : List BankNo) (s : State) : State :=
  if s.dev.stage != .bringup then s
  else
    let s := (foldS katFailed s.loadStaged.setReady.loadMaps.loadConfig (fun s b => s.bringupKat b)).settleService
    if s.chainLong == some .reset then s.releaseChain else s

/-! ### The commands -/

/-- REGISTER_WRITE: a GROVE_CMD may end a FROST that the chain waits for. -/
def execRegisterWrite (off : BitVec 16) (size : Nat) (value : DWord) (s : State) : Host.Outcome State Fault Refusal := .next (doRegisterWrite off.toNat size value s).settleChain
/-- NVM_STORE_DONE. -/
def execNvmStoreDone (readBackEqual : Bool) (s : State) : Host.Outcome State Fault Refusal := .next (doNvmStoreDone readBackEqual s)
/-- ENUM. -/
def execChainEnum (frame : BitVec 128) (s : State) : Host.Outcome State Fault Refusal := .next (s.onFrame 1 frame)
/-- ASSIGN. -/
def execChainAssign (frame : BitVec 128) (s : State) : Host.Outcome State Fault Refusal := .next (s.onFrame 2 frame)
/-- IDENT. -/
def execChainIdent (frame : BitVec 128) (s : State) : Host.Outcome State Fault Refusal := .next (s.onFrame 3 frame)
/-- PEEK. -/
def execChainPeek (frame : BitVec 128) (s : State) : Host.Outcome State Fault Refusal := .next (s.onFrame 4 frame)
/-- POKE. -/
def execChainPoke (frame : BitVec 128) (s : State) : Host.Outcome State Fault Refusal := .next (s.onFrame 5 frame)
/-- CHAIN_RESET. -/
def execChainReset (frame : BitVec 128) (s : State) : Host.Outcome State Fault Refusal := .next (s.onFrame 6 frame)
/-- STORE. -/
def execChainStore (frame : BitVec 128) (s : State) : Host.Outcome State Fault Refusal := .next (s.onFrame 7 frame)
/-- CHAIN_FROST. -/
def execChainFrost (frame : BitVec 128) (s : State) : Host.Outcome State Fault Refusal := .next (s.onFrame 8 frame)
/-- CHAIN_THAW. -/
def execChainThaw (frame : BitVec 128) (s : State) : Host.Outcome State Fault Refusal := .next (s.onFrame 9 frame)
/-- CHAIN_RESERVED_OP: OP 0 and 10 to 15. -/
def execChainReservedOp (frame : BitVec 128) (s : State) : Host.Outcome State Fault Refusal :=
  .next (if frOp frame = 0 ∨ 9 < frOp frame then s.takeFrame frame else s)
/-- POWER_ON_RESET. -/
def execPowerOnReset (groveEn : BitVec 16) (svcEn : Bool) (s : State) : Host.Outcome State Fault Refusal := .next (doPowerOnReset groveEn svcEn s)
/-- PLL_LOCK. -/
def execPllLock (s : State) : Host.Outcome State Fault Refusal := .next (doPllLock s)
/-- BRINGUP_READY. -/
def execBringupReady (katFailed : List BankNo) (s : State) : Host.Outcome State Fault Refusal := .next (doBringupReady katFailed s)
/-- PORST_FALL. -/
def execPorstFall (s : State) : Host.Outcome State Fault Refusal := .next (doPorstFall s)
/-- POWER_REMOVED. -/
def execPowerRemoved (s : State) : Host.Outcome State Fault Refusal := .next (doPowerRemoved s)
/-- OFF_READY. -/
def execOffReady (s : State) : Host.Outcome State Fault Refusal := .next (doOffReady s)
/-- GROVE_CMD_FROST. -/
def execGroveCmdFrost (g : GroveNo) (s : State) : Host.Outcome State Fault Refusal := .next (doGroveCmdFrost g s)
/-- GROVE_CMD_THAW. -/
def execGroveCmdThaw (g : GroveNo) (s : State) : Host.Outcome State Fault Refusal := .next (doGroveCmdThaw g s)
/-- GROVE_DRAIN_COMPLETE. -/
def execGroveDrainComplete (g : GroveNo) (s : State) : Host.Outcome State Fault Refusal := .next (doGroveDrainComplete g s)
/-- FROST_DRAIN_TIMEOUT. -/
def execFrostDrainTimeout (g : GroveNo) (s : State) : Host.Outcome State Fault Refusal := .next (doFrostDrainTimeout g s)
/-- THAW_COMPLETE. -/
def execThawComplete (g : GroveNo) (s : State) : Host.Outcome State Fault Refusal := .next (doThawComplete g s)

end Sys2Proof.Machine
end

