-- ==== Sys2Proof/Machine/Dispatch.lean ====
section
/-! DEFINITION. Machine/Dispatch.lean: one arm for each command of the table. -/
namespace Sys2Proof.Machine

def exec (i : Instr) (s : State) : Host.Outcome State Fault Refusal :=
  match i with
  | .ingestWrite hi c lo data => Sys2Proof.Machine.execIngestWrite hi c lo data s
  | .commandBytesPerformed c w => Sys2Proof.Machine.execCommandBytesPerformed c w s
  | .admitRecord c w => Sys2Proof.Machine.execAdmitRecord c w s
  | .spawnAdmit => Sys2Proof.Machine.execSpawnAdmit s
  | .cohortAgeLimit id => Sys2Proof.Machine.execCohortAgeLimit id s
  | .fillIssue => Sys2Proof.Machine.execFillIssue s
  | .fillVictimTimeout id => Sys2Proof.Machine.execFillVictimTimeout id s
  | .trailerReturn id line => Sys2Proof.Machine.execTrailerReturn id line s
  | .fillLineReturn id n line => Sys2Proof.Machine.execFillLineReturn id n line s
  | .decryptDone id => Sys2Proof.Machine.execDecryptDone id s
  | .placementCapture g => Sys2Proof.Machine.execPlacementCapture g s
  | .boughTestable o sl errs => Sys2Proof.Machine.execBoughTestable o sl s errs
  | .victimSlotFreed o sl => Sys2Proof.Machine.execVictimSlotFreed o sl s
  | .sheafRelease id g errs => Sys2Proof.Machine.execSheafRelease id g s errs
  | .intervalEnd => Sys2Proof.Machine.execIntervalEnd s
  | .spillCohort => Sys2Proof.Machine.execSpillCohort s
  | .spillAcknowledged c rseq => Sys2Proof.Machine.execSpillAcknowledged c rseq s
  | .freshRunClose c cls => Sys2Proof.Machine.execFreshRunClose c cls s
  | .reloadRun first second => Sys2Proof.Machine.execReloadRun first second s
  | .testn core sh f => Sys2Proof.Machine.execTestn core sh f s
  | .testAnswer core sh errs units parity => Sys2Proof.Machine.execTestAnswer core sh errs s units parity
  | .testb core sh f => Sys2Proof.Machine.execTestb core sh f s
  | .testbMerge core sh units segs blocks => Sys2Proof.Machine.execTestbMerge core sh s units segs blocks
  | .leaf core sh f => Sys2Proof.Machine.execLeaf core sh f s
  | .leafFillInstall g id lines => Sys2Proof.Machine.execLeafFillInstall g id lines s
  | .leafResult core sh residue parity => Sys2Proof.Machine.execLeafResult core sh residue s parity
  | .order core sh f => Sys2Proof.Machine.execOrder core sh f s
  | .child core sh f => Sys2Proof.Machine.execChild core sh f s
  | .push core sh f => Sys2Proof.Machine.execPush core sh f s
  | .pop core sh f => Sys2Proof.Machine.execPop core sh f s
  | .descend core sh f => Sys2Proof.Machine.execDescend core sh f s
  | .trail core sh f => Sys2Proof.Machine.execTrail core sh f s
  | .yield core sh f => Sys2Proof.Machine.execYield core sh f s
  | .yieldTree core sh f => Sys2Proof.Machine.execYieldTree core sh f s
  | .fwd core sh f => Sys2Proof.Machine.execFwd core sh f s
  | .hit core sh f => Sys2Proof.Machine.execHit core sh f s
  | .collectEntry core sh f => Sys2Proof.Machine.execCollectEntry core sh f s
  | .collectSum core sh f => Sys2Proof.Machine.execCollectSum core sh f s
  | .collectSumv core sh f => Sys2Proof.Machine.execCollectSumv core sh f s
  | .collectClear core sh f => Sys2Proof.Machine.execCollectClear core sh f s
  | .emit core sh f => Sys2Proof.Machine.execEmit core sh f s
  | .spawn core sh f => Sys2Proof.Machine.execSpawn core sh f s
  | .walkEnd core sh f => Sys2Proof.Machine.execWalkEnd core sh f s
  | .strandEnd c f => Sys2Proof.Machine.execStrandEnd c f s
  | .nop src => Sys2Proof.Machine.execNop src s
  | .iop src f => Sys2Proof.Machine.execIop src f s
  | .iopi src f => Sys2Proof.Machine.execIopi src f s
  | .movi src f => Sys2Proof.Machine.execMovi src f s
  | .movih src f => Sys2Proof.Machine.execMovih src f s
  | .cmp src f => Sys2Proof.Machine.execCmp src f s
  | .br src f => Sys2Proof.Machine.execBr src f s
  | .brt src f => Sys2Proof.Machine.execBrt src f s
  | .brf src f => Sys2Proof.Machine.execBrf src f s
  | .call src f => Sys2Proof.Machine.execCall src f s
  | .ret src f => Sys2Proof.Machine.execRet src f s
  | .retH src => Sys2Proof.Machine.execRetH src s
  | .fop core sh f => Sys2Proof.Machine.execFop core sh f s
  | .fcmp core sh f => Sys2Proof.Machine.execFcmp core sh f s
  | .cvt core sh f => Sys2Proof.Machine.execCvt core sh f s
  | .sel core sh f => Sys2Proof.Machine.execSel core sh f s
  | .plog core sh f => Sys2Proof.Machine.execPlog core sh f s
  | .movs core sh f => Sys2Proof.Machine.execMovs core sh f s
  | .illegalInstruction src => Sys2Proof.Machine.execIllegalInstruction src s
  | .walkLong core sh l => Sys2Proof.Machine.execWalkLong core sh l s
  | .ld c f => Sys2Proof.Machine.execLd c f s
  | .loadDataReturn c n data => Sys2Proof.Machine.execLoadDataReturn c n data s
  | .st c f => Sys2Proof.Machine.execSt c f s
  | .amo c f => Sys2Proof.Machine.execAmo c f s
  | .rdc c f => Sys2Proof.Machine.execRdc c f s
  | .waitc c f => Sys2Proof.Machine.execWaitc c f s
  | .waitcT c f => Sys2Proof.Machine.execWaitcT c f s
  | .waitcMet c => Sys2Proof.Machine.execWaitcMet c s
  | .strmArm c f => Sys2Proof.Machine.execStrmArm c f s
  | .strmRearm c f => Sys2Proof.Machine.execStrmRearm c f s
  | .strmStart c f => Sys2Proof.Machine.execStrmStart c f s
  | .strmStop c f => Sys2Proof.Machine.execStrmStop c f s
  | .strmCancel c f => Sys2Proof.Machine.execStrmCancel c f s
  | .strmStat c f => Sys2Proof.Machine.execStrmStat c f s
  | .streamTileIssue k => Sys2Proof.Machine.execStreamTileIssue k s
  | .stagedTileInstall k tile lines => Sys2Proof.Machine.execStagedTileInstall k tile lines s
  | .tileComplete k tile => Sys2Proof.Machine.execTileComplete k tile s
  | .transferRetire x => Sys2Proof.Machine.execTransferRetire x s
  | .streamRateUpdate => Sys2Proof.Machine.execStreamRateUpdate s
  | .preloadEntry k entry => Sys2Proof.Machine.execPreloadEntry k entry s
  | .preloadTimeout k => Sys2Proof.Machine.execPreloadTimeout k s
  | .stallBreak k => Sys2Proof.Machine.execStallBreak k s
  | .stallDataReadback k => Sys2Proof.Machine.execStallDataReadback k s
  | .crcscan c f => Sys2Proof.Machine.execCrcscan c f s
  | .scanWait c f => Sys2Proof.Machine.execScanWait c f s
  | .scanSuspend c f => Sys2Proof.Machine.execScanSuspend c f s
  | .scanStat c f => Sys2Proof.Machine.execScanStat c f s
  | .scanChunkArrive ch data => Sys2Proof.Machine.execScanChunkArrive ch data s
  | .xbegin c f => Sys2Proof.Machine.execXbegin c f s
  | .xwriteNode c f => Sys2Proof.Machine.execXwriteNode c f s
  | .xwriteLeaf c f => Sys2Proof.Machine.execXwriteLeaf c f s
  | .xwriteReadDone c line => Sys2Proof.Machine.execXwriteReadDone c line s
  | .xcommit c f => Sys2Proof.Machine.execXcommit c f s
  | .commitPoint c mem => Sys2Proof.Machine.execCommitPoint c mem s
  | .xabort c f => Sys2Proof.Machine.execXabort c f s
  | .xstat c f => Sys2Proof.Machine.execXstat c f s
  | .xwtpend c f => Sys2Proof.Machine.execXwtpend c f s
  | .xwtwait c f => Sys2Proof.Machine.execXwtwait c f s
  | .writeThroughDue n => Sys2Proof.Machine.execWriteThroughDue n s
  | .writeThroughAck n => Sys2Proof.Machine.execWriteThroughAck n s
  | .fence c f => Sys2Proof.Machine.execFence c f s
  | .fenceDone c => Sys2Proof.Machine.execFenceDone c s
  | .barrier c f => Sys2Proof.Machine.execBarrier c f s
  | .launch c f => Sys2Proof.Machine.execLaunch c f s
  | .nvstore c f => Sys2Proof.Machine.execNvstore c f s
  | .nvmStoreDone readBackEqual => Sys2Proof.Machine.execNvmStoreDone readBackEqual s
  | .collectorTakeHead err => Sys2Proof.Machine.execCollectorTakeHead s err
  | .excConsumedRead c e consumed => Sys2Proof.Machine.execExcConsumedRead c e consumed s
  | .binAgeFlush c e key err => Sys2Proof.Machine.execBinAgeFlush c e key s err
  | .binRingReread c e key consumed => Sys2Proof.Machine.execBinRingReread c e key consumed s
  | .accumWindowClose c e err => Sys2Proof.Machine.execAccumWindowClose c e s err
  | .writeAcknowledged completion => Sys2Proof.Machine.execWriteAcknowledged completion s
  | .snoopShared addr asid => Sys2Proof.Machine.execSnoopShared addr s asid
  | .snoopOwn addr asid => Sys2Proof.Machine.execSnoopOwn addr s asid
  | .snoopInval addr asid => Sys2Proof.Machine.execSnoopInval addr s asid
  | .ringGrant addr data asid => Sys2Proof.Machine.execRingGrant addr data s asid
  | .evictAck addr asid => Sys2Proof.Machine.execEvictAck addr s asid
  | .countdownZero c => Sys2Proof.Machine.execCountdownZero c s
  | .ctxCdSet c value => Sys2Proof.Machine.execCtxCdSet c value s
  | .ctxOpen c => Sys2Proof.Machine.execCtxOpen c s
  | .openComplete c rd => Sys2Proof.Machine.execOpenComplete c rd s
  | .ctxClose c => Sys2Proof.Machine.execCtxClose c s
  | .closingDone c => Sys2Proof.Machine.execClosingDone c s
  | .ctxKill c => Sys2Proof.Machine.execCtxKill c s
  | .killingDone c => Sys2Proof.Machine.execKillingDone c s
  | .translationFault c addr => Sys2Proof.Machine.execTranslationFault c addr s
  | .asidKill asid => Sys2Proof.Machine.execAsidKill asid s
  | .translationInvalidate asid page => Sys2Proof.Machine.execTranslationInvalidate asid page s
  | .fabricRetry item => Sys2Proof.Machine.execFabricRetry item s
  | .scrubRead bank err => Sys2Proof.Machine.execScrubRead bank err s
  | .spineScrub err => Sys2Proof.Machine.execSpineScrub err s
  | .txnScrub err => Sys2Proof.Machine.execTxnScrub err s
  | .dirScrub err => Sys2Proof.Machine.execDirScrub err s
  | .katInjection bank pass => Sys2Proof.Machine.execKatInjection bank pass s
  | .schedSweep err => Sys2Proof.Machine.execSchedSweep err s
  | .queryPacket hdr q => Sys2Proof.Machine.execQueryPacket hdr q s
  | .resultPacket hdr recs => Sys2Proof.Machine.execResultPacket hdr recs s
  | .emitPacket hdr emissions => Sys2Proof.Machine.execEmitPacket hdr emissions s
  | .handoff hdr => Sys2Proof.Machine.execHandoff hdr s
  | .nack hdr => Sys2Proof.Machine.execNack hdr s
  | .heartbeat hdr => Sys2Proof.Machine.execHeartbeat hdr s
  | .heartbeatSend dst => Sys2Proof.Machine.execHeartbeatSend dst s
  | .watchdogExpire holder => Sys2Proof.Machine.execWatchdogExpire holder s
  | .arriveSend c => Sys2Proof.Machine.execArriveSend c s
  | .arrive hdr => Sys2Proof.Machine.execArrive hdr s
  | .release hdr => Sys2Proof.Machine.execRelease hdr s
  | .barrierTimeout c => Sys2Proof.Machine.execBarrierTimeout c s
  | .chainEnum frame => Sys2Proof.Machine.execChainEnum frame s
  | .chainAssign frame => Sys2Proof.Machine.execChainAssign frame s
  | .chainIdent frame => Sys2Proof.Machine.execChainIdent frame s
  | .chainPeek frame => Sys2Proof.Machine.execChainPeek frame s
  | .chainPoke frame => Sys2Proof.Machine.execChainPoke frame s
  | .chainReset frame => Sys2Proof.Machine.execChainReset frame s
  | .chainStore frame => Sys2Proof.Machine.execChainStore frame s
  | .chainFrost frame => Sys2Proof.Machine.execChainFrost frame s
  | .chainThaw frame => Sys2Proof.Machine.execChainThaw frame s
  | .chainReservedOp frame => Sys2Proof.Machine.execChainReservedOp frame s
  | .powerOnReset groveEn svcEn => Sys2Proof.Machine.execPowerOnReset groveEn svcEn s
  | .pllLock => Sys2Proof.Machine.execPllLock s
  | .bringupReady katFailed => Sys2Proof.Machine.execBringupReady katFailed s
  | .stagedNvmLoad => Sys2Proof.Machine.execStagedNvmLoad s
  | .porstFall => Sys2Proof.Machine.execPorstFall s
  | .powerRemoved => Sys2Proof.Machine.execPowerRemoved s
  | .pwrCmdOff => Sys2Proof.Machine.execPwrCmdOff s
  | .offReady => Sys2Proof.Machine.execOffReady s
  | .groveCmdFrost g => Sys2Proof.Machine.execGroveCmdFrost g s
  | .groveCmdThaw g => Sys2Proof.Machine.execGroveCmdThaw g s
  | .groveDrainComplete g => Sys2Proof.Machine.execGroveDrainComplete g s
  | .frostDrainTimeout g => Sys2Proof.Machine.execFrostDrainTimeout g s
  | .thawComplete g => Sys2Proof.Machine.execThawComplete g s
  | .repairMapWrite g phys => Sys2Proof.Machine.execRepairMapWrite g phys s
  | .repairComplete g uncopied pass => Sys2Proof.Machine.execRepairComplete g uncopied pass s
  | .seqPatchApply => Sys2Proof.Machine.execSeqPatchApply s
  | .dbgUnlock => Sys2Proof.Machine.execDbgUnlock s
  | .dbgEraseDone erased => Sys2Proof.Machine.execDbgEraseDone erased s
  | .keyLoad k => Sys2Proof.Machine.execKeyLoad k s
  | .keyUnwrap k => Sys2Proof.Machine.execKeyUnwrap k s
  | .keyClear k => Sys2Proof.Machine.execKeyClear k s
  | .keyCmdDone => Sys2Proof.Machine.execKeyCmdDone s
  | .keyBufWrite ix value => Sys2Proof.Machine.execKeyBufWrite ix value s
  | .nvmDataRead => Sys2Proof.Machine.execNvmDataRead s
  | .nvmDataWrite value => Sys2Proof.Machine.execNvmDataWrite value s
  | .schedParamWrite n value => Sys2Proof.Machine.execSchedParamWrite n value s
  | .leafStageLinesWrite value => Sys2Proof.Machine.execLeafStageLinesWrite value s
  | .leafPfDepthWrite value => Sys2Proof.Machine.execLeafPfDepthWrite value s
  | .collectSharesWrite value => Sys2Proof.Machine.execCollectSharesWrite value s
  | .collectFlush value => Sys2Proof.Machine.execCollectFlush value s
  | .integCtlWrite value => Sys2Proof.Machine.execIntegCtlWrite value s
  | .injCtlWrite value => Sys2Proof.Machine.execInjCtlWrite value s
  | .errlogHeadWrite value => Sys2Proof.Machine.execErrlogHeadWrite value s
  | .pendingClear mask => Sys2Proof.Machine.execPendingClear mask s
  | .lostClear value => Sys2Proof.Machine.execLostClear value s
  | .traceEnWrite value => Sys2Proof.Machine.execTraceEnWrite value s
  | .baseRegisterWrite r value => Sys2Proof.Machine.execBaseRegisterWrite r value s
  | .registerWrite off size value => Sys2Proof.Machine.execRegisterWrite off size value s
  | .fillUrgent c => Sys2Proof.Machine.execFillUrgent c s
  | .seqPatchDone => Sys2Proof.Machine.execSeqPatchDone s
  | .cohortEntryRebuilt id => Sys2Proof.Machine.execCohortEntryRebuilt id s
  | .sceneDescriptorRead c h desc shard => Sys2Proof.Machine.execSceneDescriptorRead c h desc shard s
  | .walkEntryRead c n entry img => Sys2Proof.Machine.execWalkEntryRead c n entry img s
  | .streamImageRead c img => Sys2Proof.Machine.execStreamImageRead c img s
  | .scanBlockRead c blk => Sys2Proof.Machine.execScanBlockRead c blk s
  | .deliveryEntryFetch c e key entry => Sys2Proof.Machine.execDeliveryEntryFetch c e key entry s
  | .cutRunRead c rseq first second => Sys2Proof.Machine.execCutRunRead c rseq first second s

end Sys2Proof.Machine
end

