-- ==== Sys2Proof/Machine/Tick.lean ====
section
/-! DEFINITION. Machine/Tick.lean: one FAB cycle in which no command comes: what happens by time alone (R453, R484), the
limits in cycles (R454, R484, R513), the delivery ports (R339), the leaf handle queues (R331), and the counters of cycles (R206,
R231, R308, R330, R387, R484). It is the model's own choice that this is what a step does on an empty queue (assumption 4). -/
namespace Sys2Proof.Machine

/-- Each delivery port takes the head of its handle queue (R339); DELIVERED_BYTES counts the bytes of its writes. -/
def State.portTake (s : State) (p : Nat) : State :=
  match mgetD s.ports p [] with
  | [] => s
  | h :: t =>
    let s := { s with ports := if t.isEmpty then merase s.ports p else mset s.ports p t }
    match h.item with
    | .write asid a bs n => ((s.touch asid a).emit (.deliver p asid a bs n)).count 31 bs.length
    | .atomic asid a op ty v n rel _ => (s.touch asid a).emit (.atomic p asid a op ty v n rel)
/-- The leaf caches take the heads of their queues (R331). -/
def State.drainLeaves (s : State) : State := foldS (List.range 16) s State.drainLeaf
/-- Countdowns that have come to 0, and that no command has settled, are settled (R454). -/
def State.settleCountdowns (s : State) : State :=
  foldS (s.ctxs.filter (fun e => e.2.cdDue)) s (fun s e => s.countdownZero e.1)
/-- The countdowns that run fall by 1 (R453). -/
def State.countDown (s : State) : State :=
  { s with ctxs := mmap s.ctxs (fun _ x => if x.cdMode == .idle then x else { x with cdVal := x.cdVal - 1 }) }
/-- The limits in cycles that have been reached, and that no command has settled: countdowns (R454), drains (R513), heartbeats and
watchdogs (R484). -/
def State.settleLimits (s : State) : State :=
  let s := foldS (List.range 16) s.settleCountdowns (fun s g => doFrostDrainTimeout g s)
  let s := foldS (s.beats.map (·.1)) s (fun s o => doHeartbeatSend o s)
  foldS (s.watch.map (·.1)) s (fun s d => doWatchdogExpire d s)
/-- Holders that found no room among the 4,096 instances tracked (R484) are tracked as room comes. -/
def State.trackHolders (s : State) : FMap Nat :=
  s.pool.foldl (fun w e => match e.2.place with
    | .forwarded d => if (mget w d).isNone && w.length < 4096 && !s.fwdWait.contains e.1 then mset w d 0 else w
    | _ => w) s.watch
/-- The counts of cycles since something was heard from a holder, or sent to an origin (R484). -/
def State.ageWatch (s : State) : State :=
  { s with watch := mmap s.trackHolders (fun _ n => n + 1), beats := mmap s.beats (fun _ n => n + 1) }
/-- The sheaves of a walk core. -/
def State.coreSheaves (s : State) (w : Nat) : List Sheaf := (s.sheaves.filter (fun e => e.1 / 48 == w)).map (·.2)
/-- A sheaf waits on a LEAF or TESTB. -/
def Sheaf.leafWaits (x : Sheaf) : Bool := match x.wait with | .leaf _ _ | .testb _ _ => true | _ => false
/-- The walk cores of groves in RUN that can issue nothing, and those of them that hold sheaves which all wait on LEAF or
TESTB (R231). -/
def State.starved (s : State) : Nat × Nat :=
  let cores := s.runGroves.flatMap (fun g => (List.range 8).map (8 * g + ·))
  let idle := cores.filter (fun w => (s.coreSheaves w).all (fun x => x.wait != .ready || x.held))
  (idle.length, (idle.filter (fun w => !(s.coreSheaves w).isEmpty && (s.coreSheaves w).all Sheaf.leafWaits)).length)
/-- An item of a valid entry finds no room in the delivery ports that it writes to (R359). -/
def State.portsHold (s : State) (i : CItem) : Bool :=
  match s.deliv i.ctx i.entry with
  | x => match x.raw with
    | some d => x.valid && !s.portsRoom i.cls (s.itemPorts d x i)
    | none => false
/-- Sources of the collector whose head its delivery ports have no room for. -/
def State.collHeld (s : State) : Nat :=
  (s.sources.filter (fun k => match s.heads k with
    | [] => false
    | (_, i) :: _ => s.portsHold i)).length
/-- Walk cores that back-pressure of the collector holds: their walk queue has no room for what a sheaf is to issue (R330, R359). -/
def State.coresHeld (s : State) : Nat :=
  ((List.range 128).filter (fun w => (s.coreSheaves w).any (fun x => x.held && x.wait == .ready))).length
/-- Leaf handle queues for which the fill path holds a handle. -/
def State.leavesHeld (s : State) : Nat := ((List.range 16).filter (fun g => s.leafHeld.any (fun h => h.1 == g))).length
/-- Every ingest port in service has accepted 128 bytes in this FAB cycle. -/
def State.ingestFull (s : State) : Bool :=
  let ps := (List.range 16).filter (fun p => !s.dev.portDisable.getLsbD p)
  !ps.isEmpty && ps.all (fun p => decide (128 ≤ mgetD s.ingested p 0))
/-- Placement queues for which the fill path holds a handle. -/
def State.fillsHeld (s : State) : Nat := ((List.range 16).filter (fun g => s.fills.any (fun f => f.held.any (fun k => groveOfSlot k == g)))).length
/-- Adds to a device counter, unless there is nothing to add. -/
def State.tally (s : State) (k n : Nat) : State := if n = 0 then s else s.count k n
/-- Core cycles in which nothing could issue, and those that waited on leaf pipes (R204, R231). -/
def State.tallyIdle (s : State) (n m : Nat) : State :=
  (({ s with sched := { s.sched with ivStarve := s.sched.ivStarve + n, ivLeafWait := s.sched.ivLeafWait + m } } : State).tally 16 n).tally 19 m
/-- The counters of cycles. -/
def State.countCycle (s : State) : State :=
  let cores := (s.now + 1) * 5 / 2 - s.now * 5 / 2
  let idle := s.starved
  let s := s.tallyIdle (cores * idle.1) (cores * idle.2)
  let s := s.tally 8 (b1 (s.fills.any (fun f => match f.stage with | .victim _ _ => true | _ => false)))
  let s := s.tally 23 (b1 (s.xfers.any (·.waiting)))
  let s := s.tally 20 (b1 s.ingestFull)
  let s := s.tally 21 (cores * s.coresHeld)
  let s := s.tally 30 (s.fillsHeld + s.leavesHeld + s.coresHeld + s.collHeld)
  let s := s.tally 42 (b1 (decide (512 ≤ s.depart.length) && s.ringPend.any (·.waiting)))
  s.tally 69 s.fwdWait.length
/-- The FAB cycle is over: the ingest ports may accept bytes again. -/
def State.newCycle (s : State) : State := { s with ingested := [], dev := { s.dev with fab := s.dev.fab + 1 } }
/-- One FAB cycle (R498). Before the clocks start nothing happens; before READY only the count of cycles goes on. -/
def State.tick (s : State) : State :=
  match s.dev.stage with
  | .off | .held | .pll => s
  | .bringup => s.modDev (fun d => { d with fab := d.fab + 1 })
  | .ready =>
    let s := s.settleLimits.countCycle.countDown.ageWatch
    let s := (foldS (List.range 16) s State.portTake).drainLeaves.settleInvalidates
    s.newCycle

end Sys2Proof.Machine
end

