-- ==== Sys2Proof/Safety.lean ====
section
/-! DEFINITION. Safety.lean: what must hold of the block in every state, as the statements use it: the stores and registers that
few commands change, and the rules of the manual that they keep. -/
namespace Sys2Proof.Machine

/-- The stores and registers of the block that only few commands write: the queue, NVM and its staged image, the key slots and
the key buffer, the scheduler parameters in force and pending, the staging and collector shares, the debug and chain state, and
the state of every grove. -/
structure Kernel where
  queue : List Instr
  nvm : List Host.Cell
  staged : List Host.Cell
  keys : FMap KeySlot
  keyBuf : List DWord
  pend : List Nat
  params : List Nat
  stageLines : Nat
  leafPfD : Nat
  shareBin : Nat
  shareAcc : Nat
  shareGrid : Nat
  debugOpen : Bool
  instId : Nat
  addressed : Bool
  barN : Nat
  frostDrainMax : Word
  nvmPtr : Nat
  groveEn : BitVec 16
  groveStates : List (GroveState × Bool)
  deriving DecidableEq, Repr

/-- What the kernel of a state is. A grove counts by its state and by whether a THAW of it is in progress. -/
def State.kernel (s : State) : Kernel :=
  { queue := s.pending, nvm := s.nvm, staged := s.staged, keys := s.keys, keyBuf := s.keyBuf, pend := s.sched.pend,
    params := s.sched.params, stageLines := s.stageLines, leafPfD := s.leafPfD, shareBin := s.shareBin, shareAcc := s.shareAcc,
    shareGrid := s.shareGrid, debugOpen := s.dev.debugOpen, instId := s.dev.instId, addressed := s.dev.addressed,
    barN := s.dev.barN, frostDrainMax := s.dev.frostDrainMax, nvmPtr := s.dev.nvmPtr, groveEn := s.dev.groveEn,
    groveStates := s.groves.map (fun g => (g.state, g.thawing)) }

/-- Scheduler parameters: 17 values that keep the relations of R193. -/
def schedOk (p : List Nat) : Bool := decide (p.length = 17) && paramsAgree p
/-- Grove g stands as its bit of EZ_GROVE_EN says: fused off it is inactive and no THAW of it runs, else it is active. -/
def groveOk (en : BitVec 16) (g : Nat) (x : GroveState × Bool) : Bool :=
  if en.getLsbD g then x.1 != .inactive else x.1 == .inactive && !x.2

/-- The rules that a kernel keeps. -/
structure Kernel.Legal (k : Kernel) : Prop where
  /-- NVM is in canonical form (R506). -/
  nvm : Memory.wf k.nvm = true
  /-- So is its staged image (R509). -/
  staged : Memory.wf k.staged = true
  /-- The pending scheduler parameters keep the relations of R193. -/
  pend : schedOk k.pend = true
  /-- The scheduler parameters in force keep the relations of R193. -/
  params : schedOk k.params = true
  /-- KEY_BUF is ten words (R547). -/
  keyBuf : k.keyBuf.length = 10
  /-- LEAF_STAGE_LINES is at most 8,192 (R314). -/
  stageLines : k.stageLines ≤ 8192
  /-- LEAF_PF_DEPTH is at most 64 (R319). -/
  leafPfD : k.leafPfD ≤ 64
  /-- The shares of the collector store are at most 16 MiB together, in units of 64 KiB (R358). -/
  shares : k.shareBin + k.shareAcc + k.shareGrid ≤ 256
  /-- With debug open, no key slot holds a key (R463, R464). -/
  debug : k.debugOpen = true → k.keys = []
  /-- An instance without an address has INST_ID 0 (R467, R468). -/
  address : k.addressed = false → k.instId = 0
  /-- BARRIER_N is 1 to 131,072 (R486). -/
  barN : 1 ≤ k.barN ∧ k.barN ≤ 131072
  /-- FROST_DRAIN_MAX is not 0 (R513). -/
  drainMax : k.frostDrainMax ≠ 0
  /-- NVM_PTR names a word of the window (R546). -/
  nvmPtr : k.nvmPtr % 8 = 0 ∧ k.nvmPtr < 262144
  /-- There are 16 groves, each as EZ_GROVE_EN leaves it active or inactive (R503). -/
  groves : k.groveStates.length = 16 ∧ ∀ g x, k.groveStates[g]? = some x → groveOk k.groveEn g x = true

/-- The machine is legal when its kernel is. -/
def Legal (s : State) : Prop := s.kernel.Legal


/-! ### Words for what a command leaves -/

/-- The strand of context c with another value, everything else as it was. -/
def State.withStrand (s : State) (c : Nat) (t : Strand) : State := s.setCtx c { s.ctx c with strand := t }
/-- Strand c is READY, awaits no register of the list, and the instruction at its PC lies inside its image (R240, R260, R261). -/
def State.strandMay (s : State) (c : Nat) (uses : List Nat) (long : Bool) : Prop :=
  s.strandReady c uses = true ∧ pcBad (some (s.ctx c).strand.words) (s.ctx c).strand.pc long = false
/-- Strand c has issued an instruction of one word with latency lat that leaves v in register d; nothing else changed. -/
def State.strandPut (s : State) (c d lat : Nat) (v : DWord) : State :=
  s.withStrand c { (s.ctx c).strand.set d v with pc := (s.ctx c).strand.pc + 1, lat := lat }
/-- Strand c has issued an instruction of one word with latency 2 and waits; nothing else changed. -/
def State.strandWaits (s : State) (c : Nat) (w : Wait) : State :=
  s.withStrand c { (s.ctx c).strand with pc := (s.ctx c).strand.pc + 1, lat := 2, state := .waiting w }
/-- The wait of strand c has ended with v in register d; nothing else changed. -/
def State.strandWoken (s : State) (c d : Nat) (v : DWord) : State :=
  s.withStrand c { (s.ctx c).strand.set d v with state := .ready, fails := [] }
/-- The sheaf x in a sheaf slot may issue, and the instruction at the PC of its issue group lies inside its image (R242, R260). -/
def State.sheafMay (s : State) (core sh : Nat) (x : Sheaf) (long : Bool) : Prop :=
  s.issuing core sh = some x ∧ pcBad x.words x.pc long = false
/-- The lanes of the issue group of sheaf x changed by g, with the latency of the instruction; everything else as it was. -/
def State.onGroup (s : State) (core sh : Nat) (x : Sheaf) (lat : Nat) (g : Lane → Lane) : State :=
  s.putSheaf core sh { x.mapLanes x.groupNs g with lat := lat }
/-- A lane that has issued an instruction of n words and goes on at the next. -/
def Lane.next (l : Lane) (n : Nat) : Lane := { l with pc := l.pc + n, icount := l.icount + 1 }
/-- The block is READY in RUN, no long chain command is in progress, and no debug unlock waits for contexts to end: nothing waits
for a line to leave, a context to close or a store to end. -/
def State.calm (s : State) : Prop :=
  s.dev.stage = .ready ∧ s.dev.pwrState ≠ 2 ∧ s.dev.unlock ≠ .killing ∧ s.chainLong = none
/-- The instance takes packets and this one is of a type and as long as it should be (R470, R476). -/
def State.hears (s : State) (hdr : Rec64) (ptype flits : Nat) : Prop := s.takesPackets = true ∧ s.packetBad hdr ptype flits = false

end Sys2Proof.Machine
end

