-- ==== Sys2Proof/Certificates/Slice0/Obligations.lean ====
section
/-! DEFINITION. Certificates/Slice0/Obligations.lean: the statements about the block, for the provers. Each names the rules of the
manual that it rests on. -/
open Sys2Proof Sys2Proof.Machine

/-- The block rule of this model (assumption 4 for the empty queue): a step takes the command at the front of the queue and answers
what exec answers for it on the state with the queue's rest. Rests on the model's choice of log entry 1. -/
def Obligations.StepRunsFront : Prop :=
  (∀ (s : State) (c : Instr), step { s with pending := c :: s.pending } = exec c s) ∧
  (∀ (s : State) (c : Instr) (rest : List Instr), s.pending = c :: rest → step s = exec c { s with pending := rest })

/-- R453, R454, R498, assumption 4 (DESIGN CHOICE: a step on an empty queue is one FAB cycle): without clocks nothing happens, before
READY only the count of FAB cycles goes on. At READY a limit in cycles that has been reached (a countdown at 0, R484, R513) is first
settled; then that count goes up by 1, every countdown in DEADLINE or TIMER falls by 1, and the ingest ports may take bytes again,
while, where no leaf handle waits, nothing else of the device registers or of the contexts changes. Rests on the model's choices of
log entries 4 and 58. -/
def Obligations.EmptyQueueTick : Prop :=
  (∀ (s : State), s.pending = [] →
    ((s.dev.stage = .off ∨ s.dev.stage = .held ∨ s.dev.stage = .pll) → step s = .next s) ∧
    (s.dev.stage = .bringup → step s = .next ({ s with dev := { s.dev with fab := s.dev.fab + 1 } } : State)) ∧
    (∀ u, s.dev.stage = .ready → s.settleLimits = u → (∀ g < 16, mgetD u.leafQ g [] = []) →
      ∃ t, step s = .next t ∧ t.pending = u.pending ∧ t.dev = { u.dev with fab := u.dev.fab + 1 } ∧ t.ingested = [] ∧
      t.pool = u.pool ∧ t.streams = u.streams ∧ t.banks = u.banks ∧
      (∀ c, mget t.ctxs c = (mget u.ctxs c).map (fun x => if x.cdMode = .idle then x else { x with cdVal := x.cdVal - 1 })))) ∧
  (∀ (s : State), (∀ e ∈ s.ctxs, (e.2.cdMode = .idle ∨ e.2.cdVal ≠ 0)) →
    (∀ g < 16, ((s.grove g).state ≠ .drain ∨ s.now < (s.grove g).drainSince + s.dev.frostDrainMax.toNat)) →
    (∀ e ∈ s.beats, s.holdsFor e.1 = true ∧ mgetD s.beats e.1 0 < 262144) → (∀ e ∈ s.watch, mgetD s.watch e.1 0 < 1048576) →
    s.settleLimits = s) ∧
  (∀ (s : State) (c : Nat) (x : Context), s.ctxs = [(c, x)] → x.cdMode = .deadline → x.cdVal = 0 → s.settleCountdowns =
    ((s.modCtx c (fun y => { y with cdMode := .idle, cdVal := 0 })).clearUrgent c).cutContext c)

/-- R498, R500, R192, R193, R240, R314, R319, R358, R430, R463, R467, R486, R503, R513, R537, R538, R546: what reset leaves. The queue
is empty, no clock runs, every parameter register has its reset value, every context is CLOSED, every strand is HALTED with all of its
registers 0, no key slot holds a key, the instance has no address, and the rules that Legal names hold. Rests on the model's choice of
log entry 108. -/
def Obligations.ResetState : Prop :=
  Legal State.reset ∧ State.reset.pending = [] ∧ State.reset.dev.stage = .held ∧ State.reset.dev.fab = 0 ∧
  State.reset.sched.pend = [131072, 0, 491520, 458752, 122880, 114688, 4096, 256, 65536, 1, 256, 262144, 8192, 65536, 4194304, 512, 15] ∧
  State.reset.sched.params = State.reset.sched.pend ∧ State.reset.sched.fillT = 4096 ∧
  State.reset.stageLines = 4096 ∧ State.reset.leafPfD = 8 ∧
  State.reset.shareBin = 160 ∧ State.reset.shareAcc = 64 ∧ State.reset.shareGrid = 32 ∧
  State.reset.integ.ctl = 0xFF ∧ State.reset.integ.head = 0 ∧ State.reset.integ.tail = 0 ∧
  State.reset.dev.barN = 1 ∧ State.reset.dev.barTimeout = 0 ∧ State.reset.dev.frostDrainMax = 1048576 ∧
  State.reset.dev.instId = 0 ∧ State.reset.dev.addressed = false ∧ State.reset.keys = [] ∧
  (∀ c, (State.reset.ctx c).state = .closed ∧ (State.reset.ctx c).cdMode = .idle ∧ (State.reset.ctx c).strand.state = .halted ∧
    (∀ r < 32, (State.reset.ctx c).strand.reg r = 0)) ∧
  (∀ k, State.reset.devCounter k = 0) ∧ State.reset.out = [] ∧ State.reset.lost = [] ∧ State.reset.txns = []

/-- R193, R314, R319, R358, R463, R464, R467, R468, R486, R503, R506, R513, R546: every step keeps the rules that Legal names: NVM and
its staged image stay canonical, the scheduler parameters keep their relations, the registers stay in their ranges, no key slot holds
a key while debug is open, an instance without an address has INST_ID 0, and each grove stands as EZ_GROVE_EN lets it. Rests on the
model's choice of log entry 9. -/
def Obligations.LegalKept : Prop :=
  ∀ (s t : State), Legal s → step s = .next t → Legal t

/-- No command of the table puts another in the queue or takes one out of it, and a step takes at most the front one. -/
def Obligations.QueueKept : Prop :=
  (∀ (c : Instr) (s t : State), exec c s = .next t → t.pending = s.pending) ∧
  (∀ (s t : State), step s = .next t → t.pending = s.pending.tail)

/-- R240, R263 to R266, R269: NOP and the integer instructions of a strand write one register, move the PC over the instruction's
words and set the latency of R304; nothing else of the machine changes. A write to x0 is discarded. R260, R267, R268: a taken branch
of a strand goes to its target, inside the image, and delays the next issue by 2 cycles; one not taken goes on after its words. CALL
leaves the word after the instruction in rd. Rests on the model's choice of log entry 11. -/
def Obligations.StrandComputes : Prop :=
  ((∀ (s : State) (c : CtxNo), s.strandMay c [] false →
    exec (.nop (.strand c)) s = .next (s.withStrand c { (s.ctx c).strand with pc := (s.ctx c).strand.pc + 1, lat := 1 })) ∧
  (∀ (s : State) (c : CtxNo) (f : Fields) (v : DWord), s.strandMay c [f.a.toNat, f.b.toNat, f.d.toNat] false →
    isX f.d = true → isX f.a = true → isX f.b = true →
    iop f.minor.toNat ((s.ctx c).strand.reg f.a.toNat) ((s.ctx c).strand.reg f.b.toNat) = some v →
    exec (.iop (.strand c) f) s = .next (s.withStrand c
      { (s.ctx c).strand.set f.d.toNat v with pc := (s.ctx c).strand.pc + 1, lat := iopLatency true f.minor.toNat })) ∧
  (∀ (s : State) (c : CtxNo) (f : Fields) (v : DWord), s.strandMay c [f.a.toNat, f.d.toNat] true →
    isX f.d = true → isX f.a = true →
    iop f.minor.toNat ((s.ctx c).strand.reg f.a.toNat) (f.imm.signExtend 64) = some v →
    exec (.iopi (.strand c) f) s = .next (s.withStrand c
      { (s.ctx c).strand.set f.d.toNat v with pc := (s.ctx c).strand.pc + 2, lat := iopLatency true f.minor.toNat })) ∧
  (∀ (s : State) (c : CtxNo) (f : Fields), s.strandMay c [f.d.toNat] true → isX f.d = true → f.minor.toNat = 0 →
    exec (.movi (.strand c) f) s = .next (s.withStrand c
      { (s.ctx c).strand.set f.d.toNat (f.imm.signExtend 64) with pc := (s.ctx c).strand.pc + 2, lat := 1 })) ∧
  (∀ (s : State) (c : CtxNo) (f : Fields), s.strandMay c [f.a.toNat, f.d.toNat] true → isX f.d = true → isX f.a = true →
    f.minor.toNat = 1 → exec (.movih (.strand c) f) s = .next (s.withStrand c
      { (s.ctx c).strand.set f.d.toNat (f.imm ++ ((s.ctx c).strand.reg f.a.toNat).setWidth 32) with
        pc := (s.ctx c).strand.pc + 2, lat := 1 })) ∧
  (∀ (s : State) (c : CtxNo) (f : Fields) (b : Bool), s.strandMay c [f.a.toNat, f.b.toNat, f.d.toNat] false →
    isX f.d = true → isX f.a = true → isX f.b = true →
    cmpHolds f.minor.toNat ((s.ctx c).strand.reg f.a.toNat) ((s.ctx c).strand.reg f.b.toNat) = some b →
    exec (.cmp (.strand c) f) s = .next (s.withStrand c
      { (s.ctx c).strand.set f.d.toNat (if b then 1 else 0) with pc := (s.ctx c).strand.pc + 1, lat := 1 }))) ∧
  ((∀ (s : State) (c : CtxNo) (f : Fields), s.strandMay c [] true → f.minor.toNat = 0 → f.imm.toNat < (s.ctx c).strand.words →
    exec (.br (.strand c) f) s = .next (s.withStrand c { (s.ctx c).strand with pc := f.imm.toNat, lat := 2 })) ∧
  (∀ (s : State) (c : CtxNo) (f : Fields), s.strandMay c [f.a.toNat] true → isX f.a = true → f.imm.toNat < (s.ctx c).strand.words →
    (f.minor.toNat = 1 → exec (.brt (.strand c) f) s = .next (s.withStrand c (if (s.ctx c).strand.reg f.a.toNat = 0
      then { (s.ctx c).strand with pc := (s.ctx c).strand.pc + 2, lat := 1 }
      else { (s.ctx c).strand with pc := f.imm.toNat, lat := 2 }))) ∧
    (f.minor.toNat = 2 → exec (.brf (.strand c) f) s = .next (s.withStrand c (if (s.ctx c).strand.reg f.a.toNat = 0
      then { (s.ctx c).strand with pc := f.imm.toNat, lat := 2 }
      else { (s.ctx c).strand with pc := (s.ctx c).strand.pc + 2, lat := 1 })))) ∧
  (∀ (s : State) (c : CtxNo) (f : Fields), s.strandMay c [f.d.toNat] true → isX f.d = true → f.minor.toNat = 3 → f.imm.toNat < (s.ctx c).strand.words →
    exec (.call (.strand c) f) s = .next (s.withStrand c
      { (s.ctx c).strand.set f.d.toNat (BitVec.ofNat 64 ((s.ctx c).strand.pc + 2)) with pc := f.imm.toNat, lat := 2 })) ∧
  (∀ (s : State) (c : CtxNo) (f : Fields), s.strandMay c [f.a.toNat] false → isX f.a = true → f.minor.toNat = 0 →
    ((s.ctx c).strand.reg f.a.toNat).toNat < (s.ctx c).strand.words →
    exec (.ret (.strand c) f) s = .next (s.withStrand c
      { (s.ctx c).strand with pc := ((s.ctx c).strand.reg f.a.toNat).toNat, lat := 2 })))

/-- R242, R263 to R266, R269 to R273: the arithmetic instructions of an issue group change in each of its lanes the destination
register or predicate, the PC and the count of instructions, and set the latency of R305; nothing else of the machine changes. R242,
R260, R267, R268: each lane of an issue group branches on its own condition; a taken lane goes to its target, which must lie in the
image, the others go on after the instruction. The next issue is delayed by 2 cycles when some lane takes the branch. Rests on the
model's choices of log entries 11 and 27. -/
def Obligations.LaneComputes : Prop :=
  (∀ (s : State) (core : CoreNo) (sh : SheafNo) (x : Sheaf) (f : Fields),
  (s.sheafMay core sh x false → exec (.nop (.sheaf core sh)) s = .next (s.onGroup core sh x 1 (fun l => l.next 1))) ∧
  (s.sheafMay core sh x false → isVDst x.handler f.d = true → isV f.a = true → isV f.b = true → f.minor.toNat ≤ 0x12 →
    exec (.iop (.sheaf core sh) f) s = .next (s.onGroup core sh x (iopLatency false f.minor.toNat)
      (fun l => { l.next 1 with v := l.v.set f.d.toNat ((iop f.minor.toNat (l.reg f.a.toNat) (l.reg f.b.toNat)).getD 0) }))) ∧
  (s.sheafMay core sh x true → isVDst x.handler f.d = true → isV f.a = true → f.minor.toNat ≤ 0x12 →
    exec (.iopi (.sheaf core sh) f) s = .next (s.onGroup core sh x (iopLatency false f.minor.toNat)
      (fun l => { l.next 2 with v := l.v.set f.d.toNat ((iop f.minor.toNat (l.reg f.a.toNat) f.imm).getD 0) }))) ∧
  (s.sheafMay core sh x true → isVDst x.handler f.d = true → f.minor.toNat = 0 →
    exec (.movi (.sheaf core sh) f) s = .next (s.onGroup core sh x 1 (fun l => { l.next 2 with v := l.v.set f.d.toNat f.imm }))) ∧
  (s.sheafMay core sh x false → isPDst f.d = true → isV f.a = true → isV f.b = true → f.minor.toNat ≤ 0x05 →
    exec (.cmp (.sheaf core sh) f) s = .next (s.onGroup core sh x 1
      (fun l => (l.next 1).setPred (f.d.toNat - 32) ((cmpHolds f.minor.toNat (l.reg f.a.toNat) (l.reg f.b.toNat)).getD false)))) ∧
  (s.sheafMay core sh x false → isVDst x.handler f.d = true → isV f.a = true → (fopUnary f.minor.toNat = true ∨ isV f.b = true) →
    f.minor.toNat ≤ 0x09 →
    exec (.fop core sh f) s = .next (s.onGroup core sh x (fopLatency f.minor.toNat)
      (fun l => { l.next 1 with v := l.v.set f.d.toNat ((fopResult f.minor.toNat (l.reg f.a.toNat) (l.reg f.b.toNat) (l.reg f.d.toNat)).getD 0) }))) ∧
  (s.sheafMay core sh x false → isPDst f.d = true → isV f.a = true → isV f.b = true → f.minor.toNat ≤ 0x07 →
    exec (.fcmp core sh f) s = .next (s.onGroup core sh x 4
      (fun l => (l.next 1).setPred (f.d.toNat - 32) ((fcmpHolds f.minor.toNat (l.reg f.a.toNat) (l.reg f.b.toNat)).getD false)))) ∧
  (s.sheafMay core sh x false → isVDst x.handler f.d = true → isV f.a = true → f.minor.toNat ≤ 0x07 →
    exec (.cvt core sh f) s = .next (s.onGroup core sh x 2
      (fun l => { l.next 1 with v := l.v.set f.d.toNat ((cvtOp f.minor.toNat (l.reg f.a.toNat)).getD 0) }))) ∧
  (s.sheafMay core sh x false → isVDst x.handler f.d = true → isV f.a = true → isV f.b = true → f.minor.toNat < 8 →
    exec (.sel core sh f) s = .next (s.onGroup core sh x 1
      (fun l => { l.next 1 with v := l.v.set f.d.toNat (if l.pred f.minor.toNat then l.reg f.a.toNat else l.reg f.b.toNat) }))) ∧
  (s.sheafMay core sh x false → isPDst f.d = true → isP f.a = true → (plogUnary f.minor.toNat = true ∨ isP f.b = true) →
    f.minor.toNat ≤ 0x05 →
    exec (.plog core sh f) s = .next (s.onGroup core sh x 1
      (fun l => (l.next 1).setPred (f.d.toNat - 32) ((plogOp f.minor.toNat (l.pred (f.a.toNat - 32)) (l.pred (f.b.toNat - 32))).getD false))))) ∧
  (∀ (s : State) (core : CoreNo) (sh : SheafNo) (x : Sheaf) (f : Fields),
  (s.sheafMay core sh x true → beyond x.words f.imm.toNat = false → x.group ≠ [] → f.minor.toNat = 0 →
    exec (.br (.sheaf core sh) f) s = .next (s.onGroup core sh x 2 (fun l => { l with pc := f.imm.toNat, icount := l.icount + 1 }))) ∧
  (s.sheafMay core sh x true → beyond x.words f.imm.toNat = false → isP f.a = true →
    (f.minor.toNat = 1 → exec (.brt (.sheaf core sh) f) s = .next (s.onGroup core sh x (if x.group.any (fun l => l.pred (f.a.toNat - 32)) then 2 else 1)
      (fun l => if l.pred (f.a.toNat - 32) then { l with pc := f.imm.toNat, icount := l.icount + 1 } else l.next 2))) ∧
    (f.minor.toNat = 2 → exec (.brf (.sheaf core sh) f) s = .next (s.onGroup core sh x (if x.group.any (fun l => !l.pred (f.a.toNat - 32)) then 2 else 1)
      (fun l => if l.pred (f.a.toNat - 32) then l.next 2 else { l with pc := f.imm.toNat, icount := l.icount + 1 })))) ∧
  (s.sheafMay core sh x true → beyond x.words f.imm.toNat = false → x.group ≠ [] → isVDst x.handler f.d = true → f.minor.toNat = 3 →
    exec (.call (.sheaf core sh) f) s = .next (s.onGroup core sh x 2 (fun l =>
      { l with v := l.v.set f.d.toNat (BitVec.ofNat 32 (l.pc + 2)), pc := f.imm.toNat, icount := l.icount + 1 }))) ∧
  (s.sheafMay core sh x false → (∀ l ∈ x.group, beyond x.words (l.reg f.a.toNat).toNat = false) → x.group ≠ [] → isV f.a = true → f.minor.toNat = 0 →
    exec (.ret (.sheaf core sh) f) s = .next (s.onGroup core sh x 2 (fun l =>
      { l with pc := (l.reg f.a.toNat).toNat, icount := l.icount + 1 }))))

/-- R244, R252, R274: MOVS reads a special register of R244 into vd of every lane of the group; with MINOR bit 7 it writes va to a
writable one for each lane in turn. Writing q.user1 replaces USER1 of the lane's query and nothing else of it. Rests on the model's
choice of log entry 38. -/
def Obligations.SpecialRegisters : Prop :=
  (∀ (s : State) (core : CoreNo) (sh : SheafNo) (x : Sheaf) (f : Fields), s.sheafMay core sh x false → f.minor.toNat < 64 →
    isVDst x.handler f.d = true → specialReadable f.minor.toNat = true →
    exec (.movs core sh f) s = .next (s.onGroup core sh x 1 (fun l =>
      { l.next 1 with v := l.v.set f.d.toNat (((s.laneQuery l).bind (s.specialReg core sh f.minor.toNat l)).getD 0) }))) ∧
  (∀ (s : State) (core : CoreNo) (sh : SheafNo) (x : Sheaf) (f : Fields), s.sheafMay core sh x false → 128 ≤ f.minor.toNat →
    f.minor.toNat < 192 → isV f.a = true → specialWritable (f.minor.toNat - 128) = true →
    exec (.movs core sh f) s = .next (foldS x.group (s.onGroup core sh x 1 (fun l => l.next 1))
      (fun t l => t.writeSpecial (sheafKey core sh) (f.minor.toNat - 128) l (l.reg f.a.toNat)))) ∧
  (∀ (s : State) (k : Nat) (l : Lane) (q : Query) (v : Word), s.laneQuery l = some q →
    s.writeSpecial k 0x0F l v = { s with pool := mset s.pool l.slot { q with record := setFld q.record 60 32 v.toNat } } ∧
    s.writeSpecial k 0x24 l v = s.modLane k l.n (fun y => { y with ws := { y.ws with uflags := v.setWidth 16 } })) ∧
  (∀ (s : State) (core sh : Nat) (l : Lane) (q : Query),
    s.specialReg core sh 0x2C l q = some (BitVec.ofNat 32 q.ctx) ∧ s.specialReg core sh 0x2D l q = some (BitVec.ofNat 32 s.dev.instId) ∧
    s.specialReg core sh 0x1F l q = some l.ws.tmax ∧ s.specialReg core sh 0x2A l q = some (BitVec.ofNat 32 core))

/-- R275, R276, R285 to R287: ORDER, CHILD, PUSH, POP, DESCEND and TRAIL act on each lane of the group alone, on its child list,
candidate buffer, short stack and trail; no pool slot, bank or other sheaf changes. R276, R285: what a push leaves. The pushed entry
is on top with the bough, scene and instance level of the walk; the stack holds at most 12 entries, and a push onto a full stack loses
the bottom entry and sets LOST, which is bit 63 of the trail. A POP that follows gives back that entry and the entries below it. -/
def Obligations.WorkStack : Prop :=
  (∀ (s : State) (core : CoreNo) (sh : SheafNo) (x : Sheaf) (f : Fields), s.sheafMay core sh x false →
  (isVDst x.handler f.d = true → isV f.a = true → childMinorOk f.minor = true →
    exec (.child core sh f) s = .next (s.onGroup core sh x 1
      (fun l => { l.next 1 with v := l.v.set f.d.toNat (childField l f.minor.msb (f.minor.toNat % 16) (l.reg f.a.toNat)) }))) ∧
  (x.walkOnly = true → isV f.a = true → f.minor.toNat < 4 →
    exec (.order core sh f) s = .next (s.onGroup core sh x 2
      (fun l => { l.next 1 with clist := orderList (f.minor.getLsbD 0) (f.minor.getLsbD 1) (l.reg f.a.toNat) l.clist }))) ∧
  (x.walkOnly = true → f.minor.toNat < 2 →
    exec (.push core sh f) s = .next (s.onGroup core sh x 2 (fun l => match s.laneQuery l with
      | some q => { l.next 1 with ws := pushList q (f.minor.getLsbD 0) l.ws l.clist, clist := if f.minor.getLsbD 0 then [] else l.clist }
      | none => l.next 1))) ∧
  (x.walkOnly = true → isPDst f.d = true →
    exec (.pop core sh f) s = .next (s.onGroup core sh x 2 (fun l => match l.ws.stack with
      | e :: t => { (l.next 1).setPred (f.d.toNat - 32) true with clist := [e], ws := { l.ws with stack := t } }
      | [] => { (l.next 1).setPred (f.d.toNat - 32) false with clist := [] }))) ∧
  (x.walkOnly = true → isV f.d = true →
    exec (.descend core sh f) s = .next (s.onGroup core sh x 2 (fun l => match s.laneQuery l with
      | some q => { (descend q (l.next 1)).1 with v := (descend q (l.next 1)).1.v.set f.d.toNat (descend q (l.next 1)).2 }
      | none => l.next 1))) ∧
  (x.walkOnly = true → f.minor.toNat ≤ 5 → trailOperands f.minor.toNat f = true →
    exec (.trail core sh f) s = .next (s.onGroup core sh x 1 (fun l => match trailOp f.minor.toNat l.ws.trail (l.reg f.a.toNat) with
      | some (t, some v) => { l.next 1 with ws := { l.ws with trail := t }, v := l.v.set f.d.toNat v }
      | some (t, none) => { l.next 1 with ws := { l.ws with trail := t } }
      | none => l.next 1)))) ∧
  (∀ (q : Query) (ws : WalkState) (e : ChildEntry), ws.stack.length ≤ 12 →
  let w := pushEntry q ws e
  w.stack.head? = some { e with bough := ws.bough, scene := sceneAt q ws, ilevel := ws.path.length } ∧
  w.stack.length = min 12 (ws.stack.length + 1) ∧
  w.stack.tail = ws.stack.take 11 ∧
  (ws.stack.length < 12 → w.stack.tail = ws.stack ∧ w.trail = ws.trail) ∧
  (ws.stack.length = 12 → w.trail.msb = true ∧ w.trail.extractLsb' 0 63 = ws.trail.extractLsb' 0 63))

/-- R174, R278 to R284, R317: a test instruction is issued by every lane of its issue group together, and the group waits: TESTN for
the bank's answers, TESTB and LEAF for the leaf blocks that its lanes hold, each of which it looks up. The packets of a TESTN and of a
TESTB enter the queues of the octet that holds the bough; while one of the banks they name lacks room the instruction is held. R167,
R179, R188, R279, R280, R421: TEST_ANSWER ends the wait, takes the packets of the group out of the octet's queues and answers every
lane of the group. A lane whose bough is in its slot, and whose bank lines and extension units read without an uncorrectable error,
receives the banks' answer: vd the number of children, its child list the children, and the next PC. A lane whose bank lines cannot be
read parks again on its bough, and one whose extension units cannot ends ERR_DATA. A lane of a dropped bough receives a test with no
child, or for a SPLIT node one EMPTY child, and its walk is INCOMPLETE. Rests on the model's choices of log entries 39 and 114. -/
def Obligations.SheafTests : Prop :=
  (∀ (s : State) (core : CoreNo) (sh : SheafNo) (x : Sheaf) (f : Fields), s.sheafMay core sh x false → x.walkOnly = true → isV f.d = true →
  let key := sheafKey core sh
  let waitsN : State → State := fun u => u.putSheaf core sh
      { x.mapLanes x.groupNs (fun l => { l with icount := l.icount + 1 }) with wait := .testn x.groupNs f, lat := 22 }
  let waitsB : State → State := fun u => foldS (x.group.filter u.scores)
      (u.putSheaf core sh { x.mapLanes x.groupNs (fun l => { l with icount := l.icount + 1, served := false, noTest := [] }) with
        wait := .testb x.groupNs f, lat := 1 })
      (fun t l => t.lookHeld key l)
  (x.octetSlot = none → (isV f.a = true → exec (.testn core sh f) s = .next (waitsN s)) ∧ exec (.testb core sh f) s = .next (waitsB s)) ∧
  (∀ k, x.octetSlot = some k → isV f.a = true →
    ((s.octet (k / 64)).hasRoom (s.testPackets key x) = true →
      exec (.testn core sh f) s = .next (waitsN (s.enqueue (k / 64) (s.testPackets key x)))) ∧
    ((s.octet (k / 64)).hasRoom (s.testPackets key x) = false → exec (.testn core sh f) s = .next s)) ∧
  (∀ k, x.octetSlot = some k →
    ((s.octet (k / 64)).hasRoom (s.vecPackets key x) = true →
      exec (.testb core sh f) s = .next (waitsB (s.enqueue (k / 64) (s.vecPackets key x)))) ∧
    ((s.octet (k / 64)).hasRoom (s.vecPackets key x) = false → exec (.testb core sh f) s = .next s)) ∧
  (isV f.a = true → exec (.leaf core sh f) s = .next (foldS x.group
      (s.putSheaf core sh { x.mapLanes x.groupNs (fun l => { l with icount := l.icount + 1, served := false, noTest := [] }) with
        wait := .leaf x.groupNs f, lat := 1 })
      (fun t l => t.lookHeld key l)))) ∧
  ((∀ (s : State) (core : CoreNo) (sh : SheafNo) (x : Sheaf) (f : Fields) (grp : List Nat) (errs : List (LaneNo × Fin 64 × EccError))
      (units : List (LaneNo × EccError)) (parity : List LaneNo),
    let key := sheafKey core sh
    mget s.sheaves key = some x → x.wait = .testn grp f →
    exec (.testAnswer core sh errs units parity) s = .next (foldS (grp.filterMap x.lane)
      ((s.putSheaf core sh { x with wait := .ready }).servePackets key x parity) (fun t l => t.answerLane key f errs units l)) ∧
    (x.octetSlot = none → exec (.testAnswer core sh errs units parity) s = .next (foldS (grp.filterMap x.lane)
      (s.putSheaf core sh { x with wait := .ready }) (fun t l => t.answerLane key f errs units l)))) ∧
  (∀ (s : State) (key : Nat) (x : Sheaf) (f : Fields) (errs : List (LaneNo × Fin 64 × EccError)) (units : List (LaneNo × EccError))
      (l : Lane) (q : Query),
    mget s.sheaves key = some x → s.laneQuery l = some q → s.cutCovers q = false → x.octetSlot = none →
    s.answerLane key f errs units l = s.modLane key l.n (fun y => { y with
      v := y.v.set f.d.toNat (if sFmt (s.laneScene q l) = 3 then 1 else 0), pc := y.pc + 1,
      clist := if sFmt (s.laneScene q l) = 3 then [childEntry q y.ws { slot := 0, ref := 0, clines := 0, key := 0, exit := 0, score := 0, cn := 0 }] else [],
      ws := { y.ws with incomplete := true } })) ∧
  (∀ (s v u : State) (key k : Nat) (x : Sheaf) (f : Fields) (errs : List (LaneNo × Fin 64 × EccError)) (units : List (LaneNo × EccError))
      (l : Lane) (q : Query),
    mget s.sheaves key = some x → s.laneQuery l = some q → s.cutCovers q = false → x.octetSlot = some k →
    let unit := (units.find? (fun e => e.1.val == l.n)).map (fun e => e.2)
    (s.readUnits unit (segmentLines (s.testSegments x q l)) = (v, true) →
      s.answerLane key f errs units l = (v.removeLane key l.n).finishErr l.slot stERR_DATA errEXT_UE (.walk (key / 48 / 8))) ∧
    (s.readUnits unit (segmentLines (s.testSegments x q l)) = (v, false) →
      (v.readTested x (s.laneScene q l) q.record l errs = (u, true) →
        s.answerLane key f errs units l = u.parkLane key l { l.ws with resumePc := some l.pc } (sceneAt q l.ws) l.ws.bough l.ws.clines) ∧
      (∀ cs, v.readTested x (s.laneScene q l) q.record l errs = (u, false) → u.bankAnswer x q l (l.reg f.a.toNat) = .ok cs →
        firstBreach l.ws.node l.ws.bough (u.slot k).lines.length (sBoughs (s.laneScene q l)) (sSharded (s.laneScene q l)) cs = none →
        s.answerLane key f errs units l = u.modLane key l.n (fun y => { y with
          v := y.v.set f.d.toNat (BitVec.ofNat 32 cs.length), pc := y.pc + 1, clist := cs.map (childEntry q y.ws) })))))

/-- R16, R188, R281, R284, R318, R425: once every block that a lane of the group needs is there, TESTB_MERGE merges and LEAF_RESULT
completes for the whole group, and the sheaf waits no longer. A lane that scores a VEC block merges its rows, vd the number of them,
and goes on. A leaf test runs on the lowest-numbered free pipe of the grove that is enabled, and the lane holds its candidates, vd and
the next PC, unless H_LEAF is entered. A leaf block that has arrived whole goes to the leaf cache by its queue, and is in the demand
part once there is room for it. Rests on the model's choices of log entries 24, 68, 86 and 113. -/
def Obligations.LeafResults : Prop :=
  (∀ (s : State) (core : CoreNo) (sh : SheafNo) (x : Sheaf) (f : Fields) (grp : List Nat) (units : List (LaneNo × EccError)) (segs : List LaneNo),
    let key := sheafKey core sh
    mget s.sheaves key = some x → x.wait = .testb grp f →
    (∀ l ∈ grp.filterMap x.lane, s.scores l = true → s.lookHeld key l = s ∧ s.heldReady (core / 8) l = true) →
    exec (.testbMerge core sh units segs []) s = .next (((foldS (grp.filterMap x.lane)
        ((s.modSheaf key (fun x => { x with wait := .ready })).servePackets key x segs)
        (fun t l => t.mergeLane key x f units l)).syncGroup key grp).drainLeaf (core / 8))) ∧
  (∀ (s u : State) (key : Nat) (x : Sheaf) (f : Fields) (units : List (LaneNo × EccError)) (l : Lane) (q : Query) (e : ChildEntry)
      (ls : List Line) (sus : Bool),
    s.laneQuery l = some q → s.cutCovers q = false → (∀ k, x.octetSlot = some k → s.retired (k / 64) = false) → l.held = some e →
    s.scores l = true →
    s.readUnits ((units.find? (fun y => y.1.val == l.n)).map (fun y => y.2)) (segmentLines (dataSegments q.dataUnits (qDims q.record))) = (u, false) →
    u.laneLook (key / 48 / 8) q l e.scene (refIndex e.ref) e.clines = .here ls sus →
    let d := (u.bound q.ctx e.scene).getD 0
    leafFmtBad (leafPermitted (sFmt d)) d e.clines ls = false → lfFmt ls = 0x45 → leafFieldBad ls (sEtype d) (sDims d) = false →
    let n := if qBudget q.record = 0 then lfCount ls else min (lfCount ls) (qBudget q.record - l.ws.rows)
    s.mergeLane key x f units l = u.modLane key l.n (fun y => { y with
      noTest := [], served := false, v := y.v.set f.d.toNat (BitVec.ofNat 32 n), pc := y.pc + 1
      ws := mergeRows q.record y.ws (vecRows q.record (u.vectorOf q) ls n (sus || u.boughSuspect x)) })) ∧
  (∀ (s : State) (core : CoreNo) (sh : SheafNo) (x : Sheaf) (f : Fields) (grp : List Nat) (residue : List (Fin 24)),
    let key := sheafKey core sh
    mget s.sheaves key = some x → x.wait = .leaf grp f →
    (∀ l ∈ grp.filterMap x.lane, s.lookHeld key l = s ∧ ∃ q m t b, s.laneQuery l = some q ∧
      s.leafLane (core / 8) x q f l = .done m t b ∧ (b = 0 ∨ s.choosePipe (core / 8) none ≠ none)) →
    ∃ lat, exec (.leafResult core sh residue []) s = .next (((s.modSheaf key (fun x => { x with wait := .ready, lat := lat })).leafApplyAll
      key x f residue (grp.filterMap x.lane)).drainLeaf (core / 8))) ∧
  (∀ (s : State) (key : Nat) (x : Sheaf) (f : Fields) (residue : List (Fin 24)) (l m : Lane) (q : Query) (t b : Nat),
    s.laneQuery l = some q → s.cutCovers q = false → s.leafLane (key / 48 / 8) x q f l = .done m t b → x.binding.bkind ≠ 3 →
    let put : State → State := fun u => u.modLane key l.n (fun _ => { m with noTest := [], served := false, hook := none, pc := l.pc + 1 })
    (b = 0 → s.leafApply key x f residue l = (put s, residue)) ∧
    (∀ p, b ≠ 0 → s.choosePipe (key / 48 / 8) none = some p → s.residueBad (key / 48 / 8) p residue = none →
      s.leafApply key x f residue l = (put (s.occupyPipe (key / 48 / 8) p b), residue))) ∧
  (∀ (s : State) (g p : Nat), s.choosePipe g none = some p → (s.grove g).pipeEn.getLsbD p = true ∧
    ∀ r < 24, (s.grove g).pipeEn.getLsbD r = true → mgetD (s.grove g).pipeFree r 0 ≤ s.coreNow →
      mgetD (s.grove g).pipeFree p 0 ≤ s.coreNow ∧ p ≤ r) ∧
  (∀ (s : State) (g : GroveNo) (id : BlockId) (lines : List Line) (fl : LeafFill) (d : Rec64),
    s.leafFillOf g id = some fl → fl.id = id → fl.count = lines.length → fl.attempt = 0 → fl.forcedBad = false → fl.queued = false →
    s.hasSlot (.leaf g id) = true →
    let u := s.linesBack (.leaf g id)
    u.bound id.ctx id.scene = some d → sKeyed d = false → u.txnBuf = [] → leafCrcOk lines = true →
    exec (.leafFillInstall g id lines) s = .next (({ u with leafFills := u.leafFills.map (fun (y : LeafFill) =>
      if y.grove == g.val && y.id == id then { y with queued := true } else y) } : State).handLeaf g fl.cls (.block id lines false))) ∧
  (∀ (s : State) (g : Nat) (id : BlockId) (ls : List Line) (sus : Bool) (fl : LeafFill),
    s.leafFills.find? (fun y => y.grove == g && y.id == id && y.queued) = some fl →
    demandUsed (s.grove g).leafCache + ls.length ≤ s.demandLines →
    s.actLeaf g (.block id ls sus) = some (({ s with leafFills := s.leafFills.filter (fun y => !(y.grove == g && y.id == id)) } : State).installBlock
      g id ls sus fl.prefetch))

/-- R255, R268, R290: HIT records for each lane the candidate that va names, when its query's MODE takes it, and pd says whether the
held results changed; with a bound H_HIT a lane whose hit is about to be recorded enters the handler instead. RET.H gives each lane of
a handler back to its stock walk; while the chains of those that end lack room it is held. Rests on the model's choices of log entries
27 and 128. -/
def Obligations.HitsAndHooks : Prop :=
  (∀ (s : State) (core : CoreNo) (sh : SheafNo) (x : Sheaf) (f : Fields), s.sheafMay core sh x false → x.walkOnly = true →
    isPDst f.d = true → isV f.a = true → f.minor.toNat < 2 → x.binding.bkind ≠ 3 →
    exec (.hit core sh f) s = .next ((s.onGroup core sh x 2 (fun l => match s.laneQuery l with
      | some q => hitLane q.record (l.reg f.a.toNat).toNat (f.d.toNat - 32) (f.minor.getLsbD 0) (l.next 1)
      | none => l.next 1)).syncGroup (sheafKey core sh) x.groupNs)) ∧
  (∀ (s : State) (core : CoreNo) (sh : SheafNo) (x : Sheaf) (f : Fields), s.sheafMay core sh x false → x.walkOnly = true →
    isPDst f.d = true → isV f.a = true → f.minor.toNat < 2 →
    exec (.hit core sh f) s = .next ((s.onGroup core sh x 2 (fun l => match s.laneQuery l with
      | some q => hitOrHook x.binding q.record (l.reg f.a.toNat).toNat (f.d.toNat - 32) (f.minor.getLsbD 0) l
      | none => l.next 1)).syncGroup (sheafKey core sh) x.groupNs)) ∧
  (∀ (b : Binding) (r : Rec64) (i pd : Nat) (lower : Bool) (l : Lane),
    ((b.bkind ≠ 3 ∨ b.hHit = 0xFFFF ∨ l.cbuf[i]? = none) → hitOrHook b r i pd lower l = hitLane r i pd lower (l.next 1)) ∧
    (∀ c, b.bkind = 3 → b.hHit ≠ 0xFFFF → l.cbuf[i]? = some c →
      ((recordHit r false l.ws c.hit).2 = false → hitOrHook b r i pd lower l = hitLane r i pd lower (l.next 1)) ∧
      ((recordHit r false l.ws c.hit).2 = true → hitOrHook b r i pd lower l = { ({ l with
        icount := l.icount + 1
        v := (((l.v.set 8 c.hit.value).set 9 c.hit.prim).set 10 c.hit.inst).set 11 (c.hit.aux1 ++ c.hit.aux0) } : Lane).setPred 1 true with
          hook := some (.hit (l.pc + 1) i pd lower), pc := b.hHit }))) ∧
  (∀ (r : Rec64) (i pd : Nat) (lower : Bool) (l : Lane), l.cbuf[i]? = none → hitLane r i pd lower l = l.setPred pd false) ∧
  (∀ (r : Rec64) (i pd : Nat) (l : Lane) (c : Candidate), l.cbuf[i]? = some c → qMode r = 1 → l.ws.best = none →
    hitLane r i pd false l = { l with ws := { l.ws with best := some c.hit } }.setPred pd true) ∧
  (∀ (s : State) (core : CoreNo) (sh : SheafNo) (x : Sheaf), s.sheafMay core sh x false → x.handler = true →
    (s.endRoom (core / 8) (x.group.filter Lane.returnsEnd) = true →
      exec (.retH (.sheaf core sh)) s = .next
        ((foldS x.group s (fun t l => t.returnLane (sheafKey core sh) x.binding l)).syncGroup (sheafKey core sh) x.groupNs)) ∧
    (s.endRoom (core / 8) (x.group.filter Lane.returnsEnd) = false →
      exec (.retH (.sheaf core sh)) s = .next (s.modSheaf (sheafKey core sh) (fun y => { y with held := true })))) ∧
  (∀ (s : State) (k : Nat) (b : Binding) (l : Lane) (pc i : Nat), l.hook = some (.leaf pc i) → l.pred 1 = false → b.bkind ≠ 3 →
    s.returnLane k b l = s.modLane k l.n (fun y =>
      { y with icount := y.icount + 1, cbuf := y.cbuf.eraseIdx i, hook := none, pc := pc }))

/-- R246, R249, R269, R288, R289: YIELD, YIELD.TREE, FWD and END take every lane of the group out of its sheaf: the first three park
its query on the bough that its held reference or its next tree gives, END ends it. Where a query is to end and the walk cores' handle
queue has no room for its chain, the instruction is held: nothing happens but the mark that the sheaf is held. What leaves is the
lane; the query keeps the walk state, with the word at which it resumes. Rests on the model's choices of log entries 72, 124 and 125. -/
def Obligations.LeavingASheaf : Prop :=
  (∀ (s : State) (core : CoreNo) (sh : SheafNo) (x : Sheaf) (f : Fields), s.sheafMay core sh x false → x.walkOnly = true →
    (f.minor.toNat = 0 → x.group.all Lane.yields = true →
      exec (.yield core sh f) s = .next (foldS x.group s (fun t l => t.yieldLane (sheafKey core sh) l))) ∧
    (x.group.all Lane.holdsRemote = true →
      exec (.fwd core sh f) s = .next (foldS x.group s (fun t l => t.fwdLane (sheafKey core sh) l))) ∧
    (f.minor.toNat = 1 → x.group.all s.isForest = true →
      (s.mayEnd (core / 8) x.binding (x.group.filter s.treeEnds) = true →
        exec (.yieldTree core sh f) s = .next (foldS x.group s (fun t l => t.treeLane (sheafKey core sh) x.binding l))) ∧
      (s.mayEnd (core / 8) x.binding (x.group.filter s.treeEnds) = false →
        exec (.yieldTree core sh f) s = .next (s.modSheaf (sheafKey core sh) (fun y => { y with held := true })))) ∧
    (f.minor.toNat = 1 → x.binding.bkind ≠ 3 →
      (s.endRoom (core / 8) x.group = true →
        exec (.walkEnd core sh f) s = .next (foldS x.group s (fun t l => t.endLane (sheafKey core sh) l f.a.toNat))) ∧
      (s.endRoom (core / 8) x.group = false →
        exec (.walkEnd core sh f) s = .next (s.modSheaf (sheafKey core sh) (fun y => { y with held := true }))))) ∧
  (∀ (s : State) (k : Nat) (l : Lane) (q : Query) (e : ChildEntry), s.laneQuery l = some q → l.held = some e → e.type = .bough →
    s.yieldLane k l = (s.leaveSheaf k l { l.ws with resumePc := some (l.pc + 1), bough := refIndex e.ref, node := 0 }).parkOrForward
      l.slot q.ctx (sceneAt q l.ws) (refIndex e.ref) e.clines (.walk (k / 48 / 8))) ∧
  (∀ (s : State) (k : Nat) (l : Lane) (q : Query) (ws : WalkState) (x : Sheaf), mget s.pool l.slot = some q → mget s.sheaves k = some x →
    let t := s.leaveSheaf k l ws
    t.pool = mset s.pool l.slot { q with ws := ws } ∧
    mget t.sheaves k = (if (x.lanes.filter (fun y => y.n != l.n)).isEmpty then mget (merase s.sheaves k) k
      else some { x with lanes := x.lanes.filter (fun y => y.n != l.n), held := false }) ∧
    t.cohorts = s.cohorts ∧ t.ctxs = s.ctxs ∧ t.out = s.out ∧ t.kernel = s.kernel)

/-- R56, R291: COLLECT ENTRY records the entry of four registers, SUM and SUMV add to the sums of FOREST queries, CLEAR empties the
collection; each then writes the collections of its lanes back into their extension units. R56, R156: a sum of finite values that is
in range is rd_near of the exact sum; the free value that stands for any other sum moves the counter of free values by one and nothing
else. Rests on the model's choices of log entries 21, 71 and 123. -/
def Obligations.Collecting : Prop :=
  (∀ (s : State) (core : CoreNo) (sh : SheafNo) (x : Sheaf) (f : Fields), s.sheafMay core sh x false → x.walkOnly = true →
  (f.a.toNat ≤ 20 → f.minor.toNat = 0 → exec (.collectEntry core sh f) s = .next ((s.onGroup core sh x 2 (fun l => match s.laneQuery l with
      | some q => { l.next 1 with ws := (recordHit q.record true l.ws (entryHit l f.a.toNat)).1 }
      | none => l.next 1)).syncGroup (sheafKey core sh) x.groupNs)) ∧
  (f.minor.toNat = 3 → exec (.collectClear core sh f) s = .next ((s.onGroup core sh x 1 (fun l => match s.laneQuery l with
      | some q => { l.next 1 with ws := clearColl q.record l.ws }
      | none => l.next 1)).syncGroup (sheafKey core sh) x.groupNs)) ∧
  (f.minor.toNat = 1 → exec (.collectSum core sh f) s = .next ((foldS x.group (s.onGroup core sh x 4 (fun l => l.next 1))
    (fun t l => t.sumLane (sheafKey core sh) l)).syncGroup (sheafKey core sh) x.groupNs)) ∧
  (isV f.a = true → isV f.b = true → f.minor.toNat = 2 →
    exec (.collectSumv core sh f) s = .next ((foldS x.group (s.onGroup core sh x 2 (fun l => l.next 1))
      (fun t l => t.sumvLane (sheafKey core sh) (l.reg f.a.toNat) (l.reg f.b.toNat) l)).syncGroup (sheafKey core sh) x.groupNs))) ∧
  (∀ (s : State) (a v : Word),
  ((v32 a).finite = true → (v32 v).finite = true → (v32 (sumAdd a v)).finite = true → s.addTo a v = (sumAdd a v, s)) ∧
  ((v32 v).finite = false → (s.addTo a v).2 = { s with freeCtr := s.freeCtr + 1 }) ∧
  (∀ (k : Nat) (l : Lane) (q : Query) (b : Word), s.laneQuery l = some q →
    s.sumvLane k v b l = (if qKind q.record = 4 ∧ b.toNat < qNout q.record
      then (s.addTo (nth l.ws.sums b.toNat 0) v).2.modLane k l.n (fun y =>
        { y with ws := { y.ws with sums := y.ws.sums.set b.toNat (s.addTo (nth l.ws.sums b.toNat 0) v).1 } })
      else s)))

/-- R27, R28, R250, R251, R292, R293, R359: EMIT hands the emissions of its lanes, by delivery entry, to the walk cores' handle queue;
while the queue has no room for them EMIT is held. SPAWN runs its lanes in ascending order and each goes on at the next instruction
with its predicate: it creates for a lane a record of DEPTH one more than its query's, in the spawn buffer of the core while the
buffer, the context's share and the pool have room, and counts SPAWNED; a record too deep is dropped and counted; one that neither the
buffer nor the overflow area takes is counted SPAWN_TRUNC. Rests on the model's choices of log entries 57, 126 and 130. -/
def Obligations.EmitAndSpawn : Prop :=
  (∀ (s : State) (core : CoreNo) (sh : SheafNo) (x : Sheaf) (f : Fields), s.sheafMay core sh x false → x.walkOnly = true → f.a.toNat ≤ 16 →
    let items := s.emitItems x.cohort.ctx x.cls f.a.toNat x.group
    (s.walkRoom (core / 8) x.cls items.length = false →
      exec (.emit core sh f) s = .next (s.modSheaf (sheafKey core sh) (fun y => { y with held := true }))) ∧
    (s.walkRoom (core / 8) x.cls items.length = true → (∀ l ∈ x.group, ∀ q, s.laneQuery l = some q → q.origin = none) →
      exec (.emit core sh f) s = .next (foldS items
        (s.putSheaf core sh { x.mapLanes x.groupNs (fun l => l.next 1) with lat := 1, held := false })
        (fun t i => t.toSource (.walk (core / 8)) x.cls i)))) ∧
  (∀ (s : State) (core : CoreNo) (sh : SheafNo) (x : Sheaf) (f : Fields), s.sheafMay core sh x false → isPDst f.d = true → f.a.toNat ≤ 8 →
    exec (.spawn core sh f) s = .next ((foldS x.group s (fun t l => match t.laneQuery l with
        | none => t
        | some q => (t.spawnLane core q l f.a.toNat).1.modLane (sheafKey core sh) l.n (fun y =>
            y.setPred (f.d.toNat - 32) (t.spawnLane core q l f.a.toNat).2))).modSheaf
      (sheafKey core sh) (fun y => { y.mapLanes x.groupNs (fun l => l.next 1) with lat := 2 }))) ∧
  (∀ (s : State) (core : Nat) (q : Query) (l : Lane) (a : Nat),
    let b : List SpawnRec := mgetD s.spawnBufs core []
    let cls := min 3 (s.classOf q.ctx (spawnRecord q l a) 0)
    (dSpawnDepth (s.ctx q.ctx).desc ≤ qDepth q.record → s.spawnLane core q l a = (s.countC q.ctx 8 1, false)) ∧
    (qDepth q.record < dSpawnDepth (s.ctx q.ctx).desc →
      (b.length < 64 → s.spawnedHeld q.ctx < dSpawnPool (s.ctx q.ctx).desc → s.mayTakeSlot cls q.ctx = true →
        s.spawnLane core q l a =
          (({ s with spawnBufs := mset s.spawnBufs core (b ++ [{ ctx := q.ctx, record := spawnRecord q l a }]) } : State).countC q.ctx 6 1, true)) ∧
      (64 ≤ b.length ∨ dSpawnPool (s.ctx q.ctx).desc ≤ s.spawnedHeld q.ctx ∨ s.mayTakeSlot cls q.ctx = false →
        (s.ovfTakesFresh q.ctx cls (s.freshRec cls (spawnRecord q l a) true []) = false →
          s.spawnLane core q l a = (s.countC q.ctx 1 1, false)) ∧
        (s.ovfTakesFresh q.ctx cls (s.freshRec cls (spawnRecord q l a) true []) = true → s.verdict q.ctx (spawnRecord q l a) true [] = .pass →
          s.spawnLane core q l a = ((s.countC q.ctx 7 1).writeDirect q.ctx cls (s.freshRec cls (spawnRecord q l a) true []), true)))))

/-- R243, R253, R268, R269: an illegal instruction kills the context that issues it, with the PC and the walk core in the record;
RET.H and MOVIH outside the images that permit them are illegal. A lane whose count of instructions reaches 2^20 is counted WALK_LONG
once and logged. A strand that ends is HALTED, and with CLOSE its context closes. -/
def Obligations.IllegalAndEnds : Prop :=
  (∀ (s : State) (c : CtxNo) (f : Fields), s.strandMay c [] false →
    exec (.illegalInstruction (.strand c)) s = .next (s.kill c 1 0xFFFF (s.ctx c).strand.pc 0) ∧
    exec (.retH (.strand c)) s = .next (s.kill c 1 0xFFFF (s.ctx c).strand.pc 0) ∧
    (f.minor.toNat = 1 → exec (.strandEnd c f) s = .next
      (let t := s.withStrand c { (s.ctx c).strand with pc := (s.ctx c).strand.pc + 1, lat := 1, state := .halted }
       if f.a.getLsbD 0 then t.close c else t))) ∧
  (∀ (s : State) (core : CoreNo) (sh : SheafNo) (x : Sheaf) (f : Fields), s.issuing core sh = some x →
    exec (.illegalInstruction (.sheaf core sh)) s = .next (s.kill x.cohort.ctx 1 core x.pc 0) ∧
    exec (.movih (.sheaf core sh) f) s = .next (s.kill x.cohort.ctx 1 core x.pc 0) ∧
    (x.handler = false → exec (.retH (.sheaf core sh)) s = .next (s.kill x.cohort.ctx 1 core x.pc 0))) ∧
  (∀ (s : State) (core : CoreNo) (sh : SheafNo) (n : LaneNo) (x : Sheaf) (l : Lane) (q : Query),
    mget s.sheaves (sheafKey core sh) = some x → x.lane n = some l → 1048576 ≤ l.icount → l.long = false → s.laneQuery l = some q →
    exec (.walkLong core sh n) s = .next (((s.modLane (sheafKey core sh) n (fun y => { y with long := true })).countC x.cohort.ctx 5 1).report
      0x12 2 x.cohort.ctx core 0xFFFF (qTag q.record).toNat))

/-- R296, R297, R304, R326, R364, R371: LD, ST and AMO make an access at the address their registers give, with the size, the
extension and the ordering that the minor field names, and go on. An access that need not wait leaves at once, as a read or a store of
the address, or of its part in each of the two lines in which it lies, each at the port of its line; one that must wait is held and
sends nothing. R296, R297: the data of a load or an atomic that has been sent goes to the register of the instruction, extended as its
SX says, and the accesses that waited for it are sent in program order. The failures counted for the lines it read are forgotten.
Rests on the model's choices of log entries 73, 74 and 110. -/
def Obligations.StrandMemory : Prop :=
  (∀ (s : State) (c : CtxNo) (f : Fields),
  let t := (s.ctx c).strand
  let m := f.minor
  (s.strandMay c [f.a.toNat, f.d.toNat] true → isX f.d = true → isX f.a = true → m.toNat < 32 →
    exec (.ld c f) s = .next ((s.withStrand c { t with pc := t.pc + 2, lat := 8 }).access c (t.reg f.a.toNat + f.imm.signExtend 64)
      f.d.toNat (m.getLsbD 2) (.load (2 ^ (m.toNat % 4)) (m.getLsbD 3) (m.getLsbD 4)))) ∧
  (s.strandMay c [f.a.toNat, f.b.toNat] true → isX f.a = true → isX f.b = true → m.toNat < 32 → m.getLsbD 2 = false →
    exec (.st c f) s = .next ((s.withStrand c { t with pc := t.pc + 2, lat := 1 }).access c (t.reg f.a.toNat + f.imm.signExtend 64)
      0 false (.store (bytesOf (t.reg f.b.toNat) (2 ^ (m.toNat % 4))) (m.getLsbD 3) (m.getLsbD 4)))) ∧
  (s.strandMay c [f.a.toNat, f.b.toNat, f.d.toNat] false → isX f.d = true → isX f.a = true → isX f.b = true →
    m.toNat % 16 ≤ 9 → 2 ≤ m.toNat / 16 % 4 → (t.reg f.a.toNat).toNat % 2 ^ (m.toNat / 16 % 4) = 0 →
    exec (.amo c f) s = .next ((s.withStrand c { t with pc := t.pc + 1, lat := 8 }).access c (t.reg f.a.toNat) f.d.toNat false
      (.amo (m.toNat % 16) (2 ^ (m.toNat / 16 % 4)) (extend (2 ^ (m.toNat / 16 % 4)) false (t.reg f.b.toNat))
        (extend (2 ^ (m.toNat / 16 % 4)) false (t.reg f.d.toNat)) (m.getLsbD 6) (m.getLsbD 7)))) ∧
  (∀ (a : DWord) (rd size : Nat) (sx acq chip : Bool), t.mustWait (.load size acq chip) a = [] →
    let k := 128 - a.toNat % 128
    let u := ({ s with nextId := s.nextId + 1 } : State).withStrand c { t with loads := t.loads ++
      [{ n := s.nextId, rd := rd, size := size, sx := sx, atomic := false, acq := acq }] }
    s.access c a rd sx (.load size acq chip) = (if size ≤ k then u.readFor c a (.load c s.nextId size acq chip)
      else (u.readFor c a (.load c s.nextId k acq chip)).readFor c (addr64 a k) (.load c s.nextId (size - k) acq chip))) ∧
  (∀ (a : DWord) (bs : List Byte) (rel chip : Bool), t.mustWait (.store bs rel chip) a = [] →
    let k := 128 - a.toNat % 128
    let put : DWord → List Byte → Output := fun b d => .store (s.fabricPort b) (s.asid c) b d s.nextId rel chip
    (s.access c a 0 false (.store bs rel chip)).out = (if bs.length ≤ k then put a bs :: s.out
      else put (addr64 a k) (bs.drop k) :: put a (bs.take k) :: s.out)) ∧
  (∀ (a : DWord) (rd : Nat) (sx : Bool) (w : Access), t.mustWait w a ≠ [] →
    (s.access c a rd sx w).out = s.out ∧
    ((s.access c a rd sx w).ctx c).strand.held = t.held ++ [{ n := s.nextId, after := t.mustWait w a, addr := a, what := w }])) ∧
  ((∀ (s : State) (c : CtxNo) (n : Nat) (data : DWord) (x : LoadRec),
    let t := (s.ctx c).strand
    t.loads.find? (fun y => y.n == n) = some x → t.held.any (fun h => h.n == n) = false →
    exec (.loadDataReturn c n data) s = .next ((s.withStrand c
      { t.set x.rd (extend x.size x.sx data) with
        loads := t.loads.filter (fun y => y.n != n)
        fails := (s.loadLines c n).foldl (fun m a => merase m a.toNat) t.fails }).accessDone c n)) ∧
  (∀ (d : DWord), extend 8 false d = d ∧ extend 4 true d = (d.extractLsb' 0 32).signExtend 64 ∧
    extend 1 false d = (d.extractLsb' 0 8).setWidth 64))

/-- R298, R375: RDC reads a receive counter; WAITC waits until the counter has reached rb, and WAITC.T also for a time, which it puts
into the countdown unless this serves as a deadline; a counter number above 15 answers 3. WAITC_MET ends the wait with 0 and gives the
countdown of a timed wait back. -/
def Obligations.ReceiveCounters : Prop :=
  ∀ (s : State) (c : CtxNo) (f : Fields),
  let t := (s.ctx c).strand
  let n := (t.reg f.a.toNat).toNat
  let on : Strand := { t with pc := t.pc + 1, lat := 2 }
  let put : DWord → Host.Outcome State Fault Refusal := fun v =>
    .next (s.withStrand c { t.set f.d.toNat v with pc := t.pc + 1, lat := 2 })
  (s.strandMay c [f.a.toNat, f.d.toNat] false → isX f.d = true → isX f.a = true → f.minor.toNat = 0 →
    exec (.rdc c f) s = put (if 15 < n then 3 else mgetD (s.ctx c).recv n 0)) ∧
  (s.strandMay c [f.a.toNat, f.b.toNat, f.d.toNat] false → isX f.d = true → isX f.a = true → isX f.b = true →
    (f.minor.toNat = 1 → 15 < n → exec (.waitc c f) s = put 3) ∧
    (f.minor.toNat = 1 → n ≤ 15 → exec (.waitc c f) s = .next (s.withStrand c
      { on with state := .waiting (.waitc f.d.toNat n (t.reg f.b.toNat) false) })) ∧
    (f.minor.toNat = 2 → 15 < n → exec (.waitcT c f) s = put 3) ∧
    (f.minor.toNat = 2 → n ≤ 15 → t.reg f.d.toNat = 0 →
      exec (.waitcT c f) s = put (if reached (mgetD (s.ctx c).recv n 0) (t.reg f.b.toNat) then 0 else 1)) ∧
    (f.minor.toNat = 2 → n ≤ 15 → t.reg f.d.toNat ≠ 0 → (s.ctx c).cdMode = .deadline → exec (.waitcT c f) s = put 2) ∧
    (f.minor.toNat = 2 → n ≤ 15 → t.reg f.d.toNat ≠ 0 → (s.ctx c).cdMode ≠ .deadline →
      exec (.waitcT c f) s = .next (s.setCtx c { s.ctx c with
        cdMode := .timer, cdVal := min (t.reg f.d.toNat).toNat 4294967295,
        strand := { on with state := .waiting (.waitc f.d.toNat n (t.reg f.b.toNat) true) } }))) ∧
  (∀ (rd k : Nat) (target : DWord), t.state = .waiting (.waitc rd k target false) →
    reached (mgetD (s.ctx c).recv k 0) target = true →
    exec (.waitcMet c) s = .next (s.withStrand c { t.set rd 0 with state := .ready, fails := [] })) ∧
  (∀ (rd k : Nat) (target : DWord), t.state = .waiting (.waitc rd k target true) →
    reached (mgetD (s.ctx c).recv k 0) target = true →
    exec (.waitcMet c) s = .next (s.setCtx c { s.ctx c with
      cdMode := .idle, cdVal := 0, strand := { t.set rd 0 with state := .ready, fails := [] } }))

/-- R303, R369, R370: FENCE makes the strand wait, and FENCE_DONE ends the wait once every load and atomic, for a release every
access, has been performed. LAUNCH, passed over while an earlier store or an acquire is outstanding, answers 2 for an entry above 63
and otherwise asks memory for the 32 bytes of its walk table entry. -/
def Obligations.FencesAndLaunch : Prop :=
  ∀ (s : State) (c : CtxNo) (f : Fields),
  let t := (s.ctx c).strand
  (s.strandMay c [] false → f.minor.toNat < 8 → f.minor.toNat % 4 ≠ 0 →
    exec (.fence c f) s = .next (s.withStrand c
      { t with pc := t.pc + 1, lat := 2, state := .waiting (.fence (f.minor.toNat % 4) (f.minor.getLsbD 2)) })) ∧
  (∀ (m : Nat) (chip : Bool), t.state = .waiting (.fence m chip) → t.loads = [] → (m ≠ 1 → t.stores = []) →
    exec (.fenceDone c) s = .next (s.withStrand c { t with state := .ready, fails := [] })) ∧
  (s.strandMay c [f.a.toNat, f.d.toNat] false → isX f.d = true → isX f.a = true →
    (t.quiet = false → exec (.launch c f) s = .next s) ∧
    (t.quiet = true → 63 < (t.reg f.a.toNat).toNat →
      exec (.launch c f) s = .next (s.withStrand c { t.set f.d.toNat 2 with pc := t.pc + 1, lat := 2 })) ∧
    (t.quiet = true → (t.reg f.a.toNat).toNat ≤ 63 →
      exec (.launch c f) s = .next ((s.withStrand c
        { t with pc := t.pc + 1, lat := 2, state := .waiting (.launch f.d.toNat (t.reg f.a.toNat).toNat) }).readFor c
        (addr64 (dWalkTable (s.ctx c).desc) (32 * (t.reg f.a.toNat).toNat)) (.walkEntry c (t.reg f.a.toNat).toNat))))

/-- R299, R315, R322: START (minor 0x02) runs an ARMED or STOPPED stream, releases the oldest full half of a RUNNING STAGE stream,
holds the START for the next half when none is full, counts one that finds two held, and changes nothing of another RUNNING one; STOP
(0x03) stops a RUNNING stream; CANCEL (0x04) ends one that is not IDLE while the strand waits; STAT (0x05) reads the state, a pending
REARM and the number of transfers of this arming that have not retired. A stream of another context answers 3, an IDLE one 6 to START
and STOP. R299, R300, R310, R370: ARM (minor 0x00) reads the descriptor image of an IDLE stream of the context, and answers 4 for one
that is not IDLE; an image that R310 refuses leaves 5 in rd, and an accepted one of a DELIVERY or PRELOAD stream makes it ARMED with
the image, its BASE and no tile issued. REARM (0x01) takes effect at once when nothing of the arming is left, else it is pending: 1,
or 2 when it replaces a pending one. Rests on the model's choices of log entries 46 and 47. -/
def Obligations.StreamCommands : Prop :=
  (∀ (s : State) (c : CtxNo) (f : Fields), s.strandMay c [f.a.toNat, f.d.toNat] false → isX f.d = true → isX f.a = true →
  let k := ((s.ctx c).strand.reg f.a.toNat).toNat
  let x := s.stream k
  let put : DWord → State := s.strandPut c f.d.toNat 2
  let on : State := s.withStrand c { (s.ctx c).strand with pc := (s.ctx c).strand.pc + 1, lat := 2 }
  (f.minor.toNat = 2 →
    (s.ownsStream c k = false → exec (.strmStart c f) s = .next (put 3)) ∧
    (s.ownsStream c k = true →
      (x.state = .idle → exec (.strmStart c f) s = .next (put 6)) ∧
      (x.state = .armed → exec (.strmStart c f) s = .next ((put 0).modStream k (fun y => { y with state := .running }))) ∧
      (x.state = .stopped → exec (.strmStart c f) s = .next
        (((on.modStream k (fun y => { y with state := .running })).settleStream k).setReg c f.d 0)) ∧
      (x.state = .running → smKind x.image ≠ 1 → exec (.strmStart c f) s = .next (put 0)) ∧
      (x.state = .running → smKind x.image = 1 →
        (∀ h t, x.fullHalves = h :: t → exec (.strmStart c f) s = .next (((on.releaseHalf k h).settleHalves k).setReg c f.d 0)) ∧
        (x.fullHalves = [] → x.heldStarts < 2 →
          exec (.strmStart c f) s = .next ((put 0).modStream k (fun y => { y with heldStarts := y.heldStarts + 1 }))) ∧
        (x.fullHalves = [] → 2 ≤ x.heldStarts → exec (.strmStart c f) s = .next ((on.countC x.owner 0xC 1).setReg c f.d 0))))) ∧
  (f.minor.toNat = 3 →
    (s.ownsStream c k = false → exec (.strmStop c f) s = .next (put 3)) ∧
    (s.ownsStream c k = true →
      (x.state = .idle → exec (.strmStop c f) s = .next (put 6)) ∧
      (x.state = .running → exec (.strmStop c f) s = .next ((put 0).modStream k (fun y => { y with state := .stopped }))) ∧
      (x.state = .armed ∨ x.state = .stopped → exec (.strmStop c f) s = .next (put 0)))) ∧
  (f.minor.toNat = 4 →
    (s.ownsStream c k = false → exec (.strmCancel c f) s = .next (put 3)) ∧
    (s.ownsStream c k = true →
      (x.state = .idle → exec (.strmCancel c f) s = .next (put 0)) ∧
      (x.state ≠ .idle → exec (.strmCancel c f) s = .next ((s.strandWaits c (.cancel f.d.toNat k)).cancelStream k)))) ∧
  (f.minor.toNat = 5 →
    (s.ownsStream c k = false → exec (.strmStat c f) s = .next (put 3)) ∧
    (s.ownsStream c k = true → exec (.strmStat c f) s = .next (put x.stat))) ∧
  (x.inflight.length < 4294967296 →
    x.stat.toNat % 4 = (match x.state with | .idle => 0 | .armed => 1 | .running => 2 | .stopped => 3) ∧
    x.stat.getLsbD 2 = x.pend.isSome ∧
    x.stat.toNat / 4294967296 = (x.inflight.filter (fun j => decide (x.tileBase ≤ j))).length)) ∧
  (∀ (s : State) (c : CtxNo) (f : Fields),
  (s.strandMay c [f.a.toNat, f.b.toNat, f.d.toNat] false → isX f.d = true → isX f.a = true → isX f.b = true →
    (s.ctx c).strand.quiet = true →
    let k := ((s.ctx c).strand.reg f.a.toNat).toNat
    let b := (s.ctx c).strand.reg f.b.toNat
    let x := s.stream k
    let put : DWord → State := s.strandPut c f.d.toNat 2
    let rest : Bool := x.issuedAll && x.again.isEmpty && x.inflight.isEmpty
    (f.minor.toNat = 0 →
      (s.ownsStream c k = false → exec (.strmArm c f) s = .next (put 3)) ∧
      (s.ownsStream c k = true →
        (x.state ≠ .idle → exec (.strmArm c f) s = .next (put 4)) ∧
        (x.state = .idle → exec (.strmArm c f) s = .next
          ((s.strandWaits c (.armImage f.d.toNat k b)).readFor c b (.streamImage c))))) ∧
    (f.minor.toNat = 1 →
      (s.ownsStream c k = false → exec (.strmRearm c f) s = .next (put 3)) ∧
      (s.ownsStream c k = true →
        (x.state = .idle → exec (.strmRearm c f) s = .next (put 6)) ∧
        (x.state ≠ .idle → rest = true → exec (.strmRearm c f) s = .next ((put 0).modStream k (fun y =>
          { y with base := b, pend := none, tileBase := y.nextTile, bases := (y.nextTile, b) :: y.bases }))) ∧
        (x.state ≠ .idle → rest = false → x.pend = none →
          exec (.strmRearm c f) s = .next ((put 1).modStream k (fun y => { y with pend := some b }))) ∧
        (x.state ≠ .idle → rest = false → x.pend ≠ none →
          exec (.strmRearm c f) s = .next ((((put 2).modStream k (fun y => { y with pend := some b }))).countC c 0xB 1))))) ∧
  (∀ (m : Line) (rd k : Nat) (b : DWord), let u := s.readBack c
    (u.ctx c).strand.state = .waiting (.armImage rd k b) →
    (imageBad m = true → exec (.streamImageRead c m) s = .next (u.strandWoken c rd 5)) ∧
    (imageBad m = false → smKind m ≠ 1 → exec (.streamImageRead c m) s = .next ((u.strandWoken c rd 0).modStream k
      (fun _ => { Stream.reset with state := .armed, owner := c, image := m, base := smBase m, bases := [(0, smBase m)] }))) ∧
    (imageBad m = false → smKind m = 1 → u.sceneUnread c (smScene m) = false → u.stageBad c m = true →
      exec (.streamImageRead c m) s = .next (u.strandWoken c rd 5)) ∧
    (imageBad m = false → smKind m = 1 → u.sceneUnread c (smScene m) = false → u.stageBad c m = false →
      exec (.streamImageRead c m) s = .next ((u.strandWoken c rd 0).modStream k
        (fun _ => { Stream.reset with state := .armed, owner := c, image := m, base := smBase m, bases := [(0, smBase m)] })))))

/-- R306, R307, R311 to R313, R316, R320, R332: a tile that a stall break took back is issued again, or else the next one that the
lead allows, and its transfer is asked for; the blocks of a staged tile go to the leaf handle queues of the groves that take it; a
tile complete adds its bytes to the receive counter that CNT_EN and COUNTER name; a retired transfer gives its slot up. R327: every
stream's rate becomes (3 · rate + bytes of the window) / 4 and its window starts again; nothing else of any stream, and nothing else
of the machine, changes. Rests on the model's choice of log entry 59. -/
def Obligations.StreamTransfers : Prop :=
  ((∀ (s : State) (k : StreamNo) (j : Nat) (t : List Nat), (s.stream k).issues = true → (s.stream k).again = j :: t →
    exec (.streamTileIssue k) s = .next ((s.modStream k (fun y => { y with again := t })).issueTile k j)) ∧
  (∀ (s : State) (k : StreamNo), (s.stream k).issues = false ∨ (s.stream k).again = [] →
    ((s.stream k).mayIssue = true → let x := s.stream k
      exec (.streamTileIssue k) s = .next ((s.modStream k (fun y => { y with
        nextTile := x.nextTile + 1, outstanding := y.outstanding ++ [x.nextTile], undone := y.undone ++ [x.nextTile] })).issueTile k x.nextTile)) ∧
    ((s.stream k).mayIssue = false → exec (.streamTileIssue k) s = .next s)) ∧
  (∀ (s : State) (k j : Nat), s.issueTile k j =
    ((s.modStream k (fun y => { y with inflight := y.inflight ++ [j] })).request (.tile k j) (s.stream k).owner
      (smClass (s.stream k).image)).streamDrain k) ∧
  (∀ (s : State) (k : StreamNo) (j : Nat) (ls : List Line), (s.stream k).state ≠ .idle → smKind (s.stream k).image = 1 →
    let x := s.stream k
    let u := s.linesBack (.tile k j)
    s.hasSlot (.tile k j) = true →
    (∀ d, u.bound x.owner (smScene x.image) = some d → sKeyed d = false →
      exec (.stagedTileInstall k j ls) s = .next (u.handTile k j
        ((stagedBlocks (((s.xferOf (.tile k j)).map (·.bad)).getD []) ((x.tileAddr j 0 - sLeafBase d).toNat / 128) 0 (smTileLines x.image)
          (ls.take (smTileLines x.image))).map (stagedBlock x k j)))) ∧
    (u.bound x.owner (smScene x.image) = none → exec (.stagedTileInstall k j ls) s = .next (u.finishXfer (.tile k j)))) ∧
  (∀ (s : State) (k : StreamNo) (j : Nat), s.tileDone k j = true → smKind (s.stream k).image = 3 →
    let x := s.stream k
    let m := x.image
    let t := s.modStream k (fun y => { y with undone := y.undone.filter (· != j), unacked := merase y.unacked j })
    exec (.tileComplete k j) s = .next ((if smCntEn m then t.modCtx x.owner (fun y => { y with
      recv := mset y.recv (smCounter m) (y.received (smCounter m) + BitVec.ofNat 64 (smTileBytes m)) }) else t).settleStream k)) ∧
  (∀ (s : State) (k : StreamNo) (j : Nat), s.tileDone k j = false → exec (.tileComplete k j) s = .next s) ∧
  (∀ (s : State) (n : Nat) (x : Xfer) (k j : Nat), s.xfers.find? (fun y => y.n == n && y.fin && !y.waiting) = some x →
    x.what = .tile k j → ((s.dropXfer n).drainStreams.stream k).state ≠ .idle →
    exec (.transferRetire n) s = .next ((((s.dropXfer n).drainStreams).modStream k (fun y => { y with
      inflight := y.inflight.filter (· != j),
      outstanding := if smKind y.image = 2 then y.outstanding.filter (· != j) else y.outstanding })).settleStream k)) ∧
  (∀ (s : State) (n : Nat), s.xfers.find? (fun y => y.n == n && y.fin && !y.waiting) = none →
    exec (.transferRetire n) s = .next s)) ∧
  (∀ (s : State), ∃ t, exec .streamRateUpdate s = .next t ∧ { t with streams := s.streams } = s ∧
    ∀ k, mget t.streams k = (mget s.streams k).map (fun x =>
      { x with rate := (3 * x.rate + x.windowBytes) / 4, consumed := 0, windowLookups := 0 }))

/-- R324, R325: a PRELOAD entry that cannot be preloaded here is skipped and counted PRELOAD_SKIPPED, one whose bough is resident or
under fill is done, and another waits for a slot; one that waits too long is skipped. R306, R332, R333: a wait cycle is broken at one
of its members whose hold can be broken and STALL_BREAK counts one for that member's context; records of a DELIVERY stream that were
written to the overflow area come back, in order, before those that arrived since, once the stream is no longer BLOCKED and the
transfer that reads them has its slot. Rests on the model's choices of log entries 48 and 77. -/
def Obligations.PreloadAndStalls : Prop :=
  ((∀ (s : State) (k : StreamNo) (entry : DWord), (s.stream k).state ≠ .idle → smKind (s.stream k).image = 3 →
    (s.stream k).cancelling = false → (s.stream k).plWait = none →
    (s.stream k).outstanding.contains ((s.stream k).plDone / smCount (s.stream k).image 0) = true →
    s.hasSlot (.tile k ((s.stream k).plDone / smCount (s.stream k).image 0)) = true →
    s.sceneUnread (s.stream k).owner (fld entry 0 16) = false →
    ((s.stream k).plDone + 1) % smCount (s.stream k).image 0 ≠ 0 →
    (s.entryBad (s.stream k).owner (fld entry 0 16) (fld entry 4 32) = true →
      exec (.preloadEntry k entry) s = .next ((s.countC (s.stream k).owner 0xE 1).modStream k Stream.entryDone)) ∧
    (s.entryBad (s.stream k).owner (fld entry 0 16) (fld entry 4 32) = false →
      (s.resident (s.preloadFill k entry).id || s.underFill (s.preloadFill k entry).id) = true →
      exec (.preloadEntry k entry) s = .next (s.modStream k Stream.entryDone)) ∧
    (s.entryBad (s.stream k).owner (fld entry 0 16) (fld entry 4 32) = false →
      (s.resident (s.preloadFill k entry).id || s.underFill (s.preloadFill k entry).id) = false →
      s.isCrownBough (s.preloadFill k entry).id = false →
      exec (.preloadEntry k entry) s = .next (s.modStream k (fun x => { x with plWait := some (entry, s.now) })))) ∧
  (∀ (s : State) (k : StreamNo) (e : DWord × Nat), (s.stream k).plWait = some e →
    exec (.preloadTimeout k) s = .next ((s.countC (s.stream k).owner 0xE 1).modStream k Stream.entryDone)) ∧
  (∀ (x : Stream), x.entryDone.plDone = x.plDone + 1 ∧ x.entryDone.plWait = none ∧ x.entryDone.consumed = x.consumed + 8)) ∧
  ((∀ (s : State) (k : StreamNo) (ms : List Nat), s.waitCycle k (s.streams.length + 1) k = some ms →
    (∃ j ∈ ms, s.breakStream j ≠ none) →
    ∃ j ∈ ms, ∃ u, s.breakStream j = some u ∧ exec (.stallBreak k) s = .next (u.countC (s.stream j).owner 0xF 1)) ∧
  (∀ (s : State) (k : StreamNo), s.waitCycle k (s.streams.length + 1) k = none → exec (.stallBreak k) s = .next s) ∧
  (∀ (s : State) (k : StreamNo) (r : Run) (ls : List Line), s.stallRun k = some (r, ls) →
    (s.stream k).spilled ≠ [] → s.blockedOn k = none →
    let x := s.stream k
    let w := XferWhat.run x.owner r.rseq
    let u := s.requestOnce w x.owner (smClass x.image)
    (u.hasSlot w = false → exec (.stallDataReadback k) s = .next u) ∧
    (u.hasSlot w = true → exec (.stallDataReadback k) s = .next ((((((u.linesBack w).finishXfer w).modOvf x.owner (fun o =>
      { o with runs := o.runs.map (fun y => if y.rseq == r.rseq then { y with stall := none } else y) })).modStream k (fun y =>
      { y with spilled := [], space := (recsOfLines x.spilled.length ls).zip x.spilled ++ y.space })).streamDrain k)))))

/-- R301, R370, R415, R417, R418: CRCSCAN (minor 0x00) asks for the parameter block, whatever channels are free; SCAN WAIT (0x01)
gives a finished channel back with 0, or 1 on a mismatch, and waits for one that is not finished or whose block is not yet written;
SUSPEND (0x02) writes the progress and a STATUS of 0 into the block and gives the channel back; STAT (0x03) tells whether the channel
runs and whether it ended in a mismatch. The last three answer 2 for a channel that the context does not hold. R413 to R416: the
parameter block is refused with 257, or else answers 256 while the context has no channel left, or starts a scan on the channel with
the block's NEXT, REMAIN, RUNNING and EXPECT; a chunk folds its bytes, in ascending order, into RUNNING, moves NEXT past them and
counts SCAN_BYTES; the scan goes on while bytes remain and finishes with the last. R416, R417: a scan that finishes holds the value of
its running register as RESULT; with CMP it is a mismatch exactly when RESULT differs from EXPECT, and then SCAN_MISMATCH is counted;
NEXT, REMAIN and RUNNING, RESULT, and last STATUS are written into the block. Rests on the model's choice of log entry 78. -/
def Obligations.Scans : Prop :=
  (∀ (s : State) (c : CtxNo) (f : Fields), s.strandMay c [f.a.toNat, f.d.toNat] false → isX f.d = true → isX f.a = true →
  let a := (s.ctx c).strand.reg f.a.toNat
  let ch := a.toNat
  let x := s.scan ch
  let put : DWord → State := s.strandPut c f.d.toNat 2
  let on := s.withStrand c { (s.ctx c).strand with pc := (s.ctx c).strand.pc + 1, lat := 2 }
  let written : Bool := s.completions.all (fun y => y.fin != .blockWrite ch)
  (f.minor.toNat = 0 → (s.ctx c).strand.quiet = true →
    exec (.crcscan c f) s = .next ((s.strandWaits c (.scanBlk f.d.toNat a)).readFor c a (.scanBlock c))) ∧
  (f.minor.toNat = 0 → (s.ctx c).strand.quiet = false → exec (.crcscan c f) s = .next s) ∧
  (f.minor.toNat = 1 →
    (s.holdsScan c ch = false → exec (.scanWait c f) s = .next (put 2)) ∧
    (s.holdsScan c ch = true → x.finished = true → written = true →
      exec (.scanWait c f) s = .next ((put (if x.mismatch then 1 else 0)).modScan ch (fun y => { y with held := false }))) ∧
    (s.holdsScan c ch = true → x.finished = false ∨ written = false →
      exec (.scanWait c f) s = .next (s.strandWaits c (.scanWait f.d.toNat ch)))) ∧
  (f.minor.toNat = 2 →
    (s.holdsScan c ch = false → exec (.scanSuspend c f) s = .next (put 2)) ∧
    (s.holdsScan c ch = true → exec (.scanSuspend c f) s = .next (((((on.writeTracked c
      [(addr64 x.block 8, scanProgress x), (addr64 x.block 3, [0])]).modScan ch
       (fun y => { y with held := false })).cancelXfers (fun w => w == .scan ch)).setReg c f.d 0)))) ∧
  (∀ (u : State) (a b : DWord) (p q : List Byte),
    (u.writeTracked c [(a, p), (b, q)]).out = .store (u.fabricPort b) (u.asid c) b q u.nextId false false ::
      .store (u.fabricPort a) (u.asid c) a p u.nextId false false :: u.out) ∧
  (f.minor.toNat = 3 →
    (s.holdsScan c ch = false → exec (.scanStat c f) s = .next (put 2)) ∧
    (s.holdsScan c ch = true → exec (.scanStat c f) s = .next (put (if x.finished then (if x.mismatch then 2 else 0) else 1))))) ∧
  ((∀ (s : State) (c : CtxNo) (b : Rec64) (rd : Nat) (a : DWord), let u := s.readBack c
    (u.ctx c).strand.state = .waiting (.scanBlk rd a) →
    (blockBad b = true → exec (.scanBlockRead c b) s = .next (u.strandWoken c rd 257)) ∧
    (blockBad b = false → u.freeScan c = none → exec (.scanBlockRead c b) s = .next (u.strandWoken c rd 256)) ∧
    (∀ ch, blockBad b = false → u.freeScan c = some ch →
      let t := ((u.modScan ch (fun y =>
        { held := true, ctx := c, block := a, next := pbNext b, remain := pbRemain b, running := pbRunning b,
          poly := fld b 1 8 == 1, cmp := fbit b 16 1 == 1, notify := fbit b 17 1 == 1, expect := pbExpect b, result := 0,
          finished := false, mismatch := y.mismatch, failed := false })).writeTracked c [(addr64 a 3, [0])]).strandWoken c rd
            (BitVec.ofNat 64 ch)
      exec (.scanBlockRead c b) s = .next (if pbRemain b = 0 then t.finishScan ch else t.request (.scan ch) c 3))) ∧
  (∀ (s : State) (ch : ScanNo) (data : List Byte), (s.scan ch).held = true → (s.scan ch).finished = false →
    s.hasSlot (.scan ch) = true →
    let x := s.scan ch
    let bs := data.take (min 4096 x.remain)
    let t := (((s.linesBack (.scan ch)).modScan ch (fun y => { y with
      running := scanFold y.poly y.running bs, next := addr64 y.next bs.length, remain := y.remain - bs.length })).countC
        x.ctx 0x29 bs.length).finishXfer (.scan ch)
    exec (.scanChunkArrive ch data) s = .next (if x.remain = bs.length then t.finishScan ch else t.request (.scan ch) x.ctx 3)) ∧
  (∀ (poly : Bool) (r : DWord) (a b : List Byte), scanFold poly r (a ++ b) = scanFold poly (scanFold poly r a) b)) ∧
  (∀ (s : State) (ch : Nat), (s.scan ch).failed = false →
  let x := s.scan ch
  let result := scanResult x.poly x.running
  let bad := x.cmp && result != x.expect
  let t := s.finishScan ch
  t.scan ch = { x with finished := true, mismatch := bad, result := result } ∧
  (x.notify = false → ∃ n, t.out.take 3 =
    [.store (s.fabricPort (addr64 x.block 3)) (s.asid x.ctx) (addr64 x.block 3) [if x.cmp then (if bad then 2 else 1) else 3] n false false,
     .store (s.fabricPort (addr64 x.block 40)) (s.asid x.ctx) (addr64 x.block 40) (bytesOf result 8) n false false,
     .store (s.fabricPort (addr64 x.block 8)) (s.asid x.ctx) (addr64 x.block 8) (scanProgress x) n false false] ∧ t.out.drop 3 = s.out) ∧
  (bad = false → t.ctxs = s.ctxs ∧ t.integ = s.integ) ∧
  (bad = true → mgetD (t.ctx x.ctx).cnt 0x2A 0 = satAdd (mgetD (s.ctx x.ctx).cnt 0x2A 0) 1))

/-- R302, R396, R452: XBEGIN opens the lowest-numbered free transaction on a bound scene of the context, counts TXN_BEGUN and leaves
its number in rd; beyond MAX_TXN or the 64 slots it answers 2^32 + 7, for a handle that is not bound 2^32 + 8. XSTAT tells the cause
of an abort, or 0; XABORT ends a transaction, one that has aborted with its cause; both answer 6 for a number that names none of the
context. XWTPEND counts the lines to be written through and XWTWAIT waits until there is none. Rests on the model's choice of log
entry 83. -/
def Obligations.Transactions : Prop :=
  ∀ (s : State) (c : CtxNo) (f : Fields),
  let put : DWord → State := s.strandPut c f.d.toNat 2
  (s.strandMay c [f.a.toNat, f.d.toNat] false → isX f.d = true → isX f.a = true → f.minor.toNat = 0 →
    let h := ((s.ctx c).strand.reg f.a.toNat).toNat
    let mine := (s.txns.filter (fun e => e.2.ctx == c.toNat)).length
    s.sceneUnread c h = false →
    (s.bound c h = none → exec (.xbegin c f) s = .next (put (BitVec.ofNat 64 (2 ^ 32 + 8)))) ∧
    (s.bound c h ≠ none → dMaxTxn (s.ctx c).desc ≤ mine → exec (.xbegin c f) s = .next (put (BitVec.ofNat 64 (2 ^ 32 + 7)))) ∧
    (s.bound c h ≠ none → mine < dMaxTxn (s.ctx c).desc → mfree s.txns 64 = none →
      exec (.xbegin c f) s = .next (put (BitVec.ofNat 64 (2 ^ 32 + 7)))) ∧
    (∀ n, s.bound c h ≠ none → mine < dMaxTxn (s.ctx c).desc → mfree s.txns 64 = some n →
      let x : Txn := { ctx := c, scene := h, order := s.nextId, aborted := none, committing := false }
      exec (.xbegin c f) s = .next ((({ s with nextId := s.nextId + 1, txns := mset s.txns n x } : State).countC c 0x1B 1).strandPut
        c f.d.toNat 2 (BitVec.ofNat 64 n)))) ∧
  (s.strandMay c [f.d.toNat] false → isX f.d = true →
    let t := ((s.ctx c).strand.reg f.d.toNat).toNat
    let on := s.withStrand c { (s.ctx c).strand with pc := (s.ctx c).strand.pc + 1, lat := 2 }
    (f.minor.toNat = 5 →
      (s.txnOf c t = none → exec (.xstat c f) s = .next (put 6)) ∧
      (∀ x, s.txnOf c t = some x → exec (.xstat c f) s = .next (put (BitVec.ofNat 64 (x.aborted.getD 0))))) ∧
    (f.minor.toNat = 4 →
      (s.txnOf c t = none → exec (.xabort c f) s = .next (put 6)) ∧
      (∀ x k, s.txnOf c t = some x → x.aborted = some k →
        exec (.xabort c f) s = .next { put (BitVec.ofNat 64 k) with txns := merase s.txns t }) ∧
      (∀ x, s.txnOf c t = some x → x.aborted = none →
        exec (.xabort c f) s = .next (({ on.abortTxn t 5 with txns := merase (on.abortTxn t 5).txns t } : State).setReg c f.d 0))) ∧
    (f.minor.toNat = 6 → exec (.xwtpend c f) s = .next (put (BitVec.ofNat 64 (s.wtPending c)))) ∧
    (f.minor.toNat = 7 →
      (s.wtPending c = 0 → exec (.xwtwait c f) s = .next (put 0)) ∧
      (s.wtPending c ≠ 0 → exec (.xwtwait c f) s = .next (s.strandWaits c (.xwtwait f.d.toNat)))))

/-- R302, R370, R397 to R399, R404, R411: XWRITE.NODE and XWRITE.LEAF name a line of the scene of an open transaction: a bough that
does not exist answers 8, a line that another open transaction has written aborts this one with cause 3, and otherwise the source line
is asked for, once the memory line has its buffer line. The line that comes is the buffer line's new content. Rests on the model's
choice of log entry 87. -/
def Obligations.TransactionWrites : Prop :=
  ∀ (s : State) (c : CtxNo) (f : Fields),
  (s.strandMay c [f.a.toNat, f.b.toNat, f.d.toNat] false → isX f.d = true → isX f.a = true → isX f.b = true →
    (s.ctx c).strand.quiet = true →
    let t := ((s.ctx c).strand.reg f.d.toNat).toNat
    let target := (s.ctx c).strand.reg f.a.toNat
    let src := (s.ctx c).strand.reg f.b.toNat
    let on := s.withStrand c { (s.ctx c).strand with pc := (s.ctx c).strand.pc + 1, lat := 2 }
    let put : DWord → State := s.strandPut c f.d.toNat 2
    let res : Bool → State := fun leaf => match s.txnOf c t with
      | none => put 6
      | some x => match x.aborted with
        | some k => put (BitVec.ofNat 64 k)
        | none => match xwriteAddr ((s.bound c x.scene).getD 0) leaf target.toNat with
          | none => put 8
          | some a =>
            if s.conflicts c t a then (on.abortTxn t 3).modStrand c (fun y => y.set f.d.toNat 3)
            else if (s.ownLineAt t a).isSome then (s.strandWaits c (.xwrite f.d.toNat t leaf target src)).request (.line c src) c 0
            else
              let u := on.claimLine t x leaf false target.toNat a
              match (u.txnOf c t).bind (·.aborted) with
              | some k => u.modStrand c (fun y => y.set f.d.toNat (BitVec.ofNat 64 k))
              | none => (u.waitOn c (.xwrite f.d.toNat t leaf target src)).request (.line c src) c 0
    (f.minor.toNat = 1 → exec (.xwriteNode c f) s = .next (res false)) ∧
    (f.minor.toNat = 2 → exec (.xwriteLeaf c f) s = .next (res true))) ∧
  (∀ (line : Line) (rd t : Nat) (leaf : Bool) (target src : DWord) (x : Txn) (a : DWord) (n : Nat) (l : BufLine),
    let v := s.readBack c
    (v.ctx c).strand.state = .waiting (.xwrite rd t leaf target src) → v.hasSlot (.line c src) = true →
    v.txnOf c t = some x → x.aborted = none → xwriteAddr ((v.bound c x.scene).getD 0) leaf target.toNat = some a →
    v.ownLineAt t a = some (n, l) → l.owned = true → v.injSramArmed 2 none = none →
    exec (.xwriteReadDone c line) s = .next ((({ v.clearMark 2 0 n with
      txnBuf := mset v.txnBuf n { l with data := line, ue := false } } : State).finishXfer (.line c src)).strandWoken c rd 0))

/-- R302, R394, R398, R401, R402: XCOMMIT of an open transaction makes it COMMITTING, claims the trailer lines of the boughs it edited
and makes the strand wait; of an aborted one it answers the cause. The commit point gives the context its next epoch, makes every line
of the write set COMMITTED with that epoch, frees the transaction, counts TXN_COMMITTED and leaves 0 in rd; it waits while a version
of the context is 2^31 − 1 epochs old, while a line of the write set is not owned, and for the lines of memory that a recomputed
trailer needs. R306, R382, R387, R404, R407 to R409: a COMMITTED line that is due asks for a transfer; with a slot for it, an owned
memory line and room in the departure buffer it is written through; a line that the engine has lost or shares is asked for first. A
line that is not due, or not COMMITTED, stays. The acknowledgement frees the buffer line, counts TXN_WT_LINES, gives what it served
the tag 0 and ends an XWTWAIT that waits for nothing more. Rests on the model's choices of log entries 31, 89 and 90. -/
def Obligations.CommitLines : Prop :=
  (∀ (s : State) (c : CtxNo),
  (∀ (f : Fields), s.strandMay c [f.d.toNat] false → isX f.d = true → f.minor.toNat = 3 →
    let t := ((s.ctx c).strand.reg f.d.toNat).toNat
    (s.txnOf c t = none → exec (.xcommit c f) s = .next (s.strandPut c f.d.toNat 2 6)) ∧
    (∀ x k, s.txnOf c t = some x → x.aborted = some k →
      exec (.xcommit c f) s = .next { s.strandPut c f.d.toNat 2 (BitVec.ofNat 64 k) with txns := merase s.txns t }) ∧
    (∀ x, s.txnOf c t = some x → x.aborted = none →
      let d := (s.bound c x.scene).getD 0
      exec (.xcommit c f) s = .next (foldS ((s.editedBoughs t).map (· / 8)).dedup
        { s.strandWaits c (.xcommit f.d.toNat t) with txns := mset s.txns t { x with committing := true } }
        (fun u n => match u.txnOf c t with
          | none => u
          | some y => if y.aborted.isSome then u else u.claimLine t y false true n (addr64 (sTrailerBase d) (128 * n)))))) ∧
  (∀ (rd t : Nat) (x : Txn) (mem : List (DWord × Line)), let v := s.readBack c
    (v.ctx c).strand.state = .waiting (.xcommit rd t) → v.txnOf c t = some x →
    (v.epochHeld c = true ∨ (∃ e ∈ v.openLines t, e.2.owned = false) → exec (.commitPoint c mem) s = .next v) ∧
    (v.epochHeld c = false → (∀ e ∈ v.openLines t, e.2.owned = true) →
      let d := (v.bound c x.scene).getD 0
      let names := ((v.editedBoughs t).map (· / 8)).dedup
      let read := foldS ((v.openLines t).filter (fun e => !e.2.leaf && !e.2.trailer)) v (fun u e => u.readBuf e.1 none)
      let new := names.map (fun n => (n, read.newTrailerLine t c x.scene d mem n))
      ((∀ e ∈ new, e.2 ≠ none) → exec (.commitPoint c mem) s = .next (read.commitNow t c rd (new.foldl (fun m e => mset m e.1 (e.2.getD 0)) []))) ∧
      ((∃ e ∈ new, e.2 = none) → exec (.commitPoint c mem) s = .next v))) ∧
  (∀ (t rd : Nat) (tr : FMap Line),
    let u := s.commitNow t c rd tr
    (u.ctx c).epoch = ((s.ctx c).epoch + 1) % 4294967296 ∧
    (u.ctx c).strand = { (s.ctx c).strand.set rd 0 with state := .ready, fails := [] } ∧
    u.txns = merase s.txns t ∧
    (∀ n l, mget s.txnBuf n = some l → l.state = .open t → l.trailer = false →
      mget u.txnBuf n = some { l with state := .committed, version := ((s.ctx c).epoch + 1) % 4294967296 }) ∧
    (∀ n l, mget s.txnBuf n = some l → l.state ≠ .open t → mget u.txnBuf n = some l) ∧
    u.pool = s.pool ∧ u.out = s.out)) ∧
  ((∀ (s : State) (n : Fin 32768) (l : BufLine), mget s.txnBuf n = some l →
    (l.state = .committed → s.wtDue l = true →
      exec (.writeThroughDue n) s = .next ((s.requestOnce (.through n) l.ctx 0).wtGo n)) ∧
    (l.state ≠ .committed ∨ s.wtDue l = false → exec (.writeThroughDue n) s = .next s) ∧
    (l.state = .writing →
      let u : State := (((({ s with txnBuf := merase s.txnBuf n } : State).clearMark 2 0 n).count 44 1).finishXfer (.through n))
      exec (.writeThroughAck n) s = .next ((if l.leaf then u.rekeyBlocks l else u.rekeyBoughs l).settleWt l.ctx)) ∧
    (l.state ≠ .writing → exec (.writeThroughAck n) s = .next s)) ∧
  (∀ (u : State) (n : Nat) (l : BufLine), mget u.txnBuf n = some l →
    let a := u.bufRLine l
    (∀ e x, u.dirAt a = some e → e.state ≠ .ownedShared → u.mayWrite n = true → u.xferOf (.through n) = some x →
      u.wtGo n = (u.modXfer x.n (fun y => { y with out := 1 })).wtWrite n l e) ∧
    (∀ e, u.dirAt a = some e → e.state ≠ .ownedShared → u.mayWrite n = false → u.wtGo n = u) ∧
    (∀ e, u.dirAt a = some e → e.state = .ownedShared → u.ringAsked a = false → u.wtGo n = u.upgradeLine a (.writeThrough n)) ∧
    (u.dirAt a = none → u.ringAsked a = false → u.wtGo n = (if l.owned then u else u.countC l.ctx 0x23 1).readOwn a (.writeThrough n)) ∧
    ((∀ e, u.dirAt a = some e → e.state = .ownedShared) → u.ringAsked a = true → u.wtGo n = u)))

/-- R196, R231, R375, R447, R448, R451, R500: a write in the ingest range before READY is retried. A window of a context lies at
INGEST_BASE + 2^20 n + 2^16 w. A write to an OFF window, or to a context that is not OPEN, is discarded and counted; one to a QUERY
window puts its bytes into the window and adds their number to the receive counter; one to a COMMAND window goes on to memory, and the
counter advances when it has been performed there. A window whose context may not take more is retried and counted. R447: the bytes of
a window are a ring of 65,536: a written byte is the one read at every position that is its offset modulo 65,536, and no other byte of
the window changes. -/
def Obligations.Ingest : Prop :=
  ((∀ (s : State) (hi : Word) (n : CtxNo) (lo : BitVec 20) (data : List Byte),
    let addr : DWord := hi ++ BitVec.ofNat 12 n ++ lo
    (s.dev.stage ≠ .ready → exec (.ingestWrite hi n lo data) s = .next (s.emit .retry)) ∧
    (s.dev.stage = .ready → exec (.ingestWrite hi n lo data) s = .next (foldS (pieces 65536 (addr - s.dev.ingestBase) data) s (fun u p =>
      if p.1.toNat < 4294967296 then u.windowWrite (p.1.toNat / 1048576) (p.1.toNat / 65536 % 16) (p.1.toNat % 65536)
        (addr64 u.dev.ingestBase p.1.toNat) p.2 else u)))) ∧
  (∀ (s : State) (c : CtxNo) (w : WindowNo) (off : Nat) (data : List Byte), s.dev.stage = .ready → data ≠ [] → off + data.length ≤ 65536 →
    let a := addr64 s.dev.ingestBase (1048576 * c + 65536 * w + off)
    ∀ (hi : Word) (n : CtxNo) (lo : BitVec 20), hi ++ BitVec.ofNat 12 n ++ lo = a →
    exec (.ingestWrite hi n lo data) s = .next (s.windowWrite c w off a data)) ∧
  (∀ (s : State) (c w off : Nat) (a : DWord) (data : List Byte),
    let u := s.noteIngest a data
    ((s.ctx c).state ≠ .opened ∨ s.winKind c w = 0 → s.windowWrite c w off a data = u.countC c 9 1) ∧
    ((s.ctx c).state = .opened → s.winKind c w ≠ 0 → s.stalls c = true → s.windowWrite c w off a data = (s.emit .retry).countC c 0 1) ∧
    ((s.ctx c).state = .opened → s.winKind c w ≠ 0 → s.stalls c = false →
      (s.winKind c w ≠ 2 → s.windowWrite c w off a data = u.setCtx c { s.ctx c with
        wins := mset (s.ctx c).wins w (((s.ctx c).win w).put off data)
        recv := mset (s.ctx c).recv w ((s.ctx c).received w + BitVec.ofNat 64 data.length) }) ∧
      (s.winKind c w = 2 →
        let t := s.windowWrite c w off a data
        let b := addr64 (dCmdBase (s.ctx c).desc) (65536 * w + off)
        t.out = .write (s.fabricPort b) (s.asid c) b data :: s.out ∧
        ((t.ctx c).win w).cmdPend = ((s.ctx c).win w).cmdPend ++ [data.length] ∧ (t.ctx c).received w = (s.ctx c).received w)) ∧
    u.ctxs = s.ctxs ∧ u.out = s.out) ∧
  (∀ (s : State) (c : CtxNo) (w : WindowNo), s.ghosts = [] →
    (∀ n l, ((s.ctx c).win w).cmdPend = n :: l →
      exec (.commandBytesPerformed c w) s = .next (s.setCtx c { s.ctx c with
        wins := mset (s.ctx c).wins w { (s.ctx c).win w with cmdPend := l }
        recv := mset (s.ctx c).recv w ((s.ctx c).received w + BitVec.ofNat 64 n) })) ∧
    (((s.ctx c).win w).cmdPend = [] → exec (.commandBytesPerformed c w) s = .next s)) ∧
  (∀ (s : State) (c : CtxNo) (w : WindowNo), s.ghosts.any (fun g => g.2 == cmdGhost c w) = true →
    exec (.commandBytesPerformed c w) s = .next (s.ghostDone (cmdGhost c w)))) ∧
  (∀ (w : Window) (off : Nat) (data : List Byte), data.length ≤ 65536 →
  (∀ i b, data[i]? = some b → (w.put off data).byteAt (off + i) = some b) ∧
  (∀ p, (∀ i, i < data.length → (off + i) % 65536 ≠ p % 65536) → (w.put off data).byteAt p = w.byteAt p))

/-- R29, R31 to R33, R58 to R61, R69 to R71, R195, R196, R251, R449: ADMIT_RECORD takes the complete record at the head of a QUERY
window, with DEPTH 0 and its reserved bits 0. A record that a check refuses, and one that ends MISS at once, leave the window and a
chain for the collector; one that passes leaves the window once the pool or the overflow area has taken it, and stays while neither
does. A descriptor or walk entry not yet read is asked for. SPAWN_ADMIT does the same for the first spawn buffer of its rotation whose
head can go on. While records of both kinds wait that can be taken, the two alternate. Rests on the model's choices of log entries 40,
65 and 66. -/
def Obligations.Admission : Prop :=
  (∀ (s : State) (c : CtxNo) (w : WindowNo) (r0 : Rec64) (ext : List Byte), (s.ctx c).admits = true → s.winKind c w = 1 →
    ((s.ctx c).win w).head = some (r0, ext) →
    let r := withDepth r0 0
    let n := 64 + extBytes r
    let cls := s.classOf c r 0
    (s.sched.spawnLast = false → s.spawnReady = true → exec (.admitRecord c w) s = .next s) ∧
    (s.sched.spawnLast = true ∨ s.spawnReady = false →
      (∀ j, s.verdict c r false ext = .refused j → exec (.admitRecord c w) s = .next (((s.parsed c w n).toFrontEnd
        (refusedItem c (min 3 cls) (dDelivs (s.ctx c).desc) r false j)).noteAdmission false)) ∧
      (s.verdict c r false ext = .miss →
        exec (.admitRecord c w) s = .next (((s.parsed c w n).toFrontEnd (missItem c cls r false)).noteAdmission false)) ∧
      (∀ u, s.verdict c r false ext = .pass → s.admitPassed c cls r false (dataUnitsOf r ext) .frontEnd = some u →
        exec (.admitRecord c w) s = .next ((u.parsed c w n).noteAdmission false)) ∧
      (s.verdict c r false ext = .pass → s.admitPassed c cls r false (dataUnitsOf r ext) .frontEnd = none →
        exec (.admitRecord c w) s = .next s) ∧
      (∀ k, s.verdict c r false ext = .needWalk k → exec (.admitRecord c w) s = .next (s.askWalk c k)) ∧
      (∀ h, s.verdict c r false ext = .needScene h → exec (.admitRecord c w) s = .next (s.askScene c h) ∧
        ((s.ctx c).blocked = true → s.askScene c h = s) ∧
        ((s.ctx c).blocked = false → let t := s.askScene c h
          (t.ctx c).blocked = true ∧ t.out = .read (s.fabricPort (addr64 (dSceneTable (s.ctx c).desc) (64 * h))) (s.asid c)
            (addr64 (dSceneTable (s.ctx c).desc) (64 * h)) (.sceneDesc c h) :: s.out)))) ∧
  (∀ (s : State) (c : CtxNo) (w : WindowNo), ((s.ctx c).win w).head = none → exec (.admitRecord c w) s = .next s) ∧
  (∀ (s u : State), s.sched.spawnLast = false ∨ s.ingestReady = false → s.spawnOrder.findSome? s.admitSpawned = some u →
    exec .spawnAdmit s = .next u) ∧
  (∀ (s : State), (s.sched.spawnLast = true ∧ s.ingestReady = true) ∨ s.spawnOrder.findSome? s.admitSpawned = none →
    exec .spawnAdmit s = .next s) ∧
  (∀ (s : State) (core : Nat), mgetD s.spawnBufs core [] = [] → s.admitSpawned core = none) ∧
  (∀ (s u : State) (core : Nat) (b : SpawnRec) (rest : List SpawnRec), mgetD s.spawnBufs core [] = b :: rest →
    s.verdict b.ctx b.record true [] = .pass →
    s.admitPassed b.ctx (s.classOf b.ctx b.record 0) b.record true [] .frontEnd = some u →
    s.admitSpawned core = some (u.spawnTaken core rest)) ∧
  (∀ (s u : State) (c cls : Nat) (r : Rec64) (spawned : Bool) (data : List Unit256) (src : Source), s.mayTakeSlot cls c = false →
    s.admitPassed c cls r spawned data src = some u →
    u = (s.writeDirect c cls (s.freshRec cls r spawned data)).count 4 1)

/-- R200 to R202, R205, R206, R324: FILL_ISSUE, once preload entries that need nothing more are done with, issues the least candidate
in the order of R202 when no waiting fill and no crown bough comes first, unless it is a DRIZZLE one while a fill waits for a transfer
slot; into a free slot, else into a victim's, and without either it waits before issue. With no candidate it issues the idle rule's
choice and counts it. A fill issued reserves its slot, counts FILLS and asks for a transfer. An age limit, the countdown of a context
and the end of a wait for a victim make candidates and slots as R200 and R206 say. R206, R207: the victim is a slot that holds a
testable bough, which is neither a crown bough nor reserved nor pinned and, unless the condition has been dropped, has no parked
member, in a grove in RUN and an octet that is not retired; no other such slot has a bough of lower use count. Rests on the model's
choices of log entries 43 and 44. -/
def Obligations.FillsStart : Prop :=
  ((∀ (s : State), let u := s.settlePreloads
    u.retryWaiting = none → u.crownDue = none →
    (∀ (c : Cohort), leastBy u.candKey u.candidates = some (.cohort c) →
      let f := u.cohortFill c
      (u.candClass (.cohort c) = 3 → u.fillWaits = true → exec .fillIssue s = .next u) ∧
      (u.candClass (.cohort c) ≠ 3 →
        (∀ k, u.chooseSlot = some k → exec .fillIssue s = .next (u.issueFill f [k])) ∧
        (∀ k, u.chooseSlot = none → u.victim false none = some k → exec .fillIssue s = .next ((u.leaveSlot k).issueFill f [k])) ∧
        (u.chooseSlot = none → u.victim false none = none →
          exec .fillIssue s = .next { u with fills := u.fills ++ [{ f with stage := .victim u.now false }] }))) ∧
    (leastBy u.candKey u.candidates = none → u.fillWaits = false →
      (u.idleChoice = none → exec .fillIssue s = .next u) ∧
      (∀ c, u.idleChoice = some c → exec .fillIssue s = .next ((u.issueOrWait (u.cohortFill c)).count 7 1)))) ∧
  (∀ (s : State) (f : Fill) (k : Nat), f.preload = none → s.issueFill f [k] =
    ((({ s with
        slots := mset s.slots k { s.slot k with next := some f.id }
        fills := s.fills.filter (fun x => x.id != f.id) ++ [{ f with targets := [k], stage := .xferWait, issued := s.now }] } : State).modCohort f.id
      (fun c => { c with forced := false, aged := false })).count 5 1).request (.fill f.id) f.id.ctx f.cls) ∧
  (∀ (s : State) (id : CohortId) (f : Fill) (since : Nat), s.fillOf id = some f → f.stage = .victim since false →
    (∀ u, s.tryFill f true = (u, true) → exec (.fillVictimTimeout id) s = .next u) ∧
    (s.chooseSlot = none → s.victim true (f.preload.map (fun _ => s.sched.fillT)) = none →
      exec (.fillVictimTimeout id) s = .next (s.modFill id (fun x => { x with stage := .victim since true })))) ∧
  (∀ (s : State) (id : CohortId) (c : Cohort), s.cohort id = some c →
    exec (.cohortAgeLimit id) s = .next (if s.fillable c = true ∧ s.cohortClass c < 3 then s.modCohort id (fun x => { x with aged := true }) else s)) ∧
  (∀ (s : State) (c : CtxNo), exec (.fillUrgent c) s = .next (if s.urgentNow c = true then { s with
      cohorts := s.cohorts.map (fun x => if x.id.ctx = c.toNat ∧ s.cohortClass x = 0 then { x with urgent := true } else x) } else s))) ∧
  (∀ (s : State) (anyMembers : Bool) (below : Option Nat) (k : Nat), s.victim anyMembers below = some k →
  let may : Nat × SlotRec → Prop := fun e => e ∈ s.slots ∧ e.2.takeable = true ∧ e.2.pinned = false ∧
    (anyMembers = false → s.slotMembers e.2 = false) ∧ (s.grove (groveOfSlot e.1)).state = .run ∧ s.retired (e.1 / 64) = false ∧
    (∀ t, below = some t → s.slotUse e.2 < t)
  ∃ r, may (k, r) ∧ ∀ e, may e → s.slotUse r ≤ s.slotUse e.2)

/-- R84, R85, R124, R405, R419 to R421, R525: the trailer tells how many node lines are asked for, 1 to 64; a line that returns is
kept as its version tag sees it and counted, and with the last one the bough is checked; one that fails its first check is fetched a
second time, and one that fails again is counted FILL_CHECK_FAIL; a bough of a scene that is not KEYED goes to its placement queue,
and one of a KEYED scene when it has been decrypted. Rests on the model's choice of log entry 26. -/
def Obligations.FillLines : Prop :=
  (∀ (s : State) (id : CohortId) (f : Fill) (d : Rec64) (line : Line), s.fillOf id = some f → s.bound id.ctx id.scene = some d →
    f.stage = .trailer →
    let u := s.takeLine id 64 line
    let tl := ((u.fillOf id).map (fun f => mgetD f.got 64 0)).getD 0
    let n := max 1 (min 64 (fld (trailerOf tl id.bough) 4 8))
    exec (.trailerReturn id line) s = .next
      (let v := (u.modFill id (fun x => { x with stage := .lines, count := some n })).lineBack (.fill id)
       match v.xferOf (.fill id) with
       | some x => (v.giveWork x.n (nodeWork d id n)).pumpLines
       | none => v) ∧
    1 ≤ n ∧ n ≤ 64) ∧
  (∀ (s : State) (id : CohortId) (n : Fin 65) (f : Fill) (line : Line), s.fillOf id = some f → f.stage = .lines →
    mget f.got n = none → (n.toNat = 64 ∨ n.toNat < f.count.getD 0) →
    exec (.fillLineReturn id n line) s = .next (((s.takeLine id n line).lineBack (.fill id)).checkFill id)) ∧
  (∀ (s : State) (id : CohortId) (f : Fill) (d : Rec64), s.fillOf id = some f → s.bound id.ctx id.scene = some d →
    (f.complete = false → s.checkFill id = s) ∧
    (f.complete = true → boughCheckOk d id.bough f.lines (trailerOf (mgetD f.got 64 0) id.bough) = true → f.forcedBad = false →
      f.attempt = 0 → sKeyed d = false → s.checkFill id = s.enterHandles f.id) ∧
    (f.complete = true → boughCheckOk d id.bough f.lines (trailerOf (mgetD f.got 64 0) id.bough) = false → f.attempt = 0 →
      trailerFirst d id (((s.cohort id).map (·.clines)).getD 0) = false →
      s.checkFill id = ((s.finishXfer (.fill id)).modFill id (fun x => { x with
        attempt := 1, got := [], forcedBad := false, fails := [], stage := .xferWait })).request (.fill id) id.ctx f.cls) ∧
    (f.complete = true → boughCheckOk d id.bough f.lines (trailerOf (mgetD f.got 64 0) id.bough) = false → f.attempt = 1 →
      sDrop d = true → s.checkFill id = (s.count 62 1).dropBough f)) ∧
  (∀ (s : State) (id : CohortId) (f : Fill) (k : KeySlot), s.fillOf id = some f → s.keyOf id.ctx = some k → f.stage = .decrypt →
    exec (.decryptDone id) s = .next ((s.modFill id (fun x => { x with
      got := mmap x.got (fun n l => if n < 64 then decryptNode k id.bough n l else l) })).enterHandles id))

/-- R23, R160 to R162, R178, R179, R331: the bough at the head of a grove's placement queue is written into its reserved slot once the
slot is empty, and waits while it is not; it can be tested only after BOUGH_TESTABLE, whose reading of the lines corrects an error, or
else finds that they cannot be used and invalidates the slot; a slot that is left is freed once no sheaf of its bough has lanes, and
then holds nothing but its reservation. Rests on the model's choice of log entry 115. -/
def Obligations.BoughSlots : Prop :=
  (∀ (s : State) (g : GroveNo) (h : HEntry CohortId) (rest : List (HEntry CohortId)) (f : Fill) (d : Rec64) (k : Nat), mgetD s.hq g [] = h :: rest →
    s.fillOf h.item = some f → s.bound h.item.ctx h.item.scene = some d →
    f.stage = .handle → f.targets.find? (fun t => groveOfSlot t == g.toNat && !f.placed.contains t) = some k →
    ((s.slot k).occ ≠ none → exec (.placementCapture g) s = .next s) ∧
    ((s.slot k).occ = none → exec (.placementCapture g) s =
      .next ((((({ s with hq := mset s.hq g rest } : State).retryHeld g).ensureEntry h.item 0).1).placeBough k h.item f d))) ∧
  (∀ (s : State) (o : OctetNo) (sl : SlotNo), (s.slot (slotKey o sl)).occ ≠ none → (s.slot (slotKey o sl)).testable = false →
    (s.slot (slotKey o sl)).leaving = false →
    ∀ (errs : List (Fin 64 × EccError)),
    let k := slotKey o sl
    let res := s.readLines k (fun n => (errs.find? (fun e => e.1.val == n)).map (·.2)) (List.range (s.slot k).lines.length)
    (res.2 = false → exec (.boughTestable o sl errs) s = .next (res.1.modSlot k (fun r => { r with testable := true }))) ∧
    (res = (s, false) → exec (.boughTestable o sl errs) s =
      .next { s with slots := mset s.slots k { s.slot k with testable := true } }) ∧
    (res.2 = true → exec (.boughTestable o sl errs) s = .next (res.1.invalidate k))) ∧
  (∀ (s : State) (o : OctetNo) (sl : SlotNo), (s.slot (slotKey o sl)).leaving = true →
    (s.slotBusy (slotKey o sl) = true → exec (.victimSlotFreed o sl) s = .next s) ∧
    (s.slotBusy (slotKey o sl) = false → exec (.victimSlotFreed o sl) s = .next (s.vacate (slotKey o sl)))) ∧
  (∀ (s : State) (k : Nat), (s.vacate k).slots = (if (s.slot k).next = none then merase s.slots k
    else mset s.slots k { SlotRec.reset with next := (s.slot k).next }))

/-- R24, R188, R211, R212, R215, R216, R241: SHEAF_RELEASE reads the slots of the members that it takes, ending each query whose slot
cannot be read, and forms a sheaf of up to 32 members that run one walk image, one to a lane, in the first free sheaf slot of the walk
core chosen; every other sheaf, the contexts and the placement slots are as they were. Without a sheaf to release, because none can be
formed or because R212 or R215 holds it back, nothing happens. Rests on the model's choices of log entries 44 and 120. -/
def Obligations.SheafRelease : Prop :=
  (∀ (s : State) (id : CohortId) (g : GroveNo) (c : Cohort) (ms : List (Nat × Query)) (w : Nat) (errs : List (Fin 524288 × EccError)),
    s.cohort id = some c → s.releaseOf c g = some (ms, w) →
    let u := foldS ms s (fun t e => t.readSlot e.1 (((errs.map (fun x => (x.1.val, x.2))).find? (fun x => x.1 == e.1)).map (·.2)))
    exec (.sheafRelease id g errs) s = .next (match u.cohort id with
      | none => u
      | some c => u.releaseSheaf c g)) ∧
  (∀ (s : State) (id : CohortId) (g : GroveNo) (c : Cohort) (ms : List (Nat × Query)) (w i : Nat),
    s.cohort id = some c → s.releaseOf c g = some (ms, w) → (s.freeSheafSlots w).head? = some i → (∀ p, s.spineMark p = none) →
    ∃ t x, exec (.sheafRelease id g []) s = .next t ∧
      mget t.sheaves (sheafKey w i) = some x ∧ x.cohort = c.id ∧ x.cls = groupClass ms ∧ x.wait = .ready ∧
      x.lanes.map (·.slot) = ms.map (·.1) ∧ x.lanes.map (·.n) = List.range x.lanes.length ∧
      x.lanes.length ≤ 32 ∧ (∀ k, k ≠ sheafKey w i → mget t.sheaves k = mget s.sheaves k) ∧
      t.ctxs = s.ctxs ∧ t.slots = s.slots ∧ t.out = s.out) ∧
  (∀ (s : State) (id : CohortId) (g : GroveNo) (errs : List (Fin 524288 × EccError)),
    (∀ c, s.cohort id = some c → s.releaseOf c g = none) → exec (.sheafRelease id g errs) s = .next s) ∧
  (∀ (s : State) (c : Cohort) (g w : Nat) (ms : List (Nat × Query)), s.nextSheaf c g = some ms → s.chooseCore g = some w →
    ((2 ≤ groupClass ms → s.displayWaits g = false) → (ms.length ≠ 32 → s.fullWaits g (groupClass ms) = false) →
      s.releaseOf c g = some (ms, w)) ∧
    ((2 ≤ groupClass ms ∧ s.displayWaits g = true) ∨ (ms.length ≠ 32 ∧ s.fullWaits g (groupClass ms) = true) → s.releaseOf c g = none))

/-- R192, R193, R204, R207, R537: at the end of an interval the written parameters take effect, every use count is halved, the counts
of the interval start again, and T doubles when fills took more than three quarters of the lines of the interval, up to FILL_T_MAX. No
query and no context changes. Rests on the model's choice of log entry 45. -/
def Obligations.IntervalEnd : Prop :=
  ∀ (s : State), ∃ t, exec .intervalEnd s = .next t ∧
    t.sched.intervals = s.sched.intervals + 1 ∧ t.sched.params = s.sched.pend ∧
    t.sched.ivFillLines = 0 ∧ t.sched.ivStarve = 0 ∧ t.sched.ivLeafWait = 0 ∧ t.sched.ivPfIssued = 0 ∧ t.sched.ivPfUnused = 0 ∧
    t.cohorts = s.cohorts.map (fun c => { c with endUse := c.useCount, useCount := c.useCount / 2 }) ∧
    t.pool = s.pool ∧ t.ctxs = s.ctxs ∧ t.out = s.out ∧
    (s.sched.tInit = true → t.sched.fillT = nth s.sched.pend 6 0) ∧
    (s.sched.tInit = false → s.param 9 ≠ 1 → t.sched.fillT = s.sched.fillT) ∧
    (s.sched.tInit = false → s.param 9 = 1 → 6291456 < s.sched.ivFillLines * 4 →
      t.sched.fillT = if s.sched.fillT < s.param 8 then s.sched.fillT * 2 else s.sched.fillT)

/-- R218, R219, R223 to R225, R227, R306: during a squall one run of the cohort and class that R218 chooses is spilled; when its
writes are acknowledged the members' slots are free; an open fresh run closes and is written at the tail of the area; and when no
squall holds and no deadline cut reads runs, the run that R223 chooses asks for a transfer, and with a slot for it comes back into the
pool, counted RELOADED, or ends as lost when it cannot be read. R219 to R221: a run is placed at the tail of the area when it ends
inside it, and else at line 0 after a PAD run that reaches to the end; its number is the one that the area gave next, and the tail
stands after it. Rests on the model's choices of log entries 10 and 104. -/
def Obligations.Overflow : Prop :=
  ((∀ (s : State), s.sched.squall = false → exec .spillCohort s = .next s) ∧
  (∀ (s : State) (c : Cohort) (cls : Nat), s.sched.squall = true → s.spillChoice = some (c, cls) →
    exec .spillCohort s = .next (s.spillMembers c.id (s.membersOfClass c cls) cls)) ∧
  (∀ (s : State) (c : CtxNo) (rseq : Nat) (r : Run), (s.ctx c).ovf.runs.find? (fun y => y.rseq == rseq) = some r →
    r.written = false → s.hasSlot (.run c rseq) = true → (s.ctx c).cut = none →
    let u := (s.linesBack (.run c rseq)).modOvf c (fun o => { o with
      runs := o.runs.map (fun y => if y.rseq == rseq then { y with written := true } else y) })
    exec (.spillAcknowledged c rseq) s = .next ((foldS (u.pool.filter (fun e => e.2.ctx == c.toNat && e.2.place == .spilling rseq)) u
      (fun v e => v.releaseSlot e.1)).finishXfer (.run c rseq))) ∧
  (∀ (s : State) (c : CtxNo) (cls : QClass), mget (s.ctx c).ovf.fresh cls = none → exec (.freshRunClose c cls) s = .next s) ∧
  (∀ (s : State) (c : CtxNo) (cls : QClass) (f : FreshRun), mget (s.ctx c).ovf.fresh cls = some f →
    let o := { (s.ctx c).ovf with fresh := merase (s.ctx c).ovf.fresh cls }
    exec (.freshRunClose c cls) s = .next (s.addRuns c o.nextRseq
      (o.place (dOvfLines (s.ctx c).desc) cls true 0xFFFF 0xFFFFFFFF 0 f.recs true).2 (fun _ => true))) ∧
  (∀ (s : State) (a b : RunRead), s.sched.squall = true ∨ s.cutReads = true ∨ s.reloadChoice = none → exec (.reloadRun a b) s = .next s) ∧
  (∀ (s : State) (a b : RunRead) (c : Nat) (run : Run), s.sched.squall = false → s.cutReads = false → s.reloadChoice = some (c, run) →
    let w := XferWhat.run c run.rseq
    let u := (s.exposeHead c).requestOnce w c run.cls
    (u.hasSlot w = false → exec (.reloadRun a b) s = .next u) ∧
    (u.hasSlot w = true → run.rereads = 0 →
      (∀ n, runLost a b = some n →
        exec (.reloadRun a b) s = .next (let t := (u.readRun c run a).loseRun c run.rseq n
          { t with sched := { t.sched with reloadRot := (c + 1) % 4096 } })) ∧
      (∀ v, runLost a b = none → s.unreadOf c run = none →
        State.reloadAll c run run.recs ((u.readRun c run a).dropRun c run.rseq) = some v →
        exec (.reloadRun a b) s = .next (let t := v.count 15 run.recs.length
          { t with sched := { t.sched with reloadRot := (c + 1) % 4096 } }))))) ∧
  (∀ (o : Ovf) (size cls scene bough tag : Nat) (fresh written : Bool) (rs : List OvfRec), o.tail < size → runLines rs ≤ size →
  let p := o.place size cls fresh scene bough tag rs written
  ∃ r, p.2.runs.getLast? = some r ∧ r.rseq = p.1 ∧ r.recs = rs ∧ r.lines = runLines rs ∧ r.start + r.lines ≤ size ∧
    p.2.nextRseq = p.1 + 1 ∧ p.2.tail = (r.start + r.lines) % size ∧ p.2.tail < size ∧ p.2.count = o.count ∧
    (o.tail + runLines rs ≤ size → r.start = o.tail ∧ p.1 = o.nextRseq ∧ p.2.runs.length = o.runs.length + 1) ∧
    (size < o.tail + runLines rs → r.start = 0 ∧ p.1 = o.nextRseq + 1 ∧ p.2.runs.length = o.runs.length + 2))

/-- R338, R341, R359: COLLECTOR_TAKE_HEAD, whose read of the first head may find an error, takes the first offer, in the order of the
rotation, that can be taken; what stands before it stays, and nothing is taken when no source offers anything. A chain waits while
emissions of its query still wait. One whose entry R337 refuses is dropped, counted DELIVERY_INVALID, and frees its slot; one of a
RECORD entry with slots is taken once the BIN share holds its records and the delivery ports have room for its lines. Rests on the
model's choices of log entries 41 and 116. -/
def Obligations.CollectorHeads : Prop :=
  (∀ (s u v : State) (err : Option EccError) (pre post : List (Nat × Nat × CItem)) (k j : Nat) (i : CItem),
    s.collRead err (s.allHeads.head?.map (fun x => .item x.1 x.2.1)) = u → u.allHeads = pre ++ (k, j, i) :: post →
    (∀ x ∈ pre, u.accept x.2.2 = (u, false)) → u.accept i = (v, true) →
    exec (.collectorTakeHead err) s = .next ((v.popHead k j).taken' i)) ∧
  (∀ (s : State) (err : Option EccError), s.allHeads = [] → exec (.collectorTakeHead err) s = .next s) ∧
  (∀ (s : State) (c e cls status : Nat) (slot : Option Nat) (recs : List Rec32) (exc known late ints : Bool) (tag user0 user1 : Word)
      (x : Deliv) (d : Rec64),
    mget (s.ctx c).delivs e = some x → x.raw = some d →
    let i : CItem := .chain c e slot cls status recs exc known tag user0 user1 late ints
    (s.heldBack i = true → s.accept i = (s, false)) ∧
    (s.heldBack i = false → x.valid = false → s.accept i = ((s.invalidItem c e 1).freeChain slot, true)) ∧
    (s.heldBack i = false → x.valid = true → deMode d = 1 → deTarget d = 0 → exc = false →
      let a := addr64 (deDest d) (32 * 2 ^ deSlotLog d * ((tag >>> deShift d).toNat % deLimit d))
      let ws := pieces 128 a (recBytes (recs.take (2 ^ deSlotLog d)))
      let ls := (ws.filter (fun w => w.2.length == 128 || !decide (deSlotLog d < 2))).map (·.1)
      let fits := decide (s.binUsed + 32 * min recs.length (2 ^ deSlotLog d) ≤ 65536 * s.shareBin)
      let room := fits || recs.isEmpty
      (room = true → s.portsRoom cls ls = true → s.accept i =
        ((((s.slotChain c e cls d tag recs).frameChain c e d).freeChain slot).writeSpine collLine, true)) ∧
      (room = true → s.portsRoom cls ls = false → s.accept i = (s, false)) ∧
      (room = false → s.accept i = (s, false))))

/-- R344: the chains for the exception ring are decided one after another, and a chain that comes while others wait waits behind them.
EXC_CONSUMED_READ, with the count read again, decides the record that asked for it: it is written if the ring has room by that count,
and otherwise it is dropped, counted EXC_DROPPED, before those after it are decided. A record that finds the ring full asks for the
count; one that finds room is written at the count of records written, modulo the ring's size. R337, R346 to R349, R352, R357: a
delivery entry that is read is kept with what R337 says of it, and a GRID entry whose cells find no room is logged; a key entry is
kept with what R348 says of it. The age of a tile and of a combining window closes them, a tile with its partial flag, after a read
that may find an error in it; the consumed count of a full ring lets the tiles that now fit be written. Rests on the model's choices
of log entries 30 and 62. -/
def Obligations.CollectorEnds : Prop :=
  ((∀ (s u : State) (c : CtxNo) (e : EntryNo) (consumed : DWord) (d : Rec64) (w : ExcWait) (r : Rec32) (l : List Rec32) (t : List ExcWait),
    s.readBack c = u → (u.deliv c e).raw = some d → (u.deliv c e).excWait = w :: t → w.rest = r :: l →
    let v := u.modDeliv c e (fun x => { x with excConsumed := consumed.toNat })
    ((v.deliv c e).excRoom d = true → exec (.excConsumedRead c e consumed) s = .next (v.excDrain c e d)) ∧
    ((v.deliv c e).excRoom d = false → exec (.excConsumedRead c e consumed) s =
      .next (((v.modDeliv c e (fun x => { x with excWait := { w with rest := l } :: t })).excDrop c e).excDrain c e d))) ∧
  (∀ (s u : State) (c : CtxNo) (e : EntryNo) (consumed : DWord) (d : Rec64), s.readBack c = u → (u.deliv c e).raw = some d →
    (u.deliv c e).excWait = [] →
    exec (.excConsumedRead c e consumed) s = .next (u.modDeliv c e (fun x => { x with excConsumed := consumed.toNat }))) ∧
  (∀ (s : State) (c e : Nat) (d : Rec64) (w : ExcWait) (r : Rec32) (l : List Rec32) (t : List ExcWait),
    (s.deliv c e).excWait = w :: t → w.rest = r :: l → (s.deliv c e).excRoom d = false →
    s.excDrain c e d = s.readFor c (addr64 (deExcCnt d) 8) (.excConsumed c e)) ∧
  (∀ (s u : State) (c e cls n : Nat) (d : Rec64) (rs : List Rec32), s.addCompletion c cls 1 (.counter (deExcCnt d) 0 (deChip d)) = (n, u) →
    (u.deliv c e).excWait ≠ [] → s.excChain c e cls d rs = (u.carries n e []).modDeliv c e (fun x =>
      { x with excWait := x.excWait ++ [{ n := n, cls := cls, rest := rs }] })) ∧
  (∀ (s : State) (c e cls n : Nat) (d : Rec64) (r : Rec32),
    s.excPut c e cls n d r = ((s.modDeliv c e (fun x => { x with excN := x.excN + 1 })).modCompletion n (Completion.grown e r)).collPiece
      c cls n true (addr64 (deExcBase d) (32 * ((s.deliv c e).excN % 2 ^ deExcLog d))) (bytesOf r 32))) ∧
  ((∀ (s r : State) (c : CtxNo) (e : EntryNo) (entry : Rec64) (x : Deliv), s.readBack c = r → mget (r.ctx c).delivs e = some x → x.raw = none →
    let ok := r.deliveryOk c entry
    let fits := deMode entry != 4 || decide (r.gridUsed + 2048 * deLimit entry ≤ 65536 * r.shareGrid)
    let u := r.setCtx c { r.ctx c with delivs := mset (r.ctx c).delivs e { x with raw := some entry, valid := ok, gridOk := fits } }
    exec (.deliveryEntryFetch c e none entry) s = .next (if ok && !fits then u.report 0x15 2 c 0xFFFF 0xFFFF e else u)) ∧
  (∀ (s r : State) (c : CtxNo) (e : EntryNo) (k : BitVec 16) (entry d : Rec64), s.readBack c = r → (r.deliv c e).raw = some d →
    (r.binKey c e k.toNat).keyEntry = none → (r.binKey c e k.toNat).waiting ≠ [] →
    exec (.deliveryEntryFetch c e (some k) entry) s = .next ((r.modBin c e k.toNat (fun b => { b with
      keyEntry := some (entry.setWidth 256), keyBad := !keyEntryOk (entry.setWidth 256) })).writeTiles c e k.toNat d)) ∧
  (∀ (s : State) (c : CtxNo) (e : EntryNo) (k : BitVec 16) (d : Rec64) (err : Option EccError), (s.deliv c e).raw = some d →
    (deAge d = 0 ∨ (s.binKey c e k.toNat).openTile = none → exec (.binAgeFlush c e k err) s = .next s) ∧
    (∀ u t, deAge d ≠ 0 → (s.binKey c e k.toNat).openTile ≠ none →
      s.collRead err (some (.tile c e k.toNat (s.binKey c e k.toNat).waiting.length)) = u →
      (u.binKey c e k.toNat).openTile = some t → (u.binKey c e k.toNat).keyEntry ≠ none →
      exec (.binAgeFlush c e k err) s = .next ((u.modBin c e k.toNat (fun b => { b with
        openTile := none, waiting := b.waiting ++ [{ t with partialFlush := decide (t.entries.length < deN d) }] })).writeTiles c e k.toNat d))) ∧
  (∀ (s r : State) (c : CtxNo) (e : EntryNo) (k : BitVec 16) (consumed : DWord) (d : Rec64) (ke : Rec32), s.readBack c = r →
    (r.deliv c e).raw = some d → (r.binKey c e k.toNat).keyEntry = some ke →
    ((r.binKey c e k.toNat).full = false → exec (.binRingReread c e k consumed) s = .next r) ∧
    ((r.binKey c e k.toNat).full = true →
      let u := (r.modBin c e k.toNat (fun b => { b with consumed := consumed.toNat })).writeTiles c e k.toNat d
      exec (.binRingReread c e k consumed) s = .next
        (if (u.binKey c e k.toNat).waiting.length = (r.binKey c e k.toNat).waiting.length then u.readTiles c e k.toNat ke else u))) ∧
  (∀ (s : State) (c : CtxNo) (e : EntryNo) (d : Rec64) (err : Option EccError), (s.deliv c e).raw = some d →
    ((s.deliv c e).window = none → exec (.accumWindowClose c e err) s = .next s) ∧
    (∀ u w, (s.deliv c e).window ≠ none → s.collRead err (some (.update c e 0)) = u → (u.deliv c e).window = some w →
      exec (.accumWindowClose c e err) s = .next
      (foldS ((w.ups.map (·.index)).reverse.dedup.reverse) (u.modDeliv c e (fun x => { x with window := none }))
        (fun u i => u.accSend c e 0 d i (mergeUpdates (deOp d) (deEtype d) (w.ups.filter (fun y => y.index == i))))))))

/-- R340, R364, R371: an acknowledgement takes one from the writes that a completion still waits for; the last one ends the
completion, and then adds to the completion counter of a delivery, or frees the strand's accesses that waited for its store, and lets
go the messages that waited for it. An add to a counter that joins no add of the same FAB cycle goes to the counter's port; one that
does is added to it. The end of an element's write acknowledges one write of its chain. Rests on the model's choice of log entry 63. -/
def Obligations.WriteAcknowledgements : Prop :=
  (∀ (s : State) (n : Nat), s.completions.any (fun y => y.n == n) = false → exec (.writeAcknowledged n) s = .next (s.ghostDone n)) ∧
  (∀ (s : State) (n : Nat) (x : Completion), s.completions.find? (fun y => y.n == n) = some x →
    let u : State := { s with completions := s.completions.filter (fun y => y.n != n) }
    (1 < x.left → exec (.writeAcknowledged n) s =
      .next { s with completions := s.completions.map (fun y => if y.n == n then { y with left := y.left - 1 } else y) }) ∧
    (∀ k j p, x.left ≤ 1 → x.fin = .element k j p →
      exec (.writeAcknowledged n) s = .next ((u.followMsgs n (fun v => v.completed x)).ackOne p).1) ∧
    (x.left ≤ 1 → (∀ k j p, x.fin ≠ .element k j p) →
      exec (.writeAcknowledged n) s = .next (u.followMsgs n (fun v => v.completed x)) ∧
      (∀ v, u.completed x = v → v.msgs = [] → exec (.writeAcknowledged n) s = .next v))) ∧
  (∀ (u : State) (x : Completion), x.fin = .nothing → u.completed x = u) ∧
  (∀ (u : State) (x : Completion), x.fin = .store → u.completed x = (u.withStrand x.ctx { (u.ctx x.ctx).strand with
    stores := (u.ctx x.ctx).strand.stores.filter (· != x.n) }).accessDone x.ctx x.n) ∧
  (∀ (u : State) (x : Completion) (a : DWord) (k : Nat) (chip : Bool), x.fin = .counter a k chip →
    let q := mgetD u.ports (u.deliveryPort a) []
    let same : HEntry PortItem → Bool := fun e => (match e.item with
      | .atomic asid b .add 1 _ _ (some c) t => asid == u.asid x.ctx && b == a && c == chip && t == u.now
      | _ => false)
    (k = 0 → u.completed x = u) ∧
    (k ≠ 0 → q.any same = true → u.completed x =
      { u with ports := mset u.ports (u.deliveryPort a) (q.map (fun e => if same e then { e with item := e.item.plus k } else e)) }) ∧
    (k ≠ 0 → q.any same = false → ∃ t, u.completed x = t ∧
      (mgetD t.ports (u.deliveryPort a) []).getLast? = some
        { cls := x.cls, esc := (hqRoom q x.cls).getD true,
          item := .atomic (u.asid x.ctx) a .add 1 (BitVec.ofNat 64 k) u.nextId (some chip) u.now } ∧
      t.completions = u.completions ++ [{ n := u.nextId, ctx := x.ctx, cls := x.cls, left := 1, fin := .nothing, fails := 0, chain := none }]))

/-- R382, R383, R385, R386, R411, R500: before READY the ring agents accept no snoop. SNOOP_SHARED of a line that the engine holds is
answered with its data and leaves it OWNED_SHARED; SNOOP_OWN and SNOOP_INVAL are answered with the data, the line is gone from the
directory, and an open transaction that has written it aborts; a line on its way out is answered from the departure buffer; one that
the engine does not hold, or for which its request is outstanding, with no data. An EVICT_ACK frees its entry of the departure buffer.
What waited for any of this then goes on; while the block is calm nothing waits. R379, R380, R383, R388, R404, R408: a grant answers
the oldest request for its line that has been issued: the line enters the directory with its data, for the collector, whose waiting
writes are then merged, or for the buffer line of the transaction or of the write-through that asked, which becomes owned; a granted
upgrade makes the line MODIFIED, with the data of the ring if a snoop has crossed the request. Requests that waited for a way of the
set are tried again. Rests on the model's choices of log entries 28, 29, 41, 109 and 111. -/
def Obligations.Coherence : Prop :=
  ((∀ (u : State), u.calm → u.settleAll = u) ∧
  ∀ (s : State) (asid : Word) (addr : DWord),
  let a : RLine := { asid := asid.toNat, addr := lineOf addr }
  let told : State → Option Line → State := fun u d => u.emit (.snoopAnswer (s.ringStop (lineOf addr)) (lineOf addr) d)
  (s.dev.stage ≠ .ready → exec (.snoopShared addr asid) s = .next s ∧ exec (.snoopOwn addr asid) s = .next s.settleAll ∧
    exec (.snoopInval addr asid) s = .next s.settleAll) ∧
  (s.dev.stage = .ready →
  (s.depart.find? (fun d => d.addr == a) = none → s.unsettled a = false → s.dirAt a = none →
    exec (.snoopShared addr asid) s = .next (told s none) ∧
    exec (.snoopOwn addr asid) s = .next (told s none).settleAll ∧
    exec (.snoopInval addr asid) s = .next (told s none).settleAll) ∧
  (s.depart.find? (fun d => d.addr == a) = none → s.unsettled a = true →
    let crossed : State := { s with ringPend := s.ringPend.map (fun r => if r.addr == a && !r.waiting then { r with crossed := true } else r) }
    exec (.snoopShared addr asid) s = .next (told s none) ∧
    exec (.snoopOwn addr asid) s = .next (told crossed none).settleAll ∧
    exec (.snoopInval addr asid) s = .next (told crossed none).settleAll) ∧
  (∀ e, s.depart.find? (fun d => d.addr == a) = none → s.unsettled a = false → s.dirAt a = some e →
    exec (.snoopShared addr asid) s = .next ((told { s with
      dir := s.dir.map (fun x => if x.addr == a then { x with state := .ownedShared } else x) } (some e.data)).count 39 1)) ∧
  (∀ e, s.depart.find? (fun d => d.addr == a) = none → s.unsettled a = false → s.dirAt a = some e →
    (∀ w ∈ s.ownWrites, w.addr ≠ a) →
    let gone : State := (told { s with dir := s.dir.filter (fun x => x.addr != a) } (some e.data)).count 39 1
    let lost : State := { gone with txnBuf := mmap s.txnBuf (fun _ l => if s.bufRLine l == a then { l with owned := false } else l) }
    exec (.snoopInval addr asid) s = exec (.snoopOwn addr asid) s ∧
    (e.user = .departing → exec (.snoopOwn addr asid) s = .next gone.pumpRing.settleAll) ∧
    (e.user = .transaction → e.pinned = false → exec (.snoopOwn addr asid) s = .next lost.pumpRing.settleAll) ∧
    (∀ t, e.user = .transaction → e.pinned = true → s.openOwner a = some t → (∀ w ∈ (lost.abortTxn t 3).ownWrites, w.addr ≠ a) →
      exec (.snoopOwn addr asid) s = .next (lost.abortTxn t 3).pumpRing.settleAll) ∧
    (e.user = .collector →
      exec (.snoopOwn addr asid) s = .next ({ gone with taken := s.taken ++ [a] } : State).pumpRing.settleAll)) ∧
  (∀ d, s.depart.find? (fun d => d.addr == a) = some d →
    exec (.snoopShared addr asid) s = .next (((told s (some d.data)).count 41 1).count 39 1) ∧
    exec (.snoopInval addr asid) s = .next (((told { s with
      depart := s.depart.map (fun x => if x.addr == a then { x with dropped := true } else x) } (some d.data)).count 40 1).count 39 1).settleAll ∧
    exec (.snoopOwn addr asid) s = exec (.snoopInval addr asid) s)) ∧
  (s.depart.any (fun d => d.addr == a) = true →
    exec (.evictAck addr asid) s = .next ({ s with depart := s.depart.eraseP (fun d => d.addr == a) } : State).pumpDepart.pumpRing.settleAll) ∧
  (s.depart.any (fun d => d.addr == a) = false → exec (.evictAck addr asid) s = .next s.settleAll)) ∧
  ((∀ (s : State) (asid : Word) (addr : DWord) (data : Line),
    s.ringPend.find? (fun r => r.addr == { asid := asid.toNat, addr := lineOf addr } && !r.waiting) = none →
    exec (.ringGrant addr data asid) s = .next s.settleAll) ∧
  ∀ (s : State) (asid : Word) (addr : DWord) (data : Line) (r : RingPend),
  s.ringPend.find? (fun r => r.addr == { asid := asid.toNat, addr := lineOf addr } && !r.waiting) = some r →
  let u : State := { s with ringPend := s.ringPend.erase r }
  let entry : LineUser → Bool → DirEntry := fun use pin =>
    { addr := r.addr, state := .exclusive, user := use, pinned := pin, used := 0, data := data, written := 0 }
  let entered : LineUser → Bool → State := fun use pin => ({ u with dir := s.dir ++ [entry use pin] } : State).useLine r.addr
  (r.upgrade = false → r.use = .coll → s.dirAt r.addr = none →
    exec (.ringGrant addr data asid) s = .next ((entered .collector false).mergeAll r.addr).pumpRing.settleAll) ∧
  (∀ n l, r.upgrade = false → r.use = .txn n → s.dirAt r.addr = none → mget s.txnBuf n = some l → s.bufRLine l = r.addr →
    exec (.ringGrant addr data asid) s = .next (({ entered .transaction (!l.committed) with
      txnBuf := mset s.txnBuf n { l with owned := true } } : State).mergeAll r.addr).pumpRing.settleAll) ∧
  (∀ n l, r.upgrade = false → r.use = .writeThrough n → s.dirAt r.addr = none → mget s.txnBuf n = some l → s.bufRLine l = r.addr →
    l.state = .committed →
    exec (.ringGrant addr data asid) s = .next ((({ entered .transaction false with
      txnBuf := mset s.txnBuf n { l with owned := true } } : State).mergeAll r.addr).wtGo n).pumpRing.settleAll) ∧
  (r.upgrade = true →
    let v := ({ u with dir := s.dir.map (fun x => if x.addr == r.addr then { x with
      state := .modified, data := if r.crossed then data else x.data } else x) } : State).mergeAll r.addr
    (r.use = .coll → exec (.ringGrant addr data asid) s = .next v.pumpRing.settleAll) ∧
    (∀ n, r.use = .writeThrough n → exec (.ringGrant addr data asid) s = .next (v.wtGo n).pumpRing.settleAll)))

/-- R239, R440 to R443, R446, R500, R504, R511: OPEN of a CLOSED context reads its descriptor; one of a context that is not CLOSED, or
while opens are refused, leaves code 8 and nothing else. When the descriptor and the image of its sequencer have been read the context
is OPEN, its strand READY at the image's entry with the context's number in x1 and the address of the descriptor in x2, or it is
CLOSED with the code of the first check that failed. Before READY the register answers as R500 says. Rests on the model's choices of
log entries 37, 54 and 118. -/
def Obligations.ContextOpen : Prop :=
  (∀ (s : State) (c : CtxNo), s.dev.stage = .ready → ((s.ctx c).state ≠ .closed ∨ s.openBarred = true) →
    exec (.ctxOpen c) s = .next (s.modCtx c (fun x => { x with openCode := 8 })).settleAll) ∧
  (∀ (s : State) (c : CtxNo), s.dev.stage = .ready → (s.ctx c).state = .closed → s.openBarred = false →
    exec (.ctxOpen c) s = .next ((s.modCtx c (fun x => { x with state := .opening, pendKill := false, pendClose := false, killAsids := [] })).readAs
      s.dev.drvAsid.toNat (addr64 s.dev.ctxTableBase (256 * c)) (.ctxDesc c)).settleAll) ∧
  (∀ (s : State) (c : CtxNo), s.dev.stage = .bringup → exec (.ctxOpen c) s = .next (s.emit .retry)) ∧
  (∀ (s : State) (c : CtxNo) (rd : OpenRead), (s.ctx c).state = .opening → s.openCodeOf c rd ≠ 0 →
    exec (.openComplete c rd) s = .next (let u := s.readSeqImage c rd; u.setCtx c { Context.reset with
      openCode := s.openCodeOf c rd, cnt := (u.ctx c).cnt, endCause := (u.ctx c).endCause }).settleAll) ∧
  (∀ (s : State) (c : CtxNo) (rd : OpenRead) (d : Unit256) (h : Rec64), (s.ctx c).state = .opening → s.openCodeOf c rd = 0 →
    rd.desc = some d → rd.header = some h → (s.ctx c).pendKill = false → (s.ctx c).pendClose = false → s.dev.unlock ≠ .killing →
    (s.ctx c).killAsids.contains (dAsid d) = false →
    exec (.openComplete c rd) s = .next (let u := s.readSeqImage c rd; u.setCtx c { Context.reset with
      state := .opened, level := 1, desc := d, cnt := (u.ctx c).cnt, endCause := (u.ctx c).endCause
      strand := openStrand c (u.descAddr c) h }).settleAll) ∧
  (∀ (c n : Nat) (a : DWord) (h : Rec64), (openStrand c a h).state = .ready ∧ (openStrand c a h).pc = imEntry h ∧
    (openStrand c a h).words = imWords h ∧ (openStrand c a h).reg 1 = BitVec.ofNat 64 c ∧ (openStrand c a h).reg 2 = a ∧
    (n ≠ 1 → n ≠ 2 → (openStrand c a h).reg n = 0))

/-- R253, R360, R444 to R446: CLOSE of an OPEN context closes it and KILL kills it, each is kept for the end of an open that is in
progress, and CLOSE does nothing to a context in another state. A kill logs and counts the event, makes the context KILLING with its
cause and its strand HALTED, and then gives up what the context holds. KILLING and CLOSING end in CLOSED once nothing of the context
is left. Rests on the model's choices of log entries 36, 111 and 119. -/
def Obligations.ContextEnd : Prop :=
  (∀ (s : State) (c : CtxNo), s.dev.stage = .ready →
    ((s.ctx c).state = .opened → exec (.ctxClose c) s = .next (s.close c).settleAll ∧
      exec (.ctxKill c) s = .next (s.kill c 3 0xFFFF 0 0).settleAll) ∧
    ((s.ctx c).state = .opening → exec (.ctxClose c) s = .next (s.modCtx c (fun x => { x with pendClose := true })).settleAll ∧
      exec (.ctxKill c) s = .next (s.modCtx c (fun x => { x with pendKill := true })).settleAll) ∧
    (((s.ctx c).state = .closed ∨ (s.ctx c).state = .killing) → exec (.ctxClose c) s = .next s.settleAll ∧
      exec (.ctxKill c) s = .next s.settleAll)) ∧
  (∀ (s : State) (c cause unit pc : Nat) (a : DWord), ((s.ctx c).state = .opened ∨ (s.ctx c).state = .closing) →
    let u := ((s.report 0x16 2 c unit 0xFFFF (killDetail cause pc a)).count 63 1).leaveGhosts c
    let v := u.setCtx c { u.ctx c with
      state := .killing, killCause := cause, cdMode := .idle, cdVal := 0, barrier := none, arrivals := [], released := []
      strand := { (u.ctx c).strand with state := .halted, loads := [], stores := [], held := [] } }
    let w := ((((v.clearUrgent c).endTxns c 4).discardLines c).freeScans c).discardDelivery c
    s.kill c cause unit pc a = (((foldS (w.streamsOf c) w (fun x k =>
      (x.modStream k (fun y => { y with space := [], spilled := [] })).cancelStream k)).killQueries c).killTransfers c).settleMsgs) ∧
  (∀ (s : State) (c : CtxNo), (s.ctx c).state = .killing → (∀ e ∈ s.pool, e.2.ctx ≠ c.toNat) → (∀ e ∈ s.sheaves, e.2.cohort.ctx ≠ c.toNat) →
    (∀ x ∈ s.xfers, x.ctx ≠ c.toNat) → (∀ e ∈ s.txnBuf, e.2.ctx ≠ c.toNat) →
    exec (.killingDone c) s = .next (s.setClosed c (s.ctx c).killCause).settleAll) ∧
  (∀ (s : State) (c : CtxNo), (s.ctx c).state = .closing → s.hasQueries c = false → s.itemsWait c = false →
    (s.closeFlush c).collectorIdle c = false →
    exec (.closingDone c) s = .next (s.closeFlush c).settleAll) ∧
  (∀ (s : State) (c : CtxNo), (s.ctx c).state = .closing → s.hasQueries c = false → s.itemsWait c = false →
    (s.closeFlush c).collectorIdle c = true →
    let u := (s.closeFlush c).endDeliveries c
    (u.streamsOf c = [] → u.collectorIdle c = true → (∀ e ∈ u.txnBuf, e.2.ctx ≠ c.toNat) →
      exec (.closingDone c) s = .next (u.setClosed c 0).settleAll)) ∧
  (∀ (s : State) (c cause : Nat), (∀ j, ((s.setClosed c cause).ctx j) = if j = c then { Context.reset with
      openCode := (((s.leaveCommands c).forgetContext c).ctx c).openCode, endCause := cause
      cnt := (((s.leaveCommands c).forgetContext c).ctx c).cnt }
    else ((s.leaveCommands c).forgetContext c).ctx j))

/-- R226, R227, R453, R454: when a deadline runs out the context's DISPLAY queries are cut; when a WAITC.T runs out it returns 0 if
its counter condition holds in the same cycle and 1 if not; a countdown that is idle, or has not reached 0, does nothing. A write of
the countdown of an OPEN context arms a deadline with the value, ends a WAITC.T with code 2, and 0 disarms a deadline; a deadline that
has reached 0 makes its cut first. A write for a context that is not OPEN is ignored. -/
def Obligations.Countdowns : Prop :=
  (∀ (s : State) (c : CtxNo), (s.ctx c).cdMode = .deadline → (s.ctx c).cdVal = 0 →
    exec (.countdownZero c) s = .next (((s.modCtx c (fun x => { x with cdMode := .idle, cdVal := 0 })).clearUrgent c).cutContext c)) ∧
  (∀ (s : State) (c : CtxNo) (rd k : Nat) (n : DWord), (s.ctx c).cdMode = .timer → (s.ctx c).cdVal = 0 →
    (s.ctx c).strand.state = .waiting (.waitc rd k n true) →
    exec (.countdownZero c) s = .next (s.modCtx c (fun x => { x with
        cdMode := .idle
        cdVal := 0
        strand := { (s.ctx c).strand.set rd (if reached (mgetD (s.ctx c).recv k 0) n then 0 else 1) with state := .ready, fails := [] } }))) ∧
  (∀ (s : State) (c : CtxNo), ((s.ctx c).cdMode = .idle ∨ (s.ctx c).cdVal ≠ 0) → exec (.countdownZero c) s = .next s) ∧
  (∀ (s : State) (c : CtxNo) (v : Word), s.dev.stage = .ready →
    ((s.ctx c).state ≠ .opened → exec (.ctxCdSet c v) s = .next s.settleAll) ∧
    (∀ u, (s.ctx c).state = .opened →
      u = (if (s.ctx c).cdMode = .deadline ∧ (s.ctx c).cdVal = 0 then
        ((s.modCtx c (fun x => { x with cdMode := .idle, cdVal := 0 })).clearUrgent c).cutContext c else s) →
      (v ≠ 0 → (u.ctx c).cdMode ≠ .timer →
        exec (.ctxCdSet c v) s = .next ((u.modCtx c (fun x => { x with cdMode := .deadline, cdVal := v.toNat })).clearUrgent c).settleAll) ∧
      (v = 0 → (u.ctx c).cdMode = .deadline →
        exec (.ctxCdSet c v) s = .next ((u.modCtx c (fun x => { x with cdMode := .idle, cdVal := 0 })).clearUrgent c).settleAll) ∧
      (v = 0 → (u.ctx c).cdMode ≠ .deadline → exec (.ctxCdSet c v) s = .next u.settleAll)) ∧
    (∀ rd k n, (s.ctx c).state = .opened → v ≠ 0 → (s.ctx c).cdMode = .timer → (s.ctx c).strand.state = .waiting (.waitc rd k n true) →
      exec (.ctxCdSet c v) s = .next ((s.modCtx c (fun x => { x with
        cdMode := .deadline
        cdVal := v.toNat
        strand := { (s.ctx c).strand.set rd 2 with state := .ready, fails := [] } })).clearUrgent c).settleAll))

/-- R77, R227 to R229, R234 to R236, R456 to R458: a translation fault kills the context, or ends its open with code 7; a killed
address space kills the contexts that use it, and each context that is being opened under it as its open completes; an invalidated
page is dropped from the copies that the engine keeps, and is acknowledged at once when no access under its address space is open.
Scene descriptors and walk table entries are kept as they are first read; a LAUNCH reads its entry again and returns the code; an
image that cannot be read kills the context. The run at the head of the area that the cut covers ends LATE, each of its records with
its chain, or is lost; another run, or one whose read has no slot, is not read. Rests on the model's choices of log entries 40, 104,
118 and 120. -/
def Obligations.TablesAndTranslation : Prop :=
  (∀ (s : State) (c : CtxNo) (a : DWord), (s.ctx c).state = .opened →
    exec (.translationFault c a) s = .next (s.kill c 2 0xFFFF (s.ctx c).strand.pc a).settleAll) ∧
  (∀ (s : State) (c : CtxNo) (a : DWord), (s.ctx c).state = .opening →
    exec (.translationFault c a) s = .next (s.setCtx c { Context.reset with
      openCode := 7, cnt := (s.ctx c).cnt, endCause := (s.ctx c).endCause }).settleAll) ∧
  (∀ (s u : State) (asid : Word), u = { s with ctxs := mmap s.ctxs (fun _ x =>
      if x.state == .opening then { x with killAsids := asid.toNat :: x.killAsids } else x) } →
    exec (.asidKill asid) s = .next (foldS (u.ctxs.filter (fun e =>
      (e.2.state == .opened || e.2.state == .closing) && dAsid e.2.desc == asid.toNat)) u (fun u e => u.kill e.1 2 0xFFFF 0 0))) ∧
  (∀ (s : State) (asid : Word) (page : DWord), ∃ t, exec (.translationInvalidate asid page) s = .next t ∧
    t.tlb = s.tlb.filter (fun e => !(e.1 == asid.toNat && e.2 == page.toNat / 4096)) ∧
    (s.accessesOpen asid.toNat = false → t.out = .invalidateAck asid.toNat page :: s.out ∧ t.invalidates = s.invalidates) ∧
    (s.accessesOpen asid.toNat = true → t.out = s.out ∧ t.invalidates = s.invalidates ++ [(asid.toNat, page)])) ∧
  (∀ (s u : State) (c : CtxNo) (h : BitVec 16) (d : Rec64) (sh : Option ShardRead), s.readBack c = u → (u.ctx c).state = .opened →
    (mget (u.ctx c).scenes h.toNat = none → h.toNat < dScenes (u.ctx c).desc →
      exec (.sceneDescriptorRead c h d sh) s = .next ((u.modCtx c (fun x => { x with
        scenes := mset (u.ctx c).scenes h.toNat { desc := d, shard := sh }, blocked := false })).readShard c h.toNat d sh)) ∧
    (∀ x, mget (u.ctx c).scenes h.toNat = some x → exec (.sceneDescriptorRead c h d sh) s = .next u)) ∧
  (∀ (s u v : State) (c : CtxNo) (n : Fin 64) (entry : Rec32) (img : Option ImageRead), s.readBack c = u → (u.ctx c).state = .opened →
    u.readEntryImage c n entry img = v →
    (mget (u.ctx c).walks n = none → (∀ rd, (u.ctx c).strand.state ≠ .waiting (.launch rd n)) → (entryImage n entry = none ∨ img ≠ none) →
      exec (.walkEntryRead c n entry img) s = .next (v.modCtx c (fun x => { x with
        walks := mset (v.ctx c).walks n (bindEntry n entry img).2, blocked := false }))) ∧
    (∀ rd, (u.ctx c).strand.state = .waiting (.launch rd n) → (entryImage n entry = none ∨ img ≠ none) →
      exec (.walkEntryRead c n entry img) s = .next (v.modCtx c (fun x => { x with
        walks := mset (v.ctx c).walks n (bindEntry n entry img).2
        blocked := false
        strand := { (v.ctx c).strand.set rd (BitVec.ofNat 64 (bindEntry n entry img).1) with state := .ready, fails := [] } }))) ∧
    (∀ a, mget (u.ctx c).walks n = none → entryImage n entry = some a → img = none →
      exec (.walkEntryRead c n entry img) s = .next (v.kill c 2 0xFFFF (u.ctx c).strand.pc a))) ∧
  (∀ (s : State) (c : CtxNo) (rseq : Nat) (a b : RunRead), (s.ctx c).cutRun = none → exec (.cutRunRead c rseq a b) s = .next s) ∧
  (∀ (s u : State) (c : CtxNo) (rseq : Nat) (a b : RunRead) (r : Run), (s.ctx c).cutRun = some r →
    (r.rseq ≠ rseq ∨ s.hasSlot (.run c rseq) = false → exec (.cutRunRead c rseq a b) s = .next s) ∧
    (r.rseq = rseq → s.hasSlot (.run c rseq) = true → s.readRun c r a = u →
      let lost := if r.rereads = 0 then runLost a b else runLost a a
      (∀ n, lost = some n → exec (.cutRunRead c rseq a b) s = .next ((u.loseRun c rseq n).settleCut c)) ∧
      (lost = none → exec (.cutRunRead c rseq a b) s = .next ((foldS r.recs
        (((u.dropRun c rseq).writeTracked c [(addr64 (u.areaLine c r.start) 1, [2])]).countC c 3 r.recs.length)
        (fun u y => u.lateRec c y)).settleCut c))))

/-- R500, R509, R511, R546: NVM_DATA gives the staged word at NVM_PTR, 0 in the secret sector, and takes one there, and each access
moves NVM_PTR on by 8 within its sector. A write is ignored in sectors 0, 62 and 63 and, with STAGE_BUSY set, in a sector that is
being stored; what is written there is read back, and no other byte of the staged image changes. A sector that is not loaded gives a
fabric retry. The load brings sectors 25 to 61 from NVM; a store that waited for it begins. Rests on the model's choices of log
entries 9 and 96. -/
def Obligations.NvmWindow : Prop :=
  (∀ (s : State), s.dev.stage = .ready →
    let p := s.dev.nvmPtr
    let word : DWord := if p / 4096 = 63 then 0 else ofBytes 64 (memReadBytes s.staged p 8)
    let on : Dev := { s.dev with nvmPtr := p / 4096 * 4096 + (p % 4096 + 8) % 4096 }
    let storing := s.dev.nvmBusy.any (fun st => st.sector == p / 4096)
    (s.staged? (p / 4096) = true → exec .nvmDataRead s = .next { s with dev := on, out := .regData word :: s.out }) ∧
    (s.staged? (p / 4096) = false → exec .nvmDataRead s = .next (s.emit .retry) ∧
      ∀ v, exec (.nvmDataWrite v) s = .next (s.emit .retry).settleAll) ∧
    (∀ v, s.staged? (p / 4096) = true → storing = true →
      exec (.nvmDataWrite v) s = .next ({ s with dev := { on with stageBusy := true } } : State).settleAll) ∧
    (∀ v, s.staged? (p / 4096) = true → storing = false →
      ((p / 4096 = 0 ∨ p / 4096 = 62 ∨ p / 4096 = 63) → exec (.nvmDataWrite v) s = .next ({ s with dev := on } : State).settleAll) ∧
      (p / 4096 ≠ 0 → p / 4096 ≠ 62 → p / 4096 ≠ 63 → exec (.nvmDataWrite v) s =
        .next ({ s with dev := on, staged := memWriteBytes s.staged p (bytesOf v 8) } : State).settleAll))) ∧
  (∀ (s : State) (v : DWord), s.dev.stage = .bringup →
    exec .nvmDataRead s = .next (s.emit (.regData 0)) ∧ exec (.nvmDataWrite v) s = .next (s.emit .retry)) ∧
  (∀ (m : List Host.Cell) (p : Nat) (v : DWord), Memory.wf m = true →
    ofBytes 64 (memReadBytes (memWriteBytes m p (bytesOf v 8)) p 8) = v ∧
    ∀ a, (a < p ∨ p + 8 ≤ a) → memRead (memWriteBytes m p (bytesOf v 8)) a = memRead m a) ∧
  (∀ (s : State), s.dev.stage = .ready → s.dev.stageLoaded = false → Memory.wf s.staged = true → Memory.wf s.nvm = true →
    ∃ new, exec .stagedNvmLoad s = .next { s with
        staged := new
        dev := { s.dev with stageLoaded := true, nvmBusy := s.dev.nvmBusy.map (fun st => { st with started := true }) } } ∧
      Memory.wf new = true ∧
      ∀ a, memRead new a = if 25 * 4096 ≤ a ∧ a < 62 * 4096 then memRead s.nvm a else memRead s.staged a)

/-- R303, R507, R508, R510, R511: NVSTORE answers 1 for a sector that it may not store and 2 while another store or erase is in
progress; otherwise the strand waits. A store whose read-back agrees leaves in NVM and in the staged image the staged bytes under GEN
+ 1, one STORE more and their CRC, and answers 0; one whose read-back differs counts NVM_STORE_FAIL, answers 3, and what the sector
then holds is left open. Rests on the model's choices of log entries 51, 79 and 131. -/
def Obligations.NvmStores : Prop :=
  (∀ (s : State) (c : CtxNo) (f : Fields), s.strandMay c [f.a.toNat, f.d.toNat] false → (s.ctx c).strand.quiet = true →
    isX f.d = true → isX f.a = true →
    let n := ((s.ctx c).strand.reg f.a.toNat).toNat
    let tell : Nat → State := fun o => { s with dev := { s.dev with lastSector := n, lastOutcome := o } }
    (63 < n → exec (.nvstore c f) s = .next (s.strandPut c f.d.toNat 2 1)) ∧
    (n ≤ 63 → (dNvmStore (s.ctx c).desc = false ∨ n = 0 ∨ n = 62 ∨ n = 63) →
      exec (.nvstore c f) s = .next ((tell 1).strandPut c f.d.toNat 2 1)) ∧
    (dNvmStore (s.ctx c).desc = true → 1 ≤ n → n ≤ 61 → s.nvmWorking = true →
      exec (.nvstore c f) s = .next ((tell 2).strandPut c f.d.toNat 2 2)) ∧
    (dNvmStore (s.ctx c).desc = true → 1 ≤ n → n ≤ 61 → s.nvmWorking = false →
      exec (.nvstore c f) s = .next (({ s with dev := { s.dev with
        nvmBusy := some { who := .strand c, sector := n, started := s.staged? n } } } : State).strandWaits c (.nvstore f.d.toNat n)))) ∧
  (∀ (s : State) (st : Store), s.dev.nvmBusy = some st → st.started = true →
    let n := st.sector
    let bs := storeBytes (sectorBytes s.staged n) (sectorBytes s.nvm n)
    let done : List Byte → Nat → State := fun free o => { s with
      staged := setSector s.staged n bs
      nvm := setSector s.nvm n free
      dev := { s.dev with nvmBusy := none, lastSector := n, lastOutcome := o } }
    (st.who = .chain → exec (.nvmStoreDone true) s = .next ((done bs 0).settleAll).settleChain) ∧
    (∀ c rd, st.who = .strand c → (s.ctx c).strand.state = .waiting (.nvstore rd n) →
      exec (.nvmStoreDone true) s = .next ((((done bs 0).strandWoken c rd 0)).settleAll).settleChain) ∧
    (st.who = .chain → ∃ free, exec (.nvmStoreDone false) s =
      .next (((({ done free 3 with freeCtr := s.freeCtr + 512 } : State).count 72 1)).settleAll).settleChain) ∧
    (∀ c rd, st.who = .strand c → (s.ctx c).strand.state = .waiting (.nvstore rd n) → ∃ free, exec (.nvmStoreDone false) s =
      .next ((((({ done free 3 with freeCtr := s.freeCtr + 512 } : State).count 72 1)).strandWoken c rd 3).settleAll).settleChain)) ∧
  (∀ (image old : List Byte), 16 ≤ image.length →
    secGen (storeBytes image old) = secGen image + 1 ∧ secWord (storeBytes image old) 8 = secWord old 8 + 1 ∧
    secWord (storeBytes image old) 12 = secCrc (storeBytes image old) ∧ (storeBytes image old).take 4 = image.take 4 ∧
    (storeBytes image old).drop 16 = image.drop 16)

/-- R470, R476, R477, R478, R484: an instance without an address or that is not READY does nothing with a packet; a packet that is not
for it, or not as long as it should be, is discarded, counted and logged with the port at which it came, which the model leaves open.
A QUERY packet is answered with NACK 3, 1 or 2, or the query takes a pool slot with the holder's epoch, its reserved bits ignored, and
parks on ARG0. Any packet sets the count of cycles of its sender to 0. A heartbeat goes to an origin whose queries are held, when
nothing has gone there for 262,144 FAB cycles. R481 to R485: a packet whose TOKEN names no Forwarded query counts FWD_DISCARD. A
RESULT's records are kept, and the chain is delivered once it is whole; an EMIT's emissions go to the collector; HANDOFF changes the
holder; NACK ends the query FORWARD_LOST and enters the lost set as its cause says; when nothing has come from a holder for 1,048,576
FAB cycles every query there ends so. Rests on the model's choices of log entries 40, 49 and 119. -/
def Obligations.Packets : Prop :=
  ((∀ (s : State) (hdr : Rec64) (q : QueryImage) (rs : List Rec32), s.takesPackets = false →
    exec (.queryPacket hdr q) s = .next s ∧ exec (.resultPacket hdr rs) s = .next s ∧ exec (.emitPacket hdr rs) s = .next s ∧
    exec (.handoff hdr) s = .next s ∧ exec (.nack hdr) s = .next s ∧ exec (.heartbeat hdr) s = .next s ∧
    exec (.arrive hdr) s = .next s ∧ exec (.release hdr) s = .next s) ∧
  (∀ (s : State) (hdr : Rec64), s.takesPackets = true →
    (s.packetBad hdr 4 1 = true → exec (.handoff hdr) s = .next (s.fwdBad hdr)) ∧
    (s.packetBad hdr 5 1 = true → exec (.nack hdr) s = .next (s.fwdBad hdr)) ∧
    (s.packetBad hdr 6 1 = true → exec (.heartbeat hdr) s = .next (s.fwdBad hdr)) ∧
    (s.packetBad hdr 7 1 = true → exec (.arrive hdr) s = .next (s.fwdBad hdr)) ∧
    (s.packetBad hdr 8 1 = true → exec (.release hdr) s = .next (s.fwdBad hdr)) ∧
    (∃ port < 4, s.fwdBad hdr = (({ s with freeCtr := s.freeCtr + 1 } : State).count 68 1).report 0x31 1 noUnit port noUnit
      (pSrc hdr ||| 2 ^ 16 * pType hdr))) ∧
  (∀ (s : State) (hdr : Rec64), s.hears hdr 6 1 → exec (.heartbeat hdr) s = .next (s.heardFrom (pSrc hdr))) ∧
  (∀ (s : State) (d : Nat), (∀ n, mget s.watch d = some n → s.heardFrom d = { s with watch := mset s.watch d 0 }) ∧
    (mget s.watch d = none → s.heardFrom d = s)) ∧
  (∀ (s : State) (d : InstId),
    (s.holdsFor d.toNat = true → 262144 ≤ mgetD s.beats d.toNat 0 →
      exec (.heartbeatSend d) s = .next (s.sendPacket (fwdHeader s 6 1 0 d.toNat d.toNat 0 0 0 0 0) none [])) ∧
    (s.holdsFor d.toNat = true → mgetD s.beats d.toNat 0 < 262144 → exec (.heartbeatSend d) s = .next s) ∧
    (s.holdsFor d.toNat = false → exec (.heartbeatSend d) s = .next { s with beats := merase s.beats d.toNat })) ∧
  (∀ (s : State) (hdr : Rec64) (q : QueryImage), let u := s.heardFrom (pSrc hdr)
    s.hears hdr 1 (3 + 4 * (q.data.length + collUnitCount q.record)) →
    pArg1 hdr % 256 = q.data.length → pArg1 hdr / 256 % 256 = collUnitCount q.record →
    let c := pCtx hdr
    let r := withDepth q.record (fld q.record 52 8)
    let no : Nat → Host.Outcome State Fault Refusal := fun cause =>
      .next (u.sendPacket (fwdHeader u 5 1 0 (pOrigin hdr) (pOrigin hdr) c 0 (pToken hdr) cause 0) none [])
    (pIdent hdr ≠ identWord → exec (.queryPacket hdr q) s = no 3) ∧
    (pIdent hdr = identWord → (4096 ≤ c ∨ (u.ctx c).state ≠ .opened) → exec (.queryPacket hdr q) s = no 1) ∧
    (pIdent hdr = identWord → c < 4096 → (u.ctx c).state = .opened → u.sceneUnread c (pScene hdr) = false →
      (u.bound c (pScene hdr)).map sSharded ≠ some true → exec (.queryPacket hdr q) s = no 2) ∧
    (∀ b p du cu ext, pIdent hdr = identWord → c < 4096 → (u.ctx c).state = .opened → u.sceneUnread c (pScene hdr) = false →
      (u.bound c (pScene hdr)).map sSharded = some true → mget (u.ctx c).walks (walkIndex r) = some (some b) →
      (b.bkind = 1 ∨ b.stock = qMode r) → u.mayTakeSlot q.cls c = true → mfree u.pool 524288 = some p →
      allocUnits u.ext q.data (collUnitCount r) = some (du, cu, ext) →
      let id : CohortId := { ctx := c, scene := pScene hdr, tag := u.boughTag c (pScene hdr) (pArg0 hdr) (u.ctx c).epoch, bough := pArg0 hdr }
      let x : Query :=
        { ctx := c, record := r, cls := q.cls, spawned := q.spawned, place := .parked none u.now, cohort := id,
          binding := b, epoch := (u.ctx c).epoch, dataUnits := du, collUnits := cu, ws := q.ws, admitted := u.nextId, gen := u.nextId,
          origin := some { inst := pOrigin hdr, token := pToken hdr, hops := pHops hdr }, fwd := { recs := [], emits := 0, expect := none } }
      exec (.queryPacket hdr q) s = .next (((((((({ u with nextId := u.nextId + 1 } : State).occupy p x ext).syncColl x q.ws).park p id q.ws.clines).count
        q.cls 1).count 66 1)).keepBeat (pOrigin hdr))))) ∧
  ((∀ (s : State) (hdr : Rec64), let u := s.heardFrom (pSrc hdr)
    let drop : State := if pCtx hdr < 4096 then u.countC (pCtx hdr) 0x2B 1 else u
    u.forwarded hdr = none →
    (s.hears hdr 4 1 → exec (.handoff hdr) s = .next drop) ∧
    (s.hears hdr 5 1 → exec (.nack hdr) s = .next (u.count 67 1)) ∧
    (∀ rs : List Rec32, rs.length ≤ 64 → s.hears hdr 2 (recFlits rs.length) → exec (.resultPacket hdr rs) s = .next drop) ∧
    (∀ rs : List Rec32, rs.length = pArg0 hdr → s.hears hdr 3 (recFlits rs.length) → exec (.emitPacket hdr rs) s = .next drop)) ∧
  (∀ (s : State) (hdr : Rec64) (p : Nat) (q : Query), let u := s.heardFrom (pSrc hdr)
    u.forwarded hdr = some (p, q) →
    (∀ rs : List Rec32, rs.length ≤ 64 → s.hears hdr 2 (recFlits rs.length) →
      let rx : FwdRx := { recs := (List.range rs.length).foldl (fun m i => mset m (pArg0 hdr + i) (nth rs i 0)) q.fwd.recs,
                          emits := q.fwd.emits, expect := some (pArg1 hdr) }
      let y : Query := { q with fwd := rx }
      let v : State := { u with pool := mset u.pool p y }
      (rx.chain = none → exec (.resultPacket hdr rs) s = .next v) ∧
      (∀ l, rx.chain = some l → exec (.resultPacket hdr rs) s = .next ((({ v with
        fwdWait := u.fwdWait.filter (· != p)
        pool := mset v.pool p { y with place := .ending }
        fwdQ := u.fwdQ ++ [chainItem q.ctx (some p) q.record q.cls (fld (nth l 0 0) 4 8) l] } : State).writeSpine collLine).settleWatch))) ∧
    (∀ rs : List Rec32, rs.length = pArg0 hdr → s.hears hdr 3 (recFlits rs.length) →
      let rx : FwdRx := { q.fwd with emits := q.fwd.emits + rs.length }
      rx.chain = none → exec (.emitPacket hdr rs) s = .next (({ u with
        pool := mset u.pool p { q with fwd := rx }
        fwdQ := u.fwdQ ++ [.emits q.ctx (qDelivery q.record) q.cls (rs.map (fun e => (qTag q.record, qUser0 q.record, qUser1 q.record, e))) [p]] } : State).writeSpine collLine)) ∧
    (s.hears hdr 4 1 → let d := pArg0 hdr % 2 ^ 17
      let v := ({ u with pool := mset u.pool p { q with place := .forwarded d } } : State).settleWatch
      (mget v.watch d = none → v.watch.length < 4096 → exec (.handoff hdr) s = .next { v with watch := mset v.watch d 0 }) ∧
      ((mget v.watch d ≠ none ∨ 4096 ≤ v.watch.length) → exec (.handoff hdr) s = .next v)) ∧
    (s.hears hdr 5 1 → let v := (u.count 67 1).report 0x32 2 q.ctx noUnit noUnit (pSrc hdr + 2 ^ 32 * (pArg0 hdr % 256))
      let lose : State → Host.Outcome State Fault Refusal := fun w =>
        .next ((({ w with fwdWait := w.fwdWait.filter (· != p) } : State).finishErr p stFORWARD_LOST errSHARD_LOST .forward).settleWatch)
      (pArg0 hdr = 3 → exec (.nack hdr) s = lose (v.addLost (pSrc hdr) none)) ∧
      ((pArg0 hdr = 1 ∨ pArg0 hdr = 2 ∨ pArg0 hdr = 4) → exec (.nack hdr) s = lose (v.addLost (pSrc hdr) (some q.ctx))))) ∧
  (∀ (s : State) (d : InstId),
    (mgetD s.watch d.toNat 0 < 1048576 → exec (.watchdogExpire d) s = .next s) ∧
    (1048576 ≤ mgetD s.watch d.toNat 0 → exec (.watchdogExpire d) s = .next (((foldS ((s.pool.filter (fun e =>
        e.2.place == .forwarded d.toNat && !s.fwdWait.contains e.1)).map (·.1)) s (fun u p =>
          u.finishErr p stFORWARD_LOST errFORWARD_TIMEOUT .forward)).addLost d.toNat none).report 0x30 1 noUnit noUnit noUnit d.toNat).settleWatch)) ∧
  (∀ (s : State) (inst : Nat) (c : Option Nat),
    (s.lost.any (fun e => e.2 == { inst := inst, ctx := c }) = true → s.addLost inst c = s) ∧
    (∀ i, s.lost.any (fun e => e.2 == { inst := inst, ctx := c }) = false → mfree s.lost 1024 = some i →
      s.addLost inst c = { s with lost := mset s.lost i { inst := inst, ctx := c } }) ∧
    (s.lost.any (fun e => e.2 == { inst := inst, ctx := c }) = false → mfree s.lost 1024 = none → s.addLost inst c = s.count 70 1)))

/-- R303, R486 to R488: BARRIER makes the strand wait for its pass. When no query of the context is Forwarded and counter 14 has
reached 64 for each child and pass, the root sends RELEASE to its children and the strand has 0, and another instance sends ARRIVE to
its parent. ARRIVE adds 64 to counter 14 and RELEASE 64 to counter 15; a RELEASE that counter 15 has thereby reached is passed on and
ends the barrier, with 1 when it carries LOST. When a limit is set and the RELEASE has not come in time the barrier ends with 1, is
counted and logged. Rests on the model's choice of log entry 84. -/
def Obligations.PassBarrier : Prop :=
  (∀ (s : State) (c : CtxNo) (f : Fields), s.strandMay c [f.a.toNat, f.d.toNat] false → isX f.d = true → isX f.a = true →
    let p := ((s.ctx c).strand.reg f.a.toNat).toNat % 2 ^ 32
    exec (.barrier c f) s = .next (s.setCtx c { s.ctx c with
      barrier := some { pass := p, sent := false, lost := false }
      strand := { (s.ctx c).strand with pc := (s.ctx c).strand.pc + 1, lat := 2, state := .waiting (.barrier f.d.toNat p) } })) ∧
  (∀ (s : State) (c : CtxNo), (s.ctx c).barrier = none → exec (.arriveSend c) s = .next s ∧ exec (.barrierTimeout c) s = .next s) ∧
  (∀ (s : State) (c : CtxNo) (b : Barrier), (s.ctx c).barrier = some b → b.sent = false → b.lost = false → s.noneForwarded c = true →
    s.lost = [] → (∀ a ∈ (s.ctx c).arrivals, a.2.2 = false) →
    reached (mgetD (s.ctx c).recv 14 0) (BitVec.ofNat 64 (64 * s.children.length * (b.pass + 1))) = true →
    (s.dev.instId = 0 → exec (.arriveSend c) s = .next (((foldS s.children s (fun u i =>
      u.sendPacket (fwdHeader u 8 1 0 i 0 c 0 0 b.pass 0) none []))).endBarrier c b false)) ∧
    (s.dev.instId ≠ 0 → reached (mgetD (s.ctx c).recv 15 0) (BitVec.ofNat 64 (64 * (b.pass + 1))) = false →
      exec (.arriveSend c) s = .next ((s.sendPacket (fwdHeader s 7 1 0 ((s.dev.instId - 1) / 64) 0 c 0 0 b.pass 0) none []).modCtx c (fun x =>
        { x with barrier := some { b with sent := true } })))) ∧
  (∀ (s : State) (c : CtxNo) (b : Barrier), (s.ctx c).barrier = some b →
    ((b.sent = true ∨ s.noneForwarded c = false) → exec (.arriveSend c) s = .next s) ∧
    (s.dev.barTimeout = 0 → exec (.barrierTimeout c) s = .next s) ∧
    (s.dev.barTimeout ≠ 0 → b.sent = true → exec (.barrierTimeout c) s =
      .next (((s.countC c 0x2E 1).report 0x33 2 c noUnit noUnit (b.pass + 2 ^ 32 * 0x1FFFF)).endBarrier c b true)) ∧
    (s.dev.barTimeout ≠ 0 → b.sent = false → s.noneForwarded c = true → exec (.barrierTimeout c) s =
      .next (foldS (s.children.filter (fun i => !(s.ctx c).arrivals.any (fun a => a.1 == b.pass && a.2.1 == i))) s (fun u i =>
        (u.addLost i none).loseChild c b i)))) ∧
  (∀ (s : State) (c : Nat) (b : Barrier) (lost : Bool) (rd k : Nat), (s.ctx c).strand.state = .waiting (.barrier rd k) →
    ((s.endBarrier c b lost).ctx c).strand = { (s.ctx c).strand.set rd (if lost then 1 else 0) with state := .ready, fails := [] } ∧
    ((s.endBarrier c b lost).ctx c).barrier = none) ∧
  (∀ (s : State) (hdr : Rec64), let u := s.heardFrom (pSrc hdr)
    let c := pCtx hdr
    let lost := pArg1 hdr % 2 == 1
    let x := u.ctx c
    (u.takesBarrier hdr = false → s.hears hdr 7 1 → exec (.arrive hdr) s = .next u) ∧
    (u.takesBarrier hdr = false → s.hears hdr 8 1 → exec (.release hdr) s = .next u) ∧
    (u.takesBarrier hdr = true → s.hears hdr 7 1 → exec (.arrive hdr) s = .next (u.setCtx c { x with
      recv := mset x.recv 14 (mgetD x.recv 14 0 + 64), arrivals := x.arrivals ++ [(pArg0 hdr, pSrc hdr, lost)] })) ∧
    (u.takesBarrier hdr = true → s.hears hdr 8 1 →
      let v := u.setCtx c { x with
        recv := mset x.recv 15 (mgetD x.recv 15 0 + 64), released := x.released ++ [(pArg0 hdr, lost)] }
      (x.barrier = none → exec (.release hdr) s = .next v) ∧
      (∀ b, x.barrier = some b → b.sent = true → reached (mgetD x.recv 15 0 + 64) (BitVec.ofNat 64 (64 * (b.pass + 1))) = true →
        let any := (x.released ++ [(pArg0 hdr, lost)]).any (fun r => r.1 == b.pass && r.2)
        exec (.release hdr) s = .next ((foldS v.children v (fun w i =>
          w.sendPacket (fwdHeader w 8 1 0 i 0 c 0 0 b.pass (if any then 1 else 0)) none [])).endBarrier c b any))))

/-- R224, R429: a line request that the fabric reports as failed is repeated up to three times, each counted in FABRIC_RETRY, by its
line. After a fourth failure FABRIC_FAIL is counted and logged with the address and the port of that line, and the transfer is settled
by its kind: a fill and a leaf fill fail their check, the reading of a run is made once more and then the run is lost, a scan finishes
MISMATCH, a delivery write is taken as performed without effect, and the read of a strand instruction kills its context as a
translation fault does. Where R429 settles no kind the count starts anew. A line that nothing has asked for fails nothing. Rests on
the model's choices of log entries 91, 110 and 129. -/
def Obligations.FabricFailures : Prop :=
  ∀ (s : State),
  let lost : State → Nat → DWord → State := fun u c a => (u.count 60 1).log 0x0A 1 c (u.fabricPort a) noUnit (lineOf a).toNat
  let again := s.count 59 1
  let kept : Xfer → Nat → State := fun x line => again.modXfer x.n (fun y => { y with fails := mset y.fails line (mgetD x.fails line 0 + 1) })
  let gone : Xfer → Nat → Nat → DWord → State := fun x line c a =>
    lost (s.modXfer x.n (fun y => { y with fails := merase y.fails line })) c a
  (∀ id (n : Fin 65) f d, s.fillOf id = some f → s.bound id.ctx id.scene = some d →
    ((f.stage = .trailer ∧ n.val = 64) ∨ (f.stage = .lines ∧ mget f.got n = none ∧ (n.val = 64 ∨ n.val < f.count.getD 0))) →
    let a := if n.val = 64 then trailerAddr d id.bough else nodeAddr d id.bough n
    (mgetD f.fails n 0 < 3 → exec (.fabricRetry (.fill id n)) s = .next (again.modFill id (fun x =>
      { x with fails := mset x.fails n (mgetD f.fails n 0 + 1) }))) ∧
    (3 ≤ mgetD f.fails n 0 → exec (.fabricRetry (.fill id n)) s = .next (((lost s id.ctx a).modFill id (fun x =>
        if x.stage == .trailer then { x with stage := .lines, count := some 1, got := [(0, 0), (64, 0)], forcedBad := true }
        else { x with got := mset x.got n 0, forcedBad := true })).checkFill id))) ∧
  (∀ (g : GroveNo) id (n : Fin 16) f d x, s.leafFillOf g id = some f → s.bound id.ctx id.scene = some d → s.atWork (.leaf g id) = some x →
    (n.val < f.count → f.queued = false →
      (mgetD x.fails n 0 < 3 → exec (.fabricRetry (.leafFill g id n)) s = .next (kept x n)) ∧
      (3 ≤ mgetD x.fails n 0 → exec (.fabricRetry (.leafFill g id n)) s =
        .next ((gone x n f.id.ctx (leafAddr d (f.id.index + n))).leafArrived g { f with forcedBad := true } []))) ∧
    ((f.count ≤ n.val ∨ f.queued = true) → exec (.fabricRetry (.leafFill g id n)) s = .next s)) ∧
  (∀ (c : CtxNo) (rseq n : Nat) r x, (s.ctx c).ovf.runs.find? (fun r => r.rseq == rseq) = some r → s.atWork (.run c rseq) = some x →
    n < r.lines →
    let u := gone x n c (s.areaLine c (r.start + n))
    (mgetD x.fails n 0 < 3 → exec (.fabricRetry (.run c rseq n)) s = .next (kept x n)) ∧
    (3 ≤ mgetD x.fails n 0 → (r.written = false ∨ r.state ≠ .live) → exec (.fabricRetry (.run c rseq n)) s = .next u) ∧
    (3 ≤ mgetD x.fails n 0 → r.written = true → r.state = .live → r.rereads = 0 → exec (.fabricRetry (.run c rseq n)) s =
      .next ((u.modOvf c (fun o => { o with runs := o.runs.map (fun y => if y.rseq == r.rseq then { y with rereads := 1 } else y) })).modXfer x.n
        (fun y => { y with todo := u.runReads c r, out := 0, fails := [] })).pumpLines) ∧
    (3 ≤ mgetD x.fails n 0 → r.written = true → r.state = .live → r.rereads ≠ 0 →
      let v := (u.finishXfer (.run c r.rseq)).loseRun c r.rseq r.recs.length
      ((v.ctx c).cut ≠ none → exec (.fabricRetry (.run c rseq n)) s = .next (v.settleCut c)) ∧
      ((v.ctx c).cut = none → exec (.fabricRetry (.run c rseq n)) s =
        .next { v with sched := { v.sched with reloadRot := (c.val + 1) % 4096 } }))) ∧
  (∀ (ch : Fin 8) (n : Fin 33) x a, s.atWork (.scan ch) = some x → (s.scan ch).held = true → (s.scan ch).finished = false →
    (linesOf (s.scan ch).next (min 4096 (s.scan ch).remain))[n.val]? = some a →
    (mgetD x.fails n 0 < 3 → exec (.fabricRetry (.scan ch n)) s = .next (kept x n)) ∧
    (3 ≤ mgetD x.fails n 0 → exec (.fabricRetry (.scan ch n)) s = .next ((((gone x n (s.scan ch).ctx a).modScan ch (fun y =>
      { y with failed := true })).finishXfer (.scan ch)).finishScan ch))) ∧
  (∀ (k : StreamNo) (j n : Nat) x a, s.atWork (.tile k j) = some x →
    (tileLineAddrs (s.stream k).image ((s.stream k).arming j).2 (j - ((s.stream k).arming j).1))[n]? = some a →
    (mgetD x.fails n 0 < 3 → exec (.fabricRetry (.tile k j n)) s = .next (kept x n)) ∧
    (3 ≤ mgetD x.fails n 0 → smKind (s.stream k).image ≠ 1 → exec (.fabricRetry (.tile k j n)) s = .next (gone x n (s.stream k).owner a)) ∧
    (3 ≤ mgetD x.fails n 0 → smKind (s.stream k).image = 1 → exec (.fabricRetry (.tile k j n)) s =
      .next ((gone x n (s.stream k).owner a).modXfer x.n (fun z => { z with bad := z.bad ++ [n] })))) ∧
  (∀ (n : Fin 32768) x l, s.atWork (.through n) = some x → mget s.txnBuf n = some l → l.state = .writing →
    (mgetD x.fails 0 0 < 3 → exec (.fabricRetry (.through n)) s = .next (kept x 0)) ∧
    (3 ≤ mgetD x.fails 0 0 → exec (.fabricRetry (.through n)) s = .next (gone x 0 l.ctx l.addr))) ∧
  (∀ (c : CtxNo) (a : DWord), (s.ctx c).state ≠ .closed → s.out.any (fun o => match o with | .read _ _ b k => b == a && k.tableOf c | _ => false) = true →
    (mgetD (s.ctx c).readFails a.toNat 0 < 3 → exec (.fabricRetry (.table c a)) s = .next (again.modCtx c (fun x =>
      { x with readFails := mset x.readFails a.toNat (mgetD (s.ctx c).readFails a.toNat 0 + 1) }))) ∧
    (3 ≤ mgetD (s.ctx c).readFails a.toNat 0 → exec (.fabricRetry (.table c a)) s = .next (lost (s.modCtx c (fun x =>
      { x with readFails := merase x.readFails a.toNat })) c a))) ∧
  (∀ n x p a, s.completions.find? (fun y => y.n == n) = some x → s.sentAt n = some (p, a) →
    let put : Nat → State → State := fun k u => { u with completions := s.completions.map (fun y => if y.n = n then { y with fails := k } else y) }
    (x.fails < 3 → exec (.fabricRetry (.delivery n)) s = .next (put (x.fails + 1) again)) ∧
    (3 ≤ x.fails → exec (.fabricRetry (.delivery n)) s =
      .next (((((put 0 s).count 60 1).log 0x0A 1 x.ctx p noUnit (lineOf a).toNat)).ackWrite n))) ∧
  (∀ (c : CtxNo) (a : DWord), (s.strandReads c).contains (lineOf a) = true →
    let k := mgetD (s.ctx c).strand.fails (lineOf a).toNat 0
    (k < 3 → exec (.fabricRetry (.strandRead c a)) s = .next (again.withStrand c { (s.ctx c).strand with
      fails := mset (s.ctx c).strand.fails (lineOf a).toNat (k + 1) })) ∧
    (3 ≤ k → exec (.fabricRetry (.strandRead c a)) s = .next ((lost s c a).kill c 2 noUnit (s.ctx c).strand.pc a))) ∧
  (∀ (c : CtxNo) (a : DWord), (s.strandReads c).contains (lineOf a) = false → exec (.fabricRetry (.strandRead c a)) s = .next s)

/-- R178 to R183, R187, R424, R426, R427, R430: a scrub of a bank reads its next line and goes on to the line after it; a line of a
placed bough that cannot be read has its slot invalidated, and the bank's count of corrected errors starts anew with each pass. A
known-answer injection that fails, of any bank, makes it FAILED. The scrubs of the spine and of the transaction buffer count a
corrected error; an uncorrectable one ends the query in the spine or that owns the extension unit, marks the buffer line and loses the
directory line. With its bit of INTEG_CTL 0 none runs. Rests on the model's choices of log entries 23, 70 and 106. -/
def Obligations.Scrubs : Prop :=
  (∀ (s : State) (b : BankNo) (e : Option EccError), (s.integOn 1 = false ∨ s.bankRuns b = false) → exec (.scrubRead b e) s = .next s) ∧
  (∀ (s : State) (b : BankNo) (e : Option EccError), s.integOn 1 = true → s.bankRuns b = true →
    let on : State → State := fun u => u.modBank b (fun x =>
      if (s.bank b).scrub = 511 then { x with scrub := 0, ce := 0 } else { x with scrub := (s.bank b).scrub + 1 })
    (s.bankFinds b (s.bank b).scrub e = none → exec (.scrubRead b e) s = .next (on s)) ∧
    (s.bankFinds b (s.bank b).scrub e = some false → exec (.scrubRead b e) s = .next (on ((s.clearMark 0 b (s.bank b).scrub).bankCorrected
      (e.isNone && (s.sramMark 0 b (s.bank b).scrub).isSome) b))) ∧
    (∀ k, s.bankFinds b (s.bank b).scrub e = some true → s.slotAtLine b (s.bank b).scrub = some k →
      exec (.scrubRead b e) s = .next (on (((s.clearMark 0 b (s.bank b).scrub).bankUncorrected
        (e.isNone && (s.sramMark 0 b (s.bank b).scrub).isSome) b (s.bank b).scrub).invalidate k))) ∧
    (s.bankFinds b (s.bank b).scrub e = some true → s.slotAtLine b (s.bank b).scrub = none →
      exec (.scrubRead b e) s = .next (on ((s.clearMark 0 b (s.bank b).scrub).count 48 1)))) ∧
  (∀ (s : State) (b : BankNo) (pass : Bool), s.integOn 5 = true → s.bankRuns b = true → s.katInj b = false →
    let u := s.modBank b (fun x => { x with kat := (x.kat + 1) % 16 })
    (pass = true → exec (.katInjection b pass) s = .next u) ∧
    (pass = false → exec (.katInjection b pass) s =
      .next ((((u.count 49 1).log 3 1 noUnit (u.bankUnit b) b (((s.bank b).kat + 4) % 16)).interrupt 1).failBank b))) ∧
  (∀ (s : State) (b : BankNo) (pass : Bool), (s.integOn 5 = false ∨ s.bankRuns b = false) →
    exec (.katInjection b pass) s = .next s) ∧
  (∀ (s : State), s.dev.stage = .ready → s.integOn 2 = true → s.spineMark s.integ.spineScrub = none →
    let n := s.integ.spineScrub
    let u : State := { s with integ := { s.integ with spineScrub := (n + 1) % 917504 } }
    exec (.spineScrub none) s = .next u ∧
    (s.integOn 0 = true → exec (.spineScrub (some .correctable)) s = .next ((u.clearMark 1 0 n).count 51 1)) ∧
    (let v := (((u.clearMark 1 0 n).count 52 1).log 5 1 noUnit noUnit noUnit n).interrupt 1;
      (n < 524288 → exec (.spineScrub (some .uncorrectable)) s = .next (v.failQuery n errPOOL_UE .scheduler)) ∧
      (∀ e, 524288 ≤ n → n < 786432 → v.pool.find? (fun e => (e.2.dataUnits ++ e.2.collUnits).contains ((n - 524288) / 2)) = some e →
        exec (.spineScrub (some .uncorrectable)) s = .next (v.failQuery e.1 errEXT_UE .scheduler)))) ∧
  (∀ (s : State), s.dev.stage = .ready → s.integOn 3 = true → s.sramMark 2 0 s.integ.txnScrub = none →
    let n := s.integ.txnScrub
    let u : State := ({ s with integ := { s.integ with txnScrub := (n + 1) % 32768 } } : State).clearMark 2 0 n
    (((mget s.txnBuf n).map (·.ue)).getD false = false → exec (.txnScrub none) s = .next u) ∧
    (((mget s.txnBuf n).map (·.ue)).getD false = false → s.integOn 0 = true → exec (.txnScrub (some .correctable)) s = .next (u.count 53 1)) ∧
    (exec (.txnScrub (some .uncorrectable)) s = .next ((({ u with
      txnBuf := mmap s.txnBuf (fun k l => if k = n then { l with ue := true } else l) } : State).count 54 1).log 7 1 noUnit noUnit noUnit n))) ∧
  (∀ (s : State), s.dev.stage = .ready → s.integOn 4 = true →
    let u : State := { s with integ := { s.integ with dirScrub := (s.integ.dirScrub + 1) % 4096 } }
    exec (.dirScrub none) s = .next u ∧ (s.integOn 0 = true → exec (.dirScrub (some .correctable)) s = .next u) ∧
    ∀ v, (u.count 58 1).report 9 1 noUnit noUnit noUnit 6 = v → exec (.dirScrub (some .uncorrectable)) s =
      .next (({ v with freeCtr := v.freeCtr + 1 } : State).loseDirLine s.integ.dirScrub (Config.freeWord v.freeCtr).toNat)) ∧
  (∀ (s : State) (e : Option EccError), (s.integOn 2 = false → exec (.spineScrub e) s = .next s) ∧
    (s.integOn 3 = false → exec (.txnScrub e) s = .next s) ∧ (s.integOn 4 = false → exec (.dirScrub e) s = .next s))

/-- R424, R428, R430, R432: a parity error in control state is counted and logged, once as the injected one when an error is armed for
the class of the structure. The entry of a cohort is being rebuilt and gets the members that the pool slots name; a slot is
invalidated; a strand becomes HALTED; a stream is cancelled; the query of a lane and any other query end ERR_DATA with LANE_PARITY; a
fill is asked for again; an entry of the presence directory or of the departure buffer and a handle of a queue are discarded. With
PARITY 0 nothing happens but for the last, which have check bits. Rests on the model's choices of log entries 23 and 93. -/
def Obligations.ControlParity : Prop :=
  (∀ (s : State), exec (.schedSweep none) s = .next s) ∧
  (∀ (s : State) (e : CtrlFault), (s.dev.stage ≠ .ready ∨ (s.integOn 7 = false ∧ ctrlEcc e = false)) → exec (.schedSweep (some e)) s = .next s) ∧
  (∀ (s u : State) (e : CtrlFault) (inj : Bool), s.dev.stage = .ready → (s.integOn 7 = true ∨ ctrlEcc e = true) →
    inj = (s.integ.injArmed && s.integ.injKind == 4 && s.integ.injUnit == ctrlStruct e) →
    u = (if inj then { s with integ := { s.integ with injArmed := false } } else s) →
    let note : Nat → Nat → Nat → State := fun row c unit => (u.count 58 1).logInj inj 9 1 c unit noUnit row
    (∀ id x, e = .cohort id → u.cohort id = some x → x.rebuilding = false →
      exec (.schedSweep (some e)) s = .next ((note 1 id.ctx noUnit).modCohort id (fun c => { c with rebuilding := true }))) ∧
    (∀ o sl, e = .slotMap o sl → exec (.schedSweep (some e)) s = .next ((note 2 noUnit o.val).invalidate (slotKey o sl))) ∧
    (∀ (core : CoreNo) (sh : SheafNo) (l : LaneNo) x y q, e = .lane core sh l → mget u.sheaves (sheafKey core sh) = some x → x.lane l = some y →
      u.laneQuery y = some q →
      exec (.schedSweep (some e)) s = .next (((note 3 q.ctx core.val).interrupt 1).failLane (sheafKey core sh) y errLANE_PARITY)) ∧
    (∀ (c : CtxNo), e = .strand c → (u.ctx c).state = .opened → exec (.schedSweep (some e)) s =
      .next (((note 4 c noUnit).interrupt 1).modStrand c (fun t => { t with state := .halted }))) ∧
    (∀ (k : StreamNo), e = .stream k → (u.stream k).state ≠ .idle → exec (.schedSweep (some e)) s =
      .next (((note 5 (u.stream k).owner noUnit).interrupt 1).cancelStream k)) ∧
    (∀ id f, e = .otherFill id → u.fillOf id = some f → exec (.schedSweep (some e)) s = .next (((note 6 id.ctx noUnit).interrupt 1).reissueFill id)) ∧
    (∀ (p : Fin 524288) q, e = .otherQuery p → mget u.pool p = some q → exec (.schedSweep (some e)) s =
      .next (((note 6 q.ctx noUnit).interrupt 1).failQuery p errLANE_PARITY .scheduler)) ∧
    (let v := (note 6 noUnit noUnit).interrupt 1;
      (∀ asid addr, e = .dirEntry asid addr → (u.dirAt { asid := asid.toNat, addr := lineOf addr }).isSome = true →
        exec (.schedSweep (some e)) s = .next (v.loseDir { asid := asid.toNat, addr := lineOf addr })) ∧
      (∀ asid addr, e = .departEntry asid addr → u.depart.any (fun d => d.addr == { asid := asid.toNat, addr := lineOf addr }) = true →
        exec (.schedSweep (some e)) s = .next (v.loseDepart { asid := asid.toNat, addr := lineOf addr })) ∧
      (∀ g i h, e = .placementHandle g i → (mgetD v.hq g [])[i]? = some h →
        exec (.schedSweep (some e)) s = .next (v.reissueFill h.item)) ∧
      (∀ g i t, e = .leafHandle g i → v.loseLeafHandle g i = some t → exec (.schedSweep (some e)) s = .next t))) ∧
  (∀ (s : State) (id : CohortId), s.cohort id = none → exec (.cohortEntryRebuilt id) s = .next s) ∧
  (∀ (s : State) (id : CohortId) (c : Cohort), s.cohort id = some c →
    (c.rebuilding = false → exec (.cohortEntryRebuilt id) s = .next s) ∧
    (c.rebuilding = true →
      let ps := sortBy (fun (e : Nat × Query) => [e.2.arrived, e.2.admitted, e.1]) (s.pool.filter (fun e =>
        e.2.cohort == id && (match e.2.place with | .parked _ _ => true | _ => false)))
      exec (.cohortEntryRebuilt id) s = .next ((s.modCohort id (fun _ => { Cohort.fresh id
        (((ps.map (fun e => e.2.ws.clines)).find? (· != 0)).getD 0) with members := ps.map (·.1) })).lapse id)))

/-- R465 to R470, R500, R509: every frame that reaches an instance is repeated on the chain. An instance that does not act on it
repeats it as it is; one that acts writes its outcome into STATUS while this holds NONE, and over a broadcast whatever it holds. ENUM
takes the address away and counts the instance in DATA, ASSIGN gives the first instance without an address its own, IDENT tells what
the instance is, PEEK and POKE read and write the register window at ADDR. Before READY the others find BUSY. While a long command is
in progress one frame is held and later ones are lost. R467, R469, R501, R504, R510 to R512, R514: RESET, STORE, FROST and THAW are
answered when they are taken up and hold the chain until they are complete. RESET kills every open context; once all are CLOSED, and
no line and no store is left, bring-up starts again, with the count of cycles, the address and the debug state kept. STORE is refused
for sectors that it may not write and while another store runs. FROST of the last grove in RUN is DENIED. The frame that was held is
acted on at the end. Rests on the model's choices of log entries 53, 54, 79, 81 and 131. -/
def Obligations.ChainCommands : Prop :=
  ((∀ (f : Frame) (b : Bool) (o : Nat), o < 16 →
    frStatus (frAnswer f b o) = (if frStatus f = 0 ∨ (b = true ∧ o ≠ 1) then o else frStatus f) ∧
    ∀ i, (i < 24 ∨ 28 ≤ i) → (frAnswer f b o).getLsbD i = f.getLsbD i) ∧
  (∀ (s : State) (f : Frame), s.clocked = false → exec (.chainEnum f) s = .next s ∧ exec (.chainPeek f) s = .next s) ∧
  (∀ (s : State) (f : Frame), s.clocked = true → s.chainLong ≠ none → frOp f = 4 →
    (s.chainHeld = none → exec (.chainPeek f) s = .next { s with chainHeld := some f }) ∧
    (s.chainHeld ≠ none → exec (.chainPeek f) s = .next s)) ∧
  (∀ (s : State) (f : Frame), s.clocked = true → s.chainLong = none →
    let say : State → Frame → Host.Outcome State Fault Refusal := fun u g => .next { u with out := .frame g :: u.out }
    let done' : Nat → Host.Outcome State Fault Refusal := fun o => say s (frAnswer f (frBcast f) o)
    let acts := frBcast f || (s.dev.addressed && frTarget f == s.dev.instId)
    (frOp f = 1 → exec (.chainEnum f) s = say { s with dev := { s.dev with addressed := false, instId := 0 } }
      (frAnswer (frWithData f ((frData f &&& ~~~ 0x3FFFF) ||| ((frData f + 1) &&& 0x3FFFF))) true 1)) ∧
    (frOp f = 2 → (s.dev.addressed = true ∨ frStatus f ≠ 0) → exec (.chainAssign f) s = say s f) ∧
    (frOp f = 2 → s.dev.addressed = false → frStatus f = 0 →
      (2 ^ 17 ≤ (frData f).toNat → exec (.chainAssign f) s = say s (frAnswer f false 4)) ∧
      ((frData f).toNat < 2 ^ 17 → exec (.chainAssign f) s =
        say { s with dev := { s.dev with addressed := true, instId := (frData f).toNat } } (frAnswer f false 1))) ∧
    (acts = false → (frOp f = 3 → exec (.chainIdent f) s = say s f) ∧ (frOp f = 4 → exec (.chainPeek f) s = say s f) ∧
      (frOp f = 5 → exec (.chainPoke f) s = say s f) ∧ (frOp f = 6 → exec (.chainReset f) s = say s f) ∧
      (frOp f = 7 → exec (.chainStore f) s = say s f) ∧ (frOp f = 8 → exec (.chainFrost f) s = say s f) ∧
      (frOp f = 9 → exec (.chainThaw f) s = say s f) ∧ ((frOp f = 0 ∨ 9 < frOp f) → exec (.chainReservedOp f) s = say s f)) ∧
    (acts = true → (frOp f = 3 → (frBcast f = true → exec (.chainIdent f) s = done' 4) ∧
      (frBcast f = false → exec (.chainIdent f) s = say s (frAnswer (frWithData f s.identData) false 1)))) ∧
    (acts = true → s.dev.stage ≠ .ready → (frOp f = 4 → exec (.chainPeek f) s = done' 2) ∧ (frOp f = 5 → exec (.chainPoke f) s = done' 2) ∧
      (frOp f = 6 → exec (.chainReset f) s = done' 2) ∧ (frOp f = 7 → exec (.chainStore f) s = done' 2) ∧
      (frOp f = 8 → exec (.chainFrost f) s = done' 2) ∧ (frOp f = 9 → exec (.chainThaw f) s = done' 2) ∧
      ((frOp f = 0 ∨ 9 < frOp f) → exec (.chainReservedOp f) s = done' 2)) ∧
    (acts = true → s.dev.stage = .ready → let a := frAddr f
      (frOp f = 4 → ((frBcast f = true ∨ a % 8 ≠ 0) → exec (.chainPeek f) s = done' 4) ∧
        (frBcast f = false → a % 8 = 0 → a ≠ 0x6008 → exec (.chainPeek f) s = say s (frAnswer (frWithData f (s.regRead a)) false 1)) ∧
        (frBcast f = false → a = 0x6008 → s.ptrLoaded = false → exec (.chainPeek f) s = done' 2) ∧
        (frBcast f = false → a = 0x6008 → s.ptrLoaded = true → exec (.chainPeek f) s =
          say { s with dev := { s.dev with nvmPtr := nextPtr s.dev.nvmPtr } } (frAnswer (frWithData f s.nvmWord) false 1))) ∧
      (frOp f = 5 → (a % 8 ≠ 0 → exec (.chainPoke f) s = done' 4) ∧
        (a = 0x6008 → s.ptrLoaded = false → exec (.chainPoke f) s = done' 2) ∧
        (a % 8 = 0 → (a ≠ 0x6008 ∨ s.ptrLoaded = true) → exec (.chainPoke f) s =
          say (s.regWrite true a { lo := true, hi := true, v := frData f }).settleAll (frAnswer f (frBcast f) 1))) ∧
      ((frOp f = 0 ∨ 9 < frOp f) → exec (.chainReservedOp f) s = done' 4)))) ∧
  ((∀ (s : State) (f : Frame), s.dev.stage = .ready → s.chainLong = none → s.acts f = true →
    let done' : State → Nat → State := fun u o => { u with out := .frame (frAnswer f (frBcast f) o) :: u.out }
    let n := frAddr f
    (frOp f = 6 → exec (.chainReset f) s =
      .next ((foldS s.openCtxs { done' s 1 with chainLong := some .reset } (fun u c => doCtxKill c u)).settleAll)) ∧
    (frOp f = 7 → ((frBcast f = true ∨ 63 < n) → exec (.chainStore f) s = .next (done' s 4)) ∧
      (frBcast f = false → n ≤ 63 → (n = 62 ∨ ((n = 0 ∨ n = 63) ∧ s.dev.svcEn = false)) →
        exec (.chainStore f) s = .next (done' { s with dev := { s.dev with lastSector := n, lastOutcome := 1 } } 3)) ∧
      (frBcast f = false → n ≤ 63 → n ≠ 62 → (s.dev.svcEn = true ∨ (n ≠ 0 ∧ n ≠ 63)) → s.nvmWorking = true →
        exec (.chainStore f) s = .next (done' { s with dev := { s.dev with lastSector := n, lastOutcome := 2 } } 2)) ∧
      (frBcast f = false → n ≤ 63 → n ≠ 62 → (s.dev.svcEn = true ∨ (n ≠ 0 ∧ n ≠ 63)) → s.nvmWorking = false →
        exec (.chainStore f) s = .next { done' { s with
          dev := { s.dev with nvmBusy := some { who := .chain, sector := n, started := s.staged? n } } } 1 with chainLong := some (.store n) })) ∧
    (frOp f = 8 → ((frBcast f = true ∨ 15 < n) → exec (.chainFrost f) s = .next (done' s 4)) ∧
      (frBcast f = false → n ≤ 15 → (s.grove n).state = .inactive → exec (.chainFrost f) s = .next (done' s 4)) ∧
      (frBcast f = false → n ≤ 15 → (s.grove n).state = .run → s.otherRuns n = false → (s.groves[n]?).isSome = true →
        exec (.chainFrost f) s = .next (done' (s.modGrove n (fun x => { x with result := 2 })) 3)) ∧
      (frBcast f = false → n ≤ 15 → (s.grove n).state = .run → ((s.frost n).grove n).state = .drain →
        exec (.chainFrost f) s = .next { done' (s.frost n) 1 with chainLong := some (.frost n) }) ∧
      (frBcast f = false → n ≤ 15 → (s.grove n).state = .frost →
        exec (.chainFrost f) s = .next (done' (s.modGrove n (fun x => { x with result := 1 })) 1))) ∧
    (frOp f = 9 → ((frBcast f = true ∨ 15 < n) → exec (.chainThaw f) s = .next (done' s 4)) ∧
      (frBcast f = false → n ≤ 15 → (s.grove n).state = .frost → (s.groves[n]?).isSome = true →
        exec (.chainThaw f) s = .next { done' (s.modGrove n (fun x => { x with thawing := true, result := 0 })) 1 with chainLong := some (.thaw n) }))) ∧
  (∀ (s : State), s.dev.stage = .ready → s.chainLong = some .reset → s.dev.unlock ≠ .killing → (∀ e ∈ s.ctxs, e.2.state = .closed) →
    s.dir = [] → s.depart = [] → s.ringPend = [] → s.dev.nvmBusy = none →
    ∃ t, s.settleAll = t ∧ t.dev = { Dev.reset with
        stage := .bringup, groveEn := s.dev.groveEn, svcEn := s.dev.svcEn, fab := s.dev.fab, instId := s.dev.instId
        addressed := s.dev.addressed, debugOpen := s.dev.debugOpen } ∧
      t.nvm = s.nvm ∧ t.pending = s.pending ∧ t.ctxs = State.reset.ctxs ∧ t.pool = State.reset.pool ∧ t.slots = State.reset.slots ∧
      t.keys = State.reset.keys ∧ t.lost = State.reset.lost ∧ t.chainLong = some .reset ∧ t.chainHeld = s.chainHeld) ∧
  (∀ (s : State), (s.longDone = false → s.settleChain = s) ∧
    (s.longDone = true → s.chainHeld = none → s.settleChain = { s with chainLong := none }) ∧
    (∀ f, s.longDone = true → s.chainHeld = some f → s.settleChain = ({ s with chainLong := none, chainHeld := none } : State).frame f)))

/-- R494, R499, R502 to R504, R510: at the rise of EZ_PORST_N the straps are sampled and everything but NVM is reset; with PLL_LOCK
the clocks start, and bring-up ends READY with the staged images of sectors 0 to 24, 62 and 63. A fall of EZ_PORST_N and the loss of
power reset the block again; a sector that was being stored is left without a valid header and no other byte of NVM changes. OFF is
taken only with every context CLOSED and no store or erase in progress, and completes once no line is left. Rests on the model's
choices of log entries 12 and 82. -/
def Obligations.PowerStages : Prop :=
  let start : State → PowerStage → BitVec 16 → Bool → State := fun s st en svc => { State.reset with
    pending := s.pending, out := s.out, freeCtr := s.freeCtr, nextId := s.nextId, nvm := s.nvm,
    groves := (List.range 16).map (fun g => { Grove.reset with state := if en.getLsbD g then .run else .inactive }),
    dev := { Dev.reset with stage := st, groveEn := en, svcEn := svc } }
  (∀ (s : State) (en : BitVec 16) (svc : Bool),
    ((s.dev.stage = .held ∨ s.dev.stage = .off) → exec (.powerOnReset en svc) s = .next (start s .pll en svc)) ∧
    (s.dev.stage ≠ .held → s.dev.stage ≠ .off → exec (.powerOnReset en svc) s = .next s)) ∧
  (∀ (s : State), (s.dev.stage = .pll → exec .pllLock s = .next { s with dev := { s.dev with stage := .bringup, fab := 0 } }) ∧
    (s.dev.stage ≠ .pll → exec .pllLock s = .next s)) ∧
  (∀ (s : State), (s.dev.stage = .off → exec .porstFall s = .next s) ∧
    (s.dev.stage ≠ .off → s.dev.nvmBusy = none → exec .porstFall s = .next (start s .held 0 false)) ∧
    (s.dev.nvmBusy = none → exec .powerRemoved s = .next (start s .off 0 false)) ∧
    (∀ st, s.dev.nvmBusy = some st → st.started = true → Memory.wf s.nvm = true → ∃ m,
      (s.dev.stage ≠ .off → exec .porstFall s = .next { start s .held 0 false with nvm := m, freeCtr := s.freeCtr + 512 }) ∧
      exec .powerRemoved s = .next { start s .off 0 false with nvm := m, freeCtr := s.freeCtr + 512 } ∧
      memRead m (4096 * st.sector) ≠ 1 ∧
      ∀ a, (a < 4096 * st.sector ∨ 4096 * (st.sector + 1) ≤ a) → memRead m a = memRead s.nvm a)) ∧
  (∀ (s : State) (bad : List BankNo), (s.dev.stage ≠ .bringup → exec (.bringupReady bad) s = .next s) ∧
    (s.dev.stage = .bringup →
      let mark := memRead s.nvm (4096 * 62 + 16) != 0
      let u : State := { s with
        staged := sectorCells s.nvm 0 25 ++ sectorCells s.nvm 62 2
        groves := s.groves.map (fun g => { g with patchGen := s.walkPatchGen })
        dev := { s.dev with stage := .ready, pwrState := 1, nvmDefaulted := nvmDefaults s.nvm, erasePending := mark, eraseBusy := mark } }
      let t := (foldS bad u.loadMaps.loadConfig (fun v b => v.bringupKat b)).settleService
      exec (.bringupReady bad) s = .next (if t.chainLong = some .reset then t.releaseChain else t)) ∧
    (pairCopy s.nvm 1 2 1 = none → s.loadMaps = s) ∧ (pairCopy s.nvm 3 4 1 = none → s.loadConfig = s)) ∧
  (∀ (s : State), s.dev.stage = .ready →
    (s.dev.pwrState ≠ 2 → s.allClosed = true → s.nvmWorking = false →
      exec .pwrCmdOff s = .next (({ s with dev := { s.dev with pwrState := 2, pwrLastCmd := 1 } } : State).expelLines).settleAll) ∧
    (s.dev.pwrState ≠ 2 → (s.allClosed = false ∨ s.nvmWorking = true) →
      exec .pwrCmdOff s = .next ({ s with dev := { s.dev with pwrLastCmd := 2 } } : State).settleAll) ∧
    (s.dev.pwrState = 2 → exec .pwrCmdOff s = .next s.settleAll)) ∧
  (∀ (s : State), (s.dev.pwrState = 2 → s.noLines = true → exec .offReady s = .next { s with dev := { s.dev with offReady := true } }) ∧
    (s.noLines = false → exec .offReady s = .next s))

/-- R512 to R515: FROST of a grove in RUN puts it into DRAIN unless no other is in RUN, which is DENIED; the drain ends in FROST with
the leaf cache empty, or, too late, in RUN with TIMEOUT. THAW brings a grove in DRAIN back to RUN at once; in FROST it starts a thaw,
and this ends, once no repair is under way, in RUN with every leaf pipe enabled, the sound octets in service again and the walk-core
patch of NVM. Rests on the model's choices of log entries 53 and 99. -/
def Obligations.GroveService : Prop :=
  (∀ (s : State) (g : GroveNo), s.dev.stage = .ready →
    let done : State → Host.Outcome State Fault Refusal := fun u => .next u.settleAll.settleChain
    ((s.grove g).state = .run → s.otherRuns g = true → exec (.groveCmdFrost g) s = done (s.startDrain g).settleService) ∧
    ((s.grove g).state = .run → s.otherRuns g = false → exec (.groveCmdFrost g) s = done (s.modGrove g (fun x => { x with result := 2 }))) ∧
    ((s.grove g).state = .frost → exec (.groveCmdFrost g) s = done (s.modGrove g (fun x => { x with result := 1 }))) ∧
    (((s.grove g).state = .drain ∨ (s.grove g).state = .inactive) → exec (.groveCmdFrost g) s = done s) ∧
    ((s.grove g).state = .run → exec (.groveCmdThaw g) s = done (s.modGrove g (fun x => { x with result := 1 }))) ∧
    ((s.grove g).state = .drain → exec (.groveCmdThaw g) s = done (s.modGrove g (fun x => { x with state := .run, result := 1 })).settleService) ∧
    ((s.grove g).state = .frost → exec (.groveCmdThaw g) s = done (s.modGrove g (fun x => { x with thawing := true, result := 0 }))) ∧
    ((s.grove g).state = .inactive → exec (.groveCmdThaw g) s = done s)) ∧
  (∀ (s : State) (g : GroveNo), (s.grove g).state = .drain →
    (s.groveIdle g = true → exec (.groveDrainComplete g) s = .next (((({ s with
        groves := s.groves.modify g (fun x => { x with state := .frost, result := 1, leafCache := [] })
        leafFills := s.leafFills.filter (fun f => f.grove != g.val) } : State).cancelXfers (fun w =>
          match w with | .leaf h _ => h == g.val | _ => false)).settleService)).settleChain) ∧
    (s.groveIdle g = false → exec (.groveDrainComplete g) s = .next s) ∧
    ((s.grove g).drainSince + s.dev.frostDrainMax.toNat ≤ s.now → exec (.frostDrainTimeout g) s =
      .next (((s.modGrove g (fun x => { x with state := .run, result := 3 })).count 71 1).settleService).settleChain) ∧
    (s.now < (s.grove g).drainSince + s.dev.frostDrainMax.toNat → exec (.frostDrainTimeout g) s = .next s)) ∧
  (∀ (s : State) (g : GroveNo), (s.grove g).state ≠ .drain →
    exec (.groveDrainComplete g) s = .next s ∧ exec (.frostDrainTimeout g) s = .next s) ∧
  (∀ (s : State) (g : GroveNo), (s.grove g).thawing = true →
    ((s.grove g).repair ≠ none → exec (.thawComplete g) s = .next s) ∧
    ((s.grove g).repair = none → exec (.thawComplete g) s = .next ((s.modGrove g (fun x => { x with
      state := .run
      result := 1
      thawing := false
      pipeEn := 0xFFFFFF
      pipeFail := []
      retired := x.retired &&& ~~~ ((s.soundOctets g).foldl (fun (m : BitVec 16) o => m ||| BitVec.ofNat 16 (2 ^ o)) 0)
      patchGen := s.walkPatchGen })).settleService).settleChain))

/-- R182, R186, R515, R516, R536: a write to REPAIR_MAP of a frozen grove starts the repair of the selected logical bank with a free
usable spare; any other sets REPAIR_ERR. A repair first invalidates the slots with a line that could not be copied. One whose
injections pass then maps the spare; one whose injections fail makes the spare FAILED, and one whose injection is armed to fail does
so as an injected error. The sequencer patch is applied when a valid copy is staged. Rests on the model's choice of log entry 101. -/
def Obligations.Repairs : Prop :=
  (∀ (s : State) (g : GroveNo) (phys : BitVec 7), s.dev.stage = .ready → let x := s.grove g
    let put : (Grove → Grove) → Host.Outcome State Fault Refusal := fun f => .next (s.modGrove g f).settleAll
    (∀ b, x.selected = some b → x.state = .frost → x.repair = none → 96 ≤ phys.toNat → phys.toNat < 100 →
      x.spareBad.getLsbD (phys.toNat - 96) = false → x.spareUsed.getLsbD (phys.toNat - 96) = false →
      exec (.repairMapWrite g phys) s = put (fun y => { y with repair := some { bank := b, phys := phys.toNat } })) ∧
    (x.state ≠ .inactive → (x.selected = none ∨ x.state ≠ .frost ∨ x.repair ≠ none ∨ phys.toNat < 96 ∨ 100 ≤ phys.toNat) →
      exec (.repairMapWrite g phys) s = put (fun y => { y with repairErr := true })) ∧
    (x.state = .inactive → exec (.repairMapWrite g phys) s = .next s.settleAll)) ∧
  (∀ (s : State) (g : GroveNo) (ls : List (Fin 512)) (pass : Bool), (s.grove g).repair = none → exec (.repairComplete g ls pass) s = .next s) ∧
  (∀ (s w : State) (g : GroveNo) (ls : List (Fin 512)) (r : Repair), (s.grove g).repair = some r →
    w = (s.loseLines (12 * g + r.bank / 8) (ls.map Fin.val ++ s.markedLines (100 * g + nth (s.grove g).repairMap r.bank 0))).modGrove g
      (fun x => { x with repair := none }) →
    let b := 100 * g.val + r.phys
    let u := w.modBank b (fun y => { y with kat := (y.kat + 4) % 16 })
    let failed : State → Bool → Nat → State := fun v inj i => ((((v.count 49 1).logInj inj 3 1 noUnit (v.bankUnit b) b
      (((w.bank b).kat + 4 + i) % 16)).interrupt 1).failBank b).modGrove g (fun x => { x with repairErr := true })
    (w.katInj b = false → exec (.repairComplete g ls true) s = .next (u.modGrove g (fun x => { x with
      repairMap := x.repairMap.set r.bank r.phys
      spareUsed := sparesOf (x.repairMap.set r.bank r.phys)
      spareBad := if 96 ≤ nth x.repairMap r.bank 0 ∧ (u.bank (100 * g + nth x.repairMap r.bank 0)).failed
        then x.spareBad ||| BitVec.ofNat 4 (2 ^ (nth x.repairMap r.bank 0 - 96)) else x.spareBad }))) ∧
    (w.katInj b = false → ∃ i < 4, exec (.repairComplete g ls false) s = .next (failed { u with freeCtr := u.freeCtr + 1 } false i)) ∧
    (∀ pass, w.katInj b = true → exec (.repairComplete g ls pass) s =
      .next (failed { u with integ := { u.integ with injArmed := false } } true 0))) ∧
  (∀ (s : State), s.dev.stage = .ready →
    (s.dev.seqPatchStatus = 1 → exec .seqPatchApply s = .next s.settleAll) ∧
    (s.dev.seqPatchStatus ≠ 1 → (pairCopy s.staged 5 9 4).isSome = true →
      exec .seqPatchApply s = .next ({ s with dev := { s.dev with seqPatchStatus := 1, seqPatchCores := 0 } } : State).settleAll) ∧
    (s.dev.seqPatchStatus ≠ 1 → pairCopy s.staged 5 9 4 = none →
      exec .seqPatchApply s = .next ({ s with dev := { s.dev with seqPatchStatus := 3, seqPatchCores := 0 } } : State).settleAll)) ∧
  (∀ (s : State), (s.dev.seqPatchStatus = 1 → exec .seqPatchDone s = .next { s with dev := { s.dev with seqPatchStatus := 2, seqPatchCores := 16 } }) ∧
    (s.dev.seqPatchStatus ≠ 1 → exec .seqPatchDone s = .next s))

/-- R459, R460, R464, R547: LOAD, UNWRAP and CLEAR find BUSY while a key command or an erase is in progress, and KEY_BUSY, which
clears KEY_BUF, for a slot that a context names. LOAD and UNWRAP then run; when one ends the slot holds the key, or, where both halves
are the same, the unwrapping fails, or debug is open, no key; KEY_BUF is 0 again. KEY_BUF takes writes only while no command runs.
Rests on the model's choice of log entry 94. -/
def Obligations.KeySlots : Prop :=
  (∀ (s : State) (k : KeyNo), s.dev.stage = .ready →
    let all : State → Prop := fun u => exec (.keyLoad k) s = .next u.settleAll ∧ exec (.keyUnwrap k) s = .next u.settleAll ∧
      exec (.keyClear k) s = .next u.settleAll
    ((s.keyCmd ≠ none ∨ s.dev.eraseBusy = true) → all { s with keyResult := 4 }) ∧
    (s.keyCmd = none → s.dev.eraseBusy = false → s.keyNamed k = true → all { s with keyCmd := none, keyResult := 3, keyBuf := List.replicate 10 0 }) ∧
    (s.keyCmd = none → s.dev.eraseBusy = false → s.keyNamed k = false →
      exec (.keyLoad k) s = .next ({ s with keyCmd := some (.load k), keyResult := 0 } : State).settleAll ∧
      exec (.keyUnwrap k) s = .next ({ s with keyCmd := some (.unwrap k), keyResult := 0 } : State).settleAll ∧
      exec (.keyClear k) s = .next ({ s with
        keys := merase s.keys k, keyCmd := none, keyResult := 1, keyBuf := List.replicate 10 0 } : State).settleAll)) ∧
  (∀ (s : State) (i : Fin 10) (v : DWord), s.dev.stage = .ready →
    (s.keyCmd ≠ none → exec (.keyBufWrite i v) s = .next ({ s with keyResult := 4 } : State).settleAll) ∧
    (s.keyCmd = none → exec (.keyBufWrite i v) s = .next ({ s with keyBuf := s.keyBuf.set i v } : State).settleAll)) ∧
  (∀ (s : State), s.keyCmd = none → exec .keyCmdDone s = .next s) ∧
  (∀ (s : State) (k : Nat) (cmd : KeyCmd), s.keyCmd = some cmd → (cmd = .load k ∨ cmd = .unwrap k) →
    let done : FMap KeySlot → Nat → Host.Outcome State Fault Refusal := fun m r =>
      .next { s with keys := m, keyCmd := none, keyResult := r, keyBuf := List.replicate 10 0 }
    (∀ x, s.keyMaterial cmd = some x → x.k1 ≠ x.k2 → s.dev.debugOpen = false → exec .keyCmdDone s = done (mset s.keys k x) 1) ∧
    (∀ x, s.keyMaterial cmd = some x → (x.k1 = x.k2 ∨ s.dev.debugOpen = true) → exec .keyCmdDone s = done (merase s.keys k) 2) ∧
    (s.keyMaterial cmd = none → exec .keyCmdDone s = done (merase s.keys k) 2)) ∧
  (∀ (s : State) (k : Nat), let bs := (s.keyBuf.flatMap (fun v => bytesOf v 8)).take 72
    s.keyMaterial (.load k) = some { k1 := ofBytes 256 (bs.take 32), k2 := ofBytes 256 ((bs.drop 32).take 32), salt := ofBytes 64 ((bs.drop 64).take 8) }) ∧
  (∀ (s : State) (k : Nat), secValid 63 (sectorBytes s.nvm 63) = false → s.keyMaterial (.unwrap k) = none)

/-- R463, R464, R510: a debug unlock kills every context that uses a key; with these CLOSED and no store or erase in progress it
clears every key slot, sets the erase mark in NVM and erases the secret sector, again while anything of it is left. Then the secret
sector reads as 0 in NVM and in its staged image, no key slot holds a key, the mark is gone, and debug is open. An erase that a reset
resumed opens nothing. Rests on the model's choices of log entries 12 and 55. -/
def Obligations.DebugUnlock : Prop :=
  (∀ (s : State), (s.dev.stage ≠ .ready ∨ s.dev.pwrState ≠ 1 ∨ s.dev.unlock ≠ .idle) → exec .dbgUnlock s = .next s) ∧
  (∀ (s : State), let start : State → State := fun u => { u with
      keys := []
      nvm := memWrite u.nvm (4096 * 62 + 16) 1
      dev := { u.dev with erasePending := true, eraseBusy := true, unlock := .erasing } }
    (s.dev.stage = .ready → s.dev.pwrState = 1 → s.dev.unlock = .idle →
      (s.keyed = [] → s.nvmWorking = false → exec .dbgUnlock s = .next (start { s with dev := { s.dev with unlock := .killing } })) ∧
      (s.keyed = [] → s.nvmWorking = true → exec .dbgUnlock s = .next { s with dev := { s.dev with unlock := .killing } }) ∧
      (s.keyed ≠ [] → exec .dbgUnlock s = .next ({ s with dev := { s.dev with unlock := .killing } } : State).settleUnlock)) ∧
    (s.dev.unlock = .killing → let u := foldS s.keyed s (fun u c => u.kill c 3 noUnit 0 0)
      s.settleUnlock = if u.keyed.isEmpty = true ∧ u.nvmWorking = false then start u else u) ∧
    (s.dev.eraseBusy = false → ∀ b, exec (.dbgEraseDone b) s = .next s) ∧
    (s.dev.eraseBusy = true → s.dev.unlock = .erasing → exec (.dbgEraseDone false) s = .next (start s)) ∧
    (s.dev.eraseBusy = true → s.dev.unlock ≠ .erasing → exec (.dbgEraseDone false) s = .next s) ∧
    (let wiped : State := { s with nvm := setSector s.nvm 63 [], staged := setSector s.staged 63 [] }
     let clear : Dev → State := fun d => { wiped with nvm := memWrite wiped.nvm (4096 * 62 + 16) 0, dev := d }
     (s.dev.eraseBusy = true → s.dev.unlock = .erasing → s.keys = [] → exec (.dbgEraseDone true) s =
       .next (clear { s.dev with erasePending := false, eraseBusy := false, unlock := .idle, debugOpen := true })) ∧
     (s.dev.eraseBusy = true → s.dev.unlock = .erasing → s.keys ≠ [] → exec (.dbgEraseDone true) s = .next (start wiped)) ∧
     (s.dev.eraseBusy = true → s.dev.unlock ≠ .erasing → exec (.dbgEraseDone true) s =
       .next (clear { s.dev with erasePending := false, eraseBusy := false }).settleUnlock))) ∧
  (∀ (m : List Host.Cell) (a : Nat), Memory.wf m = true →
    memRead (setSector m 63 []) a = if 4096 * 63 ≤ a ∧ a < 4096 * 64 then 0 else memRead m a)

/-- R192, R193, R314, R319, R349, R351, R358, R537, R541: a scheduler parameter takes a value within its range that keeps the
relations of R193 with the other pending values; LEAF_STAGE_LINES, LEAF_PF_DEPTH and COLLECT_SHARES take theirs as their rules say;
any other value sets the register's error bit and changes nothing. COLLECT_FLUSH flushes the entry that it names if its context is
OPEN and the entry has been read and is valid. R430, R432, R438, R485, R538, R543, R545, R548: INTEG_CTL takes its eight bits; INJ_CTL
arms an error that R432 allows while none is armed; ERRLOG_HEAD takes a value up to the tail; clearing a PENDING bit sends the group's
message again if the log holds a record of it; LOST_CLEAR empties an entry or all of the lost set; TRACE_EN takes effect with debug
open; a base register takes a value only while every context is CLOSED. Rests on the model's choices of log entries 45, 98 and 100. -/
def Obligations.RegisterCommands : Prop :=
  (∀ (s : State) (v : Word), s.dev.stage = .ready →
  (∀ n : Fin 17, let x := v.toNat % 2 ^ paramBits n
    let p := s.sched.pend.set n x
    (paramRange n x = true → paramsAgree p = true → exec (.schedParamWrite n v) s = .next ({ s with
      sched := { s.sched with pend := p, tInit := s.sched.tInit || n.val == 6 } } : State).settleAll) ∧
    ((paramRange n x = false ∨ paramsAgree p = false) → exec (.schedParamWrite n v) s =
      .next ({ s with sched := { s.sched with paramErr := true } } : State).settleAll)) ∧
  (let n := fbit v 0 14
   (n ≤ 8192 → (∀ e ∈ s.streams, smKind e.2.image = 1 → e.2.state = .idle) →
     exec (.leafStageLinesWrite v) s = .next ({ s with stageLines := n } : State).settleAll) ∧
   ((8192 < n ∨ (∃ e ∈ s.streams, smKind e.2.image = 1 ∧ e.2.state ≠ .idle)) →
     exec (.leafStageLinesWrite v) s = .next ({ s with stageParamErr := true } : State).settleAll)) ∧
  (let n := fbit v 0 7
   (n ≤ 64 → exec (.leafPfDepthWrite v) s = .next ({ s with leafPfD := n } : State).settleAll) ∧
   (64 < n → exec (.leafPfDepthWrite v) s = .next ({ s with stageParamErr := true } : State).settleAll)) ∧
  (let b := fbit v 0 9
   let a := fbit v 9 9
   let g := fbit v 18 9
   let may := b + a + g ≤ 256 ∧ (b = s.shareBin ∨ (s.binUsed = 0 ∧ s.chainsInTransit = false)) ∧ (a = s.shareAcc ∨ s.accUsed = 0) ∧
     (g = s.shareGrid ∨ s.gridUsed = 0)
   (may → exec (.collectSharesWrite v) s = .next ({ s with shareBin := b, shareAcc := a, shareGrid := g } : State).settleAll) ∧
   (¬ may → exec (.collectSharesWrite v) s = .next ({ s with collectErr := true } : State).settleAll)) ∧
  (let e := fbit v 0 12
   let c := fbit v 16 12
   ((s.ctx c).state = .opened → (s.deliv c e).raw ≠ none → (s.deliv c e).valid = true →
     exec (.collectFlush v) s = .next (s.flushEntry c e).settleAll) ∧
   (((s.ctx c).state ≠ .opened ∨ (s.deliv c e).raw = none ∨ (s.deliv c e).valid = false) → exec (.collectFlush v) s = .next s.settleAll))) ∧
  (∀ (s : State) (v : Word), s.dev.stage = .ready →
  (exec (.integCtlWrite v) s = .next ({ s with integ := { s.integ with ctl := v.setWidth 8 } } : State).settleAll) ∧
  (s.integ.injArmed = true → exec (.injCtlWrite v) s = .next s.settleAll) ∧
  (s.integ.injArmed = false → (fbit v 0 4 = 1 ∨ fbit v 0 4 = 2) → 1 ≤ fbit v 4 2 → fbit v 4 2 ≤ 2 →
    exec (.injCtlWrite v) s = .next ({ s with integ := { s.integ with
      injKind := fbit v 0 4, injSram := fbit v 4 2, injUnit := fbit v 16 11, injArmed := fbit v 31 1 == 1 } } : State).settleAll) ∧
  (s.integ.injArmed = false → (5 < fbit v 0 4 ∨ (fbit v 0 4 = 0 ∧ fbit v 31 1 = 1) ∨ (fbit v 0 4 = 3 ∧ 1600 ≤ fbit v 16 11)) →
    exec (.injCtlWrite v) s = .next s.settleAll) ∧
  ((v - s.integ.head).toNat ≤ s.integ.held → exec (.errlogHeadWrite v) s = .next ({ s with integ := { s.integ with head := v } } : State).settleAll) ∧
  (s.integ.held < (v - s.integ.head).toNat → exec (.errlogHeadWrite v) s = .next s.settleAll) ∧
  (∀ m : BitVec 4, (∀ g, (s.integ.intPend &&& m).getLsbD g = true → s.logHas g = false) →
    exec (.pendingClear m) s = .next ({ s with integ := { s.integ with intPend := s.integ.intPend &&& ~~~ m } } : State).settleAll) ∧
  (∀ (m : BitVec 4) (g : Fin 4), s.integ.intPend &&& m = BitVec.ofNat 4 (2 ^ g.val) → s.logHas g = true →
    exec (.pendingClear m) s = .next (({ s with integ := { s.integ with intPend := s.integ.intPend &&& ~~~ m } } : State).interrupt g).settleAll) ∧
  (v.getLsbD 31 = true → exec (.lostClear v) s = .next ({ s with lost := [] } : State).settleAll) ∧
  (v.getLsbD 31 = false → exec (.lostClear v) s = .next ({ s with lost := merase s.lost (fbit v 0 10) } : State).settleAll) ∧
  (s.dev.debugOpen = true → exec (.traceEnWrite v) s = .next ({ s with dev := { s.dev with traceEn := v.getLsbD 0 } } : State).settleAll) ∧
  (s.dev.debugOpen = false → exec (.traceEnWrite v) s = .next s.settleAll) ∧
  (∀ (x : DWord), let put : Dev → Host.Outcome State Fault Refusal := fun d => .next ({ s with dev := d } : State).settleAll
    (s.allClosed = false → ∀ r, exec (.baseRegisterWrite r x) s = .next s.settleAll) ∧
    (s.allClosed = true →
      exec (.baseRegisterWrite .ctxTableBase x) s = put { s.dev with ctxTableBase := x &&& ~~~ 0xFF } ∧
      exec (.baseRegisterWrite .drvAsid x) s = put { s.dev with drvAsid := x.setWidth 32 } ∧
      exec (.baseRegisterWrite .ingestBase x) s = put { s.dev with ingestBase := x &&& 0xFFFFFFFF00000000 } ∧
      exec (.baseRegisterWrite .shardTableBase x) s = put { s.dev with shardTableBase := x &&& ~~~ 0x3F })))

/-- R500, R509, R531, R532: the register port answers a write with a fabric retry before READY and does nothing without clocks. READY,
an access of 4 or 8 bytes that is naturally aligned acts, any other does nothing; one of NVM_DATA in a sector that is not loaded gives
a retry. The rows of the table that write one register do what a write of that register at its offset does. Rests on the model's
choice of log entry 97. -/
def Obligations.RegisterAccess : Prop :=
  (∀ (s : State) (off : BitVec 16) (size : Nat) (v : DWord),
    ((s.dev.stage = .off ∨ s.dev.stage = .held ∨ s.dev.stage = .pll) → exec (.registerWrite off size v) s = .next s.settleChain) ∧
    (s.dev.stage = .bringup → exec (.registerWrite off size v) s = .next (s.emit .retry).settleChain) ∧
    (s.dev.stage = .ready → accessOf off.toNat size v = none → exec (.registerWrite off size v) s = .next (s.settleAll).settleChain) ∧
    (∀ o w, s.dev.stage = .ready → accessOf off.toNat size v = some (o, w) → o ≠ 0x6008 →
      exec (.registerWrite off size v) s = .next ((s.regWrite false o w).settleAll).settleChain) ∧
    (s.dev.stage = .ready → off = 0x6008 → size = 8 → s.ptrLoaded = false →
      exec (.registerWrite off size v) s = .next ((s.emit .retry).settleAll).settleChain)) ∧
  (∀ (off size : Nat) (v : DWord), (size ≠ 4 → size ≠ 8 → accessOf off size v = none) ∧ (off % 4 ≠ 0 → accessOf off size v = none) ∧
    (off % 8 ≠ 0 → accessOf off 8 v = none) ∧ (off % 8 = 0 → (accessOf off 4 v).map (·.1) = some off) ∧
    (off % 8 = 4 → (accessOf off 4 v).map (·.1) = some (off - 4))) ∧
  (∀ (s : State) (v : Word), s.calm →
    let wr : Nat → Instr := fun off => .registerWrite (BitVec.ofNat 16 off) 4 (v.setWidth 64)
    let same : Nat → Instr → Prop := fun off c => ∀ t, exec c s = .next t → t.calm → exec (wr off) s = .next t
    (∀ n : Fin 17, same (0x800 + 8 * n) (.schedParamWrite n v)) ∧ same 0x2010 (.leafStageLinesWrite v) ∧ same 0x2018 (.leafPfDepthWrite v) ∧
    same 0x3000 (.collectSharesWrite v) ∧ same 0x3010 (.collectFlush v) ∧ same 0x4800 (.integCtlWrite v) ∧ same 0x4808 (.injCtlWrite v) ∧
    same 0x4C00 (.errlogHeadWrite v) ∧ same 0x8038 (.lostClear v) ∧ same 0x8050 (.traceEnWrite v))

/-- R263, R264, R304, R305: division raises no fault: a strand or an issue group that divides completes, whatever the operands. A
divisor of 0 gives a quotient of all ones and a remainder equal to the dividend, the most negative dividend by −1 gives itself and the
remainder 0, and every other quotient and remainder are the ones that make the dividend up, the remainder smaller than the divisor
and, signed, of the dividend's sign. -/
def Obligations.DivisionResults : Prop :=
  (∀ (w : Nat) (a : BitVec w), iop 0x0F a 0 = some (BitVec.allOnes w) ∧ iop 0x10 a 0 = some (BitVec.allOnes w) ∧
    iop 0x11 a 0 = some a ∧ iop 0x12 a 0 = some a) ∧
  (∀ (w : Nat), 2 ≤ w → iop 0x10 (BitVec.intMin w) (-1#w) = some (BitVec.intMin w) ∧ iop 0x12 (BitVec.intMin w) (-1#w) = some 0) ∧
  (∀ (w : Nat) (a b : BitVec w), b ≠ 0 → ∃ q r, iop 0x0F a b = some q ∧ iop 0x11 a b = some r ∧
    a.toNat = q.toNat * b.toNat + r.toNat ∧ r.toNat < b.toNat) ∧
  (∀ (w : Nat) (a b : BitVec w), 2 ≤ w → b ≠ 0 → ¬ (a = BitVec.intMin w ∧ b = -1#w) → ∃ q r, iop 0x10 a b = some q ∧
    iop 0x12 a b = some r ∧ a.toInt = q.toInt * b.toInt + r.toInt ∧ r.toInt.natAbs < b.toInt.natAbs ∧
    (r.toInt = 0 ∨ (r.toInt < 0 ↔ a.toInt < 0))) ∧
  (∀ (s : State) (c : CtxNo) (f : Fields), s.strandMay c [f.a.toNat, f.b.toNat, f.d.toNat] false →
    isX f.d = true → isX f.a = true → isX f.b = true → 0x0F ≤ f.minor.toNat → f.minor.toNat ≤ 0x12 →
    ∃ v, iop f.minor.toNat ((s.ctx c).strand.reg f.a.toNat) ((s.ctx c).strand.reg f.b.toNat) = some v ∧
      exec (.iop (.strand c) f) s = .next (s.withStrand c
        { (s.ctx c).strand.set f.d.toNat v with pc := (s.ctx c).strand.pc + 1, lat := 20 })) ∧
  (∀ (s : State) (core : CoreNo) (sh : SheafNo) (x : Sheaf) (f : Fields), s.sheafMay core sh x false →
    isVDst x.handler f.d = true → isV f.a = true → isV f.b = true → 0x0F ≤ f.minor.toNat → f.minor.toNat ≤ 0x12 →
    exec (.iop (.sheaf core sh) f) s = .next (s.onGroup core sh x 18
      (fun l => { l.next 1 with v := l.v.set f.d.toNat ((iop f.minor.toNat (l.reg f.a.toNat) (l.reg f.b.toNat)).getD 0) })))

/-- R436, R545: a log record goes to the entry of its number modulo 256 and leaves every other entry; the log is full at 256 records,
and then the record is dropped and ERRLOG_DROPPED counts it. ERRLOG_REC reads 0 when HEAD = TAIL and else the entry of HEAD. A write
of v to ERRLOG_HEAD takes effect when v − HEAD ≤ TAIL − HEAD, else it is ignored. -/
def Obligations.ErrorLog : Prop :=
  (∀ (s : State) (inj : Bool) (code group ctx unit punit detail : Nat),
    (s.integ.tail - s.integ.head ≠ 256 → ∃ r, s.logInj inj code group ctx unit punit detail = { s with integ := { s.integ with
        eseq := s.integ.eseq + 1, tail := s.integ.tail + 1, recs := mset s.integ.recs (s.integ.tail.toNat % 256) r } } ∧
      fld r 0 32 = s.integ.eseq.toNat ∧ fld r 4 16 = code % 65536 ∧
      fld r 6 8 = (group + if inj then 4 else 0) % 256 ∧ fld r 8 16 = ctx % 65536 ∧ fld r 10 16 = unit % 65536 ∧
      fld r 12 16 = punit % 65536 ∧ fld r 16 64 = s.now % 2 ^ 64 ∧ fld r 24 64 = detail % 2 ^ 64) ∧
    (s.integ.tail - s.integ.head = 256 → s.logInj inj code group ctx unit punit detail =
      ({ s with integ := { s.integ with eseq := s.integ.eseq + 1 } } : State).count 64 1)) ∧
  (∀ (s : State), s.dev.stage = .ready → (s.integ.head = s.integ.tail → ∀ k < 4, s.regRead (0x4C20 + 8 * k) = 0) ∧
    (s.integ.head ≠ s.integ.tail → ∀ k < 4, s.regRead (0x4C20 + 8 * k) =
      BitVec.ofNat 64 (fld (mgetD s.integ.recs (s.integ.head.toNat % 256) 0) (8 * k) 64))) ∧
  (∀ (s : State) (v : Word), s.dev.stage = .ready →
    (v - s.integ.head ≤ s.integ.tail - s.integ.head →
      exec (.errlogHeadWrite v) s = .next ({ s with integ := { s.integ with head := v } } : State).settleAll) ∧
    (¬ v - s.integ.head ≤ s.integ.tail - s.integ.head → exec (.errlogHeadWrite v) s = .next s.settleAll))

/-- R240, R242, R260, R261: nothing issues for a strand that is not READY in an OPEN context, for one whose instruction uses a
register that a load or an atomic has still to write, or for a sheaf that is not there or waits: the machine stays as it is. R252,
R253, R258, R260, R263, R266, R268, R272, R273, R291, R297: an instruction beyond its image, a branch that leaves it, a register or a
predicate of the wrong kind, and a minor that the rules reserve kill the context, with the PC and, for a walk, the core in the record;
no other effect of the instruction takes place. Rests on the model's choice of log entry 11. -/
def Obligations.IllegalForms : Prop :=
  (∀ (s : State) (c : CtxNo) (f : Fields), ((s.ctx c).state ≠ .opened ∨ (s.ctx c).strand.state ≠ .ready) →
    ∀ i ∈ [Instr.nop (.strand c), .iop (.strand c) f, .iopi (.strand c) f, .movi (.strand c) f, .movih (.strand c) f, .cmp (.strand c) f,
      .br (.strand c) f, .brt (.strand c) f, .brf (.strand c) f, .call (.strand c) f, .ret (.strand c) f, .retH (.strand c),
      .illegalInstruction (.strand c), .strandEnd c f, .ld c f, .st c f, .amo c f, .rdc c f, .waitc c f, .waitcT c f, .strmArm c f,
      .strmRearm c f, .strmStart c f, .strmStop c f, .strmCancel c f, .strmStat c f, .crcscan c f, .scanWait c f, .scanSuspend c f,
      .scanStat c f, .xbegin c f, .xwriteNode c f, .xwriteLeaf c f, .xcommit c f, .xabort c f, .xstat c f, .xwtpend c f, .xwtwait c f,
      .fence c f, .barrier c f, .launch c f, .nvstore c f], exec i s = .next s) ∧
  (∀ (s : State) (c : CtxNo) (f : Fields), ((s.ctx c).strand.awaits f.a.toNat = true) →
    ∀ i ∈ [Instr.iop (.strand c) f, .iopi (.strand c) f, .movih (.strand c) f, .cmp (.strand c) f, .brt (.strand c) f, .brf (.strand c) f,
      .ret (.strand c) f, .ld c f, .st c f, .amo c f, .rdc c f, .waitc c f, .waitcT c f, .launch c f, .nvstore c f], exec i s = .next s) ∧
  (∀ (s : State) (core : CoreNo) (sh : SheafNo) (f : Fields), s.issuing core sh = none →
    ∀ i ∈ [Instr.nop (.sheaf core sh), .iop (.sheaf core sh) f, .iopi (.sheaf core sh) f, .movi (.sheaf core sh) f, .movih (.sheaf core sh) f,
      .cmp (.sheaf core sh) f, .br (.sheaf core sh) f, .brt (.sheaf core sh) f, .brf (.sheaf core sh) f, .call (.sheaf core sh) f,
      .ret (.sheaf core sh) f, .retH (.sheaf core sh), .illegalInstruction (.sheaf core sh), .fop core sh f, .fcmp core sh f, .cvt core sh f,
      .sel core sh f, .plog core sh f, .movs core sh f, .testn core sh f, .testb core sh f, .leaf core sh f, .order core sh f, .child core sh f,
      .push core sh f, .pop core sh f, .descend core sh f, .trail core sh f, .yield core sh f, .yieldTree core sh f, .fwd core sh f,
      .hit core sh f, .collectEntry core sh f, .collectSum core sh f, .collectSumv core sh f, .collectClear core sh f, .emit core sh f,
      .spawn core sh f, .walkEnd core sh f], exec i s = .next s) ∧
  (∀ (s : State) (c : CtxNo) (f : Fields), let t := (s.ctx c).strand
    (s.ctx c).state = .opened → t.state = .ready → t.loads = [] →
    let kills : Instr → Prop := fun i => exec i s = .next (s.kill c 1 0xFFFF t.pc 0)
    (t.words ≤ t.pc → kills (.nop (.strand c)) ∧ kills (.iop (.strand c) f) ∧ kills (.ret (.strand c) f) ∧ kills (.rdc c f)) ∧
    (t.words ≤ t.pc + 1 → kills (.movi (.strand c) f) ∧ kills (.iopi (.strand c) f) ∧ kills (.br (.strand c) f) ∧ kills (.ld c f)) ∧
    (t.words ≤ f.imm.toNat → kills (.br (.strand c) f) ∧ kills (.call (.strand c) f)) ∧
    (32 ≤ f.d.toNat → ∀ i ∈ [Instr.iop (.strand c) f, .iopi (.strand c) f, .movi (.strand c) f, .movih (.strand c) f, .cmp (.strand c) f,
      .call (.strand c) f, .ld c f, .amo c f, .rdc c f, .waitc c f, .waitcT c f, .strmArm c f, .strmRearm c f, .strmStart c f, .strmStop c f,
      .strmCancel c f, .strmStat c f, .crcscan c f, .scanWait c f, .scanSuspend c f, .scanStat c f, .xbegin c f, .xwriteNode c f,
      .xwriteLeaf c f, .xcommit c f, .xabort c f, .xstat c f, .xwtpend c f, .xwtwait c f, .barrier c f, .launch c f, .nvstore c f], kills i) ∧
    (32 ≤ f.a.toNat → ∀ i ∈ [Instr.iop (.strand c) f, .iopi (.strand c) f, .movih (.strand c) f, .cmp (.strand c) f, .brt (.strand c) f,
      .brf (.strand c) f, .ret (.strand c) f, .ld c f, .st c f, .amo c f, .rdc c f, .waitc c f, .waitcT c f, .launch c f, .nvstore c f], kills i) ∧
    (∀ p ∈ [(0, Instr.rdc c f), (1, .waitc c f), (2, .waitcT c f), (0, .strmArm c f), (1, .strmRearm c f), (2, .strmStart c f), (3, .strmStop c f),
      (4, .strmCancel c f), (5, .strmStat c f), (0, .crcscan c f), (1, .scanWait c f), (2, .scanSuspend c f), (3, .scanStat c f), (0, .xbegin c f),
      (1, .xwriteNode c f), (2, .xwriteLeaf c f), (3, .xcommit c f), (4, .xabort c f), (5, .xstat c f), (6, .xwtpend c f), (7, .xwtwait c f)],
      f.minor.toNat ≠ p.1 → kills p.2) ∧
    (0x12 < f.minor.toNat → kills (.iop (.strand c) f) ∧ kills (.iopi (.strand c) f)) ∧
    (5 < f.minor.toNat → kills (.cmp (.strand c) f)) ∧
    (32 ≤ f.minor.toNat → kills (.ld c f) ∧ kills (.st c f)) ∧
    ((9 < f.minor.toNat % 16 ∨ f.minor.toNat / 16 % 4 < 2 ∨ (t.reg f.a.toNat).toNat % 2 ^ (f.minor.toNat / 16 % 4) ≠ 0) → kills (.amo c f))) ∧
  (∀ (s : State) (core : CoreNo) (sh : SheafNo) (x : Sheaf) (f : Fields), s.issuing core sh = some x →
    let kills : Instr → Prop := fun i => exec i s = .next (s.kill x.cohort.ctx 1 core x.pc 0)
    (pcBad x.words x.pc false = true → kills (.nop (.sheaf core sh)) ∧ kills (.fop core sh f) ∧ kills (.testn core sh f) ∧ kills (.walkEnd core sh f)) ∧
    (pcBad x.words x.pc true = true → kills (.movi (.sheaf core sh) f) ∧ kills (.br (.sheaf core sh) f)) ∧
    (x.group ≠ [] → beyond x.words f.imm.toNat = true → kills (.br (.sheaf core sh) f) ∧ kills (.call (.sheaf core sh) f)) ∧
    (isVDst x.handler f.d = false → ∀ i ∈ [Instr.iop (.sheaf core sh) f, .iopi (.sheaf core sh) f, .movi (.sheaf core sh) f,
      .call (.sheaf core sh) f, .fop core sh f, .cvt core sh f, .sel core sh f, .child core sh f], kills i) ∧
    (isPDst f.d = false → ∀ i ∈ [Instr.cmp (.sheaf core sh) f, .fcmp core sh f, .plog core sh f, .pop core sh f, .hit core sh f, .spawn core sh f], kills i) ∧
    (isV f.a = false → ∀ i ∈ [Instr.iop (.sheaf core sh) f, .iopi (.sheaf core sh) f, .cmp (.sheaf core sh) f, .ret (.sheaf core sh) f,
      .fop core sh f, .fcmp core sh f, .cvt core sh f, .sel core sh f, .testn core sh f, .leaf core sh f, .order core sh f, .child core sh f,
      .hit core sh f, .collectSumv core sh f], kills i) ∧
    (0x12 < f.minor.toNat → kills (.iop (.sheaf core sh) f) ∧ kills (.iopi (.sheaf core sh) f) ∧ kills (.fop core sh f) ∧
      kills (.fcmp core sh f) ∧ kills (.cvt core sh f) ∧ kills (.plog core sh f) ∧ kills (.cmp (.sheaf core sh) f) ∧
      kills (.sel core sh f) ∧ kills (.order core sh f) ∧ kills (.push core sh f) ∧ kills (.hit core sh f) ∧ kills (.trail core sh f)) ∧
    (∀ p ∈ [(0, Instr.yield core sh f), (1, .yieldTree core sh f), (1, .walkEnd core sh f), (0, .collectEntry core sh f),
      (1, .collectSum core sh f), (2, .collectSumv core sh f), (3, .collectClear core sh f)], f.minor.toNat ≠ p.1 → kills p.2) ∧
    (x.handler = true → ∀ i ∈ [Instr.testn core sh f, .testb core sh f, .leaf core sh f, .order core sh f, .push core sh f,
      .pop core sh f, .descend core sh f, .trail core sh f, .yield core sh f, .yieldTree core sh f, .fwd core sh f, .hit core sh f,
      .collectEntry core sh f, .collectSum core sh f, .collectSumv core sh f, .collectClear core sh f, .emit core sh f, .walkEnd core sh f], kills i) ∧
    (x.group.all Lane.yields = false → kills (.yield core sh f)) ∧ (x.group.all Lane.holdsRemote = false → kills (.fwd core sh f)) ∧
    (x.group.all s.isForest = false → kills (.yieldTree core sh f)))
end

