-- ==== Sys2Proof/Laws/Tables.lean ====
section
/-! SUPPORT. Laws/Tables.lean: reading a sparse table after a change of it. -/
namespace Sys2Proof.Machine

/-- A table after a key has been set. -/
theorem mget_mset {β : Type} (m : FMap β) (i j : Nat) (v : β) : mget (mset m i v) j = if j = i then some v else mget m j := by
  induction m with
  | nil =>
    simp only [mset, mget]
    by_cases h : j = i
    · rw [if_pos h, if_pos h.symm]
    · rw [if_neg h, if_neg (Ne.symm h)]; split <;> rfl
  | cons x t ih =>
    obtain ⟨k, w⟩ := x
    unfold mset
    split
    · rename_i hk
      subst hk
      simp only [mget]
      by_cases h : k = j
      · rw [if_pos h, if_pos h.symm]
      · rw [if_neg h, if_neg (Ne.symm h), if_neg h]
    · split
      · rename_i hne hlt
        by_cases h : j = i
        · simp [mget, h]
        · rw [if_neg h]
          conv_lhs => unfold mget
          rw [if_neg (Ne.symm h)]
          split
          · rename_i hji
            unfold mget
            rw [if_neg (by omega), if_pos (by omega)]
          · rfl
      · rename_i hne hnl
        simp only [mget]
        by_cases h : k = j
        · rw [if_pos h, if_pos h, if_neg (by omega)]
        · rw [if_neg h, if_neg h]
          split
          · rename_i hlt
            rw [if_neg (by omega)]
          · exact ih
/-- The value just set. -/
@[simp] theorem mget_mset_self {β : Type} (m : FMap β) (i : Nat) (v : β) : mget (mset m i v) i = some v := by
  rw [mget_mset, if_pos rfl]
/-- Another key keeps its value. -/
theorem mget_mset_ne {β : Type} (m : FMap β) {i j : Nat} (v : β) (h : j ≠ i) : mget (mset m i v) j = mget m j := by
  rw [mget_mset, if_neg h]
/-- The same with a default. -/
theorem mgetD_mset {β : Type} (m : FMap β) (i j : Nat) (v d : β) : mgetD (mset m i v) j d = if j = i then v else mgetD m j d := by
  unfold mgetD
  rw [mget_mset]
  split <;> rfl
@[simp] theorem mgetD_mset_self {β : Type} (m : FMap β) (i : Nat) (v d : β) : mgetD (mset m i v) i d = v := by
  rw [mgetD_mset, if_pos rfl]
theorem mgetD_mset_ne {β : Type} (m : FMap β) {i j : Nat} (v d : β) (h : j ≠ i) : mgetD (mset m i v) j d = mgetD m j d := by
  rw [mgetD_mset, if_neg h]

end Sys2Proof.Machine
end

