-- ==== Sys2Proof/Laws/Lists.lean ====
section
/-! SUPPORT. Laws/Lists.lean: sparse tables, folds, and the least of a list. -/
namespace Sys2Proof.Machine

/-- A key set twice keeps the second value. -/
theorem mset_mset {β : Type} (m : FMap β) (k : Nat) (a b : β) : mset (mset m k a) k b = mset m k b := by
  induction m with
  | nil => simp [mset]
  | cons e t ih =>
    obtain ⟨i, v⟩ := e
    simp only [mset]
    repeat' split
    all_goals (try simp [mset]; try omega)
    all_goals (split <;> simp_all; try omega)

/-- Looking a key up after every value of a table has been changed. -/
theorem mget_mmap {α : Type} (m : FMap α) (g : Nat → α → α) (k : Nat) : mget (mmap m g) k = (mget m k).map (g k) := by
  induction m with
  | nil => rfl
  | cons e t ih =>
    obtain ⟨i, v⟩ := e
    simp only [mmap, List.map_cons, mget] at *
    split
    · next h => subst h; rfl
    · split
      · rfl
      · exact ih

/-- What is not none is some. -/
theorem some_of {α : Type} {x : Option α} (h : x ≠ none) : x.isSome = true := by cases x with | none => exact absurd rfl h | some y => rfl

/-- Nothing in the list has the property. -/
theorem any_false {α : Type} (l : List α) (p : α → Bool) (h : ∀ x ∈ l, p x = false) : l.any p = false := by
  rw [List.any_eq_false]; intro x hx; simp [h x hx]

/-- What no step of a fold over states changes, the fold does not change. -/
theorem foldS_keep {α β : Type} (p : State → β) (l : List α) (f : State → α → State) (h : ∀ s a, p (f s a) = p s) (s : State) : p (foldS l s f) = p s := by
  induction l generalizing s with
  | nil => rfl
  | cons a t ih => exact (ih _).trans (h s a)

/-- A fold that changes nothing at any element changes nothing. -/
theorem fold_fix {α β : Type} (f : α → β → α) (l : List β) (a : α) (h : ∀ j ∈ l, f a j = a) : l.foldl f a = a := by
  induction l with
  | nil => rfl
  | cons j t ih =>
    rw [List.foldl_cons, h j List.mem_cons_self]
    exact ih (fun j hj => h j (List.mem_cons_of_mem _ hj))

/-- Inserting an element into a sorted list adds it. -/
theorem mem_insertBy {α : Type} (key : α → List Nat) (a x : α) (l : List α) : x ∈ insertBy key a l ↔ x = a ∨ x ∈ l := by
  induction l with
  | nil => simp [insertBy]
  | cons b t ih =>
    simp only [insertBy]
    split
    · simp only [List.mem_cons, ih]; tauto
    · simp

/-- Sorting a list keeps its elements. -/
theorem mem_sortBy {α : Type} (key : α → List Nat) (x : α) (l : List α) : x ∈ sortBy key l ↔ x ∈ l := by
  induction l with
  | nil => simp [sortBy]
  | cons b t ih => 
    have : sortBy key (b :: t) = insertBy key b (sortBy key t) := rfl
    rw [this, mem_insertBy, ih]; simp

/-- The first numbers of two keys in order. -/
theorem lex3_total (a b : List Nat) (h : lexLt b a = false) (ha : a.length = 3) (hb : b.length = 3) : a.headD 0 ≤ b.headD 0 := by
  match a, b, ha, hb with
  | [a0, a1, a2], [b0, b1, b2], _, _ =>
    simp [lexLt] at h ⊢; omega

/-- The least of a list is in it, and none comes before it. -/
theorem leastBy_spec {α : Type} (key : α → List Nat) (hk : ∀ x, (key x).length = 3) (l : List α) (x : α) (h : leastBy key l = some x) :
    x ∈ l ∧ ∀ y ∈ l, (key x).headD 0 ≤ (key y).headD 0 := by
  induction l generalizing x with
  | nil => cases h
  | cons a t ih =>
    simp only [leastBy] at h
    cases hl : leastBy key t with
    | none =>
      rw [hl] at h; simp only [Option.some.injEq] at h; subst h
      have : t = [] := by
        cases t with
        | nil => rfl
        | cons b u => simp only [leastBy] at hl; split at hl <;> (try split at hl) <;> cases hl
      subst this; simp
    | some y =>
      rw [hl] at h
      obtain ⟨hm, hle⟩ := ih y hl
      by_cases hc : lexLt (key y) (key a) = true
      · simp only [hc, if_true, Option.some.injEq] at h; subst h
        have h1 : (key y).headD 0 ≤ (key a).headD 0 := by
          have hy := hk y; have ha := hk a
          revert hc
          generalize key y = p at hy; generalize key a = q at ha
          match p, q, hy, ha with
          | [a0, a1, a2], [b0, b1, b2], _, _ => intro hc; simp [lexLt] at hc ⊢; omega
        refine ⟨List.mem_cons_of_mem _ hm, ?_⟩
        intro z hz
        rcases List.mem_cons.mp hz with rfl | hz
        · exact h1
        · exact hle z hz
      · have hc' : lexLt (key y) (key a) = false := by simpa using hc
        simp only [hc', Bool.false_eq_true, if_false, Option.some.injEq] at h; subst h
        have h1 : (key a).headD 0 ≤ (key y).headD 0 := lex3_total _ _ hc' (hk _) (hk _)
        refine ⟨List.mem_cons_self, ?_⟩
        intro z hz
        rcases List.mem_cons.mp hz with rfl | hz
        · exact le_refl _
        · exact le_trans h1 (hle z hz)

/-- Taking the elements of a list by number takes the list. -/
theorem fm_mapIdx {α β : Type} (f : Nat → α → β) (ms : List α) : (List.range ms.length).filterMap (fun j => (ms[j]?).map (f j)) = ms.mapIdx f := by
  induction ms using List.reverseRecOn with
  | nil => rfl
  | append_singleton l a ih =>
    rw [List.length_append, List.length_singleton, List.range_succ, List.filterMap_append, List.mapIdx_append, ← ih]
    congr 1
    · apply List.filterMap_congr
      intro j hj
      rw [List.getElem?_append_left (List.mem_range.mp hj)]
    · simp

/-- Bytes written round a window lie where they were written, and others stay. -/
theorem fold_put (off : Nat) (data : List Byte) (m : FMap Byte) (n p : Nat) (h : n ≤ 65536) :
    (∀ i, i < n → mget ((List.range n).foldl (fun m i => mset m ((off + i) % 65536) (nth data i 0)) m) ((off + i) % 65536) = some (nth data i 0)) ∧
    ((∀ i, i < n → (off + i) % 65536 ≠ p % 65536) → mget ((List.range n).foldl (fun m i => mset m ((off + i) % 65536) (nth data i 0)) m) (p % 65536) = mget m (p % 65536)) := by
  induction n with
  | zero => simp
  | succ n ih =>
    obtain ⟨a, b⟩ := ih (by omega)
    simp only [List.range_succ, List.foldl_append, List.foldl_cons, List.foldl_nil, mget_mset]
    constructor
    · intro i hi
      by_cases hn : i = n
      · subst hn; simp
      · rw [if_neg (by omega)]; exact a i (by omega)
    · intro hp
      rw [if_neg (fun e => hp n (by omega) e.symm)]
      exact b (fun i hi => hp i (by omega))

end Sys2Proof.Machine
end

