-- ==== Sys2Proof/Laws/Memory.lean ====
section
/-! SUPPORT. Laws/Memory.lean: byte memories keep their canonical form, and a read after a write gives what was written. -/
namespace Sys2Proof.Machine

/-! ### The canonical form -/

/-- The canonical form as a sorted list without zeros. -/
theorem Memory.wf_iff (m : List Host.Cell) : Memory.wf m = true ↔ m.Pairwise (fun a b => a.1 < b.1) ∧ ∀ e ∈ m, e.2 ≠ 0 := by
  induction m with
  | nil => simp [Memory.wf]
  | cons e t ih =>
    obtain ⟨a, b⟩ := e
    cases t with
    | nil => simp [Memory.wf]
    | cons f u =>
      obtain ⟨c, d⟩ := f
      rw [Memory.wf, Bool.and_eq_true, Bool.and_eq_true, ih, List.pairwise_cons]
      simp only [bne_iff_ne, ne_eq, decide_eq_true_eq, List.pairwise_cons, List.mem_cons, forall_eq_or_imp, Prod.forall]
      constructor
      · rintro ⟨⟨hb, hac⟩, ⟨hc, hu⟩, hd, hz⟩
        exact ⟨⟨⟨hac, fun x y hx => Nat.lt_trans hac (hc x y hx)⟩, hc, hu⟩, hb, hd, hz⟩
      · rintro ⟨⟨⟨hac, -⟩, hc, hu⟩, hb, hd, hz⟩
        exact ⟨⟨hb, hac⟩, ⟨hc, hu⟩, hd, hz⟩

/-- Where the entries of a written memory come from. -/
theorem memWrite_mem {m : List Host.Cell} {a : Nat} {v : Byte} {e : Host.Cell} (h : e ∈ memWrite m a v) : e ∈ m ∨ (e = (a, v) ∧ v ≠ 0) := by
  induction m with
  | nil =>
    unfold memWrite at h
    split at h
    · cases h
    · rename_i hv; rw [List.mem_singleton] at h; exact .inr ⟨h, hv⟩
  | cons x t ih =>
    obtain ⟨k, w⟩ := x
    unfold memWrite at h
    split at h
    · split at h
      · exact .inl (List.mem_cons_of_mem _ h)
      · rename_i hv
        rcases List.mem_cons.mp h with h | h
        · exact .inr ⟨h, hv⟩
        · exact .inl (List.mem_cons_of_mem _ h)
    · split at h
      · split at h
        · exact .inl h
        · rename_i hv
          rcases List.mem_cons.mp h with h | h
          · exact .inr ⟨h, hv⟩
          · exact .inl h
      · rcases List.mem_cons.mp h with h | h
        · exact .inl (h ▸ List.mem_cons_self)
        · rcases ih h with h | h
          · exact .inl (List.mem_cons_of_mem _ h)
          · exact .inr h

/-- A write keeps the canonical form. -/
theorem memWrite_wf {m : List Host.Cell} (a : Nat) (v : Byte) (h : Memory.wf m = true) : Memory.wf (memWrite m a v) = true := by
  rw [Memory.wf_iff] at h ⊢
  obtain ⟨hs, hz⟩ := h
  refine ⟨?_, fun e he => ?_⟩
  · induction m with
    | nil => unfold memWrite; split <;> simp
    | cons x t ih =>
      obtain ⟨k, w⟩ := x
      rw [List.pairwise_cons] at hs
      unfold memWrite
      split
      · rename_i hk
        split
        · exact hs.2
        · exact List.pairwise_cons.mpr ⟨fun e he => hk ▸ hs.1 e he, hs.2⟩
      · split
        · rename_i hlt
          split
          · exact List.pairwise_cons.mpr hs
          · refine List.pairwise_cons.mpr ⟨fun e he => ?_, List.pairwise_cons.mpr hs⟩
            rcases List.mem_cons.mp he with he | he
            · exact he ▸ hlt
            · exact Nat.lt_trans hlt (hs.1 e he)
        · rename_i hne hnl
          refine List.pairwise_cons.mpr ⟨fun e he => ?_, ih hs.2 (fun e he => hz e (List.mem_cons_of_mem _ he))⟩
          rcases memWrite_mem he with he | ⟨he, -⟩
          · exact hs.1 e he
          · rw [he]; show k < a; omega
  · rcases memWrite_mem he with he | ⟨he, hv⟩
    · exact hz e he
    · rw [he]; exact hv

/-- So do the writes of several bytes. -/
theorem memWriteBytes_wf {m : List Host.Cell} (a : Nat) (bs : List Byte) (h : Memory.wf m = true) : Memory.wf (memWriteBytes m a bs) = true := by
  induction bs generalizing m a with
  | nil => exact h
  | cons b t ih => exact ih (a + 1) (memWrite_wf a b h)

/-- Part of a memory is one. -/
theorem filter_wf {m : List Host.Cell} (p : Host.Cell → Bool) (h : Memory.wf m = true) : Memory.wf (m.filter p) = true := by
  rw [Memory.wf_iff] at h ⊢
  exact ⟨h.1.filter p, fun e he => h.2 e (List.mem_of_mem_filter he)⟩
/-- Two memories, one below the other, make one. -/
theorem append_wf {m n : List Host.Cell} (hm : Memory.wf m = true) (hn : Memory.wf n = true) (h : ∀ a ∈ m, ∀ b ∈ n, a.1 < b.1) :
    Memory.wf (m ++ n) = true := by
  rw [Memory.wf_iff] at hm hn ⊢
  refine ⟨List.pairwise_append.mpr ⟨hm.1, hn.1, h⟩, fun e he => ?_⟩
  rcases List.mem_append.mp he with he | he
  · exact hm.2 e he
  · exact hn.2 e he

/-- The addresses of the cells of some bytes. -/
theorem cellsOf_mem {a : Nat} {bs : List Byte} {e : Host.Cell} (h : e ∈ cellsOf a bs) : a ≤ e.1 ∧ e.1 < a + bs.length ∧ e.2 ≠ 0 := by
  induction bs generalizing a with
  | nil => cases h
  | cons b t ih =>
    rw [cellsOf] at h
    split at h
    · obtain ⟨h1, h2, h3⟩ := ih h
      simp only [List.length_cons]; exact ⟨by omega, by omega, h3⟩
    · rename_i hb
      rcases List.mem_cons.mp h with h | h
      · rw [h]; simp only [List.length_cons]; exact ⟨Nat.le_refl _, by omega, hb⟩
      · obtain ⟨h1, h2, h3⟩ := ih h
        simp only [List.length_cons]; exact ⟨by omega, by omega, h3⟩
/-- They are in canonical form. -/
theorem cellsOf_wf (a : Nat) (bs : List Byte) : Memory.wf (cellsOf a bs) = true := by
  rw [Memory.wf_iff]
  refine ⟨?_, fun e he => (cellsOf_mem he).2.2⟩
  induction bs generalizing a with
  | nil => exact List.Pairwise.nil
  | cons b t ih =>
    rw [cellsOf]
    split
    · exact ih (a + 1)
    · exact List.pairwise_cons.mpr ⟨fun e he => (cellsOf_mem he).1, ih (a + 1)⟩
/-- Sectors replaced by cells of their own keep the form. -/
theorem spliceSectors_wf {m new : List Host.Cell} (n k : Nat) (h : Memory.wf m = true) (hn : Memory.wf new = true)
    (hr : ∀ e ∈ new, 4096 * n ≤ e.1 ∧ e.1 < 4096 * (n + k)) : Memory.wf (spliceSectors m n k new) = true := by
  refine append_wf (append_wf (filter_wf _ h) hn (fun a ha b hb => ?_)) (filter_wf _ h) (fun a ha b hb => ?_)
  · have ha := (List.mem_filter.mp ha).2
    have hb := (hr b hb).1
    simp only [decide_eq_true_eq] at ha
    omega
  · have hb := (List.mem_filter.mp hb).2
    simp only [decide_eq_true_eq] at hb
    rcases List.mem_append.mp ha with ha | ha
    · have ha := (List.mem_filter.mp ha).2
      simp only [decide_eq_true_eq] at ha
      have : 4096 * n ≤ 4096 * (n + k) := Nat.mul_le_mul_left _ (Nat.le_add_right n k)
      omega
    · exact Nat.lt_of_lt_of_le (hr a ha).2 hb
/-- A sector replaced keeps the form. -/
theorem setSector_wf {m : List Host.Cell} (n : Nat) (bs : List Byte) (h : Memory.wf m = true) : Memory.wf (setSector m n bs) = true := by
  refine spliceSectors_wf n 1 h (cellsOf_wf _ _) (fun e he => ?_)
  obtain ⟨h1, h2, -⟩ := cellsOf_mem he
  have : (bs.take 4096).length ≤ 4096 := by rw [List.length_take]; exact Nat.min_le_left _ _
  exact ⟨h1, by omega⟩
/-- The cells of some sectors are in canonical form, and within them. -/
theorem sectorCells_wf {m : List Host.Cell} (n k : Nat) (h : Memory.wf m = true) : Memory.wf (sectorCells m n k) = true := filter_wf _ h
theorem sectorCells_mem {m : List Host.Cell} {n k : Nat} {e : Host.Cell} (h : e ∈ sectorCells m n k) : 4096 * n ≤ e.1 ∧ e.1 < 4096 * (n + k) := by
  have := (List.mem_filter.mp h).2
  simpa using this

/-! ### Reading and writing -/

/-- An address below every entry reads as 0. -/
theorem memRead_below {m : List Host.Cell} {a : Nat} (h : ∀ e ∈ m, a < e.1) : memRead m a = 0 := by
  cases m with
  | nil => rfl
  | cons x t =>
    obtain ⟨k, w⟩ := x
    have hk : a < k := h (k, w) List.mem_cons_self
    unfold memRead
    rw [if_neg (by omega), if_pos hk]
/-- A read after a write. -/
theorem memRead_memWrite {m : List Host.Cell} (a b : Nat) (v : Byte) (h : Memory.wf m = true) :
    memRead (memWrite m a v) b = if b = a then v else memRead m b := by
  rw [Memory.wf_iff] at h
  obtain ⟨hs, -⟩ := h
  induction m with
  | nil =>
    unfold memWrite
    split
    · rename_i hv; rw [hv]; simp [memRead]
    · rename_i hv
      simp only [memRead]
      split
      · rename_i h; rw [if_pos h.symm]
      · rename_i h; rw [if_neg (Ne.symm h)]; split <;> rfl
  | cons x t ih =>
    obtain ⟨k, w⟩ := x
    rw [List.pairwise_cons] at hs
    have ih := ih hs.2
    unfold memWrite
    split
    · rename_i hk
      subst hk
      split
      · rename_i hv
        by_cases hb : b = k
        · rw [if_pos hb, hv]
          exact memRead_below (fun e he => hb ▸ hs.1 e he)
        · rw [if_neg hb]
          conv_rhs => unfold memRead
          rw [if_neg (Ne.symm hb)]
          split
          · rename_i hlt
            exact memRead_below (fun e he => Nat.lt_trans hlt (hs.1 e he))
          · rfl
      · simp only [memRead]
        by_cases hb : b = k
        · rw [if_pos hb, if_pos hb.symm]
        · rw [if_neg hb, if_neg (Ne.symm hb), if_neg (Ne.symm hb)]
    · rename_i hne
      split
      · rename_i hlt
        split
        · rename_i hv
          by_cases hb : b = a
          · rw [if_pos hb, hv, hb]
            unfold memRead
            rw [if_neg hne, if_pos hlt]
          · rw [if_neg hb]
        · by_cases hb : b = a
          · subst hb; simp [memRead]
          · rw [if_neg hb]
            conv_lhs => unfold memRead
            rw [if_neg (Ne.symm hb)]
            split
            · rename_i hlt'
              unfold memRead
              rw [if_neg (by omega), if_pos (by omega)]
            · rfl
      · simp only [memRead]
        by_cases hkb : k = b
        · rw [if_pos hkb, if_pos hkb, if_neg (by omega)]
        · rw [if_neg hkb, if_neg hkb]
          split
          · rename_i hlt
            rw [if_neg (by omega)]
          · exact ih

end Sys2Proof.Machine
end

