-- ==== Sys2Proof/Laws/Bytes.lean ====
section
/-! SUPPORT. Laws/Bytes.lean: byte memories and NVM sectors read back. -/
namespace Sys2Proof.Machine

/-- A doubleword from its bytes. -/
theorem bytes8 (v : DWord) : ofBytes 64 (bytesOf v 8) = v := by
  apply BitVec.eq_of_getLsbD_eq
  intro i hi
  simp only [bytesOf, ofBytes, List.range, List.range.loop, List.map, List.foldr, fldv, BitVec.getLsbD_or, BitVec.getLsbD_shiftLeft, BitVec.getLsbD_setWidth, BitVec.getLsbD_extractLsb']
  interval_cases i <;> simp

/-- A word from its bytes. -/
theorem bytes4 (v : Word) : ofBytes 32 (bytesOf v 4) = v := by
  apply BitVec.eq_of_getLsbD_eq
  intro i hi
  simp only [bytesOf, ofBytes, List.range, List.range.loop, List.map, List.foldr, fldv, BitVec.getLsbD_or, BitVec.getLsbD_shiftLeft, BitVec.getLsbD_setWidth, BitVec.getLsbD_extractLsb']
  interval_cases i <;> simp

/-- A byte read after bytes have been written. -/
theorem memRead_bytes (m : List Host.Cell) (p : Nat) (bs : List Byte) (h : Memory.wf m = true) (a : Nat) :
    memRead (memWriteBytes m p bs) a = if p ≤ a ∧ a < p + bs.length then nth bs (a - p) 0 else memRead m a := by
  induction bs generalizing m p with
  | nil => rw [if_neg (by simp)]; rfl
  | cons b t ih =>
    rw [memWriteBytes, ih _ _ (memWrite_wf _ _ h), memRead_memWrite _ _ _ h]
    simp only [List.length_cons]
    by_cases h1 : p + 1 ≤ a ∧ a < p + 1 + t.length
    · rw [if_pos h1, if_pos (by omega)]
      obtain ⟨k, hk⟩ : ∃ k, a - p = k + 1 := ⟨a - p - 1, by omega⟩
      rw [hk, show a - (p + 1) = k by omega]; rfl
    · rw [if_neg h1]
      by_cases h2 : a = p
      · subst h2; rw [if_pos rfl, if_pos (by omega)]; simp [nth]
      · rw [if_neg h2, if_neg (by omega)]

/-- A doubleword just written. -/
theorem read8 (m : List Host.Cell) (p : Nat) (v : DWord) (h : Memory.wf m = true) : memReadBytes (memWriteBytes m p (bytesOf v 8)) p 8 = bytesOf v 8 := by
  have l : (bytesOf v 8).length = 8 := by simp [bytesOf]
  apply List.ext_getElem
  · simp [memReadBytes, l]
  · intro i h1 h2
    simp only [memReadBytes, List.getElem_map, List.getElem_range]
    rw [memRead_bytes _ _ _ h, if_pos (by omega)]
    simp [nth, h2]

/-- Reading a byte is finding its cell. -/
theorem memRead_find (m : List Host.Cell) (h : m.Pairwise (fun a b => a.1 < b.1)) (a : Nat) : memRead m a = ((m.find? (fun e => e.1 == a)).map (·.2)).getD 0 := by
  induction m with
  | nil => rfl
  | cons x t ih =>
    obtain ⟨k, w⟩ := x
    rw [List.pairwise_cons] at h
    simp only [memRead, List.find?_cons]
    by_cases h1 : k = a
    · simp [h1]
    · rw [if_neg h1]
      have : (k == a) = false := by simpa using h1
      rw [this]
      split
      · next h2 =>
        rw [List.find?_eq_none.mpr]; rfl
        intro e he hk
        have := h.1 e he
        simp at hk; simp at this; omega
      · exact ih h.2

/-- A cell found among those of some addresses. -/
theorem find_filter (m : List Host.Cell) (p : Nat → Bool) (a : Nat) : (m.filter (fun e => p e.1)).find? (fun e => e.1 == a) = if p a then m.find? (fun e => e.1 == a) else none := by
  induction m with
  | nil => split <;> rfl
  | cons x t ih =>
    by_cases hp : p x.1
    · rw [List.filter_cons_of_pos (by simpa using hp), List.find?_cons, List.find?_cons, ih]
      by_cases hx : x.1 = a
      · subst hx; simp [hp]
      · have : (x.1 == a) = false := by simpa using hx
        simp [this]
    · rw [List.filter_cons_of_neg (by simpa using hp), ih]
      by_cases hx : x.1 = a
      · subst hx; simp [hp]
      · have : (x.1 == a) = false := by simpa using hx
        simp [List.find?_cons, this]

/-- A byte read after sectors 25 to 61 have been put in place. -/
theorem splice_read (m n : List Host.Cell) (h1 : Memory.wf m = true) (h2 : Memory.wf n = true) (a : Nat) :
    memRead (spliceSectors m 25 37 (sectorCells n 25 37)) a = if 25 * 4096 ≤ a ∧ a < 62 * 4096 then memRead n a else memRead m a := by
  have w := spliceSectors_wf 25 37 h1 (sectorCells_wf 25 37 h2) (fun e he => sectorCells_mem he)
  rw [Memory.wf_iff] at w h1 h2
  rw [memRead_find _ w.1, memRead_find _ h1.1, memRead_find _ h2.1]
  simp only [spliceSectors, sectorCells, List.find?_append]
  rw [find_filter m (fun k => decide (k < 4096 * 25)), find_filter m (fun k => decide (4096 * (25 + 37) ≤ k)), find_filter n (fun k => decide (4096 * 25 ≤ k) && decide (k < 4096 * (25 + 37)))]
  by_cases c1 : a < 4096 * 25
  · rw [if_pos (by simpa using c1), if_neg (by simp; omega), if_neg (by simp; omega), if_neg (by omega)]; simp
  · by_cases c2 : 4096 * (25 + 37) ≤ a
    · rw [if_neg (by simpa using c1), if_neg (by simp; omega), if_pos (by simpa using c2), if_neg (by omega)]; simp
    · rw [if_neg (by simpa using c1), if_pos (by simp; omega), if_neg (by simpa using c2), if_pos (by omega)]; simp

/-- A byte of a fresh run of cells. -/
theorem cells_read (a : Nat) (bs : List Byte) (x : Nat) : memRead (cellsOf a bs) x = if a ≤ x ∧ x < a + bs.length then nth bs (x - a) 0 else 0 := by
  induction bs generalizing a with
  | nil => rw [if_neg (by simp)]; rfl
  | cons b t ih =>
    have hx : ∀ k, x - a = k + 1 → nth (b :: t) (x - a) 0 = nth t k 0 := by intro k hk; rw [hk]; rfl
    rw [cellsOf]
    split
    · next hb =>
      rw [ih]
      by_cases h1 : x = a
      · subst h1; rw [if_neg (by omega), if_pos (by simp)]; simp [nth, hb]
      · by_cases h2 : a + 1 ≤ x ∧ x < a + 1 + t.length
        · rw [if_pos h2, if_pos (by simp; omega), hx (x - (a + 1)) (by omega)]
        · rw [if_neg h2, if_neg (by simp; omega)]
    · next hb =>
      simp only [memRead]
      by_cases h1 : a = x
      · subst h1; rw [if_pos rfl, if_pos (by simp)]; simp [nth]
      · rw [if_neg h1]
        by_cases h3 : x < a
        · rw [if_pos h3, if_neg (by omega)]
        · rw [if_neg h3, ih]
          by_cases h2 : a + 1 ≤ x ∧ x < a + 1 + t.length
          · rw [if_pos h2, if_pos (by simp; omega), hx (x - (a + 1)) (by omega)]
          · rw [if_neg h2, if_neg (by simp; omega)]

/-- A byte read after a sector has been put in place. -/
theorem set_read (m : List Host.Cell) (n : Nat) (bs : List Byte) (h1 : Memory.wf m = true) (a : Nat) :
    memRead (setSector m n bs) a = if 4096 * n ≤ a ∧ a < 4096 * (n + 1) then memRead (cellsOf (4096 * n) (bs.take 4096)) a else memRead m a := by
  have w := setSector_wf n bs h1
  have wc := cellsOf_wf (4096 * n) (bs.take 4096)
  have hc := @cellsOf_mem (4096 * n) (bs.take 4096)
  rw [Memory.wf_iff] at w h1 wc
  rw [memRead_find _ w.1, memRead_find _ h1.1, memRead_find _ wc.1]
  simp only [setSector, spliceSectors, List.find?_append]
  rw [find_filter m (fun k => decide (k < 4096 * n)), find_filter m (fun k => decide (4096 * (n + 1) ≤ k))]
  have hl : (bs.take 4096).length ≤ 4096 := by simp
  have hno : ¬ (4096 * n ≤ a ∧ a < 4096 * (n + 1)) → (cellsOf (4096 * n) (bs.take 4096)).find? (fun e => e.1 == a) = none := by
    intro hh
    rw [List.find?_eq_none]
    intro e he hk
    have := hc he
    simp at hk
    omega
  by_cases c1 : a < 4096 * n
  · rw [if_pos (by simpa using c1), if_neg (by simp; omega), if_neg (by omega), hno (by omega)]; simp
  · by_cases c2 : 4096 * (n + 1) ≤ a
    · rw [if_neg (by simpa using c1), if_pos (by simpa using c2), if_neg (by omega), hno (by omega)]; simp
    · rw [if_neg (by simpa using c1), if_neg (by simpa using c2), if_pos (by omega)]; simp

/-- Drawing free bytes changes the count of free values alone. -/
theorem drawBytes_eq (n : Nat) (s : State) : ∃ free, State.drawBytes n s = (free, { s with freeCtr := s.freeCtr + n }) := by
  induction n generalizing s with
  | zero => exact ⟨[], rfl⟩
  | succ n ih =>
    obtain ⟨f, hf⟩ := ih { s with freeCtr := s.freeCtr + 1 }
    refine ⟨bytesOf (Config.freeWord s.freeCtr) 8 ++ f, ?_⟩
    simp only [State.drawBytes, State.draw, hf]
    rw [Nat.add_assoc, Nat.add_comm 1 n]

/-- A sector left open holds free bytes. -/
theorem spoil_eq (t : State) (n : Nat) : ∃ free, t.spoilNvm n id = { t with nvm := setSector t.nvm n free, freeCtr := t.freeCtr + 512 } := by
  obtain ⟨free, hf⟩ := drawBytes_eq 512 t
  refine ⟨free, ?_⟩
  unfold State.spoilNvm
  rw [hf]; rfl

/-- A CRC over two runs of bytes, one after the other. -/
theorem crcRun_append32 (r : Word) (a b : List Byte) : crc32cRun r (a ++ b) = crc32cRun (crc32cRun r a) b := by
  simp [crc32cRun]

end Sys2Proof.Machine
end

