-- ==== Sys2Proof/Laws/Issuing.lean ====
section
/-! SUPPORT. Laws/Issuing.lean: what issuing an instruction leaves, for a strand and for the issue group of a sheaf. -/
namespace Sys2Proof.Machine

/-- Two changes of a strand are one. -/
theorem modStrand2 (s : State) (c : Nat) (f g : Strand → Strand) :
    (s.modStrand c f).modStrand c g = s.withStrand c (g (f (s.ctx c).strand)) := by
  simp [State.modStrand, State.modCtx, State.setCtx, State.ctx, State.withStrand, mset_mset]

/-- A change of a strand puts another in its place. -/
theorem modStrand1 (s : State) (c : Nat) (f : Strand → Strand) :
    (s.modStrand c f) = s.withStrand c (f (s.ctx c).strand) := by
  simp [State.modStrand, State.modCtx, State.withStrand]

/-- A register after a change of the strand. -/
theorem getReg_mod (s : State) (c : Nat) (f : BitVec 6) (g : Strand → Strand) : (s.modStrand c g).getReg c f = (g (s.ctx c).strand).reg f.toNat := by
  simp [State.getReg, State.modStrand, State.modCtx, State.setCtx, State.ctx, Strand.rx]

/-- Writing a register leaves the PC and the latency. -/
theorem set_with (t : Strand) (n : Nat) (v) (p l : Nat) : ({t with pc := p, lat := l} : Strand).set n v = {t.set n v with pc := p, lat := l} := by
  unfold Strand.set; split <;> rfl

/-- A strand that may issue an instruction issues it. -/
theorem strandIssue_ok {s : State} {c uses long lat eff} (h : s.strandMay c uses long) : 
   s.strandIssue c uses long true lat eff = eff (s.modStrand c (fun t => { t with pc := t.pc + iwords long, lat := lat })) := by
  simp [State.strandIssue, h.1, h.2]

/-- A sheaf that may issue an instruction issues it. -/
theorem issue_ok {s : State} {core sh long legal eff} {x : Sheaf} (h : s.sheafMay core sh x long) (hl : legal x = true) :
   s.issue core sh long legal eff = eff x := by
  simp [State.issue, h.1, h.2, hl]

/-- Every minor of R263 has a result. -/
theorem iop_some {w : Nat} (m : Nat) (a b : BitVec w) (h : m ≤ 0x12) : (iop m a b).isSome = true := by
  unfold iop
  interval_cases m <;> rfl

/-- Every minor of R266 has a result. -/
theorem cmp_some {w : Nat} (m : Nat) (a b : BitVec w) (h : m ≤ 5) : (cmpHolds m a b).isSome = true := by
  unfold cmpHolds
  interval_cases m <;> rfl

/-- No lane of a group goes beyond the image. -/
theorem beyond_any (x : Sheaf) (t : Nat) (p : Lane → Bool) (h : beyond x.words t = false) : x.group.any (fun l => p l && beyond x.words t) = false := by
  simp [h]

/-- A group that is not empty has a lane. -/
theorem any_true (x : Sheaf) (h : x.group ≠ []) : (x.group.any fun _ => true) = true := by
  cases hx : x.group with
  | nil => exact absurd hx h
  | cons a t => simp

/-- Two changes that agree on every lane agree on the group. -/
theorem onGroup_congr {s : State} {core sh lat : Nat} {x : Sheaf} {g g' : Lane → Lane} (h : ∀ l, g l = g' l) :
  (Host.Outcome.next (s.putSheaf core sh { x.mapLanes x.groupNs g with lat := lat }) : Host.Outcome State Fault Refusal) = .next (s.onGroup core sh x lat g') := by
  rw [funext h]; rfl

/-- A register written after a change of the strand. -/
theorem setReg_mod (s : State) (c : Nat) (f : BitVec 6) (v : DWord) (g : Strand → Strand) :
    (s.modStrand c g).setReg c f v = s.withStrand c ((g (s.ctx c).strand).set f.toNat v) := by
  simp [State.setReg, modStrand2, Strand.setX]

/-- The context after a change of its strand. -/
theorem ctx_mod (s : State) (c : Nat) (g : Strand → Strand) : (s.modStrand c g).ctx c = { s.ctx c with strand := g (s.ctx c).strand } := by
  simp [State.modStrand, State.modCtx, State.setCtx, State.ctx]

/-- The context after another strand has been put in place. -/
theorem ctx_with (s : State) (c : Nat) (t : Strand) : (s.withStrand c t).ctx c = { s.ctx c with strand := t } := by
  simp [State.withStrand, State.setCtx, State.ctx]

/-- An instruction of one word that leaves a value. -/
theorem put_eq (s : State) (c : Nat) (d : BitVec 6) (lat : Nat) (v : DWord) :
    (s.modStrand c (fun t => { t with pc := t.pc + iwords false, lat := lat })).setReg c d v = s.strandPut c d.toNat lat v := by
  rw [setReg_mod, set_with]; rfl

/-- An instruction of one word that waits. -/
theorem waits_eq (s : State) (c : Nat) (w : Wait) :
    (s.modStrand c (fun t => { t with pc := t.pc + iwords false, lat := 2 })).waitOn c w = s.strandWaits c w := by
  rw [State.waitOn, modStrand2]; rfl

/-- A wait that ends. -/
theorem wake_eq (s : State) (c rd : Nat) (v : DWord) : s.wake c rd v = s.strandWoken c rd v := by
  rw [State.wake, modStrand1]; rfl

/-- A register and a stream are changed in either order. -/
theorem setReg_modStream (s : State) (c : Nat) (d : BitVec 6) (v : DWord) (k : Nat) (g : Stream → Stream) :
    (s.modStream k g).setReg c d v = (s.setReg c d v).modStream k g := rfl

/-- A command that reads memory, of a strand with no accesses under way. -/
theorem readIssue_ok {s : State} {c : Nat} {uses : List Nat} {eff} (h : s.strandMay c uses false) (hq : (s.ctx c).strand.quiet = true) :
   s.readIssue c uses true eff = eff (s.modStrand c (fun t => { t with pc := t.pc + iwords false, lat := 2 })) := by
  simp only [State.readIssue, hq, Bool.true_or, if_true]
  rw [strandIssue_ok h]

/-- A register and a channel are changed in either order. -/
theorem setReg_modScan (s : State) (c : Nat) (d : BitVec 6) (v : DWord) (k : Nat) (g : Scan → Scan) :
    (s.modScan k g).setReg c d v = (s.setReg c d v).modScan k g := rfl

/-- A channel after a change of it. -/
theorem scan_modScan (s : State) (k : Nat) (g : Scan → Scan) : (s.modScan k g).scan k = g (s.scan k) := by
  simp [State.modScan, State.scan]

/-- A change of a strand leaves every transaction. -/
theorem txnOf_mod (s : State) (c c' t : Nat) (g : Strand → Strand) : (s.modStrand c g).txnOf c' t = s.txnOf c' t := rfl

/-- The most negative number. -/
theorem intMin_toInt {w : Nat} (hw : 2 ≤ w) : (BitVec.intMin w).toInt = -(2 : Int) ^ (w - 1) := by
  rw [BitVec.toInt_intMin_of_pos (by omega)]

/-- Minus one. -/
theorem one_toInt {w : Nat} (hw : 2 ≤ w) : (-1#w).toInt = -1 := by
  have e : (-1#w) = BitVec.ofInt w (-1) := by
    apply BitVec.eq_of_toInt_eq
    rw [BitVec.toInt_neg, BitVec.toInt_ofInt, BitVec.toInt_one (by omega)]
  rw [e, BitVec.toInt_ofInt_eq_self (by omega)]
  · have : (0:Int) < 2 ^ (w - 1) := Int.pow_pos (by decide)
    omega
  · have : (0:Int) < 2 ^ (w - 1) := Int.pow_pos (by decide)
    omega

end Sys2Proof.Machine
end

