-- ==== Sys2Proof/Laws/Records.lean ====
section
/-! SUPPORT. Laws/Records.lean: reading a field of a record after a field has been written. -/
namespace Sys2Proof.Machine

theorem bit_mask {n : Nat} (w k i : Nat) (hi : i < n) :
    (BitVec.ofNat n (2 ^ w - 1) <<< k).getLsbD i = (decide (k ≤ i) && decide (i < k + w)) := by
  simp only [BitVec.getLsbD_shiftLeft, hi, decide_true, Bool.true_and, BitVec.getLsbD_ofNat, Nat.testBit_two_pow_sub_one]
  by_cases h : i < k
  · simp [h]
  · simp only [h, decide_false, Bool.not_false, Bool.true_and, decide_true, show k ≤ i by omega, show i - k < n by omega]
    congr 1; apply propext; omega
theorem bit_value {n : Nat} (w v k i : Nat) (hi : i < n) :
    (BitVec.ofNat n (v % 2 ^ w) <<< k).getLsbD i = (decide (k ≤ i) && decide (i < k + w) && v.testBit (i - k)) := by
  simp only [BitVec.getLsbD_shiftLeft, hi, decide_true, Bool.true_and, BitVec.getLsbD_ofNat, Nat.testBit_mod_two_pow]
  by_cases h : i < k
  · simp [h]
  · simp only [h, decide_false, Bool.not_false, Bool.true_and, decide_true, show k ≤ i by omega, show i - k < n by omega]
    congr 2; apply propext; omega
/-- Each bit after a field has been written. -/
theorem setFld_bit {n : Nat} (r : BitVec n) (off w v i : Nat) (hi : i < n) :
    (setFld r off w v).getLsbD i = if 8 * off ≤ i ∧ i < 8 * off + w then v.testBit (i - 8 * off) else r.getLsbD i := by
  unfold setFld
  rw [BitVec.getLsbD_or, BitVec.getLsbD_and, BitVec.getLsbD_not, bit_mask w (8 * off) i hi, bit_value w v (8 * off) i hi]
  by_cases h : 8 * off ≤ i ∧ i < 8 * off + w
  · simp [h, hi]
  · rw [if_neg h]
    by_cases h1 : 8 * off ≤ i
    · have h2 : ¬ i < 8 * off + w := fun x => h ⟨h1, x⟩
      simp [h2, hi]
    · simp [h1, hi]
/-- The field just written. -/
theorem fld_setFld {n : Nat} (r : BitVec n) (off w v : Nat) (h : 8 * off + w ≤ n) : fld (setFld r off w v) off w = v % 2 ^ w := by
  unfold fld fldv
  apply Nat.eq_of_testBit_eq
  intro i
  rw [BitVec.testBit_toNat, BitVec.getLsbD_extractLsb', Nat.testBit_mod_two_pow]
  by_cases hi : i < w
  · rw [setFld_bit _ _ _ _ _ (by omega), if_pos (by omega)]; simp [hi]
  · simp [hi]
/-- Another field, apart from the one written. -/
theorem fld_setFld_ne {n : Nat} (r : BitVec n) (off w v off' w' : Nat) (hn : 8 * off' + w' ≤ n)
    (h : 8 * off' + w' ≤ 8 * off ∨ 8 * off + w ≤ 8 * off') : fld (setFld r off w v) off' w' = fld r off' w' := by
  unfold fld fldv
  apply Nat.eq_of_testBit_eq
  intro i
  rw [BitVec.testBit_toNat, BitVec.getLsbD_extractLsb', BitVec.testBit_toNat, BitVec.getLsbD_extractLsb']
  by_cases hi : i < w'
  · rw [setFld_bit _ _ _ _ _ (by omega), if_neg (by omega)]
  · simp [hi]

end Sys2Proof.Machine
end

