-- ==== Sys2Proof/Laws/KernelOps.lean ====
section
/-! SUPPORT. Laws/KernelOps.lean: the operations of Machine/Ops.lean leave the kernel as it is. -/
namespace Sys2Proof.Machine

/-- A kernel from the fields of a state. -/
theorem State.kernel_mk (s : State) : Kernel.mk s.pending s.nvm s.staged s.keys s.keyBuf s.sched.pend s.sched.params s.stageLines
    s.leafPfD s.shareBin s.shareAcc s.shareGrid s.dev.debugOpen s.dev.instId s.dev.addressed s.dev.barN s.dev.frostDrainMax
    s.dev.nvmPtr s.dev.groveEn (s.groves.map (fun g => (g.state, g.thawing))) = s.kernel := rfl
/-- A fold over a state and something beside it. -/
theorem foldl_fst_kernel {α β : Type} (l : List α) (f : State × β → α → State × β) (h : ∀ a x, (f a x).1.kernel = a.1.kernel) (p : State × β) :
    (l.foldl f p).1.kernel = p.1.kernel := by
  induction l generalizing p with
  | nil => rfl
  | cons a t ih => rw [List.foldl_cons, ih, h]

@[simp] theorem State.count_kernel (s : State) (x1 : Nat) (x2 : Nat)  : (State.count s x1 x2).kernel = s.kernel := by
  unfold State.count
  try dsimp only
  repeat' first | with_reducible rfl | (simp; done) | split | (refine (foldl_fst_kernel _ _ ?_ _).trans ?_) | (intro _) | rfl | (simp [State.kernel, Function.comp_def]; done) | (fail_if_no_progress (simp only [State.kernel]; simp only [State.kernel_mk])) | (simp_all; done)

@[simp] theorem State.emit_kernel (s : State) (x1 : Output)  : (State.emit s x1).kernel = s.kernel := by
  unfold State.emit
  try dsimp only
  repeat' first | with_reducible rfl | (simp; done) | split | (refine (foldl_fst_kernel _ _ ?_ _).trans ?_) | (intro _) | rfl | (simp [State.kernel, Function.comp_def]; done) | (fail_if_no_progress (simp only [State.kernel]; simp only [State.kernel_mk])) | (simp_all; done)

@[simp] theorem iter_kernel (s : State) (x0 : State → State) (x1 : Nat) (hx0 : ∀ s, (x0 s).kernel = s.kernel) : (iter x0 x1 s).kernel = s.kernel := by
  induction x1 generalizing s with
  | zero => rfl
  | succ n ih => rw [iter, ih, hx0]

@[simp] theorem State.setCtx_kernel (s : State) (x1 : Nat) (x2 : Context)  : (State.setCtx s x1 x2).kernel = s.kernel := by
  unfold State.setCtx
  try dsimp only
  repeat' first | with_reducible rfl | (simp; done) | split | (refine (foldl_fst_kernel _ _ ?_ _).trans ?_) | (intro _) | rfl | (simp [State.kernel, Function.comp_def]; done) | (fail_if_no_progress (simp only [State.kernel]; simp only [State.kernel_mk])) | (simp_all; done)

@[simp] theorem State.modCtx_kernel (s : State) (x1 : Nat) (x2 : Context → Context)  : (State.modCtx s x1 x2).kernel = s.kernel := by
  unfold State.modCtx
  try dsimp only
  repeat' first | with_reducible rfl | (simp; done) | split | (refine (foldl_fst_kernel _ _ ?_ _).trans ?_) | (intro _) | simp only [State.setCtx_kernel] | rfl | (simp [State.kernel, Function.comp_def]; done) | (fail_if_no_progress (simp only [State.kernel]; simp only [State.kernel_mk])) | (simp_all; done)

@[simp] theorem State.countC_kernel (s : State) (x1 : Nat) (x2 : Nat) (x3 : Nat)  : (State.countC s x1 x2 x3).kernel = s.kernel := by
  unfold State.countC
  try dsimp only
  repeat' first | with_reducible rfl | (simp; done) | split | (refine (foldl_fst_kernel _ _ ?_ _).trans ?_) | (intro _) | simp only [State.modCtx_kernel] | rfl | (simp [State.kernel, Function.comp_def]; done) | (fail_if_no_progress (simp only [State.kernel]; simp only [State.kernel_mk])) | (simp_all; done)

@[simp] theorem State.modCohort_kernel (s : State) (x1 : CohortId) (x2 : Cohort → Cohort)  : (State.modCohort s x1 x2).kernel = s.kernel := by
  unfold State.modCohort
  try dsimp only
  repeat' first | with_reducible rfl | (simp; done) | split | (refine (foldl_fst_kernel _ _ ?_ _).trans ?_) | (intro _) | rfl | (simp [State.kernel, Function.comp_def]; done) | (fail_if_no_progress (simp only [State.kernel]; simp only [State.kernel_mk])) | (simp_all; done)

@[simp] theorem State.lapse_kernel (s : State) (x1 : CohortId)  : (State.lapse s x1).kernel = s.kernel := by
  unfold State.lapse
  try dsimp only
  repeat' first | with_reducible rfl | (simp; done) | split | (refine (foldl_fst_kernel _ _ ?_ _).trans ?_) | (intro _) | rfl | (simp [State.kernel, Function.comp_def]; done) | (fail_if_no_progress (simp only [State.kernel]; simp only [State.kernel_mk])) | (simp_all; done)

@[simp] theorem State.leaveCohort_kernel (s : State) (x1 : Nat)  : (State.leaveCohort s x1).kernel = s.kernel := by
  unfold State.leaveCohort
  try dsimp only
  repeat' first | with_reducible rfl | (simp; done) | split | (refine (foldl_fst_kernel _ _ ?_ _).trans ?_) | (intro _) | simp only [State.modCohort_kernel, State.lapse_kernel] | rfl | (simp [State.kernel, Function.comp_def]; done) | (fail_if_no_progress (simp only [State.kernel]; simp only [State.kernel_mk])) | (simp_all; done)

@[simp] theorem State.dropSegments_kernel (s : State) (x1 : List Nat)  : (State.dropSegments s x1).kernel = s.kernel := by
  unfold State.dropSegments
  try dsimp only
  repeat' first | with_reducible rfl | (simp; done) | split | (refine (foldl_fst_kernel _ _ ?_ _).trans ?_) | (intro _) | rfl | (simp [State.kernel, Function.comp_def]; done) | (fail_if_no_progress (simp only [State.kernel]; simp only [State.kernel_mk])) | (simp_all; done)

@[simp] theorem State.squallCheck_kernel (s : State)   : (State.squallCheck s).kernel = s.kernel := by
  unfold State.squallCheck
  try dsimp only
  repeat' first | with_reducible rfl | (simp; done) | split | (refine (foldl_fst_kernel _ _ ?_ _).trans ?_) | (intro _) | simp only [State.count_kernel] | rfl | (simp [State.kernel, Function.comp_def]; done) | (fail_if_no_progress (simp only [State.kernel]; simp only [State.kernel_mk])) | (simp_all; done)

@[simp] theorem State.releaseSlot_kernel (s : State) (x1 : Nat)  : (State.releaseSlot s x1).kernel = s.kernel := by
  unfold State.releaseSlot
  try dsimp only
  repeat' first | with_reducible rfl | (simp; done) | split | (refine (foldl_fst_kernel _ _ ?_ _).trans ?_) | (intro _) | simp only [State.dropSegments_kernel, State.squallCheck_kernel] | rfl | (simp [State.kernel, Function.comp_def]; done) | (fail_if_no_progress (simp only [State.kernel]; simp only [State.kernel_mk])) | (simp_all; done)

@[simp] theorem foldS_kernel {α : Type} (s : State) (x1 : List α) (x3 : State → α → State) (hx3 : ∀ s a, (x3 s a).kernel = s.kernel) : (foldS x1 s x3).kernel = s.kernel := by
  unfold foldS
  induction x1 generalizing s with
  | nil => rfl
  | cons a t ih => rw [List.foldl_cons, ih, hx3]

@[simp] theorem State.touch_kernel (s : State) (x1 : Nat) (x2 : DWord)  : (State.touch s x1 x2).kernel = s.kernel := by
  unfold State.touch
  try dsimp only
  repeat' first | with_reducible rfl | (simp; done) | split | (refine (foldl_fst_kernel _ _ ?_ _).trans ?_) | (intro _) | rfl | (simp [State.kernel, Function.comp_def]; done) | (fail_if_no_progress (simp only [State.kernel]; simp only [State.kernel_mk])) | (simp_all; done)

@[simp] theorem State.sendMessage_kernel (s : State) (x1 : Nat)  : (State.sendMessage s x1).kernel = s.kernel := by
  unfold State.sendMessage
  try dsimp only
  repeat' first | with_reducible rfl | (simp; done) | split | (refine (foldl_fst_kernel _ _ ?_ _).trans ?_) | (intro _) | simp only [State.touch_kernel, State.emit_kernel] | rfl | (simp [State.kernel, Function.comp_def]; done) | (fail_if_no_progress (simp only [State.kernel]; simp only [State.kernel_mk])) | (simp_all; done)

@[simp] theorem State.settleMsgs_kernel (s : State)   : (State.settleMsgs s).kernel = s.kernel := by
  unfold State.settleMsgs
  try dsimp only
  repeat' first | with_reducible rfl | (simp; done) | split | (refine (foldS_kernel _ _ _ ?_).trans ?_) | (refine (foldl_fst_kernel _ _ ?_ _).trans ?_) | (intro _) | simp only [State.sendMessage_kernel] | rfl | (simp [State.kernel, Function.comp_def]; done) | (fail_if_no_progress (simp only [State.kernel]; simp only [State.kernel_mk])) | (simp_all; done)

@[simp] theorem State.modStream_kernel (s : State) (x1 : Nat) (x2 : Stream → Stream)  : (State.modStream s x1 x2).kernel = s.kernel := by
  unfold State.modStream
  try dsimp only
  repeat' first | with_reducible rfl | (simp; done) | split | (refine (foldl_fst_kernel _ _ ?_ _).trans ?_) | (intro _) | rfl | (simp [State.kernel, Function.comp_def]; done) | (fail_if_no_progress (simp only [State.kernel]; simp only [State.kernel_mk])) | (simp_all; done)

@[simp] theorem State.modScan_kernel (s : State) (x1 : Nat) (x2 : Scan → Scan)  : (State.modScan s x1 x2).kernel = s.kernel := by
  unfold State.modScan
  try dsimp only
  repeat' first | with_reducible rfl | (simp; done) | split | (refine (foldl_fst_kernel _ _ ?_ _).trans ?_) | (intro _) | rfl | (simp [State.kernel, Function.comp_def]; done) | (fail_if_no_progress (simp only [State.kernel]; simp only [State.kernel_mk])) | (simp_all; done)

@[simp] theorem State.modStrand_kernel (s : State) (x1 : Nat) (x2 : Strand → Strand)  : (State.modStrand s x1 x2).kernel = s.kernel := by
  unfold State.modStrand
  try dsimp only
  repeat' first | with_reducible rfl | (simp; done) | split | (refine (foldl_fst_kernel _ _ ?_ _).trans ?_) | (intro _) | simp only [State.modCtx_kernel] | rfl | (simp [State.kernel, Function.comp_def]; done) | (fail_if_no_progress (simp only [State.kernel]; simp only [State.kernel_mk])) | (simp_all; done)

@[simp] theorem State.wake_kernel (s : State) (x1 : Nat) (x2 : Nat) (x3 : DWord)  : (State.wake s x1 x2 x3).kernel = s.kernel := by
  unfold State.wake
  try dsimp only
  repeat' first | with_reducible rfl | (simp; done) | split | (refine (foldl_fst_kernel _ _ ?_ _).trans ?_) | (intro _) | simp only [State.modStrand_kernel] | rfl | (simp [State.kernel, Function.comp_def]; done) | (fail_if_no_progress (simp only [State.kernel]; simp only [State.kernel_mk])) | (simp_all; done)

@[simp] theorem State.toPort_kernel (s : State) (x1 : Nat) (x2 : DWord) (x3 : PortItem)  : (State.toPort s x1 x2 x3).kernel = s.kernel := by
  unfold State.toPort
  try dsimp only
  repeat' first | with_reducible rfl | (simp; done) | split | (refine (foldl_fst_kernel _ _ ?_ _).trans ?_) | (intro _) | simp only [State.count_kernel] | rfl | (simp [State.kernel, Function.comp_def]; done) | (fail_if_no_progress (simp only [State.kernel]; simp only [State.kernel_mk])) | (simp_all; done)

@[simp] theorem State.takeId_kernel (s : State)   : (State.takeId s).2.kernel = s.kernel := by
  unfold State.takeId
  try dsimp only
  repeat' first | with_reducible rfl | (simp; done) | split | (refine (foldl_fst_kernel _ _ ?_ _).trans ?_) | (intro _) | rfl | (simp [State.kernel, Function.comp_def]; done) | (fail_if_no_progress (simp only [State.kernel]; simp only [State.kernel_mk])) | (simp_all; done)
theorem State.takeId_kernel' {s : State}   {p : Nat × State} (h : State.takeId s = p) : p.2.kernel = s.kernel := by
  rw [← h]; exact State.takeId_kernel s  

@[simp] theorem State.addCompletion_kernel (s : State) (x1 : Nat) (x2 : Nat) (x3 : Nat) (x4 : Then)  : (State.addCompletion s x1 x2 x3 x4).2.kernel = s.kernel := by
  unfold State.addCompletion
  try dsimp only
  repeat' first | with_reducible rfl | (simp; done) | split | (have hp := State.takeId_kernel' ‹_›; dsimp only at hp; first | exact hp | (rw [hp]; try clear hp)) | (refine (foldl_fst_kernel _ _ ?_ _).trans ?_) | (intro _) | simp only [State.takeId_kernel] | rfl | (simp [State.kernel, Function.comp_def]; done) | (fail_if_no_progress (simp only [State.kernel]; simp only [State.kernel_mk])) | (simp_all; done)
theorem State.addCompletion_kernel' {s : State} {x1 : Nat} {x2 : Nat} {x3 : Nat} {x4 : Then}  {p : Nat × State} (h : State.addCompletion s x1 x2 x3 x4 = p) : p.2.kernel = s.kernel := by
  rw [← h]; exact State.addCompletion_kernel s x1 x2 x3 x4 

@[simp] theorem State.modDeliv_kernel (s : State) (x1 : Nat) (x2 : Nat) (x3 : Deliv → Deliv)  : (State.modDeliv s x1 x2 x3).kernel = s.kernel := by
  unfold State.modDeliv
  try dsimp only
  repeat' first | with_reducible rfl | (simp; done) | split | (refine (foldl_fst_kernel _ _ ?_ _).trans ?_) | (intro _) | simp only [State.modCtx_kernel] | rfl | (simp [State.kernel, Function.comp_def]; done) | (fail_if_no_progress (simp only [State.kernel]; simp only [State.kernel_mk])) | (simp_all; done)

@[simp] theorem State.readAs_kernel (s : State) (x1 : Nat) (x2 : DWord) (x3 : ReadKind)  : (State.readAs s x1 x2 x3).kernel = s.kernel := by
  unfold State.readAs
  try dsimp only
  repeat' first | with_reducible rfl | (simp; done) | split | (refine (foldl_fst_kernel _ _ ?_ _).trans ?_) | (intro _) | simp only [State.touch_kernel, State.emit_kernel] | rfl | (simp [State.kernel, Function.comp_def]; done) | (fail_if_no_progress (simp only [State.kernel]; simp only [State.kernel_mk])) | (simp_all; done)

@[simp] theorem State.readFor_kernel (s : State) (x1 : Nat) (x2 : DWord) (x3 : ReadKind)  : (State.readFor s x1 x2 x3).kernel = s.kernel := by
  unfold State.readFor
  try dsimp only
  repeat' first | with_reducible rfl | (simp; done) | split | (refine (foldl_fst_kernel _ _ ?_ _).trans ?_) | (intro _) | simp only [State.readAs_kernel] | rfl | (simp [State.kernel, Function.comp_def]; done) | (fail_if_no_progress (simp only [State.kernel]; simp only [State.kernel_mk])) | (simp_all; done)

@[simp] theorem State.sendAccess_kernel (s : State) (x1 : Nat) (x2 : HeldAccess)  : (State.sendAccess s x1 x2).kernel = s.kernel := by
  unfold State.sendAccess
  try dsimp only
  repeat' first | with_reducible rfl | (simp; done) | split | (refine (foldl_fst_kernel _ _ ?_ _).trans ?_) | (intro _) | simp only [State.touch_kernel, State.emit_kernel, State.readFor_kernel] | rfl | (simp [State.kernel, Function.comp_def]; done) | (fail_if_no_progress (simp only [State.kernel]; simp only [State.kernel_mk])) | (simp_all; done)

@[simp] theorem State.accessDone_kernel (s : State) (x1 : Nat) (x2 : Nat)  : (State.accessDone s x1 x2).kernel = s.kernel := by
  unfold State.accessDone
  try dsimp only
  repeat' first | with_reducible rfl | (simp; done) | split | (refine (foldS_kernel _ _ _ ?_).trans ?_) | (refine (foldl_fst_kernel _ _ ?_ _).trans ?_) | (intro _) | simp only [State.sendAccess_kernel, State.modStrand_kernel] | rfl | (simp [State.kernel, Function.comp_def]; done) | (fail_if_no_progress (simp only [State.kernel]; simp only [State.kernel_mk])) | (simp_all; done)

@[simp] theorem State.followMsgs_kernel (s : State) (x1 : Nat) (x2 : State → State) (hx2 : ∀ y0, (x2 y0).kernel = y0.kernel) : (State.followMsgs s x1 x2).kernel = s.kernel := by
  unfold State.followMsgs
  try dsimp only
  repeat' first | with_reducible rfl | (simp; done) | split | (refine (foldl_fst_kernel _ _ ?_ _).trans ?_) | (intro _) | simp only [State.settleMsgs_kernel] | rfl | (simp [State.kernel, Function.comp_def]; done) | (fail_if_no_progress (simp only [State.kernel]; simp only [State.kernel_mk])) | (simp_all; done)

@[simp] theorem State.logInj_kernel (s : State) (x1 : Bool) (x2 : Nat) (x3 : Nat) (x4 : Nat) (x5 : Nat) (x6 : Nat) (x7 : Nat)  : (State.logInj s x1 x2 x3 x4 x5 x6 x7).kernel = s.kernel := by
  unfold State.logInj
  try dsimp only
  repeat' first | with_reducible rfl | (simp; done) | split | (refine (foldl_fst_kernel _ _ ?_ _).trans ?_) | (intro _) | simp only [State.count_kernel] | rfl | (simp [State.kernel, Function.comp_def]; done) | (fail_if_no_progress (simp only [State.kernel]; simp only [State.kernel_mk])) | (simp_all; done)

@[simp] theorem State.log_kernel (s : State) (x1 : Nat) (x2 : Nat) (x3 : Nat) (x4 : Nat) (x5 : Nat) (x6 : Nat)  : (State.log s x1 x2 x3 x4 x5 x6).kernel = s.kernel := by
  unfold State.log
  try dsimp only
  repeat' first | with_reducible rfl | (simp; done) | split | (refine (foldl_fst_kernel _ _ ?_ _).trans ?_) | (intro _) | simp only [State.logInj_kernel] | rfl | (simp [State.kernel, Function.comp_def]; done) | (fail_if_no_progress (simp only [State.kernel]; simp only [State.kernel_mk])) | (simp_all; done)

@[simp] theorem State.interrupt_kernel (s : State) (x1 : Nat)  : (State.interrupt s x1).kernel = s.kernel := by
  unfold State.interrupt
  try dsimp only
  repeat' first | with_reducible rfl | (simp; done) | split | (refine (foldl_fst_kernel _ _ ?_ _).trans ?_) | (intro _) | simp only [State.settleMsgs_kernel] | rfl | (simp [State.kernel, Function.comp_def]; done) | (fail_if_no_progress (simp only [State.kernel]; simp only [State.kernel_mk])) | (simp_all; done)

@[simp] theorem State.report_kernel (s : State) (x1 : Nat) (x2 : Nat) (x3 : Nat) (x4 : Nat) (x5 : Nat) (x6 : Nat)  : (State.report s x1 x2 x3 x4 x5 x6).kernel = s.kernel := by
  unfold State.report
  try dsimp only
  repeat' first | with_reducible rfl | (simp; done) | split | (refine (foldl_fst_kernel _ _ ?_ _).trans ?_) | (intro _) | simp only [State.log_kernel, State.interrupt_kernel] | rfl | (simp [State.kernel, Function.comp_def]; done) | (fail_if_no_progress (simp only [State.kernel]; simp only [State.kernel_mk])) | (simp_all; done)

@[simp] theorem State.clearMark_kernel (s : State) (x1 : Nat) (x2 : Nat) (x3 : Nat)  : (State.clearMark s x1 x2 x3).kernel = s.kernel := by
  unfold State.clearMark
  try dsimp only
  repeat' first | with_reducible rfl | (simp; done) | split | (refine (foldl_fst_kernel _ _ ?_ _).trans ?_) | (intro _) | rfl | (simp [State.kernel, Function.comp_def]; done) | (fail_if_no_progress (simp only [State.kernel]; simp only [State.kernel_mk])) | (simp_all; done)

@[simp] theorem State.modSlot_kernel (s : State) (x1 : Nat) (x2 : SlotRec → SlotRec)  : (State.modSlot s x1 x2).kernel = s.kernel := by
  unfold State.modSlot
  try dsimp only
  repeat' first | with_reducible rfl | (simp; done) | split | (refine (foldl_fst_kernel _ _ ?_ _).trans ?_) | (intro _) | rfl | (simp [State.kernel, Function.comp_def]; done) | (fail_if_no_progress (simp only [State.kernel]; simp only [State.kernel_mk])) | (simp_all; done)

@[simp] theorem State.modOctet_kernel (s : State) (x1 : Nat) (x2 : Octet → Octet)  : (State.modOctet s x1 x2).kernel = s.kernel := by
  unfold State.modOctet
  try dsimp only
  repeat' first | with_reducible rfl | (simp; done) | split | (refine (foldl_fst_kernel _ _ ?_ _).trans ?_) | (intro _) | rfl | (simp [State.kernel, Function.comp_def]; done) | (fail_if_no_progress (simp only [State.kernel]; simp only [State.kernel_mk])) | (simp_all; done)

@[simp] theorem State.writeAs_kernel (s : State) (x1 : Nat) (x2 : DWord) (x3 : List Byte)  : (State.writeAs s x1 x2 x3).kernel = s.kernel := by
  unfold State.writeAs
  try dsimp only
  repeat' first | with_reducible rfl | (simp; done) | split | (refine (foldl_fst_kernel _ _ ?_ _).trans ?_) | (intro _) | simp only [State.touch_kernel, State.emit_kernel] | rfl | (simp [State.kernel, Function.comp_def]; done) | (fail_if_no_progress (simp only [State.kernel]; simp only [State.kernel_mk])) | (simp_all; done)

@[simp] theorem State.writeFor_kernel (s : State) (x1 : Nat) (x2 : DWord) (x3 : List Byte)  : (State.writeFor s x1 x2 x3).kernel = s.kernel := by
  unfold State.writeFor
  try dsimp only
  repeat' first | with_reducible rfl | (simp; done) | split | (refine (foldl_fst_kernel _ _ ?_ _).trans ?_) | (intro _) | simp only [State.writeAs_kernel] | rfl | (simp [State.kernel, Function.comp_def]; done) | (fail_if_no_progress (simp only [State.kernel]; simp only [State.kernel_mk])) | (simp_all; done)

@[simp] theorem State.finishXfer_kernel (s : State) (x1 : XferWhat)  : (State.finishXfer s x1).kernel = s.kernel := by
  unfold State.finishXfer
  try dsimp only
  repeat' first | with_reducible rfl | (simp; done) | split | (refine (foldl_fst_kernel _ _ ?_ _).trans ?_) | (intro _) | rfl | (simp [State.kernel, Function.comp_def]; done) | (fail_if_no_progress (simp only [State.kernel]; simp only [State.kernel_mk])) | (simp_all; done)

@[simp] theorem State.modSheaf_kernel (s : State) (x1 : Nat) (x2 : Sheaf → Sheaf)  : (State.modSheaf s x1 x2).kernel = s.kernel := by
  unfold State.modSheaf
  try dsimp only
  repeat' first | with_reducible rfl | (simp; done) | split | (refine (foldl_fst_kernel _ _ ?_ _).trans ?_) | (intro _) | rfl | (simp [State.kernel, Function.comp_def]; done) | (fail_if_no_progress (simp only [State.kernel]; simp only [State.kernel_mk])) | (simp_all; done)

@[simp] theorem State.modQuery_kernel (s : State) (x1 : Nat) (x2 : Query → Query)  : (State.modQuery s x1 x2).kernel = s.kernel := by
  unfold State.modQuery
  try dsimp only
  repeat' first | with_reducible rfl | (simp; done) | split | (refine (foldl_fst_kernel _ _ ?_ _).trans ?_) | (intro _) | rfl | (simp [State.kernel, Function.comp_def]; done) | (fail_if_no_progress (simp only [State.kernel]; simp only [State.kernel_mk])) | (simp_all; done)

@[simp] theorem State.injectSram_kernel (s : State) (x1 : Nat) (x2 : Nat) (x3 : Nat) (x4 : Bool)  : (State.injectSram s x1 x2 x3 x4).kernel = s.kernel := by
  unfold State.injectSram
  try dsimp only
  repeat' first | with_reducible rfl | (simp; done) | split | (refine (foldl_fst_kernel _ _ ?_ _).trans ?_) | (intro _) | rfl | (simp [State.kernel, Function.comp_def]; done) | (fail_if_no_progress (simp only [State.kernel]; simp only [State.kernel_mk])) | (simp_all; done)

@[simp] theorem State.writeSpine_kernel (s : State) (x1 : Nat)  : (State.writeSpine s x1).kernel = s.kernel := by
  unfold State.writeSpine
  try dsimp only
  repeat' first | with_reducible rfl | (simp; done) | split | (refine (foldl_fst_kernel _ _ ?_ _).trans ?_) | (intro _) | simp only [State.injectSram_kernel, State.clearMark_kernel] | rfl | (simp [State.kernel, Function.comp_def]; done) | (fail_if_no_progress (simp only [State.kernel]; simp only [State.kernel_mk])) | (simp_all; done)

@[simp] theorem State.spineRead_kernel (s : State) (x1 : Nat) (x2 : Option EccError)  : (State.spineRead s x1 x2).1.kernel = s.kernel := by
  unfold State.spineRead
  try dsimp only
  repeat' first | with_reducible rfl | (simp; done) | split | (refine (foldl_fst_kernel _ _ ?_ _).trans ?_) | (intro _) | simp only [State.logInj_kernel, State.interrupt_kernel, State.clearMark_kernel, State.count_kernel] | rfl | (simp [State.kernel, Function.comp_def]; done) | (fail_if_no_progress (simp only [State.kernel]; simp only [State.kernel_mk])) | (simp_all; done)
theorem State.spineRead_kernel' {s : State} {x1 : Nat} {x2 : Option EccError}  {p : State × Bool} (h : State.spineRead s x1 x2 = p) : p.1.kernel = s.kernel := by
  rw [← h]; exact State.spineRead_kernel s x1 x2 

@[simp] theorem State.syncColl_kernel (s : State) (x1 : Query) (x2 : WalkState)  : (State.syncColl s x1 x2).kernel = s.kernel := by
  unfold State.syncColl
  try dsimp only
  repeat' first | with_reducible rfl | (simp; done) | split | (refine (foldl_fst_kernel _ _ ?_ _).trans ?_) | (intro _) | simp only [State.writeSpine_kernel] | rfl | (simp [State.kernel, Function.comp_def]; done) | (fail_if_no_progress (simp only [State.kernel]; simp only [State.kernel_mk])) | (simp_all; done)

@[simp] theorem State.draw_kernel (s : State)   : (State.draw s).2.kernel = s.kernel := by
  unfold State.draw
  try dsimp only
  repeat' first | with_reducible rfl | (simp; done) | split | (refine (foldl_fst_kernel _ _ ?_ _).trans ?_) | (intro _) | rfl | (simp [State.kernel, Function.comp_def]; done) | (fail_if_no_progress (simp only [State.kernel]; simp only [State.kernel_mk])) | (simp_all; done)
theorem State.draw_kernel' {s : State}   {p : DWord × State} (h : State.draw s = p) : p.2.kernel = s.kernel := by
  rw [← h]; exact State.draw_kernel s  

@[simp] theorem State.addXfer_kernel (s : State) (x1 : XferWhat) (x2 : Nat) (x3 : Nat)  : (State.addXfer s x1 x2 x3).kernel = s.kernel := by
  unfold State.addXfer
  try dsimp only
  repeat' first | with_reducible rfl | (simp; done) | split | (refine (foldl_fst_kernel _ _ ?_ _).trans ?_) | (intro _) | rfl | (simp [State.kernel, Function.comp_def]; done) | (fail_if_no_progress (simp only [State.kernel]; simp only [State.kernel_mk])) | (simp_all; done)

@[simp] theorem State.writeTracked_kernel (s : State) (x1 : Nat) (x2 : List (DWord × List Byte))  : (State.writeTracked s x1 x2).kernel = s.kernel := by
  unfold State.writeTracked
  try dsimp only
  repeat' first | with_reducible rfl | (simp; done) | split | (have hp := State.addCompletion_kernel' ‹_›; dsimp only at hp; first | exact hp | (rw [hp]; try clear hp)) | (refine (foldS_kernel _ _ _ ?_).trans ?_) | (refine (foldl_fst_kernel _ _ ?_ _).trans ?_) | (intro _) | simp only [State.touch_kernel, State.emit_kernel, State.addCompletion_kernel] | rfl | (simp [State.kernel, Function.comp_def]; done) | (fail_if_no_progress (simp only [State.kernel]; simp only [State.kernel_mk])) | (simp_all; done)

theorem map_modify_eq {α β : Type} (l : List α) (i : Nat) (f : α → α) (g : α → β) (h : ∀ x, g (f x) = g x) :
    (l.modify i f).map g = l.map g := by
  induction l generalizing i with
  | nil => simp
  | cons a t ih =>
    cases i with
    | zero => simp [h]
    | succ n => simpa using ih n
/-- A change of a grove that keeps its state and its THAW. -/
@[simp] theorem State.modGrove_kernel (s : State) (g : Nat) (f : Grove → Grove)
    (h : ∀ x, (f x).state = x.state ∧ (f x).thawing = x.thawing) : (s.modGrove g f).kernel = s.kernel := by
  have := map_modify_eq s.groves g f (fun g => (g.state, g.thawing)) (fun x => by rw [(h x).1, (h x).2])
  simp only [State.kernel, State.modGrove, this]

/-- A change of device registers that the kernel does not hold. -/
@[simp] theorem State.modDev_kernel (s : State) (f : Dev → Dev)
    (h : ∀ d, (f d).debugOpen = d.debugOpen ∧ (f d).instId = d.instId ∧ (f d).addressed = d.addressed ∧ (f d).barN = d.barN ∧
      (f d).frostDrainMax = d.frostDrainMax ∧ (f d).nvmPtr = d.nvmPtr ∧ (f d).groveEn = d.groveEn) :
    (s.modDev f).kernel = s.kernel := by
  obtain ⟨h1, h2, h3, h4, h5, h6, h7⟩ := h s.dev
  simp only [State.kernel, State.modDev, h1, h2, h3, h4, h5, h6, h7]

@[simp] theorem State.settleService_kernel (s : State)   : (State.settleService s).kernel = s.kernel := by
  unfold State.settleService
  try dsimp only
  repeat' first | with_reducible rfl | (simp; done) | split | (refine (foldl_fst_kernel _ _ ?_ _).trans ?_) | (intro _) | simp only [State.interrupt_kernel, State.modDev_kernel] | rfl | (simp [State.kernel, Function.comp_def]; done) | (fail_if_no_progress (simp only [State.kernel]; simp only [State.kernel_mk])) | (simp_all; done)

@[simp] theorem State.disarm_kernel (s : State)   : (State.disarm s).kernel = s.kernel := by
  unfold State.disarm
  try dsimp only
  repeat' first | with_reducible rfl | (simp; done) | split | (refine (foldl_fst_kernel _ _ ?_ _).trans ?_) | (intro _) | rfl | (simp [State.kernel, Function.comp_def]; done) | (fail_if_no_progress (simp only [State.kernel]; simp only [State.kernel_mk])) | (simp_all; done)

@[simp] theorem State.waitOn_kernel (s : State) (x1 : Nat) (x2 : Wait)  : (State.waitOn s x1 x2).kernel = s.kernel := by
  unfold State.waitOn
  try dsimp only
  repeat' first | with_reducible rfl | (simp; done) | split | (refine (foldl_fst_kernel _ _ ?_ _).trans ?_) | (intro _) | simp only [State.modStrand_kernel] | rfl | (simp [State.kernel, Function.comp_def]; done) | (fail_if_no_progress (simp only [State.kernel]; simp only [State.kernel_mk])) | (simp_all; done)

@[simp] theorem State.ghostDone_kernel (s : State) (x1 : Nat)  : (State.ghostDone s x1).kernel = s.kernel := by
  unfold State.ghostDone
  try dsimp only
  repeat' first | with_reducible rfl | (simp; done) | split | (refine (foldl_fst_kernel _ _ ?_ _).trans ?_) | (intro _) | simp only [State.settleMsgs_kernel] | rfl | (simp [State.kernel, Function.comp_def]; done) | (fail_if_no_progress (simp only [State.kernel]; simp only [State.kernel_mk])) | (simp_all; done)

@[simp] theorem State.readBack_kernel (s : State) (x1 : Nat)  : (State.readBack s x1).kernel = s.kernel := by
  unfold State.readBack
  try dsimp only
  repeat' first | with_reducible rfl | (simp; done) | split | (refine (foldl_fst_kernel _ _ ?_ _).trans ?_) | (intro _) | simp only [State.ghostDone_kernel] | rfl | (simp [State.kernel, Function.comp_def]; done) | (fail_if_no_progress (simp only [State.kernel]; simp only [State.kernel_mk])) | (simp_all; done)

@[simp] theorem State.modBank_kernel (s : State) (x1 : Nat) (x2 : Bank → Bank)  : (State.modBank s x1 x2).kernel = s.kernel := by
  unfold State.modBank
  try dsimp only
  repeat' first | with_reducible rfl | (simp; done) | split | (refine (foldl_fst_kernel _ _ ?_ _).trans ?_) | (intro _) | rfl | (simp [State.kernel, Function.comp_def]; done) | (fail_if_no_progress (simp only [State.kernel]; simp only [State.kernel_mk])) | (simp_all; done)

end Sys2Proof.Machine
end

