-- ==== Sys2Proof/Laws/KernelOverflow.lean ====
section
/-! SUPPORT. Laws/KernelOverflow.lean: the operations of Machine/Overflow.lean leave the kernel as it is. -/
namespace Sys2Proof.Machine

@[simp] theorem State.freeBytes_kernel (s : State) (n : Nat) : (s.freeBytes n).2.kernel = s.kernel := by
  induction n generalizing s with
  | zero => rfl
  | succ n ih => simp only [State.freeBytes, ih, State.draw_kernel]
theorem State.freeBytes_kernel' {s : State} {n : Nat} {p : List Byte × State} (h : s.freeBytes n = p) : p.2.kernel = s.kernel := by
  rw [← h]; exact State.freeBytes_kernel s n

@[simp] theorem State.recImage_kernel (s : State) (x1 : OvfRec)  : (State.recImage s x1).2.kernel = s.kernel := by
  unfold State.recImage
  try dsimp only
  repeat' first | with_reducible rfl | (simp; done) | split | (have hp := State.freeBytes_kernel' ‹_›; dsimp only at hp; first | exact hp | (rw [hp]; try clear hp)) | (refine (foldl_fst_kernel _ _ ?_ _).trans ?_) | (intro _) | simp only [State.freeBytes_kernel] | rfl | (simp [State.kernel, Function.comp_def]; done) | (fail_if_no_progress (simp only [State.kernel]; simp only [State.kernel_mk])) | (simp_all; done)
theorem State.recImage_kernel' {s : State} {x1 : OvfRec}  {p : List Byte × State} (h : State.recImage s x1 = p) : p.2.kernel = s.kernel := by
  rw [← h]; exact State.recImage_kernel s x1 

@[simp] theorem State.recImages_kernel (s : State) (l : List OvfRec) : (s.recImages l).2.kernel = s.kernel := by
  induction l generalizing s with
  | nil => rfl
  | cons r t ih => simp only [State.recImages, ih, State.recImage_kernel]
theorem State.recImages_kernel' {s : State} {l : List OvfRec} {p : List Byte × State} (h : s.recImages l = p) : p.2.kernel = s.kernel := by
  rw [← h]; exact State.recImages_kernel s l

@[simp] theorem State.runWrites_kernel (s : State) (x1 : Nat) (x2 : Run)  : (State.runWrites s x1 x2).2.kernel = s.kernel := by
  unfold State.runWrites
  try dsimp only
  repeat' first | with_reducible rfl | (simp; done) | split | (have hp := State.recImages_kernel' ‹_›; dsimp only at hp; first | exact hp | (rw [hp]; try clear hp)) | (refine (foldl_fst_kernel _ _ ?_ _).trans ?_) | (intro _) | simp only [State.recImages_kernel] | rfl | (simp [State.kernel, Function.comp_def]; done) | (fail_if_no_progress (simp only [State.kernel]; simp only [State.kernel_mk])) | (simp_all; done)
theorem State.runWrites_kernel' {s : State} {x1 : Nat} {x2 : Run}  {p : List (DWord × List Byte) × State} (h : State.runWrites s x1 x2 = p) : p.2.kernel = s.kernel := by
  rw [← h]; exact State.runWrites_kernel s x1 x2 

@[simp] theorem State.sendRun_kernel (s : State) (x1 : Nat) (x2 : Run)  : (State.sendRun s x1 x2).kernel = s.kernel := by
  unfold State.sendRun
  try dsimp only
  repeat' first | with_reducible rfl | (simp; done) | split | (have hp := State.runWrites_kernel' ‹_›; dsimp only at hp; first | exact hp | (rw [hp]; try clear hp)) | (refine (foldl_fst_kernel _ _ ?_ _).trans ?_) | (intro _) | simp only [State.writeTracked_kernel, State.runWrites_kernel] | rfl | (simp [State.kernel, Function.comp_def]; done) | (fail_if_no_progress (simp only [State.kernel]; simp only [State.kernel_mk])) | (simp_all; done)

@[simp] theorem State.modOvf_kernel (s : State) (x1 : Nat) (x2 : Ovf → Ovf)  : (State.modOvf s x1 x2).kernel = s.kernel := by
  unfold State.modOvf
  try dsimp only
  repeat' first | with_reducible rfl | (simp; done) | split | (refine (foldl_fst_kernel _ _ ?_ _).trans ?_) | (intro _) | simp only [State.modCtx_kernel] | rfl | (simp [State.kernel, Function.comp_def]; done) | (fail_if_no_progress (simp only [State.kernel]; simp only [State.kernel_mk])) | (simp_all; done)

@[simp] theorem State.addRuns_kernel (s : State) (x1 : Nat) (x2 : Nat) (x3 : Ovf) (x4 : Run → Bool)  : (State.addRuns s x1 x2 x3 x4).kernel = s.kernel := by
  unfold State.addRuns
  try dsimp only
  repeat' first | with_reducible rfl | (simp; done) | split | (refine (foldS_kernel _ _ _ ?_).trans ?_) | (refine (foldl_fst_kernel _ _ ?_ _).trans ?_) | (intro _) | simp only [State.sendRun_kernel, State.modOvf_kernel] | rfl | (simp [State.kernel, Function.comp_def]; done) | (fail_if_no_progress (simp only [State.kernel]; simp only [State.kernel_mk])) | (simp_all; done)

@[simp] theorem State.closeFresh_kernel (s : State) (x1 : Nat) (x2 : Nat)  : (State.closeFresh s x1 x2).kernel = s.kernel := by
  unfold State.closeFresh
  try dsimp only
  repeat' first | with_reducible rfl | (simp; done) | split | (refine (foldl_fst_kernel _ _ ?_ _).trans ?_) | (intro _) | simp only [State.addRuns_kernel] | rfl | (simp [State.kernel, Function.comp_def]; done) | (fail_if_no_progress (simp only [State.kernel]; simp only [State.kernel_mk])) | (simp_all; done)

@[simp] theorem State.writeFresh_kernel (s : State) (x1 : Nat) (x2 : Nat) (x3 : OvfRec)  : (State.writeFresh s x1 x2 x3).kernel = s.kernel := by
  unfold State.writeFresh
  try dsimp only
  repeat' first | with_reducible rfl | (simp; done) | split | (refine (foldl_fst_kernel _ _ ?_ _).trans ?_) | (intro _) | simp only [State.closeFresh_kernel, State.modCtx_kernel] | rfl | (simp [State.kernel, Function.comp_def]; done) | (fail_if_no_progress (simp only [State.kernel]; simp only [State.kernel_mk])) | (simp_all; done)

end Sys2Proof.Machine
end

