-- ==== Sys2Proof/Laws/KernelCoherence.lean ====
section
/-! SUPPORT. Laws/KernelCoherence.lean: the operations of Machine/Coherence.lean leave the kernel as it is. -/
namespace Sys2Proof.Machine

@[simp] theorem State.atomicOut_kernel (s : State) (x1 : Nat) (x2 : Nat) (x3 : DWord) (x4 : AtomicOp) (x5 : Nat) (x6 : DWord) (x7 : Option Bool) (x8 : Then)  : (State.atomicOut s x1 x2 x3 x4 x5 x6 x7 x8).2.kernel = s.kernel := by
  unfold State.atomicOut
  try dsimp only
  repeat' first | with_reducible rfl | (simp; done) | split | (have hp := State.addCompletion_kernel' ‹_›; dsimp only at hp; first | exact hp | (rw [hp]; try clear hp)) | (refine (foldl_fst_kernel _ _ ?_ _).trans ?_) | (intro _) | simp only [State.toPort_kernel, State.addCompletion_kernel] | rfl | (simp [State.kernel, Function.comp_def]; done) | (fail_if_no_progress (simp only [State.kernel]; simp only [State.kernel_mk])) | (simp_all; done)
theorem State.atomicOut_kernel' {s : State} {x1 : Nat} {x2 : Nat} {x3 : DWord} {x4 : AtomicOp} {x5 : Nat} {x6 : DWord} {x7 : Option Bool} {x8 : Then}  {p : Nat × State} (h : State.atomicOut s x1 x2 x3 x4 x5 x6 x7 x8 = p) : p.2.kernel = s.kernel := by
  rw [← h]; exact State.atomicOut_kernel s x1 x2 x3 x4 x5 x6 x7 x8 

@[simp] theorem State.counterAdd_kernel (s : State) (x1 : Nat) (x2 : Nat) (x3 : DWord) (x4 : Nat) (x5 : Bool)  : (State.counterAdd s x1 x2 x3 x4 x5).kernel = s.kernel := by
  unfold State.counterAdd
  try dsimp only
  repeat' first | with_reducible rfl | (simp; done) | split | (have hp := State.atomicOut_kernel' ‹_›; dsimp only at hp; first | exact hp | (rw [hp]; try clear hp)) | (refine (foldl_fst_kernel _ _ ?_ _).trans ?_) | (intro _) | simp only [State.atomicOut_kernel] | rfl | (simp [State.kernel, Function.comp_def]; done) | (fail_if_no_progress (simp only [State.kernel]; simp only [State.kernel_mk])) | (simp_all; done)

@[simp] theorem State.frameAck_kernel (s : State) (x1 : Nat) (x2 : Nat) (x3 : Nat) (x4 : Nat)  : (State.frameAck s x1 x2 x3 x4).kernel = s.kernel := by
  unfold State.frameAck
  try dsimp only
  repeat' first | with_reducible rfl | (simp; done) | split | (refine (foldl_fst_kernel _ _ ?_ _).trans ?_) | (intro _) | simp only [State.counterAdd_kernel, State.modDeliv_kernel] | rfl | (simp [State.kernel, Function.comp_def]; done) | (fail_if_no_progress (simp only [State.kernel]; simp only [State.kernel_mk])) | (simp_all; done)

@[simp] theorem State.completed_kernel (s : State) (x1 : Completion)  : (State.completed s x1).kernel = s.kernel := by
  unfold State.completed
  try dsimp only
  repeat' first | with_reducible rfl | (simp; done) | split | (refine (foldl_fst_kernel _ _ ?_ _).trans ?_) | (intro _) | simp only [State.modScan_kernel, State.wake_kernel, State.modStream_kernel, State.frameAck_kernel, State.modStrand_kernel, State.accessDone_kernel, State.counterAdd_kernel] | rfl | (simp [State.kernel, Function.comp_def]; done) | (fail_if_no_progress (simp only [State.kernel]; simp only [State.kernel_mk])) | (simp_all; done)

@[simp] theorem State.ackOne_kernel (s : State) (x1 : Nat)  : (State.ackOne s x1).1.kernel = s.kernel := by
  unfold State.ackOne
  try dsimp only
  repeat' first | with_reducible rfl | (simp; done) | split | (refine (State.followMsgs_kernel _ _ _ ?_).trans ?_) | (refine (foldl_fst_kernel _ _ ?_ _).trans ?_) | (intro _) | simp only [State.completed_kernel] | rfl | (simp [State.kernel, Function.comp_def]; done) | (fail_if_no_progress (simp only [State.kernel]; simp only [State.kernel_mk])) | (simp_all; done)
theorem State.ackOne_kernel' {s : State} {x1 : Nat}  {p : State × Option Completion} (h : State.ackOne s x1 = p) : p.1.kernel = s.kernel := by
  rw [← h]; exact State.ackOne_kernel s x1 

@[simp] theorem State.ackWrite_kernel (s : State) (x1 : Nat)  : (State.ackWrite s x1).kernel = s.kernel := by
  unfold State.ackWrite
  try dsimp only
  repeat' first | with_reducible rfl | (simp; done) | split | (have hp := State.ackOne_kernel' ‹_›; dsimp only at hp; first | exact hp | (rw [hp]; try clear hp)) | (refine (foldl_fst_kernel _ _ ?_ _).trans ?_) | (intro _) | simp only [State.ackOne_kernel] | rfl | (simp [State.kernel, Function.comp_def]; done) | (fail_if_no_progress (simp only [State.kernel]; simp only [State.kernel_mk])) | (simp_all; done)

@[simp] theorem State.endCommit_kernel (s : State) (x1 : Nat) (x2 : Nat)  : (State.endCommit s x1 x2).kernel = s.kernel := by
  unfold State.endCommit
  try dsimp only
  repeat' first | with_reducible rfl | (simp; done) | split | (refine (foldl_fst_kernel _ _ ?_ _).trans ?_) | (intro _) | simp only [State.wake_kernel] | rfl | (simp [State.kernel, Function.comp_def]; done) | (fail_if_no_progress (simp only [State.kernel]; simp only [State.kernel_mk])) | (simp_all; done)

@[simp] theorem State.modDir_kernel (s : State) (x1 : RLine) (x2 : DirEntry → DirEntry)  : (State.modDir s x1 x2).kernel = s.kernel := by
  unfold State.modDir
  try dsimp only
  repeat' first | with_reducible rfl | (simp; done) | split | (refine (foldl_fst_kernel _ _ ?_ _).trans ?_) | (intro _) | rfl | (simp [State.kernel, Function.comp_def]; done) | (fail_if_no_progress (simp only [State.kernel]; simp only [State.kernel_mk])) | (simp_all; done)

@[simp] theorem State.ring_kernel (s : State) (x1 : RLine) (x2 : RingReq)  : (State.ring s x1 x2).kernel = s.kernel := by
  unfold State.ring
  try dsimp only
  repeat' first | with_reducible rfl | (simp; done) | split | (refine (foldl_fst_kernel _ _ ?_ _).trans ?_) | (intro _) | simp only [State.touch_kernel, State.emit_kernel] | rfl | (simp [State.kernel, Function.comp_def]; done) | (fail_if_no_progress (simp only [State.kernel]; simp only [State.kernel_mk])) | (simp_all; done)

@[simp] theorem State.dropDir_kernel (s : State) (x1 : RLine)  : (State.dropDir s x1).kernel = s.kernel := by
  unfold State.dropDir
  try dsimp only
  repeat' first | with_reducible rfl | (simp; done) | split | (refine (foldl_fst_kernel _ _ ?_ _).trans ?_) | (intro _) | rfl | (simp [State.kernel, Function.comp_def]; done) | (fail_if_no_progress (simp only [State.kernel]; simp only [State.kernel_mk])) | (simp_all; done)

@[simp] theorem State.departLine_kernel (s : State) (x1 : DirEntry) (x2 : Option Nat)  : (State.departLine s x1 x2).kernel = s.kernel := by
  unfold State.departLine
  try dsimp only
  repeat' first | with_reducible rfl | (simp; done) | split | (refine (foldl_fst_kernel _ _ ?_ _).trans ?_) | (intro _) | simp only [State.modDir_kernel, State.ring_kernel, State.dropDir_kernel, State.count_kernel] | rfl | (simp [State.kernel, Function.comp_def]; done) | (fail_if_no_progress (simp only [State.kernel]; simp only [State.kernel_mk])) | (simp_all; done)

@[simp] theorem State.abortTxn_kernel (s : State) (x1 : Nat) (x2 : Nat)  : (State.abortTxn s x1 x2).kernel = s.kernel := by
  unfold State.abortTxn
  try dsimp only
  repeat' first | with_reducible rfl | (simp; done) | split | (refine (foldS_kernel _ _ _ ?_).trans ?_) | (refine (foldl_fst_kernel _ _ ?_ _).trans ?_) | (intro _) | simp only [State.endCommit_kernel, State.modDir_kernel, State.departLine_kernel, State.countC_kernel] | rfl | (simp [State.kernel, Function.comp_def]; done) | (fail_if_no_progress (simp only [State.kernel]; simp only [State.kernel_mk])) | (simp_all; done)

@[simp] theorem State.useLine_kernel (s : State) (x1 : RLine)  : (State.useLine s x1).kernel = s.kernel := by
  unfold State.useLine
  try dsimp only
  repeat' first | with_reducible rfl | (simp; done) | split | (have hp := State.takeId_kernel' ‹_›; dsimp only at hp; first | exact hp | (rw [hp]; try clear hp)) | (refine (foldl_fst_kernel _ _ ?_ _).trans ?_) | (intro _) | simp only [State.modDir_kernel, State.takeId_kernel] | rfl | (simp [State.kernel, Function.comp_def]; done) | (fail_if_no_progress (simp only [State.kernel]; simp only [State.kernel_mk])) | (simp_all; done)

@[simp] theorem State.enterDir_kernel (s : State) (x1 : RLine) (x2 : Line) (x3 : LineUser) (x4 : Bool)  : (State.enterDir s x1 x2 x3 x4).kernel = s.kernel := by
  unfold State.enterDir
  try dsimp only
  repeat' first | with_reducible rfl | (simp; done) | split | (refine (foldl_fst_kernel _ _ ?_ _).trans ?_) | (intro _) | simp only [State.useLine_kernel] | rfl | (simp [State.kernel, Function.comp_def]; done) | (fail_if_no_progress (simp only [State.kernel]; simp only [State.kernel_mk])) | (simp_all; done)

@[simp] theorem State.pend_kernel (s : State) (x1 : RLine) (x2 : Bool) (x3 : RingUse) (x4 : Bool)  : (State.pend s x1 x2 x3 x4).kernel = s.kernel := by
  unfold State.pend
  try dsimp only
  repeat' first | with_reducible rfl | (simp; done) | split | (refine (foldl_fst_kernel _ _ ?_ _).trans ?_) | (intro _) | rfl | (simp [State.kernel, Function.comp_def]; done) | (fail_if_no_progress (simp only [State.kernel]; simp only [State.kernel_mk])) | (simp_all; done)

@[simp] theorem State.takeWay_kernel (s : State) (x1 : RLine)  : (State.takeWay s x1).1.kernel = s.kernel := by
  unfold State.takeWay
  try dsimp only
  repeat' first | with_reducible rfl | (simp; done) | split | (refine (foldl_fst_kernel _ _ ?_ _).trans ?_) | (intro _) | simp only [State.abortTxn_kernel, State.count_kernel, State.departLine_kernel] | rfl | (simp [State.kernel, Function.comp_def]; done) | (fail_if_no_progress (simp only [State.kernel]; simp only [State.kernel_mk])) | (simp_all; done)
theorem State.takeWay_kernel' {s : State} {x1 : RLine}  {p : State × Bool} (h : State.takeWay s x1 = p) : p.1.kernel = s.kernel := by
  rw [← h]; exact State.takeWay_kernel s x1 

@[simp] theorem State.readOwn_kernel (s : State) (x1 : RLine) (x2 : RingUse)  : (State.readOwn s x1 x2).kernel = s.kernel := by
  unfold State.readOwn
  try dsimp only
  repeat' first | with_reducible rfl | (simp; done) | split | (have hp := State.takeWay_kernel' ‹_›; dsimp only at hp; first | exact hp | (rw [hp]; try clear hp)) | (refine (foldl_fst_kernel _ _ ?_ _).trans ?_) | (intro _) | simp only [State.pend_kernel, State.ring_kernel, State.count_kernel, State.takeWay_kernel] | rfl | (simp [State.kernel, Function.comp_def]; done) | (fail_if_no_progress (simp only [State.kernel]; simp only [State.kernel_mk])) | (simp_all; done)

@[simp] theorem State.upgradeLine_kernel (s : State) (x1 : RLine) (x2 : RingUse)  : (State.upgradeLine s x1 x2).kernel = s.kernel := by
  unfold State.upgradeLine
  try dsimp only
  repeat' first | with_reducible rfl | (simp; done) | split | (refine (foldl_fst_kernel _ _ ?_ _).trans ?_) | (intro _) | simp only [State.pend_kernel, State.ring_kernel, State.count_kernel] | rfl | (simp [State.kernel, Function.comp_def]; done) | (fail_if_no_progress (simp only [State.kernel]; simp only [State.kernel_mk])) | (simp_all; done)

@[simp] theorem State.mergeOwn_kernel (s : State) (x1 : OwnWrite)  : (State.mergeOwn s x1).kernel = s.kernel := by
  unfold State.mergeOwn
  try dsimp only
  repeat' first | with_reducible rfl | (simp; done) | split | (refine (foldl_fst_kernel _ _ ?_ _).trans ?_) | (intro _) | simp only [State.ackWrite_kernel, State.departLine_kernel, State.modDir_kernel, State.useLine_kernel] | rfl | (simp [State.kernel, Function.comp_def]; done) | (fail_if_no_progress (simp only [State.kernel]; simp only [State.kernel_mk])) | (simp_all; done)

@[simp] theorem State.mergeAll_kernel (s : State) (x1 : RLine)  : (State.mergeAll s x1).kernel = s.kernel := by
  unfold State.mergeAll
  try dsimp only
  repeat' first | with_reducible rfl | (simp; done) | split | (refine (iter_kernel _ _ _ ?_).trans ?_) | (refine (foldl_fst_kernel _ _ ?_ _).trans ?_) | (intro _) | simp only [State.mergeOwn_kernel] | rfl | (simp [State.kernel, Function.comp_def]; done) | (fail_if_no_progress (simp only [State.kernel]; simp only [State.kernel_mk])) | (simp_all; done)

@[simp] theorem State.pumpRing_kernel (s : State)   : (State.pumpRing s).kernel = s.kernel := by
  unfold State.pumpRing
  try dsimp only
  repeat' first | with_reducible rfl | (simp; done) | split | (have hp := State.takeWay_kernel' ‹_›; dsimp only at hp; first | exact hp | (rw [hp]; try clear hp)) | (refine (foldS_kernel _ _ _ ?_).trans ?_) | (refine (foldl_fst_kernel _ _ ?_ _).trans ?_) | (intro _) | simp only [State.ring_kernel, State.count_kernel, State.takeWay_kernel] | rfl | (simp [State.kernel, Function.comp_def]; done) | (fail_if_no_progress (simp only [State.kernel]; simp only [State.kernel_mk])) | (simp_all; done)

@[simp] theorem State.ownLine_kernel (s : State) (x1 : RLine)  : (State.ownLine s x1).kernel = s.kernel := by
  unfold State.ownLine
  try dsimp only
  repeat' first | with_reducible rfl | (simp; done) | split | (refine (foldl_fst_kernel _ _ ?_ _).trans ?_) | (intro _) | simp only [State.readOwn_kernel, State.count_kernel] | rfl | (simp [State.kernel, Function.comp_def]; done) | (fail_if_no_progress (simp only [State.kernel]; simp only [State.kernel_mk])) | (simp_all; done)

@[simp] theorem State.collPiece_kernel (s : State) (x1 : Nat) (x2 : Nat) (x3 : Nat) (x4 : Bool) (x5 : DWord) (x6 : List Byte)  : (State.collPiece s x1 x2 x3 x4 x5 x6).kernel = s.kernel := by
  unfold State.collPiece
  try dsimp only
  repeat' first | with_reducible rfl | (simp; done) | split | (refine (foldl_fst_kernel _ _ ?_ _).trans ?_) | (intro _) | simp only [State.ownLine_kernel, State.toPort_kernel, State.mergeOwn_kernel, State.upgradeLine_kernel] | rfl | (simp [State.kernel, Function.comp_def]; done) | (fail_if_no_progress (simp only [State.kernel]; simp only [State.kernel_mk])) | (simp_all; done)

@[simp] theorem State.snoopLost_kernel (s : State) (x1 : DirEntry)  : (State.snoopLost s x1).kernel = s.kernel := by
  unfold State.snoopLost
  try dsimp only
  repeat' first | with_reducible rfl | (simp; done) | split | (refine (foldl_fst_kernel _ _ ?_ _).trans ?_) | (intro _) | simp only [State.ownLine_kernel, State.pumpRing_kernel, State.abortTxn_kernel] | rfl | (simp [State.kernel, Function.comp_def]; done) | (fail_if_no_progress (simp only [State.kernel]; simp only [State.kernel_mk])) | (simp_all; done)

@[simp] theorem State.answerSnoop_kernel (s : State) (x1 : RLine) (x2 : Option Line)  : (State.answerSnoop s x1 x2).kernel = s.kernel := by
  unfold State.answerSnoop
  try dsimp only
  repeat' first | with_reducible rfl | (simp; done) | split | (refine (foldl_fst_kernel _ _ ?_ _).trans ?_) | (intro _) | simp only [State.emit_kernel] | rfl | (simp [State.kernel, Function.comp_def]; done) | (fail_if_no_progress (simp only [State.kernel]; simp only [State.kernel_mk])) | (simp_all; done)

@[simp] theorem State.snoopTake_kernel (s : State) (x1 : RLine)  : (State.snoopTake s x1).kernel = s.kernel := by
  unfold State.snoopTake
  try dsimp only
  repeat' first | with_reducible rfl | (simp; done) | split | (refine (foldl_fst_kernel _ _ ?_ _).trans ?_) | (intro _) | simp only [State.dropDir_kernel, State.snoopLost_kernel, State.answerSnoop_kernel, State.count_kernel] | rfl | (simp [State.kernel, Function.comp_def]; done) | (fail_if_no_progress (simp only [State.kernel]; simp only [State.kernel_mk])) | (simp_all; done)

@[simp] theorem doSnoopOwn_kernel (s : State) (x0 : Nat) (x1 : DWord)  : (doSnoopOwn x0 x1 s).kernel = s.kernel := by
  unfold doSnoopOwn
  try dsimp only
  repeat' first | with_reducible rfl | (simp; done) | split | (refine (foldl_fst_kernel _ _ ?_ _).trans ?_) | (intro _) | simp only [State.snoopTake_kernel] | rfl | (simp [State.kernel, Function.comp_def]; done) | (fail_if_no_progress (simp only [State.kernel]; simp only [State.kernel_mk])) | (simp_all; done)

@[simp] theorem doSnoopShared_kernel (s : State) (x0 : Nat) (x1 : DWord)  : (doSnoopShared x0 x1 s).kernel = s.kernel := by
  unfold doSnoopShared
  try dsimp only
  repeat' first | with_reducible rfl | (simp; done) | split | (refine (foldl_fst_kernel _ _ ?_ _).trans ?_) | (intro _) | simp only [State.modDir_kernel, State.answerSnoop_kernel, State.count_kernel] | rfl | (simp [State.kernel, Function.comp_def]; done) | (fail_if_no_progress (simp only [State.kernel]; simp only [State.kernel_mk])) | (simp_all; done)

@[simp] theorem State.pumpDepart_kernel (s : State)   : (State.pumpDepart s).kernel = s.kernel := by
  unfold State.pumpDepart
  try dsimp only
  repeat' first | with_reducible rfl | (simp; done) | split | (refine (foldS_kernel _ _ _ ?_).trans ?_) | (refine (foldl_fst_kernel _ _ ?_ _).trans ?_) | (intro _) | simp only [State.departLine_kernel] | rfl | (simp [State.kernel, Function.comp_def]; done) | (fail_if_no_progress (simp only [State.kernel]; simp only [State.kernel_mk])) | (simp_all; done)

@[simp] theorem doEvictAck_kernel (s : State) (x0 : Nat) (x1 : DWord)  : (doEvictAck x0 x1 s).kernel = s.kernel := by
  unfold doEvictAck
  try dsimp only
  repeat' first | with_reducible rfl | (simp; done) | split | (refine (foldl_fst_kernel _ _ ?_ _).trans ?_) | (intro _) | simp only [State.pumpDepart_kernel, State.pumpRing_kernel] | rfl | (simp [State.kernel, Function.comp_def]; done) | (fail_if_no_progress (simp only [State.kernel]; simp only [State.kernel_mk])) | (simp_all; done)

@[simp] theorem doSnoopInval_kernel (s : State) (x0 : Nat) (x1 : DWord)  : (doSnoopInval x0 x1 s).kernel = s.kernel := by
  unfold doSnoopInval
  try dsimp only
  repeat' first | with_reducible rfl | (simp; done) | split | (refine (foldl_fst_kernel _ _ ?_ _).trans ?_) | (intro _) | simp only [State.snoopTake_kernel] | rfl | (simp [State.kernel, Function.comp_def]; done) | (fail_if_no_progress (simp only [State.kernel]; simp only [State.kernel_mk])) | (simp_all; done)

end Sys2Proof.Machine
end

