-- ==== Sys2Proof/Laws/KernelTransfers.lean ====
section
/-! SUPPORT. Laws/KernelTransfers.lean: the operations of Machine/Transfers.lean leave the kernel as it is. -/
namespace Sys2Proof.Machine

@[simp] theorem State.cancelXfers_kernel (s : State) (x1 : XferWhat → Bool)  : (State.cancelXfers s x1).kernel = s.kernel := by
  unfold State.cancelXfers
  try dsimp only
  repeat' first | with_reducible rfl | (simp; done) | split | (refine (foldl_fst_kernel _ _ ?_ _).trans ?_) | (intro _) | rfl | (simp [State.kernel, Function.comp_def]; done) | (fail_if_no_progress (simp only [State.kernel]; simp only [State.kernel_mk])) | (simp_all; done)

@[simp] theorem State.modXfer_kernel (s : State) (x1 : Nat) (x2 : Xfer → Xfer)  : (State.modXfer s x1 x2).kernel = s.kernel := by
  unfold State.modXfer
  try dsimp only
  repeat' first | with_reducible rfl | (simp; done) | split | (refine (foldl_fst_kernel _ _ ?_ _).trans ?_) | (intro _) | rfl | (simp [State.kernel, Function.comp_def]; done) | (fail_if_no_progress (simp only [State.kernel]; simp only [State.kernel_mk])) | (simp_all; done)

@[simp] theorem State.issueLine_kernel (s : State) (x1 : Xfer)  : (State.issueLine s x1).kernel = s.kernel := by
  unfold State.issueLine
  try dsimp only
  repeat' first | with_reducible rfl | (simp; done) | split | (refine (foldl_fst_kernel _ _ ?_ _).trans ?_) | (intro _) | simp only [State.ownLine_kernel, State.writeFor_kernel, State.readFor_kernel, State.modXfer_kernel] | rfl | (simp [State.kernel, Function.comp_def]; done) | (fail_if_no_progress (simp only [State.kernel]; simp only [State.kernel_mk])) | (simp_all; done)

@[simp] theorem State.pumpLines_kernel (s : State)   : (State.pumpLines s).kernel = s.kernel := by
  unfold State.pumpLines
  try dsimp only
  repeat' first | with_reducible rfl | (simp; done) | split | (refine (iter_kernel _ _ _ ?_).trans ?_) | (refine (foldl_fst_kernel _ _ ?_ _).trans ?_) | (intro _) | simp only [State.issueLine_kernel] | rfl | (simp [State.kernel, Function.comp_def]; done) | (fail_if_no_progress (simp only [State.kernel]; simp only [State.kernel_mk])) | (simp_all; done)

@[simp] theorem State.lineBack_kernel (s : State) (x1 : XferWhat)  : (State.lineBack s x1).kernel = s.kernel := by
  unfold State.lineBack
  try dsimp only
  repeat' first | with_reducible rfl | (simp; done) | split | (refine (foldl_fst_kernel _ _ ?_ _).trans ?_) | (intro _) | simp only [State.modXfer_kernel, State.pumpLines_kernel] | rfl | (simp [State.kernel, Function.comp_def]; done) | (fail_if_no_progress (simp only [State.kernel]; simp only [State.kernel_mk])) | (simp_all; done)

@[simp] theorem State.linesBack_kernel (s : State) (x1 : XferWhat)  : (State.linesBack s x1).kernel = s.kernel := by
  unfold State.linesBack
  try dsimp only
  repeat' first | with_reducible rfl | (simp; done) | split | (refine (iter_kernel _ _ _ ?_).trans ?_) | (refine (foldl_fst_kernel _ _ ?_ _).trans ?_) | (intro _) | simp only [State.issueLine_kernel, State.modXfer_kernel] | rfl | (simp [State.kernel, Function.comp_def]; done) | (fail_if_no_progress (simp only [State.kernel]; simp only [State.kernel_mk])) | (simp_all; done)

@[simp] theorem State.giveWork_kernel (s : State) (x1 : Nat) (x2 : List (DWord × LineWork))  : (State.giveWork s x1 x2).kernel = s.kernel := by
  unfold State.giveWork
  try dsimp only
  repeat' first | with_reducible rfl | (simp; done) | split | (refine (foldl_fst_kernel _ _ ?_ _).trans ?_) | (intro _) | simp only [State.modXfer_kernel] | rfl | (simp [State.kernel, Function.comp_def]; done) | (fail_if_no_progress (simp only [State.kernel]; simp only [State.kernel_mk])) | (simp_all; done)

@[simp] theorem State.modFill_kernel (s : State) (x1 : CohortId) (x2 : Fill → Fill)  : (State.modFill s x1 x2).kernel = s.kernel := by
  unfold State.modFill
  try dsimp only
  repeat' first | with_reducible rfl | (simp; done) | split | (refine (foldl_fst_kernel _ _ ?_ _).trans ?_) | (intro _) | rfl | (simp [State.kernel, Function.comp_def]; done) | (fail_if_no_progress (simp only [State.kernel]; simp only [State.kernel_mk])) | (simp_all; done)

@[simp] theorem State.fillWork_kernel (s : State) (x1 : CohortId)  : (State.fillWork s x1).2.kernel = s.kernel := by
  unfold State.fillWork
  try dsimp only
  repeat' first | with_reducible rfl | (simp; done) | split | (refine (foldl_fst_kernel _ _ ?_ _).trans ?_) | (intro _) | simp only [State.modFill_kernel] | rfl | (simp [State.kernel, Function.comp_def]; done) | (fail_if_no_progress (simp only [State.kernel]; simp only [State.kernel_mk])) | (simp_all; done)
theorem State.fillWork_kernel' {s : State} {x1 : CohortId}  {p : List (DWord × LineWork) × State} (h : State.fillWork s x1 = p) : p.2.kernel = s.kernel := by
  rw [← h]; exact State.fillWork_kernel s x1 

@[simp] theorem State.xferWork_kernel (s : State) (x1 : Xfer)  : (State.xferWork s x1).2.kernel = s.kernel := by
  unfold State.xferWork
  try dsimp only
  repeat' first | with_reducible rfl | (simp; done) | split | (have hp := State.runWrites_kernel' ‹_›; dsimp only at hp; first | exact hp | (rw [hp]; try clear hp)) | (have hp := State.fillWork_kernel' ‹_›; dsimp only at hp; first | exact hp | (rw [hp]; try clear hp)) | (refine (foldl_fst_kernel _ _ ?_ _).trans ?_) | (intro _) | simp only [State.runWrites_kernel, State.fillWork_kernel] | rfl | (simp [State.kernel, Function.comp_def]; done) | (fail_if_no_progress (simp only [State.kernel]; simp only [State.kernel_mk])) | (simp_all; done)
theorem State.xferWork_kernel' {s : State} {x1 : Xfer}  {p : List (DWord × LineWork) × State} (h : State.xferWork s x1 = p) : p.2.kernel = s.kernel := by
  rw [← h]; exact State.xferWork_kernel s x1 

@[simp] theorem State.startXfer_kernel (s : State) (x1 : Xfer)  : (State.startXfer s x1).kernel = s.kernel := by
  unfold State.startXfer
  try dsimp only
  repeat' first | with_reducible rfl | (simp; done) | split | (have hp := State.xferWork_kernel' ‹_›; dsimp only at hp; first | exact hp | (rw [hp]; try clear hp)) | (refine (foldl_fst_kernel _ _ ?_ _).trans ?_) | (intro _) | simp only [State.giveWork_kernel, State.xferWork_kernel] | rfl | (simp [State.kernel, Function.comp_def]; done) | (fail_if_no_progress (simp only [State.kernel]; simp only [State.kernel_mk])) | (simp_all; done)

@[simp] theorem State.request_kernel (s : State) (x1 : XferWhat) (x2 : Nat) (x3 : Nat)  : (State.request s x1 x2 x3).kernel = s.kernel := by
  unfold State.request
  try dsimp only
  repeat' first | with_reducible rfl | (simp; done) | split | (refine (foldl_fst_kernel _ _ ?_ _).trans ?_) | (intro _) | simp only [State.startXfer_kernel, State.pumpLines_kernel, State.addXfer_kernel] | rfl | (simp [State.kernel, Function.comp_def]; done) | (fail_if_no_progress (simp only [State.kernel]; simp only [State.kernel_mk])) | (simp_all; done)

@[simp] theorem State.placeSpill_kernel (s : State) (x1 : CohortId) (x2 : Nat) (x3 : List OvfRec)  : (State.placeSpill s x1 x2 x3).2.kernel = s.kernel := by
  unfold State.placeSpill
  try dsimp only
  repeat' first | with_reducible rfl | (simp; done) | split | (refine (foldl_fst_kernel _ _ ?_ _).trans ?_) | (intro _) | simp only [State.request_kernel, State.count_kernel, State.addRuns_kernel] | rfl | (simp [State.kernel, Function.comp_def]; done) | (fail_if_no_progress (simp only [State.kernel]; simp only [State.kernel_mk])) | (simp_all; done)
theorem State.placeSpill_kernel' {s : State} {x1 : CohortId} {x2 : Nat} {x3 : List OvfRec}  {p : Nat × State} (h : State.placeSpill s x1 x2 x3 = p) : p.2.kernel = s.kernel := by
  rw [← h]; exact State.placeSpill_kernel s x1 x2 x3 

@[simp] theorem State.spillMembers_kernel (s : State) (x1 : CohortId) (x2 : List (Nat × Query)) (x3 : Nat)  : (State.spillMembers s x1 x2 x3).kernel = s.kernel := by
  unfold State.spillMembers
  try dsimp only
  repeat' first | with_reducible rfl | (simp; done) | split | (have hp := State.placeSpill_kernel' ‹_›; dsimp only at hp; first | exact hp | (rw [hp]; try clear hp)) | (refine (foldS_kernel _ _ _ ?_).trans ?_) | (refine (foldl_fst_kernel _ _ ?_ _).trans ?_) | (intro _) | simp only [State.leaveCohort_kernel, State.modQuery_kernel, State.placeSpill_kernel] | rfl | (simp [State.kernel, Function.comp_def]; done) | (fail_if_no_progress (simp only [State.kernel]; simp only [State.kernel_mk])) | (simp_all; done)

@[simp] theorem State.requestOnce_kernel (s : State) (x1 : XferWhat) (x2 : Nat) (x3 : Nat)  : (State.requestOnce s x1 x2 x3).kernel = s.kernel := by
  unfold State.requestOnce
  try dsimp only
  repeat' first | with_reducible rfl | (simp; done) | split | (refine (foldl_fst_kernel _ _ ?_ _).trans ?_) | (intro _) | simp only [State.request_kernel] | rfl | (simp [State.kernel, Function.comp_def]; done) | (fail_if_no_progress (simp only [State.kernel]; simp only [State.kernel_mk])) | (simp_all; done)

@[simp] theorem State.again_kernel (s : State) (x1 : XferWhat) (x2 : List (DWord × LineWork))  : (State.again s x1 x2).kernel = s.kernel := by
  unfold State.again
  try dsimp only
  repeat' first | with_reducible rfl | (simp; done) | split | (refine (foldl_fst_kernel _ _ ?_ _).trans ?_) | (intro _) | simp only [State.giveWork_kernel, State.linesBack_kernel] | rfl | (simp [State.kernel, Function.comp_def]; done) | (fail_if_no_progress (simp only [State.kernel]; simp only [State.kernel_mk])) | (simp_all; done)

@[simp] theorem State.pumpXfers_kernel (s : State)   : (State.pumpXfers s).kernel = s.kernel := by
  unfold State.pumpXfers
  try dsimp only
  repeat' first | with_reducible rfl | (simp; done) | split | (refine (iter_kernel _ _ _ ?_).trans ?_) | (refine (foldl_fst_kernel _ _ ?_ _).trans ?_) | (intro _) | simp only [State.modXfer_kernel, State.startXfer_kernel, State.pumpLines_kernel] | rfl | (simp [State.kernel, Function.comp_def]; done) | (fail_if_no_progress (simp only [State.kernel]; simp only [State.kernel_mk])) | (simp_all; done)

@[simp] theorem State.dropXfer_kernel (s : State) (x1 : Nat)  : (State.dropXfer s x1).kernel = s.kernel := by
  unfold State.dropXfer
  try dsimp only
  repeat' first | with_reducible rfl | (simp; done) | split | (refine (foldl_fst_kernel _ _ ?_ _).trans ?_) | (intro _) | simp only [State.pumpXfers_kernel] | rfl | (simp [State.kernel, Function.comp_def]; done) | (fail_if_no_progress (simp only [State.kernel]; simp only [State.kernel_mk])) | (simp_all; done)

end Sys2Proof.Machine
end

