-- ==== Sys2Proof/Laws/KernelCohorts.lean ====
section
/-! SUPPORT. Laws/KernelCohorts.lean: the operations of Machine/Cohorts.lean leave the kernel as it is. -/
namespace Sys2Proof.Machine

@[simp] theorem State.setSlot_kernel (s : State) (x1 : Nat) (x2 : SlotRec)  : (State.setSlot s x1 x2).kernel = s.kernel := by
  unfold State.setSlot
  try dsimp only
  repeat' first | with_reducible rfl | (simp; done) | split | (refine (foldl_fst_kernel _ _ ?_ _).trans ?_) | (intro _) | rfl | (simp [State.kernel, Function.comp_def]; done) | (fail_if_no_progress (simp only [State.kernel]; simp only [State.kernel_mk])) | (simp_all; done)

@[simp] theorem State.dropFills_kernel (s : State) (x1 : CohortId → Bool)  : (State.dropFills s x1).kernel = s.kernel := by
  unfold State.dropFills
  try dsimp only
  repeat' first | with_reducible rfl | (simp; done) | split | (refine (foldS_kernel _ _ _ ?_).trans ?_) | (refine (foldl_fst_kernel _ _ ?_ _).trans ?_) | (intro _) | simp only [State.cancelXfers_kernel, State.setSlot_kernel] | rfl | (simp [State.kernel, Function.comp_def]; done) | (fail_if_no_progress (simp only [State.kernel]; simp only [State.kernel_mk])) | (simp_all; done)

@[simp] theorem State.vacate_kernel (s : State) (x1 : Nat)  : (State.vacate s x1).kernel = s.kernel := by
  unfold State.vacate
  try dsimp only
  repeat' first | with_reducible rfl | (simp; done) | split | (refine (foldl_fst_kernel _ _ ?_ _).trans ?_) | (intro _) | simp only [State.lapse_kernel, State.setSlot_kernel] | rfl | (simp [State.kernel, Function.comp_def]; done) | (fail_if_no_progress (simp only [State.kernel]; simp only [State.kernel_mk])) | (simp_all; done)

@[simp] theorem State.leaveSlot_kernel (s : State) (x1 : Nat)  : (State.leaveSlot s x1).kernel = s.kernel := by
  unfold State.leaveSlot
  try dsimp only
  repeat' first | with_reducible rfl | (simp; done) | split | (refine (foldl_fst_kernel _ _ ?_ _).trans ?_) | (intro _) | simp only [State.vacate_kernel, State.modSlot_kernel] | rfl | (simp [State.kernel, Function.comp_def]; done) | (fail_if_no_progress (simp only [State.kernel]; simp only [State.kernel_mk])) | (simp_all; done)

@[simp] theorem State.removeCrown_kernel (s : State) (x1 : CrownRec)  : (State.removeCrown s x1).kernel = s.kernel := by
  unfold State.removeCrown
  try dsimp only
  repeat' first | with_reducible rfl | (simp; done) | split | (refine (foldS_kernel _ _ _ ?_).trans ?_) | (refine (foldl_fst_kernel _ _ ?_ _).trans ?_) | (intro _) | simp only [State.leaveSlot_kernel, State.dropFills_kernel] | rfl | (simp [State.kernel, Function.comp_def]; done) | (fail_if_no_progress (simp only [State.kernel]; simp only [State.kernel_mk])) | (simp_all; done)

@[simp] theorem State.tryReplicate_kernel (s : State) (x1 : Nat) (x2 : Nat) (x3 : Nat) (x4 : Nat)  : (State.tryReplicate s x1 x2 x3 x4).kernel = s.kernel := by
  unfold State.tryReplicate
  try dsimp only
  repeat' first | with_reducible rfl | (simp; done) | split | (refine (foldS_kernel _ _ _ ?_).trans ?_) | (refine (foldl_fst_kernel _ _ ?_ _).trans ?_) | (intro _) | simp only [State.leaveSlot_kernel, State.removeCrown_kernel, State.count_kernel] | rfl | (simp [State.kernel, Function.comp_def]; done) | (fail_if_no_progress (simp only [State.kernel]; simp only [State.kernel_mk])) | (simp_all; done)

@[simp] theorem State.crownPark_kernel (s : State) (x1 : CohortId)  : (State.crownPark s x1).kernel = s.kernel := by
  unfold State.crownPark
  try dsimp only
  repeat' first | with_reducible rfl | (simp; done) | split | (refine (foldl_fst_kernel _ _ ?_ _).trans ?_) | (intro _) | simp only [State.tryReplicate_kernel] | rfl | (simp [State.kernel, Function.comp_def]; done) | (fail_if_no_progress (simp only [State.kernel]; simp only [State.kernel_mk])) | (simp_all; done)

@[simp] theorem State.addEntry_kernel (s : State) (x1 : CohortId) (x2 : Nat)  : (State.addEntry s x1 x2).kernel = s.kernel := by
  unfold State.addEntry
  try dsimp only
  repeat' first | with_reducible rfl | (simp; done) | split | (refine (foldl_fst_kernel _ _ ?_ _).trans ?_) | (intro _) | rfl | (simp [State.kernel, Function.comp_def]; done) | (fail_if_no_progress (simp only [State.kernel]; simp only [State.kernel_mk])) | (simp_all; done)

@[simp] theorem State.spillOne_kernel (s : State) (x1 : Nat) (x2 : Query) (x3 : CohortId)  : (State.spillOne s x1 x2 x3).1.kernel = s.kernel := by
  unfold State.spillOne
  try dsimp only
  repeat' first | with_reducible rfl | (simp; done) | split | (have hp := State.placeSpill_kernel' ‹_›; dsimp only at hp; first | exact hp | (rw [hp]; try clear hp)) | (refine (foldl_fst_kernel _ _ ?_ _).trans ?_) | (intro _) | simp only [State.modQuery_kernel, State.placeSpill_kernel] | rfl | (simp [State.kernel, Function.comp_def]; done) | (fail_if_no_progress (simp only [State.kernel]; simp only [State.kernel_mk])) | (simp_all; done)
theorem State.spillOne_kernel' {s : State} {x1 : Nat} {x2 : Query} {x3 : CohortId}  {p : State × Bool} (h : State.spillOne s x1 x2 x3 = p) : p.1.kernel = s.kernel := by
  rw [← h]; exact State.spillOne_kernel s x1 x2 x3 

@[simp] theorem State.force_kernel (s : State) (x1 : CohortId)  : (State.force s x1).kernel = s.kernel := by
  unfold State.force
  try dsimp only
  repeat' first | with_reducible rfl | (simp; done) | split | (refine (foldl_fst_kernel _ _ ?_ _).trans ?_) | (intro _) | simp only [State.modCohort_kernel] | rfl | (simp [State.kernel, Function.comp_def]; done) | (fail_if_no_progress (simp only [State.kernel]; simp only [State.kernel_mk])) | (simp_all; done)

@[simp] theorem State.invalidate_kernel (s : State) (x1 : Nat)  : (State.invalidate s x1).kernel = s.kernel := by
  unfold State.invalidate
  try dsimp only
  repeat' first | with_reducible rfl | (simp; done) | split | (refine (foldl_fst_kernel _ _ ?_ _).trans ?_) | (intro _) | simp only [State.force_kernel, State.leaveSlot_kernel] | rfl | (simp [State.kernel, Function.comp_def]; done) | (fail_if_no_progress (simp only [State.kernel]; simp only [State.kernel_mk])) | (simp_all; done)

@[simp] theorem State.leaveFrosted_kernel (s : State) (x1 : CohortId)  : (State.leaveFrosted s x1).kernel = s.kernel := by
  unfold State.leaveFrosted
  try dsimp only
  repeat' first | with_reducible rfl | (simp; done) | split | (refine (foldS_kernel _ _ _ ?_).trans ?_) | (refine (foldl_fst_kernel _ _ ?_ _).trans ?_) | (intro _) | simp only [State.invalidate_kernel] | rfl | (simp [State.kernel, Function.comp_def]; done) | (fail_if_no_progress (simp only [State.kernel]; simp only [State.kernel_mk])) | (simp_all; done)

@[simp] theorem State.joinCohort_kernel (s : State) (x1 : Nat) (x2 : Query) (x3 : CohortId) (x4 : Nat) (x5 : Option Nat)  : (State.joinCohort s x1 x2 x3 x4 x5).kernel = s.kernel := by
  unfold State.joinCohort
  try dsimp only
  repeat' first | with_reducible rfl | (simp; done) | split | (refine (foldl_fst_kernel _ _ ?_ _).trans ?_) | (intro _) | simp only [State.modQuery_kernel, State.leaveFrosted_kernel, State.modCohort_kernel] | rfl | (simp [State.kernel, Function.comp_def]; done) | (fail_if_no_progress (simp only [State.kernel]; simp only [State.kernel_mk])) | (simp_all; done)

@[simp] theorem State.rotateGrove_kernel (s : State)   : (State.rotateGrove s).2.kernel = s.kernel := by
  unfold State.rotateGrove
  try dsimp only
  repeat' first | with_reducible rfl | (simp; done) | split | (refine (foldl_fst_kernel _ _ ?_ _).trans ?_) | (intro _) | rfl | (simp [State.kernel, Function.comp_def]; done) | (fail_if_no_progress (simp only [State.kernel]; simp only [State.kernel_mk])) | (simp_all; done)
theorem State.rotateGrove_kernel' {s : State}   {p : Option Nat × State} (h : State.rotateGrove s = p) : p.2.kernel = s.kernel := by
  rw [← h]; exact State.rotateGrove_kernel s  

@[simp] theorem State.parkGrove_kernel (s : State) (x1 : CohortId)  : (State.parkGrove s x1).2.kernel = s.kernel := by
  unfold State.parkGrove
  try dsimp only
  repeat' first | with_reducible rfl | (simp; done) | split | (have hp := State.rotateGrove_kernel' ‹_›; dsimp only at hp; first | exact hp | (rw [hp]; try clear hp)) | (refine (foldl_fst_kernel _ _ ?_ _).trans ?_) | (intro _) | simp only [State.rotateGrove_kernel] | rfl | (simp [State.kernel, Function.comp_def]; done) | (fail_if_no_progress (simp only [State.kernel]; simp only [State.kernel_mk])) | (simp_all; done)
theorem State.parkGrove_kernel' {s : State} {x1 : CohortId}  {p : Option Nat × State} (h : State.parkGrove s x1 = p) : p.2.kernel = s.kernel := by
  rw [← h]; exact State.parkGrove_kernel s x1 

@[simp] theorem State.parkIn_kernel (s : State) (x1 : Nat) (x2 : Query) (x3 : CohortId) (x4 : Nat)  : (State.parkIn s x1 x2 x3 x4).kernel = s.kernel := by
  unfold State.parkIn
  try dsimp only
  repeat' first | with_reducible rfl | (simp; done) | split | (have hp := State.parkGrove_kernel' ‹_›; dsimp only at hp; first | exact hp | (rw [hp]; try clear hp)) | (refine (foldl_fst_kernel _ _ ?_ _).trans ?_) | (intro _) | simp only [State.joinCohort_kernel, State.parkGrove_kernel] | rfl | (simp [State.kernel, Function.comp_def]; done) | (fail_if_no_progress (simp only [State.kernel]; simp only [State.kernel_mk])) | (simp_all; done)

@[simp] theorem State.spillAll_kernel (s : State) (id : CohortId) : (s.spillAll id).kernel = s.kernel := by
  unfold State.spillAll
  refine foldS_kernel _ _ _ (fun s k => iter_kernel _ _ _ (fun s => ?_))
  split <;> simp

@[simp] theorem State.ensureEntry_kernel (s : State) (x1 : CohortId) (x2 : Nat)  : (State.ensureEntry s x1 x2).1.kernel = s.kernel := by
  unfold State.ensureEntry
  try dsimp only
  repeat' first | with_reducible rfl | (simp; done) | split | (refine (foldl_fst_kernel _ _ ?_ _).trans ?_) | (intro _) | simp only [State.spillAll_kernel, State.count_kernel, State.addEntry_kernel] | rfl | (simp [State.kernel, Function.comp_def]; done) | (fail_if_no_progress (simp only [State.kernel]; simp only [State.kernel_mk])) | (simp_all; done)
theorem State.ensureEntry_kernel' {s : State} {x1 : CohortId} {x2 : Nat}  {p : State × Bool} (h : State.ensureEntry s x1 x2 = p) : p.1.kernel = s.kernel := by
  rw [← h]; exact State.ensureEntry_kernel s x1 x2 

@[simp] theorem State.park_kernel (s : State) (x1 : Nat) (x2 : CohortId) (x3 : Nat)  : (State.park s x1 x2 x3).kernel = s.kernel := by
  unfold State.park
  try dsimp only
  repeat' first | with_reducible rfl | (simp; done) | split | (have hp := State.spillOne_kernel' ‹_›; dsimp only at hp; first | exact hp | (rw [hp]; try clear hp)) | (have hp := State.ensureEntry_kernel' ‹_›; dsimp only at hp; first | exact hp | (rw [hp]; try clear hp)) | (refine (foldl_fst_kernel _ _ ?_ _).trans ?_) | (intro _) | simp only [State.addEntry_kernel, State.parkIn_kernel, State.crownPark_kernel, State.modQuery_kernel, State.spillOne_kernel, State.ensureEntry_kernel] | rfl | (simp [State.kernel, Function.comp_def]; done) | (fail_if_no_progress (simp only [State.kernel]; simp only [State.kernel_mk])) | (simp_all; done)

@[simp] theorem State.issueFill_kernel (s : State) (x1 : Fill) (x2 : List Nat)  : (State.issueFill s x1 x2).kernel = s.kernel := by
  unfold State.issueFill
  try dsimp only
  repeat' first | with_reducible rfl | (simp; done) | split | (refine (foldS_kernel _ _ _ ?_).trans ?_) | (refine (foldl_fst_kernel _ _ ?_ _).trans ?_) | (intro _) | simp only [State.count_kernel, State.request_kernel, State.countC_kernel, State.modCohort_kernel, State.modSlot_kernel] | rfl | (simp [State.kernel, Function.comp_def]; done) | (fail_if_no_progress (simp only [State.kernel]; simp only [State.kernel_mk])) | (simp_all; done)

@[simp] theorem State.tryFill_kernel (s : State) (x1 : Fill) (x2 : Bool)  : (State.tryFill s x1 x2).1.kernel = s.kernel := by
  unfold State.tryFill
  try dsimp only
  repeat' first | with_reducible rfl | (simp; done) | split | (refine (foldl_fst_kernel _ _ ?_ _).trans ?_) | (intro _) | simp only [State.leaveSlot_kernel, State.issueFill_kernel] | rfl | (simp [State.kernel, Function.comp_def]; done) | (fail_if_no_progress (simp only [State.kernel]; simp only [State.kernel_mk])) | (simp_all; done)
theorem State.tryFill_kernel' {s : State} {x1 : Fill} {x2 : Bool}  {p : State × Bool} (h : State.tryFill s x1 x2 = p) : p.1.kernel = s.kernel := by
  rw [← h]; exact State.tryFill_kernel s x1 x2 

@[simp] theorem State.issueOrWait_kernel (s : State) (x1 : Fill)  : (State.issueOrWait s x1).kernel = s.kernel := by
  unfold State.issueOrWait
  try dsimp only
  repeat' first | with_reducible rfl | (simp; done) | split | (have hp := State.tryFill_kernel' ‹_›; dsimp only at hp; first | exact hp | (rw [hp]; try clear hp)) | (refine (foldl_fst_kernel _ _ ?_ _).trans ?_) | (intro _) | simp only [State.tryFill_kernel] | rfl | (simp [State.kernel, Function.comp_def]; done) | (fail_if_no_progress (simp only [State.kernel]; simp only [State.kernel_mk])) | (simp_all; done)

@[simp] theorem State.releaseSheaf_kernel (s : State) (x1 : Cohort) (x2 : Nat)  : (State.releaseSheaf s x1 x2).kernel = s.kernel := by
  unfold State.releaseSheaf
  try dsimp only
  repeat' first | with_reducible rfl | (simp; done) | split | (refine (foldS_kernel _ _ _ ?_).trans ?_) | (refine (foldl_fst_kernel _ _ ?_ _).trans ?_) | (intro _) | simp only [State.modCohort_kernel, State.leaveCohort_kernel, State.modQuery_kernel] | rfl | (simp [State.kernel, Function.comp_def]; done) | (fail_if_no_progress (simp only [State.kernel]; simp only [State.kernel_mk])) | (simp_all; done)

@[simp] theorem State.takeCrownSlot_kernel (s : State) (x1 : Nat)  : (State.takeCrownSlot s x1).kernel = s.kernel := by
  unfold State.takeCrownSlot
  try dsimp only
  repeat' first | with_reducible rfl | (simp; done) | split | (refine (foldl_fst_kernel _ _ ?_ _).trans ?_) | (intro _) | simp only [State.force_kernel, State.leaveSlot_kernel] | rfl | (simp [State.kernel, Function.comp_def]; done) | (fail_if_no_progress (simp only [State.kernel]; simp only [State.kernel_mk])) | (simp_all; done)

theorem State.retryWaiting_kernel {s t : State} (h : s.retryWaiting = some t) : t.kernel = s.kernel := by
  unfold State.retryWaiting at h
  obtain ⟨f, -, h⟩ := List.exists_of_findSome?_eq_some h
  split at h
  · rename_i any _
    have hk := State.tryFill_kernel s f any
    split at h
    · rename_i heq; rw [heq] at hk; cases h; exact hk
    · cases h
  · cases h

@[simp] theorem State.issueCrown_kernel (s : State) (x1 : CohortId)  : (State.issueCrown s x1).kernel = s.kernel := by
  unfold State.issueCrown
  try dsimp only
  repeat' first | with_reducible rfl | (simp; done) | split | (refine (foldl_fst_kernel _ _ ?_ _).trans ?_) | (intro _) | simp only [State.issueFill_kernel, State.modSlot_kernel, State.takeCrownSlot_kernel] | rfl | (simp [State.kernel, Function.comp_def]; done) | (fail_if_no_progress (simp only [State.kernel]; simp only [State.kernel_mk])) | (simp_all; done)

@[simp] theorem State.settlePreloads_kernel (s : State)   : (State.settlePreloads s).kernel = s.kernel := by
  unfold State.settlePreloads
  try dsimp only
  repeat' first | with_reducible rfl | (simp; done) | split | (refine (foldS_kernel _ _ _ ?_).trans ?_) | (refine (foldl_fst_kernel _ _ ?_ _).trans ?_) | (intro _) | simp only [State.modStream_kernel] | rfl | (simp [State.kernel, Function.comp_def]; done) | (fail_if_no_progress (simp only [State.kernel]; simp only [State.kernel_mk])) | (simp_all; done)

@[simp] theorem State.fillStep_kernel (s : State)   : (State.fillStep s).kernel = s.kernel := by
  unfold State.fillStep
  try dsimp only
  repeat' first | with_reducible rfl | (simp; done) | split | (have hp := State.tryFill_kernel' ‹_›; dsimp only at hp; first | exact hp | (rw [hp]; try clear hp)) | rw [State.retryWaiting_kernel ‹_›] | (refine (foldl_fst_kernel _ _ ?_ _).trans ?_) | (intro _) | (first | exact State.retryWaiting_kernel h | exact (State.retryWaiting_kernel h).trans (by simp)) | (first | (refine (State.retryWaiting_kernel_getD ?_).trans ?_)) | simp only [State.count_kernel, State.modStream_kernel, State.issueOrWait_kernel, State.issueCrown_kernel, State.settlePreloads_kernel, State.tryFill_kernel] | rfl | (simp [State.kernel, Function.comp_def]; done) | (fail_if_no_progress (simp only [State.kernel]; simp only [State.kernel_mk])) | (simp_all; done)

end Sys2Proof.Machine
end

