-- ==== Sys2Proof/Laws/KernelStage.lean ====
section
/-! SUPPORT. Laws/KernelStage.lean: the operations of Machine/Stage.lean leave the kernel as it is. -/
namespace Sys2Proof.Machine

@[simp] theorem State.bufUncorrected_kernel (s : State) (x1 : Bool) (x2 : Nat)  : (State.bufUncorrected s x1 x2).kernel = s.kernel := by
  unfold State.bufUncorrected
  try dsimp only
  repeat' first | with_reducible rfl | (simp; done) | split | (refine (foldl_fst_kernel _ _ ?_ _).trans ?_) | (intro _) | simp only [State.count_kernel, State.logInj_kernel] | rfl | (simp [State.kernel, Function.comp_def]; done) | (fail_if_no_progress (simp only [State.kernel]; simp only [State.kernel_mk])) | (simp_all; done)

@[simp] theorem State.readBuf_kernel (s : State) (x1 : Nat) (x2 : Option EccError)  : (State.readBuf s x1 x2).kernel = s.kernel := by
  unfold State.readBuf
  try dsimp only
  repeat' first | with_reducible rfl | (simp; done) | split | (refine (foldl_fst_kernel _ _ ?_ _).trans ?_) | (intro _) | simp only [State.count_kernel, State.bufUncorrected_kernel, State.clearMark_kernel] | rfl | (simp [State.kernel, Function.comp_def]; done) | (fail_if_no_progress (simp only [State.kernel]; simp only [State.kernel_mk])) | (simp_all; done)

@[simp] theorem State.settleLeafXfer_kernel (s : State) (x1 : Nat) (x2 : LeafHandle)  : (State.settleLeafXfer s x1 x2).kernel = s.kernel := by
  unfold State.settleLeafXfer
  try dsimp only
  repeat' first | with_reducible rfl | (simp; done) | split | (refine (foldl_fst_kernel _ _ ?_ _).trans ?_) | (intro _) | simp only [State.finishXfer_kernel] | rfl | (simp [State.kernel, Function.comp_def]; done) | (fail_if_no_progress (simp only [State.kernel]; simp only [State.kernel_mk])) | (simp_all; done)

@[simp] theorem State.retryLeaf_kernel (s : State) (x1 : Nat)  : (State.retryLeaf s x1).kernel = s.kernel := by
  unfold State.retryLeaf
  try dsimp only
  repeat' first | with_reducible rfl | (simp; done) | split | (refine (iter_kernel _ _ _ ?_).trans ?_) | (refine (foldl_fst_kernel _ _ ?_ _).trans ?_) | (intro _) | simp only [State.count_kernel, State.settleLeafXfer_kernel] | rfl | (simp [State.kernel, Function.comp_def]; done) | (fail_if_no_progress (simp only [State.kernel]; simp only [State.kernel_mk])) | (simp_all; done)

@[simp] theorem State.installBlock_kernel (s : State) (x1 : Nat) (x2 : BlockId) (x3 : List Line) (x4 : Bool) (x5 : Bool)  : (State.installBlock s x1 x2 x3 x4 x5).kernel = s.kernel := by
  unfold State.installBlock
  try dsimp only
  repeat' first | with_reducible rfl | (simp; done) | split | (refine (foldl_fst_kernel _ _ ?_ _).trans ?_) | (intro _) | simp only [State.modGrove_kernel] | rfl | (simp [State.kernel, Function.comp_def]; done) | (fail_if_no_progress (simp only [State.kernel]; simp only [State.kernel_mk])) | (simp_all; done)

@[simp] theorem State.makeRoom_kernel (s : State) (x1 : Nat) (x2 : Nat)  : (State.makeRoom s x1 x2).kernel = s.kernel := by
  unfold State.makeRoom
  try dsimp only
  repeat' first | with_reducible rfl | (simp; done) | split | (refine (iter_kernel _ _ _ ?_).trans ?_) | (refine (foldl_fst_kernel _ _ ?_ _).trans ?_) | (intro _) | simp only [State.modGrove_kernel, State.count_kernel] | rfl | (simp [State.kernel, Function.comp_def]; done) | (fail_if_no_progress (simp only [State.kernel]; simp only [State.kernel_mk])) | (simp_all; done)

theorem State.actLeaf_kernel {s t : State} {x1 : Nat} {x2 : LeafHandle}  (h : State.actLeaf s x1 x2 = some t) : t.kernel = s.kernel := by
  unfold State.actLeaf at h
  try dsimp only at h
  repeat' first | (simp only [Option.some.injEq, reduceCtorEq] at h) | split at h
  all_goals first | (cases h; done) | ((try subst h); repeat' first | with_reducible rfl | (simp; done) | split | (refine (foldl_fst_kernel _ _ ?_ _).trans ?_) | (intro _) | simp only [State.modGrove_kernel, State.modStream_kernel, State.installBlock_kernel, State.makeRoom_kernel] | rfl | (simp [State.kernel, Function.comp_def]; done) | (fail_if_no_progress (simp only [State.kernel]; simp only [State.kernel_mk])) | (simp_all; done))
theorem State.actLeaf_kernel_getD {s d : State} {x1 : Nat} {x2 : LeafHandle}  (hd : d.kernel = s.kernel) : ((State.actLeaf s x1 x2).getD d).kernel = s.kernel := by
  cases h : State.actLeaf s x1 x2 with
  | none => exact hd
  | some t => exact State.actLeaf_kernel h

@[simp] theorem State.drainLeaf_kernel (s : State) (g : Nat) : (s.drainLeaf g).kernel = s.kernel := by
  refine iter_kernel _ _ _ (fun s => ?_)
  split
  · rfl
  · split
    · rfl
    · rename_i h; rw [State.retryLeaf_kernel, ← State.actLeaf_kernel h]; split <;> rfl

@[simp] theorem State.leafFill_kernel (s : State) (x1 : Nat) (x2 : BlockId) (x3 : Nat) (x4 : Nat) (x5 : Bool) (x6 : Bool)  : (State.leafFill s x1 x2 x3 x4 x5 x6).kernel = s.kernel := by
  unfold State.leafFill
  try dsimp only
  repeat' first | with_reducible rfl | (simp; done) | split | (refine (foldl_fst_kernel _ _ ?_ _).trans ?_) | (intro _) | simp only [State.request_kernel] | rfl | (simp [State.kernel, Function.comp_def]; done) | (fail_if_no_progress (simp only [State.kernel]; simp only [State.kernel_mk])) | (simp_all; done)

@[simp] theorem State.releaseHalf_kernel (s : State) (x1 : Nat) (x2 : Nat)  : (State.releaseHalf s x1 x2).kernel = s.kernel := by
  unfold State.releaseHalf
  try dsimp only
  repeat' first | with_reducible rfl | (simp; done) | split | (refine (foldl_fst_kernel _ _ ?_ _).trans ?_) | (intro _) | simp only [State.modStream_kernel] | rfl | (simp [State.kernel, Function.comp_def]; done) | (fail_if_no_progress (simp only [State.kernel]; simp only [State.kernel_mk])) | (simp_all; done)

@[simp] theorem State.settleHalves_kernel (s : State) (x1 : Nat)  : (State.settleHalves s x1).kernel = s.kernel := by
  unfold State.settleHalves
  try dsimp only
  repeat' first | with_reducible rfl | (simp; done) | split | (refine (iter_kernel _ _ _ ?_).trans ?_) | (refine (foldl_fst_kernel _ _ ?_ _).trans ?_) | (intro _) | simp only [State.modStream_kernel, State.releaseHalf_kernel] | rfl | (simp [State.kernel, Function.comp_def]; done) | (fail_if_no_progress (simp only [State.kernel]; simp only [State.kernel_mk])) | (simp_all; done)

@[simp] theorem State.served_kernel (s : State) (x1 : Nat) (x2 : LeafBlock)  : (State.served s x1 x2).kernel = s.kernel := by
  unfold State.served
  try dsimp only
  repeat' first | with_reducible rfl | (simp; done) | split | (refine (foldl_fst_kernel _ _ ?_ _).trans ?_) | (intro _) | simp only [State.settleHalves_kernel, State.count_kernel, State.modStream_kernel, State.modGrove_kernel] | rfl | (simp [State.kernel, Function.comp_def]; done) | (fail_if_no_progress (simp only [State.kernel]; simp only [State.kernel_mk])) | (simp_all; done)

@[simp] theorem State.lookup_kernel (s : State) (x1 : Nat) (x2 : BlockId) (x3 : Nat) (x4 : Nat) (x5 : Bool)  : (State.lookup s x1 x2 x3 x4 x5).1.kernel = s.kernel := by
  unfold State.lookup
  try dsimp only
  repeat' first | with_reducible rfl | (simp; done) | split | (refine (foldl_fst_kernel _ _ ?_ _).trans ?_) | (intro _) | simp only [State.leafFill_kernel, State.count_kernel, State.served_kernel] | rfl | (simp [State.kernel, Function.comp_def]; done) | (fail_if_no_progress (simp only [State.kernel]; simp only [State.kernel_mk])) | (simp_all; done)
theorem State.lookup_kernel' {s : State} {x1 : Nat} {x2 : BlockId} {x3 : Nat} {x4 : Nat} {x5 : Bool}  {p : State × Option LeafBlock} (h : State.lookup s x1 x2 x3 x4 x5 = p) : p.1.kernel = s.kernel := by
  rw [← h]; exact State.lookup_kernel s x1 x2 x3 x4 x5 

@[simp] theorem State.pushLeaf_kernel (s : State) (x1 : Nat) (x2 : Nat) (x3 : LeafHandle)  : (State.pushLeaf s x1 x2 x3).kernel = s.kernel := by
  unfold State.pushLeaf
  try dsimp only
  repeat' first | with_reducible rfl | (simp; done) | split | (refine (foldl_fst_kernel _ _ ?_ _).trans ?_) | (intro _) | simp only [State.count_kernel] | rfl | (simp [State.kernel, Function.comp_def]; done) | (fail_if_no_progress (simp only [State.kernel]; simp only [State.kernel_mk])) | (simp_all; done)

@[simp] theorem State.keylessLeaf_kernel (s : State) (x1 : Nat) (x2 : Nat) (x3 : Nat) (x4 : Nat)  : (State.keylessLeaf s x1 x2 x3 x4).kernel = s.kernel := by
  unfold State.keylessLeaf
  try dsimp only
  repeat' first | with_reducible rfl | (simp; done) | split | (refine (foldl_fst_kernel _ _ ?_ _).trans ?_) | (intro _) | simp only [State.countC_kernel, State.log_kernel] | rfl | (simp [State.kernel, Function.comp_def]; done) | (fail_if_no_progress (simp only [State.kernel]; simp only [State.kernel_mk])) | (simp_all; done)

@[simp] theorem State.readVersion_kernel (s : State) (x1 : Option BufLine)  : (State.readVersion s x1).1.kernel = s.kernel := by
  unfold State.readVersion
  try dsimp only
  repeat' first | with_reducible rfl | (simp; done) | split | (refine (foldl_fst_kernel _ _ ?_ _).trans ?_) | (intro _) | simp only [State.readBuf_kernel] | rfl | (simp [State.kernel, Function.comp_def]; done) | (fail_if_no_progress (simp only [State.kernel]; simp only [State.kernel_mk])) | (simp_all; done)
theorem State.readVersion_kernel' {s : State} {x1 : Option BufLine}  {p : State × Bool} (h : State.readVersion s x1 = p) : p.1.kernel = s.kernel := by
  rw [← h]; exact State.readVersion_kernel s x1 

@[simp] theorem State.handLeaf_kernel (s : State) (x1 : Nat) (x2 : Nat) (x3 : LeafHandle)  : (State.handLeaf s x1 x2 x3).kernel = s.kernel := by
  unfold State.handLeaf
  try dsimp only
  repeat' first | with_reducible rfl | (simp; done) | split | (refine (foldl_fst_kernel _ _ ?_ _).trans ?_) | (intro _) | simp only [State.pushLeaf_kernel, State.settleLeafXfer_kernel, State.drainLeaf_kernel] | rfl | (simp [State.kernel, Function.comp_def]; done) | (fail_if_no_progress (simp only [State.kernel]; simp only [State.kernel_mk])) | (simp_all; done)

@[simp] theorem State.leafUse_kernel (s : State) (x1 : Nat) (x2 : LeafFill) (x3 : Rec64) (x4 : List Line) (x5 : Bool)  : (State.leafUse s x1 x2 x3 x4 x5).kernel = s.kernel := by
  unfold State.leafUse
  try dsimp only
  repeat' first | with_reducible rfl | (simp; done) | split | (refine (foldl_fst_kernel _ _ ?_ _).trans ?_) | (intro _) | simp only [State.handLeaf_kernel] | rfl | (simp [State.kernel, Function.comp_def]; done) | (fail_if_no_progress (simp only [State.kernel]; simp only [State.kernel_mk])) | (simp_all; done)

@[simp] theorem State.dropBlock_kernel (s : State) (x1 : Nat) (x2 : BlockId)  : (State.dropBlock s x1 x2).kernel = s.kernel := by
  unfold State.dropBlock
  try dsimp only
  repeat' first | with_reducible rfl | (simp; done) | split | (refine (foldl_fst_kernel _ _ ?_ _).trans ?_) | (intro _) | rfl | (simp [State.kernel, Function.comp_def]; done) | (fail_if_no_progress (simp only [State.kernel]; simp only [State.kernel_mk])) | (simp_all; done)

@[simp] theorem State.removeLeafFill_kernel (s : State) (x1 : Nat) (x2 : BlockId)  : (State.removeLeafFill s x1 x2).kernel = s.kernel := by
  unfold State.removeLeafFill
  try dsimp only
  repeat' first | with_reducible rfl | (simp; done) | split | (refine (foldl_fst_kernel _ _ ?_ _).trans ?_) | (intro _) | simp only [State.finishXfer_kernel] | rfl | (simp [State.kernel, Function.comp_def]; done) | (fail_if_no_progress (simp only [State.kernel]; simp only [State.kernel_mk])) | (simp_all; done)

@[simp] theorem State.leafDropped_kernel (s : State) (x1 : Nat) (x2 : BlockId)  : (State.leafDropped s x1 x2).kernel = s.kernel := by
  unfold State.leafDropped
  try dsimp only
  repeat' first | with_reducible rfl | (simp; done) | split | (refine (foldl_fst_kernel _ _ ?_ _).trans ?_) | (intro _) | simp only [State.dropBlock_kernel, State.removeLeafFill_kernel] | rfl | (simp [State.kernel, Function.comp_def]; done) | (fail_if_no_progress (simp only [State.kernel]; simp only [State.kernel_mk])) | (simp_all; done)

@[simp] theorem State.leafVersions_kernel (s : State) (x1 : LeafFill)  : (State.leafVersions s x1).1.kernel = s.kernel := by
  unfold State.leafVersions
  try dsimp only
  repeat' first | with_reducible rfl | (simp; done) | split | (have hp := State.readVersion_kernel' ‹_›; dsimp only at hp; first | exact hp | (rw [hp]; try clear hp)) | (refine (foldl_fst_kernel _ _ ?_ _).trans ?_) | (intro _) | simp only [State.readVersion_kernel] | rfl | (simp [State.kernel, Function.comp_def]; done) | (fail_if_no_progress (simp only [State.kernel]; simp only [State.kernel_mk])) | (simp_all; done)
theorem State.leafVersions_kernel' {s : State} {x1 : LeafFill}  {p : State × Bool} (h : State.leafVersions s x1 = p) : p.1.kernel = s.kernel := by
  rw [← h]; exact State.leafVersions_kernel s x1 

@[simp] theorem State.leafArrived_kernel (s : State) (x1 : Nat) (x2 : LeafFill) (x3 : List Line)  : (State.leafArrived s x1 x2 x3).kernel = s.kernel := by
  unfold State.leafArrived
  try dsimp only
  repeat' first | with_reducible rfl | (simp; done) | split | (have hp := State.leafVersions_kernel' ‹_›; dsimp only at hp; first | exact hp | (rw [hp]; try clear hp)) | (refine (foldl_fst_kernel _ _ ?_ _).trans ?_) | (intro _) | simp only [State.log_kernel, State.countC_kernel, State.request_kernel, State.finishXfer_kernel, State.leafUse_kernel, State.keylessLeaf_kernel, State.leafDropped_kernel, State.count_kernel, State.removeLeafFill_kernel, State.leafVersions_kernel] | rfl | (simp [State.kernel, Function.comp_def]; done) | (fail_if_no_progress (simp only [State.kernel]; simp only [State.kernel_mk])) | (simp_all; done)

@[simp] theorem State.prefetchLeaves_kernel (s : State) (x1 : Nat) (x2 : CohortId) (x3 : Rec64) (x4 : List Line) (x5 : Nat)  : (State.prefetchLeaves s x1 x2 x3 x4 x5).kernel = s.kernel := by
  unfold State.prefetchLeaves
  try dsimp only
  repeat' first | with_reducible rfl | (simp; done) | split | (refine (foldS_kernel _ _ _ ?_).trans ?_) | (refine (foldl_fst_kernel _ _ ?_ _).trans ?_) | (intro _) | simp only [State.count_kernel, State.leafFill_kernel] | rfl | (simp [State.kernel, Function.comp_def]; done) | (fail_if_no_progress (simp only [State.kernel]; simp only [State.kernel_mk])) | (simp_all; done)

end Sys2Proof.Machine
end

