-- ==== Sys2Proof/Laws/KernelFills.lean ====
section
/-! SUPPORT. Laws/KernelFills.lean: the operations of Machine/Fills.lean leave the kernel as it is. -/
namespace Sys2Proof.Machine

@[simp] theorem State.clearUrgent_kernel (s : State) (x1 : Nat)  : (State.clearUrgent s x1).kernel = s.kernel := by
  unfold State.clearUrgent
  try dsimp only
  repeat' first | with_reducible rfl | (simp; done) | split | (refine (foldl_fst_kernel _ _ ?_ _).trans ?_) | (intro _) | rfl | (simp [State.kernel, Function.comp_def]; done) | (fail_if_no_progress (simp only [State.kernel]; simp only [State.kernel_mk])) | (simp_all; done)

@[simp] theorem doFillUrgent_kernel (s : State) (x0 : Nat)  : (doFillUrgent x0 s).kernel = s.kernel := by
  unfold doFillUrgent
  try dsimp only
  repeat' first | with_reducible rfl | (simp; done) | split | (refine (foldl_fst_kernel _ _ ?_ _).trans ?_) | (intro _) | rfl | (simp [State.kernel, Function.comp_def]; done) | (fail_if_no_progress (simp only [State.kernel]; simp only [State.kernel_mk])) | (simp_all; done)

@[simp] theorem State.endFill_kernel (s : State) (x1 : CohortId)  : (State.endFill s x1).kernel = s.kernel := by
  unfold State.endFill
  try dsimp only
  repeat' first | with_reducible rfl | (simp; done) | split | (refine (foldS_kernel _ _ _ ?_).trans ?_) | (refine (foldl_fst_kernel _ _ ?_ _).trans ?_) | (intro _) | simp only [State.finishXfer_kernel, State.setSlot_kernel] | rfl | (simp [State.kernel, Function.comp_def]; done) | (fail_if_no_progress (simp only [State.kernel]; simp only [State.kernel_mk])) | (simp_all; done)

@[simp] theorem State.fillLines_kernel (s : State) (x1 : Nat)  : (State.fillLines s x1).kernel = s.kernel := by
  unfold State.fillLines
  try dsimp only
  repeat' first | with_reducible rfl | (simp; done) | split | (refine (foldl_fst_kernel _ _ ?_ _).trans ?_) | (intro _) | simp only [State.count_kernel] | rfl | (simp [State.kernel, Function.comp_def]; done) | (fail_if_no_progress (simp only [State.kernel]; simp only [State.kernel_mk])) | (simp_all; done)

@[simp] theorem State.takeLine_kernel (s : State) (x1 : CohortId) (x2 : Nat) (x3 : Line)  : (State.takeLine s x1 x2 x3).kernel = s.kernel := by
  unfold State.takeLine
  try dsimp only
  repeat' first | with_reducible rfl | (simp; done) | split | (have hp := State.readVersion_kernel' ‹_›; dsimp only at hp; first | exact hp | (rw [hp]; try clear hp)) | (refine (foldl_fst_kernel _ _ ?_ _).trans ?_) | (intro _) | simp only [State.fillLines_kernel, State.modFill_kernel, State.readVersion_kernel] | rfl | (simp [State.kernel, Function.comp_def]; done) | (fail_if_no_progress (simp only [State.kernel]; simp only [State.kernel_mk])) | (simp_all; done)

@[simp] theorem State.dropBough_kernel (s : State) (x1 : Fill)  : (State.dropBough s x1).kernel = s.kernel := by
  unfold State.dropBough
  try dsimp only
  repeat' first | with_reducible rfl | (simp; done) | split | (refine (foldl_fst_kernel _ _ ?_ _).trans ?_) | (intro _) | simp only [State.endFill_kernel, State.modCohort_kernel, State.lapse_kernel, State.countC_kernel, State.log_kernel] | rfl | (simp [State.kernel, Function.comp_def]; done) | (fail_if_no_progress (simp only [State.kernel]; simp only [State.kernel_mk])) | (simp_all; done)

@[simp] theorem State.queueHandle_kernel (s : State) (x1 : Fill) (x2 : Nat)  : (State.queueHandle s x1 x2).kernel = s.kernel := by
  unfold State.queueHandle
  try dsimp only
  repeat' first | with_reducible rfl | (simp; done) | split | (refine (foldl_fst_kernel _ _ ?_ _).trans ?_) | (intro _) | simp only [State.modFill_kernel, State.count_kernel] | rfl | (simp [State.kernel, Function.comp_def]; done) | (fail_if_no_progress (simp only [State.kernel]; simp only [State.kernel_mk])) | (simp_all; done)

@[simp] theorem State.settleHandles_kernel (s : State) (x1 : CohortId)  : (State.settleHandles s x1).kernel = s.kernel := by
  unfold State.settleHandles
  try dsimp only
  repeat' first | with_reducible rfl | (simp; done) | split | (refine (foldl_fst_kernel _ _ ?_ _).trans ?_) | (intro _) | simp only [State.finishXfer_kernel] | rfl | (simp [State.kernel, Function.comp_def]; done) | (fail_if_no_progress (simp only [State.kernel]; simp only [State.kernel_mk])) | (simp_all; done)

@[simp] theorem State.enterHandles_kernel (s : State) (x1 : CohortId)  : (State.enterHandles s x1).kernel = s.kernel := by
  unfold State.enterHandles
  try dsimp only
  repeat' first | with_reducible rfl | (simp; done) | split | (refine (foldS_kernel _ _ _ ?_).trans ?_) | (refine (foldl_fst_kernel _ _ ?_ _).trans ?_) | (intro _) | simp only [State.queueHandle_kernel, State.settleHandles_kernel, State.modFill_kernel] | rfl | (simp [State.kernel, Function.comp_def]; done) | (fail_if_no_progress (simp only [State.kernel]; simp only [State.kernel_mk])) | (simp_all; done)

@[simp] theorem State.useBough_kernel (s : State) (x1 : Fill) (x2 : Rec64)  : (State.useBough s x1 x2).kernel = s.kernel := by
  unfold State.useBough
  try dsimp only
  repeat' first | with_reducible rfl | (simp; done) | split | (refine (foldl_fst_kernel _ _ ?_ _).trans ?_) | (intro _) | simp only [State.enterHandles_kernel, State.modFill_kernel, State.dropBough_kernel] | rfl | (simp [State.kernel, Function.comp_def]; done) | (fail_if_no_progress (simp only [State.kernel]; simp only [State.kernel_mk])) | (simp_all; done)

@[simp] theorem State.checkFill_kernel (s : State) (x1 : CohortId)  : (State.checkFill s x1).kernel = s.kernel := by
  unfold State.checkFill
  try dsimp only
  repeat' first | with_reducible rfl | (simp; done) | split | (refine (foldl_fst_kernel _ _ ?_ _).trans ?_) | (intro _) | simp only [State.countC_kernel, State.log_kernel, State.dropBough_kernel, State.request_kernel, State.modFill_kernel, State.finishXfer_kernel, State.count_kernel, State.useBough_kernel] | rfl | (simp [State.kernel, Function.comp_def]; done) | (fail_if_no_progress (simp only [State.kernel]; simp only [State.kernel_mk])) | (simp_all; done)

@[simp] theorem doFillLineReturn_kernel (s : State) (x0 : CohortId) (x1 : Nat) (x2 : Line)  : (doFillLineReturn x0 x1 x2 s).kernel = s.kernel := by
  unfold doFillLineReturn
  try dsimp only
  repeat' first | with_reducible rfl | (simp; done) | split | (refine (foldl_fst_kernel _ _ ?_ _).trans ?_) | (intro _) | simp only [State.takeLine_kernel, State.lineBack_kernel, State.checkFill_kernel] | rfl | (simp [State.kernel, Function.comp_def]; done) | (fail_if_no_progress (simp only [State.kernel]; simp only [State.kernel_mk])) | (simp_all; done)

@[simp] theorem doFillVictimTimeout_kernel (s : State) (x0 : CohortId)  : (doFillVictimTimeout x0 s).kernel = s.kernel := by
  unfold doFillVictimTimeout
  try dsimp only
  repeat' first | with_reducible rfl | (simp; done) | split | (have hp := State.tryFill_kernel' ‹_›; dsimp only at hp; first | exact hp | (rw [hp]; try clear hp)) | (refine (foldl_fst_kernel _ _ ?_ _).trans ?_) | (intro _) | simp only [State.modFill_kernel, State.tryFill_kernel] | rfl | (simp [State.kernel, Function.comp_def]; done) | (fail_if_no_progress (simp only [State.kernel]; simp only [State.kernel_mk])) | (simp_all; done)

@[simp] theorem doDecryptDone_kernel (s : State) (x0 : CohortId)  : (doDecryptDone x0 s).kernel = s.kernel := by
  unfold doDecryptDone
  try dsimp only
  repeat' first | with_reducible rfl | (simp; done) | split | (refine (foldl_fst_kernel _ _ ?_ _).trans ?_) | (intro _) | simp only [State.modFill_kernel, State.enterHandles_kernel] | rfl | (simp [State.kernel, Function.comp_def]; done) | (fail_if_no_progress (simp only [State.kernel]; simp only [State.kernel_mk])) | (simp_all; done)

@[simp] theorem doTrailerReturn_kernel (s : State) (x0 : CohortId) (x1 : Line)  : (doTrailerReturn x0 x1 s).kernel = s.kernel := by
  unfold doTrailerReturn
  try dsimp only
  repeat' first | with_reducible rfl | (simp; done) | split | (refine (foldl_fst_kernel _ _ ?_ _).trans ?_) | (intro _) | simp only [State.giveWork_kernel, State.pumpLines_kernel, State.modFill_kernel, State.lineBack_kernel, State.takeLine_kernel] | rfl | (simp [State.kernel, Function.comp_def]; done) | (fail_if_no_progress (simp only [State.kernel]; simp only [State.kernel_mk])) | (simp_all; done)

@[simp] theorem State.injectBank_kernel (s : State) (x1 : Nat) (x2 : Nat)  : (State.injectBank s x1 x2).kernel = s.kernel := by
  unfold State.injectBank
  try dsimp only
  repeat' first | with_reducible rfl | (simp; done) | split | (refine (foldl_fst_kernel _ _ ?_ _).trans ?_) | (intro _) | simp only [State.injectSram_kernel] | rfl | (simp [State.kernel, Function.comp_def]; done) | (fail_if_no_progress (simp only [State.kernel]; simp only [State.kernel_mk])) | (simp_all; done)

@[simp] theorem doCohortAgeLimit_kernel (s : State) (x0 : CohortId)  : (doCohortAgeLimit x0 s).kernel = s.kernel := by
  unfold doCohortAgeLimit
  try dsimp only
  repeat' first | with_reducible rfl | (simp; done) | split | (refine (foldl_fst_kernel _ _ ?_ _).trans ?_) | (intro _) | simp only [State.modCohort_kernel] | rfl | (simp [State.kernel, Function.comp_def]; done) | (fail_if_no_progress (simp only [State.kernel]; simp only [State.kernel_mk])) | (simp_all; done)

@[simp] theorem State.rewriteLines_kernel (s : State) (x1 : Nat) (x2 : Nat)  : (State.rewriteLines s x1 x2).kernel = s.kernel := by
  unfold State.rewriteLines
  try dsimp only
  repeat' first | with_reducible rfl | (simp; done) | split | (refine (foldl_fst_kernel _ _ ?_ _).trans ?_) | (intro _) | rfl | (simp [State.kernel, Function.comp_def]; done) | (fail_if_no_progress (simp only [State.kernel]; simp only [State.kernel_mk])) | (simp_all; done)

@[simp] theorem State.placeBough_kernel (s : State) (x1 : Nat) (x2 : CohortId) (x3 : Fill) (x4 : Rec64)  : (State.placeBough s x1 x2 x3 x4).kernel = s.kernel := by
  unfold State.placeBough
  try dsimp only
  repeat' first | with_reducible rfl | (simp; done) | split | (refine (foldl_fst_kernel _ _ ?_ _).trans ?_) | (intro _) | simp only [State.prefetchLeaves_kernel, State.modFill_kernel, State.rewriteLines_kernel, State.injectBank_kernel, State.setSlot_kernel, State.modCohort_kernel] | rfl | (simp [State.kernel, Function.comp_def]; done) | (fail_if_no_progress (simp only [State.kernel]; simp only [State.kernel_mk])) | (simp_all; done)

@[simp] theorem doVictimSlotFreed_kernel (s : State) (x0 : Nat) (x1 : Nat)  : (doVictimSlotFreed x0 x1 s).kernel = s.kernel := by
  unfold doVictimSlotFreed
  try dsimp only
  repeat' first | with_reducible rfl | (simp; done) | split | (refine (foldl_fst_kernel _ _ ?_ _).trans ?_) | (intro _) | simp only [State.vacate_kernel] | rfl | (simp [State.kernel, Function.comp_def]; done) | (fail_if_no_progress (simp only [State.kernel]; simp only [State.kernel_mk])) | (simp_all; done)

@[simp] theorem State.retryHeld_kernel (s : State) (x1 : Nat)  : (State.retryHeld s x1).kernel = s.kernel := by
  unfold State.retryHeld
  try dsimp only
  repeat' first | with_reducible rfl | (simp; done) | split | (refine (foldS_kernel _ _ _ ?_).trans ?_) | (refine (foldl_fst_kernel _ _ ?_ _).trans ?_) | (intro _) | simp only [State.queueHandle_kernel, State.settleHandles_kernel, State.modFill_kernel] | rfl | (simp [State.kernel, Function.comp_def]; done) | (fail_if_no_progress (simp only [State.kernel]; simp only [State.kernel_mk])) | (simp_all; done)

@[simp] theorem doFillIssue_kernel (s : State)   : (doFillIssue s).kernel = s.kernel := by
  unfold doFillIssue
  try dsimp only
  repeat' first | with_reducible rfl | (simp; done) | split | (refine (foldl_fst_kernel _ _ ?_ _).trans ?_) | (intro _) | simp only [State.fillStep_kernel] | rfl | (simp [State.kernel, Function.comp_def]; done) | (fail_if_no_progress (simp only [State.kernel]; simp only [State.kernel_mk])) | (simp_all; done)

@[simp] theorem doPlacementCapture_kernel (s : State) (x0 : Nat)  : (doPlacementCapture x0 s).kernel = s.kernel := by
  unfold doPlacementCapture
  try dsimp only
  repeat' first | with_reducible rfl | (simp; done) | split | (have hp := State.ensureEntry_kernel' ‹_›; dsimp only at hp; first | exact hp | (rw [hp]; try clear hp)) | (refine (foldl_fst_kernel _ _ ?_ _).trans ?_) | (intro _) | simp only [State.retryHeld_kernel, State.placeBough_kernel, State.ensureEntry_kernel] | rfl | (simp [State.kernel, Function.comp_def]; done) | (fail_if_no_progress (simp only [State.kernel]; simp only [State.kernel_mk])) | (simp_all; done)

end Sys2Proof.Machine
end

