-- ==== Sys2Proof/Laws/KernelBanks.lean ====
section
/-! SUPPORT. Laws/KernelBanks.lean: the operations of Machine/Banks.lean leave the kernel as it is. -/
namespace Sys2Proof.Machine

@[simp] theorem State.useSegments_kernel (s : State) (x1 : Nat) (x2 : List (Nat × Nat))  : (State.useSegments s x1 x2).kernel = s.kernel := by
  unfold State.useSegments
  try dsimp only
  repeat' first | with_reducible rfl | (simp; done) | split | (refine (foldl_fst_kernel _ _ ?_ _).trans ?_) | (intro _) | simp only [State.modOctet_kernel] | rfl | (simp [State.kernel, Function.comp_def]; done) | (fail_if_no_progress (simp only [State.kernel]; simp only [State.kernel_mk])) | (simp_all; done)

@[simp] theorem State.enqueue_kernel (s : State) (x1 : Nat) (x2 : List Packet)  : (State.enqueue s x1 x2).kernel = s.kernel := by
  unfold State.enqueue
  try dsimp only
  repeat' first | with_reducible rfl | (simp; done) | split | (refine (foldl_fst_kernel _ _ ?_ _).trans ?_) | (intro _) | simp only [State.modOctet_kernel, State.useSegments_kernel] | rfl | (simp [State.kernel, Function.comp_def]; done) | (fail_if_no_progress (simp only [State.kernel]; simp only [State.kernel_mk])) | (simp_all; done)

@[simp] theorem State.dropPackets_kernel (s : State) (x1 : Nat) (x2 : Nat)  : (State.dropPackets s x1 x2).kernel = s.kernel := by
  unfold State.dropPackets
  try dsimp only
  repeat' first | with_reducible rfl | (simp; done) | split | (refine (foldl_fst_kernel _ _ ?_ _).trans ?_) | (intro _) | rfl | (simp [State.kernel, Function.comp_def]; done) | (fail_if_no_progress (simp only [State.kernel]; simp only [State.kernel_mk])) | (simp_all; done)

@[simp] theorem State.takeAnswers_kernel (s : State) (x1 : Nat) (x2 : Nat)  : (State.takeAnswers s x1 x2).kernel = s.kernel := by
  unfold State.takeAnswers
  try dsimp only
  repeat' first | with_reducible rfl | (simp; done) | split | (refine (foldl_fst_kernel _ _ ?_ _).trans ?_) | (intro _) | simp only [State.modOctet_kernel] | rfl | (simp [State.kernel, Function.comp_def]; done) | (fail_if_no_progress (simp only [State.kernel]; simp only [State.kernel_mk])) | (simp_all; done)

@[simp] theorem State.segmentParity_kernel (s : State) (x1 : Nat) (x2 : List (Nat × Nat))  : (State.segmentParity s x1 x2).kernel = s.kernel := by
  unfold State.segmentParity
  try dsimp only
  repeat' first | with_reducible rfl | (simp; done) | split | (refine (foldl_fst_kernel _ _ ?_ _).trans ?_) | (intro _) | simp only [State.modOctet_kernel, State.useSegments_kernel, State.count_kernel] | rfl | (simp [State.kernel, Function.comp_def]; done) | (fail_if_no_progress (simp only [State.kernel]; simp only [State.kernel_mk])) | (simp_all; done)

@[simp] theorem State.useBanks_kernel (s : State) (x1 : Nat) (x2 : Nat)  : (State.useBanks s x1 x2).kernel = s.kernel := by
  unfold State.useBanks
  try dsimp only
  repeat' first | with_reducible rfl | (simp; done) | split | (refine (foldl_fst_kernel _ _ ?_ _).trans ?_) | (intro _) | simp only [State.modOctet_kernel, State.count_kernel] | rfl | (simp [State.kernel, Function.comp_def]; done) | (fail_if_no_progress (simp only [State.kernel]; simp only [State.kernel_mk])) | (simp_all; done)

@[simp] theorem State.servePass_kernel (s : State) (x1 : Nat) (x2 : Nat)  : (State.servePass s x1 x2).kernel = s.kernel := by
  unfold State.servePass
  try dsimp only
  repeat' first | with_reducible rfl | (simp; done) | split | (refine (foldl_fst_kernel _ _ ?_ _).trans ?_) | (intro _) | simp only [State.useBanks_kernel, State.modOctet_kernel, State.useSegments_kernel] | rfl | (simp [State.kernel, Function.comp_def]; done) | (fail_if_no_progress (simp only [State.kernel]; simp only [State.kernel_mk])) | (simp_all; done)

@[simp] theorem State.serveSheaf_kernel (s : State) (x1 : Nat) (x2 : Nat)  : (State.serveSheaf s x1 x2).kernel = s.kernel := by
  unfold State.serveSheaf
  try dsimp only
  repeat' first | with_reducible rfl | (simp; done) | split | (refine (iter_kernel _ _ _ ?_).trans ?_) | (refine (foldl_fst_kernel _ _ ?_ _).trans ?_) | (intro _) | simp only [State.servePass_kernel] | rfl | (simp [State.kernel, Function.comp_def]; done) | (fail_if_no_progress (simp only [State.kernel]; simp only [State.kernel_mk])) | (simp_all; done)

@[simp] theorem State.unreserve_kernel (s : State) (x1 : Nat → Bool)  : (State.unreserve s x1).kernel = s.kernel := by
  unfold State.unreserve
  try dsimp only
  repeat' first | with_reducible rfl | (simp; done) | split | (refine (foldS_kernel _ _ _ ?_).trans ?_) | (refine (foldl_fst_kernel _ _ ?_ _).trans ?_) | (intro _) | simp only [State.force_kernel, State.endFill_kernel, State.modFill_kernel, State.setSlot_kernel] | rfl | (simp [State.kernel, Function.comp_def]; done) | (fail_if_no_progress (simp only [State.kernel]; simp only [State.kernel_mk])) | (simp_all; done)

@[simp] theorem State.retireOctet_kernel (s : State) (x1 : Nat) (x2 : Nat)  : (State.retireOctet s x1 x2).kernel = s.kernel := by
  unfold State.retireOctet
  try dsimp only
  repeat' first | with_reducible rfl | (simp; done) | split | (refine (foldS_kernel _ _ _ ?_).trans ?_) | (refine (foldl_fst_kernel _ _ ?_ _).trans ?_) | (intro _) | simp only [State.invalidate_kernel, State.settleService_kernel, State.unreserve_kernel, State.count_kernel, State.report_kernel, State.modGrove_kernel] | rfl | (simp [State.kernel, Function.comp_def]; done) | (fail_if_no_progress (simp only [State.kernel]; simp only [State.kernel_mk])) | (simp_all; done)

@[simp] theorem State.failBank_kernel (s : State) (x1 : Nat)  : (State.failBank s x1).kernel = s.kernel := by
  unfold State.failBank
  try dsimp only
  repeat' first | with_reducible rfl | (simp; done) | split | (refine (foldl_fst_kernel _ _ ?_ _).trans ?_) | (intro _) | simp only [State.modGrove_kernel, State.retireOctet_kernel, State.modBank_kernel] | rfl | (simp [State.kernel, Function.comp_def]; done) | (fail_if_no_progress (simp only [State.kernel]; simp only [State.kernel_mk])) | (simp_all; done)

@[simp] theorem State.bankUncorrected_kernel (s : State) (x1 : Bool) (x2 : Nat) (x3 : Nat)  : (State.bankUncorrected s x1 x2 x3).kernel = s.kernel := by
  unfold State.bankUncorrected
  try dsimp only
  repeat' first | with_reducible rfl | (simp; done) | split | (refine (foldl_fst_kernel _ _ ?_ _).trans ?_) | (intro _) | simp only [State.failBank_kernel, State.logInj_kernel, State.interrupt_kernel, State.count_kernel, State.modBank_kernel] | rfl | (simp [State.kernel, Function.comp_def]; done) | (fail_if_no_progress (simp only [State.kernel]; simp only [State.kernel_mk])) | (simp_all; done)

@[simp] theorem State.bankCorrected_kernel (s : State) (x1 : Bool) (x2 : Nat)  : (State.bankCorrected s x1 x2).kernel = s.kernel := by
  unfold State.bankCorrected
  try dsimp only
  repeat' first | with_reducible rfl | (simp; done) | split | (refine (foldl_fst_kernel _ _ ?_ _).trans ?_) | (intro _) | simp only [State.logInj_kernel, State.interrupt_kernel, State.modBank_kernel, State.count_kernel] | rfl | (simp [State.kernel, Function.comp_def]; done) | (fail_if_no_progress (simp only [State.kernel]; simp only [State.kernel_mk])) | (simp_all; done)

@[simp] theorem State.bankRead_kernel (s : State) (x1 : Nat) (x2 : Nat) (x3 : Option EccError)  : (State.bankRead s x1 x2 x3).1.kernel = s.kernel := by
  unfold State.bankRead
  try dsimp only
  repeat' first | with_reducible rfl | (simp; done) | split | (refine (foldl_fst_kernel _ _ ?_ _).trans ?_) | (intro _) | simp only [State.bankUncorrected_kernel, State.clearMark_kernel, State.bankCorrected_kernel] | rfl | (simp [State.kernel, Function.comp_def]; done) | (fail_if_no_progress (simp only [State.kernel]; simp only [State.kernel_mk])) | (simp_all; done)
theorem State.bankRead_kernel' {s : State} {x1 : Nat} {x2 : Nat} {x3 : Option EccError}  {p : State × Bool} (h : State.bankRead s x1 x2 x3 = p) : p.1.kernel = s.kernel := by
  rw [← h]; exact State.bankRead_kernel s x1 x2 x3 

@[simp] theorem State.readLines_kernel (s : State) (k : Nat) (err : Nat → Option EccError) (l : List Nat) :
    (s.readLines k err l).1.kernel = s.kernel := by
  induction l generalizing s with
  | nil => rfl
  | cons n t ih => simp only [State.readLines, ih, State.bankRead_kernel]
theorem State.readLines_kernel' {s : State} {k : Nat} {err : Nat → Option EccError} {l : List Nat} {p : State × Bool}
    (h : s.readLines k err l = p) : p.1.kernel = s.kernel := by
  rw [← h]; exact State.readLines_kernel s k err l

@[simp] theorem doBoughTestable_kernel (s : State) (x0 : Nat) (x1 : Nat) (x2 : List (Fin 64 × EccError))  : (doBoughTestable x0 x1 x2 s).kernel = s.kernel := by
  unfold doBoughTestable
  try dsimp only
  repeat' first | with_reducible rfl | (simp; done) | split | (have hp := State.readLines_kernel' ‹_›; dsimp only at hp; first | exact hp | (rw [hp]; try clear hp)) | (refine (foldl_fst_kernel _ _ ?_ _).trans ?_) | (intro _) | simp only [State.invalidate_kernel, State.modSlot_kernel, State.readLines_kernel] | rfl | (simp [State.kernel, Function.comp_def]; done) | (fail_if_no_progress (simp only [State.kernel]; simp only [State.kernel_mk])) | (simp_all; done)

end Sys2Proof.Machine
end

