-- ==== Sys2Proof/Laws/KernelResults.lean ====
section
/-! SUPPORT. Laws/KernelResults.lean: the operations of Machine/Results.lean leave the kernel as it is. -/
namespace Sys2Proof.Machine

@[simp] theorem State.sendPacket_kernel (s : State) (x1 : Rec64) (x2 : Option QueryImage) (x3 : List Rec32)  : (State.sendPacket s x1 x2 x3).kernel = s.kernel := by
  unfold State.sendPacket
  try dsimp only
  repeat' first | with_reducible rfl | (simp; done) | split | (refine (foldl_fst_kernel _ _ ?_ _).trans ?_) | (intro _) | simp only [State.emit_kernel] | rfl | (simp [State.kernel, Function.comp_def]; done) | (fail_if_no_progress (simp only [State.kernel]; simp only [State.kernel_mk])) | (simp_all; done)

@[simp] theorem State.sendQuery_kernel (s : State) (x1 : Query) (x2 : Nat) (x3 : Nat) (x4 : Nat) (x5 : DWord)  : (State.sendQuery s x1 x2 x3 x4 x5).kernel = s.kernel := by
  unfold State.sendQuery
  try dsimp only
  repeat' first | with_reducible rfl | (simp; done) | split | (refine (foldl_fst_kernel _ _ ?_ _).trans ?_) | (intro _) | simp only [State.count_kernel, State.sendPacket_kernel] | rfl | (simp [State.kernel, Function.comp_def]; done) | (fail_if_no_progress (simp only [State.kernel]; simp only [State.kernel_mk])) | (simp_all; done)

@[simp] theorem State.settleWatch_kernel (s : State)   : (State.settleWatch s).kernel = s.kernel := by
  unfold State.settleWatch
  try dsimp only
  repeat' first | with_reducible rfl | (simp; done) | split | (refine (iter_kernel _ _ _ ?_).trans ?_) | (refine (foldl_fst_kernel _ _ ?_ _).trans ?_) | (intro _) | simp only [State.sendQuery_kernel] | rfl | (simp [State.kernel, Function.comp_def]; done) | (fail_if_no_progress (simp only [State.kernel]; simp only [State.kernel_mk])) | (simp_all; done)

@[simp] theorem State.putItem_kernel (s : State) (x1 : Source) (x2 : Nat) (x3 : CItem)  : (State.putItem s x1 x2 x3).kernel = s.kernel := by
  unfold State.putItem
  try dsimp only
  repeat' first | with_reducible rfl | (simp; done) | split | (refine (foldl_fst_kernel _ _ ?_ _).trans ?_) | (intro _) | simp only [State.count_kernel] | rfl | (simp [State.kernel, Function.comp_def]; done) | (fail_if_no_progress (simp only [State.kernel]; simp only [State.kernel_mk])) | (simp_all; done)

@[simp] theorem State.toSource_kernel (s : State) (x1 : Source) (x2 : Nat) (x3 : CItem)  : (State.toSource s x1 x2 x3).kernel = s.kernel := by
  unfold State.toSource
  try dsimp only
  repeat' first | with_reducible rfl | (simp; done) | split | (refine (foldl_fst_kernel _ _ ?_ _).trans ?_) | (intro _) | simp only [State.putItem_kernel, State.writeSpine_kernel] | rfl | (simp [State.kernel, Function.comp_def]; done) | (fail_if_no_progress (simp only [State.kernel]; simp only [State.kernel_mk])) | (simp_all; done)

@[simp] theorem State.sendResult_kernel (s : State) (x1 : Nat) (x2 : Nat) (x3 : Origin) (x4 : List Rec32)  : (State.sendResult s x1 x2 x3 x4).kernel = s.kernel := by
  unfold State.sendResult
  try dsimp only
  repeat' first | with_reducible rfl | (simp; done) | split | (refine (foldS_kernel _ _ _ ?_).trans ?_) | (refine (foldl_fst_kernel _ _ ?_ _).trans ?_) | (intro _) | simp only [State.sendPacket_kernel] | rfl | (simp [State.kernel, Function.comp_def]; done) | (fail_if_no_progress (simp only [State.kernel]; simp only [State.kernel_mk])) | (simp_all; done)

@[simp] theorem State.finish_kernel (s : State) (x1 : Nat) (x2 : Nat) (x3 : List Rec32) (x4 : Source)  : (State.finish s x1 x2 x3 x4).kernel = s.kernel := by
  unfold State.finish
  try dsimp only
  repeat' first | with_reducible rfl | (simp; done) | split | (refine (foldl_fst_kernel _ _ ?_ _).trans ?_) | (intro _) | simp only [State.modQuery_kernel, State.toSource_kernel, State.sendResult_kernel, State.releaseSlot_kernel] | rfl | (simp [State.kernel, Function.comp_def]; done) | (fail_if_no_progress (simp only [State.kernel]; simp only [State.kernel_mk])) | (simp_all; done)

@[simp] theorem State.finishErr_kernel (s : State) (x1 : Nat) (x2 : Nat) (x3 : Nat) (x4 : Source)  : (State.finishErr s x1 x2 x3 x4).kernel = s.kernel := by
  unfold State.finishErr
  try dsimp only
  repeat' first | with_reducible rfl | (simp; done) | split | (refine (foldl_fst_kernel _ _ ?_ _).trans ?_) | (intro _) | simp only [State.finish_kernel, State.countC_kernel] | rfl | (simp [State.kernel, Function.comp_def]; done) | (fail_if_no_progress (simp only [State.kernel]; simp only [State.kernel_mk])) | (simp_all; done)

@[simp] theorem State.forward_kernel (s : State) (x1 : Nat) (x2 : CohortId) (x3 : Option Nat) (x4 : Source)  : (State.forward s x1 x2 x3 x4).kernel = s.kernel := by
  unfold State.forward
  try dsimp only
  repeat' first | with_reducible rfl | (simp; done) | split | (refine (foldl_fst_kernel _ _ ?_ _).trans ?_) | (intro _) | simp only [State.releaseSlot_kernel, State.sendPacket_kernel, State.sendQuery_kernel, State.modQuery_kernel, State.finishErr_kernel] | rfl | (simp [State.kernel, Function.comp_def]; done) | (fail_if_no_progress (simp only [State.kernel]; simp only [State.kernel_mk])) | (simp_all; done)

@[simp] theorem State.parkOrForward_kernel (s : State) (x1 : Nat) (x2 : Nat) (x3 : Nat) (x4 : Nat) (x5 : Nat) (x6 : Source)  : (State.parkOrForward s x1 x2 x3 x4 x5 x6).kernel = s.kernel := by
  unfold State.parkOrForward
  try dsimp only
  repeat' first | with_reducible rfl | (simp; done) | split | (refine (foldl_fst_kernel _ _ ?_ _).trans ?_) | (intro _) | simp only [State.park_kernel, State.forward_kernel, State.modQuery_kernel] | rfl | (simp [State.kernel, Function.comp_def]; done) | (fail_if_no_progress (simp only [State.kernel]; simp only [State.kernel_mk])) | (simp_all; done)

@[simp] theorem State.finishOk_kernel (s : State) (x1 : Nat) (x2 : WalkState) (x3 : Bool) (x4 : Source)  : (State.finishOk s x1 x2 x3 x4).kernel = s.kernel := by
  unfold State.finishOk
  try dsimp only
  repeat' first | with_reducible rfl | (simp; done) | split | (refine (foldl_fst_kernel _ _ ?_ _).trans ?_) | (intro _) | simp only [State.modQuery_kernel, State.finish_kernel, State.countC_kernel] | rfl | (simp [State.kernel, Function.comp_def]; done) | (fail_if_no_progress (simp only [State.kernel]; simp only [State.kernel_mk])) | (simp_all; done)

@[simp] theorem State.addLost_kernel (s : State) (x1 : Nat) (x2 : Option Nat)  : (State.addLost s x1 x2).kernel = s.kernel := by
  unfold State.addLost
  try dsimp only
  repeat' first | with_reducible rfl | (simp; done) | split | (refine (foldl_fst_kernel _ _ ?_ _).trans ?_) | (intro _) | simp only [State.count_kernel] | rfl | (simp [State.kernel, Function.comp_def]; done) | (fail_if_no_progress (simp only [State.kernel]; simp only [State.kernel_mk])) | (simp_all; done)

end Sys2Proof.Machine
end

