-- ==== Sys2Proof/Laws/KernelCollector.lean ====
section
/-! SUPPORT. Laws/KernelCollector.lean: the operations of Machine/Collector.lean leave the kernel as it is. -/
namespace Sys2Proof.Machine

@[simp] theorem State.modCompletion_kernel (s : State) (x1 : Nat) (x2 : Completion → Completion)  : (State.modCompletion s x1 x2).kernel = s.kernel := by
  unfold State.modCompletion
  try dsimp only
  repeat' first | with_reducible rfl | (simp; done) | split | (refine (foldl_fst_kernel _ _ ?_ _).trans ?_) | (intro _) | rfl | (simp [State.kernel, Function.comp_def]; done) | (fail_if_no_progress (simp only [State.kernel]; simp only [State.kernel_mk])) | (simp_all; done)

@[simp] theorem State.dropRecord_kernel (s : State) (x1 : Nat) (x2 : Nat)  : (State.dropRecord s x1 x2).kernel = s.kernel := by
  unfold State.dropRecord
  try dsimp only
  repeat' first | with_reducible rfl | (simp; done) | split | (refine (foldl_fst_kernel _ _ ?_ _).trans ?_) | (intro _) | simp only [State.countC_kernel, State.modCompletion_kernel, State.ackWrite_kernel] | rfl | (simp [State.kernel, Function.comp_def]; done) | (fail_if_no_progress (simp only [State.kernel]; simp only [State.kernel_mk])) | (simp_all; done)

@[simp] theorem State.dropSpace_kernel (s : State) (x1 : Nat)  : (State.dropSpace s x1).kernel = s.kernel := by
  unfold State.dropSpace
  try dsimp only
  repeat' first | with_reducible rfl | (simp; done) | split | (refine (foldS_kernel _ _ _ ?_).trans ?_) | (refine (foldl_fst_kernel _ _ ?_ _).trans ?_) | (intro _) | simp only [State.dropRecord_kernel, State.modStream_kernel] | rfl | (simp [State.kernel, Function.comp_def]; done) | (fail_if_no_progress (simp only [State.kernel]; simp only [State.kernel_mk])) | (simp_all; done)

@[simp] theorem State.readTiles_kernel (s : State) (x1 : Nat) (x2 : Nat) (x3 : Nat) (x4 : Rec32)  : (State.readTiles s x1 x2 x3 x4).kernel = s.kernel := by
  unfold State.readTiles
  try dsimp only
  repeat' first | with_reducible rfl | (simp; done) | split | (refine (foldl_fst_kernel _ _ ?_ _).trans ?_) | (intro _) | simp only [State.readFor_kernel] | rfl | (simp [State.kernel, Function.comp_def]; done) | (fail_if_no_progress (simp only [State.kernel]; simp only [State.kernel_mk])) | (simp_all; done)

@[simp] theorem State.collWrite_kernel (s : State) (x1 : Nat) (x2 : Nat) (x3 : Bool) (x4 : List (DWord × List Byte)) (x5 : DWord) (x6 : Nat) (x7 : Bool) (x8 : Option (Nat × List Rec32))  : (State.collWrite s x1 x2 x3 x4 x5 x6 x7 x8).kernel = s.kernel := by
  unfold State.collWrite
  try dsimp only
  repeat' first | with_reducible rfl | (simp; done) | split | (have hp := State.addCompletion_kernel' ‹_›; dsimp only at hp; first | exact hp | (rw [hp]; try clear hp)) | (refine (foldS_kernel _ _ _ ?_).trans ?_) | (refine (foldl_fst_kernel _ _ ?_ _).trans ?_) | (intro _) | simp only [State.collPiece_kernel, State.modCompletion_kernel, State.counterAdd_kernel, State.addCompletion_kernel] | rfl | (simp [State.kernel, Function.comp_def]; done) | (fail_if_no_progress (simp only [State.kernel]; simp only [State.kernel_mk])) | (simp_all; done)

@[simp] theorem State.modBin_kernel (s : State) (x1 : Nat) (x2 : Nat) (x3 : Nat) (x4 : BinKey → BinKey)  : (State.modBin s x1 x2 x3 x4).kernel = s.kernel := by
  unfold State.modBin
  try dsimp only
  repeat' first | with_reducible rfl | (simp; done) | split | (refine (foldl_fst_kernel _ _ ?_ _).trans ?_) | (intro _) | simp only [State.modDeliv_kernel] | rfl | (simp [State.kernel, Function.comp_def]; done) | (fail_if_no_progress (simp only [State.kernel]; simp only [State.kernel_mk])) | (simp_all; done)

@[simp] theorem State.writeTiles_kernel (s : State) (x1 : Nat) (x2 : Nat) (x3 : Nat) (x4 : Rec64)  : (State.writeTiles s x1 x2 x3 x4).kernel = s.kernel := by
  unfold State.writeTiles
  try dsimp only
  repeat' first | with_reducible rfl | (simp; done) | split | (refine (iter_kernel _ _ _ ?_).trans ?_) | (refine (foldl_fst_kernel _ _ ?_ _).trans ?_) | (intro _) | simp only [State.readTiles_kernel, State.collWrite_kernel, State.count_kernel, State.modBin_kernel, State.countC_kernel] | rfl | (simp [State.kernel, Function.comp_def]; done) | (fail_if_no_progress (simp only [State.kernel]; simp only [State.kernel_mk])) | (simp_all; done)

@[simp] theorem State.flushTile_kernel (s : State) (x1 : Nat) (x2 : Nat) (x3 : Nat) (x4 : Rec64)  : (State.flushTile s x1 x2 x3 x4).kernel = s.kernel := by
  unfold State.flushTile
  try dsimp only
  repeat' first | with_reducible rfl | (simp; done) | split | (refine (foldl_fst_kernel _ _ ?_ _).trans ?_) | (intro _) | simp only [State.readFor_kernel, State.writeTiles_kernel, State.modBin_kernel] | rfl | (simp [State.kernel, Function.comp_def]; done) | (fail_if_no_progress (simp only [State.kernel]; simp only [State.kernel_mk])) | (simp_all; done)

@[simp] theorem State.binTakes_kernel (s : State) (x1 : Rec64) (x2 : CItem)  : (State.binTakes s x1 x2).1.kernel = s.kernel := by
  unfold State.binTakes
  try dsimp only
  repeat' first | with_reducible rfl | (simp; done) | split | (refine (iter_kernel _ _ _ ?_).trans ?_) | (refine (foldl_fst_kernel _ _ ?_ _).trans ?_) | (intro _) | simp only [State.flushTile_kernel, State.count_kernel] | rfl | (simp [State.kernel, Function.comp_def]; done) | (fail_if_no_progress (simp only [State.kernel]; simp only [State.kernel_mk])) | (simp_all; done)
theorem State.binTakes_kernel' {s : State} {x1 : Rec64} {x2 : CItem}  {p : State × Bool} (h : State.binTakes s x1 x2 = p) : p.1.kernel = s.kernel := by
  rw [← h]; exact State.binTakes_kernel s x1 x2 

@[simp] theorem State.binKeyOf_kernel (s : State) (x1 : Nat) (x2 : Rec64) (x3 : Nat)  : (State.binKeyOf s x1 x2 x3).2.kernel = s.kernel := by
  unfold State.binKeyOf
  try dsimp only
  repeat' first | with_reducible rfl | (simp; done) | split | (refine (foldl_fst_kernel _ _ ?_ _).trans ?_) | (intro _) | simp only [State.countC_kernel] | rfl | (simp [State.kernel, Function.comp_def]; done) | (fail_if_no_progress (simp only [State.kernel]; simp only [State.kernel_mk])) | (simp_all; done)
theorem State.binKeyOf_kernel' {s : State} {x1 : Nat} {x2 : Rec64} {x3 : Nat}  {p : Nat × State} (h : State.binKeyOf s x1 x2 x3 = p) : p.2.kernel = s.kernel := by
  rw [← h]; exact State.binKeyOf_kernel s x1 x2 x3 

@[simp] theorem State.gridFlush_kernel (s : State) (x1 : Nat) (x2 : Nat) (x3 : Rec64)  : (State.gridFlush s x1 x2 x3).kernel = s.kernel := by
  unfold State.gridFlush
  try dsimp only
  repeat' first | with_reducible rfl | (simp; done) | split | (refine (foldl_fst_kernel _ _ ?_ _).trans ?_) | (intro _) | simp only [State.collWrite_kernel, State.countC_kernel, State.modDeliv_kernel] | rfl | (simp [State.kernel, Function.comp_def]; done) | (fail_if_no_progress (simp only [State.kernel]; simp only [State.kernel_mk])) | (simp_all; done)

@[simp] theorem State.accSend_kernel (s : State) (x1 : Nat) (x2 : Nat) (x3 : Nat) (x4 : Rec64) (x5 : Nat) (x6 : DWord)  : (State.accSend s x1 x2 x3 x4 x5 x6).kernel = s.kernel := by
  unfold State.accSend
  try dsimp only
  repeat' first | with_reducible rfl | (simp; done) | split | (have hp := State.atomicOut_kernel' ‹_›; dsimp only at hp; first | exact hp | (rw [hp]; try clear hp)) | (refine (foldl_fst_kernel _ _ ?_ _).trans ?_) | (intro _) | simp only [State.count_kernel, State.atomicOut_kernel] | rfl | (simp [State.kernel, Function.comp_def]; done) | (fail_if_no_progress (simp only [State.kernel]; simp only [State.kernel_mk])) | (simp_all; done)

@[simp] theorem State.closeWindow_kernel (s : State) (x1 : Nat) (x2 : Nat) (x3 : Rec64)  : (State.closeWindow s x1 x2 x3).kernel = s.kernel := by
  unfold State.closeWindow
  try dsimp only
  repeat' first | with_reducible rfl | (simp; done) | split | (refine (foldS_kernel _ _ _ ?_).trans ?_) | (refine (foldl_fst_kernel _ _ ?_ _).trans ?_) | (intro _) | simp only [State.accSend_kernel, State.modDeliv_kernel] | rfl | (simp [State.kernel, Function.comp_def]; done) | (fail_if_no_progress (simp only [State.kernel]; simp only [State.kernel_mk])) | (simp_all; done)

@[simp] theorem State.flushTiles_kernel (s : State) (x1 : Nat) (x2 : Nat) (x3 : Tile → Bool)  : (State.flushTiles s x1 x2 x3).kernel = s.kernel := by
  unfold State.flushTiles
  try dsimp only
  repeat' first | with_reducible rfl | (simp; done) | split | (refine (foldS_kernel _ _ _ ?_).trans ?_) | (refine (foldl_fst_kernel _ _ ?_ _).trans ?_) | (intro _) | simp only [State.flushTile_kernel] | rfl | (simp [State.kernel, Function.comp_def]; done) | (fail_if_no_progress (simp only [State.kernel]; simp only [State.kernel_mk])) | (simp_all; done)

@[simp] theorem State.endFrame_kernel (s : State) (x1 : Nat) (x2 : Nat)  : (State.endFrame s x1 x2).kernel = s.kernel := by
  unfold State.endFrame
  try dsimp only
  repeat' first | with_reducible rfl | (simp; done) | split | (refine (foldl_fst_kernel _ _ ?_ _).trans ?_) | (intro _) | simp only [State.gridFlush_kernel, State.counterAdd_kernel, State.closeWindow_kernel, State.flushTiles_kernel, State.modDeliv_kernel] | rfl | (simp [State.kernel, Function.comp_def]; done) | (fail_if_no_progress (simp only [State.kernel]; simp only [State.kernel_mk])) | (simp_all; done)

@[simp] theorem State.flushEntry_kernel (s : State) (x1 : Nat) (x2 : Nat)  : (State.flushEntry s x1 x2).kernel = s.kernel := by
  unfold State.flushEntry
  try dsimp only
  repeat' first | with_reducible rfl | (simp; done) | split | (refine (foldl_fst_kernel _ _ ?_ _).trans ?_) | (intro _) | simp only [State.endFrame_kernel] | rfl | (simp [State.kernel, Function.comp_def]; done) | (fail_if_no_progress (simp only [State.kernel]; simp only [State.kernel_mk])) | (simp_all; done)

@[simp] theorem State.cutFlush_kernel (s : State) (x1 : Nat)  : (State.cutFlush s x1).kernel = s.kernel := by
  unfold State.cutFlush
  try dsimp only
  repeat' first | with_reducible rfl | (simp; done) | split | (refine (foldS_kernel _ _ _ ?_).trans ?_) | (refine (foldl_fst_kernel _ _ ?_ _).trans ?_) | (intro _) | simp only [State.flushTiles_kernel] | rfl | (simp [State.kernel, Function.comp_def]; done) | (fail_if_no_progress (simp only [State.kernel]; simp only [State.kernel_mk])) | (simp_all; done)

@[simp] theorem State.withdraw_kernel (s : State) (x1 : Nat)  : (State.withdraw s x1).kernel = s.kernel := by
  unfold State.withdraw
  try dsimp only
  repeat' first | with_reducible rfl | (simp; done) | split | (refine (iter_kernel _ _ _ ?_).trans ?_) | (refine (foldl_fst_kernel _ _ ?_ _).trans ?_) | (intro _) | simp only [State.ackWrite_kernel] | rfl | (simp [State.kernel, Function.comp_def]; done) | (fail_if_no_progress (simp only [State.kernel]; simp only [State.kernel_mk])) | (simp_all; done)

@[simp] theorem State.readConsumed_kernel (s : State) (x1 : Nat) (x2 : Nat) (x3 : Rec64)  : (State.readConsumed s x1 x2 x3).kernel = s.kernel := by
  unfold State.readConsumed
  try dsimp only
  repeat' first | with_reducible rfl | (simp; done) | split | (refine (foldl_fst_kernel _ _ ?_ _).trans ?_) | (intro _) | simp only [State.readFor_kernel] | rfl | (simp [State.kernel, Function.comp_def]; done) | (fail_if_no_progress (simp only [State.kernel]; simp only [State.kernel_mk])) | (simp_all; done)

@[simp] theorem State.excPut_kernel (s : State) (x1 : Nat) (x2 : Nat) (x3 : Nat) (x4 : Nat) (x5 : Rec64) (x6 : Rec32)  : (State.excPut s x1 x2 x3 x4 x5 x6).kernel = s.kernel := by
  unfold State.excPut
  try dsimp only
  repeat' first | with_reducible rfl | (simp; done) | split | (refine (foldl_fst_kernel _ _ ?_ _).trans ?_) | (intro _) | simp only [State.modDeliv_kernel, State.modCompletion_kernel, State.collPiece_kernel] | rfl | (simp [State.kernel, Function.comp_def]; done) | (fail_if_no_progress (simp only [State.kernel]; simp only [State.kernel_mk])) | (simp_all; done)

@[simp] theorem State.excDrain_kernel (s : State) (x1 : Nat) (x2 : Nat) (x3 : Rec64)  : (State.excDrain s x1 x2 x3).kernel = s.kernel := by
  unfold State.excDrain
  try dsimp only
  repeat' first | with_reducible rfl | (simp; done) | split | (refine (iter_kernel _ _ _ ?_).trans ?_) | (refine (foldl_fst_kernel _ _ ?_ _).trans ?_) | (intro _) | simp only [State.readConsumed_kernel, State.excPut_kernel, State.modDeliv_kernel, State.ackWrite_kernel] | rfl | (simp [State.kernel, Function.comp_def]; done) | (fail_if_no_progress (simp only [State.kernel]; simp only [State.kernel_mk])) | (simp_all; done)

@[simp] theorem State.carries_kernel (s : State) (x1 : Nat) (x2 : Nat) (x3 : List Rec32)  : (State.carries s x1 x2 x3).kernel = s.kernel := by
  unfold State.carries
  try dsimp only
  repeat' first | with_reducible rfl | (simp; done) | split | (refine (foldl_fst_kernel _ _ ?_ _).trans ?_) | (intro _) | simp only [State.modCompletion_kernel] | rfl | (simp [State.kernel, Function.comp_def]; done) | (fail_if_no_progress (simp only [State.kernel]; simp only [State.kernel_mk])) | (simp_all; done)

@[simp] theorem State.excChain_kernel (s : State) (x1 : Nat) (x2 : Nat) (x3 : Nat) (x4 : Rec64) (x5 : List Rec32)  : (State.excChain s x1 x2 x3 x4 x5).kernel = s.kernel := by
  unfold State.excChain
  try dsimp only
  repeat' first | with_reducible rfl | (simp; done) | split | (have hp := State.addCompletion_kernel' ‹_›; dsimp only at hp; first | exact hp | (rw [hp]; try clear hp)) | (refine (foldl_fst_kernel _ _ ?_ _).trans ?_) | (intro _) | simp only [State.excDrain_kernel, State.carries_kernel, State.modDeliv_kernel, State.addCompletion_kernel] | rfl | (simp [State.kernel, Function.comp_def]; done) | (fail_if_no_progress (simp only [State.kernel]; simp only [State.kernel_mk])) | (simp_all; done)

@[simp] theorem State.replaceChain_kernel (s : State) (x1 : Nat) (x2 : Nat) (x3 : Nat) (x4 : List Rec32)  : (State.replaceChain s x1 x2 x3 x4).kernel = s.kernel := by
  unfold State.replaceChain
  try dsimp only
  repeat' first | with_reducible rfl | (simp; done) | split | (refine (foldl_fst_kernel _ _ ?_ _).trans ?_) | (intro _) | simp only [State.excChain_kernel] | rfl | (simp [State.kernel, Function.comp_def]; done) | (fail_if_no_progress (simp only [State.kernel]; simp only [State.kernel_mk])) | (simp_all; done)

@[simp] theorem State.collDamage_kernel (s : State) (x1 : CollUE) (x2 : Nat)  : (State.collDamage s x1 x2).2.2.2.2.kernel = s.kernel := by
  unfold State.collDamage
  try dsimp only
  repeat' first | with_reducible rfl | (simp; done) | split | (refine (foldS_kernel _ _ _ ?_).trans ?_) | (refine (foldl_fst_kernel _ _ ?_ _).trans ?_) | (intro _) | simp only [State.modBin_kernel, State.dropRecord_kernel, State.modStream_kernel, State.modDeliv_kernel, State.withdraw_kernel, State.replaceChain_kernel] | rfl | (simp [State.kernel, Function.comp_def]; done) | (fail_if_no_progress (simp only [State.kernel]; simp only [State.kernel_mk])) | (simp_all; done)
theorem State.collDamage_kernel' {s : State} {x1 : CollUE} {x2 : Nat}  {p : Nat × Nat × Nat × Nat × State} (h : State.collDamage s x1 x2 = p) : p.2.2.2.2.kernel = s.kernel := by
  rw [← h]; exact State.collDamage_kernel s x1 x2 

@[simp] theorem State.collFault_kernel (s : State) (x1 : Bool) (x2 : CollUE)  : (State.collFault s x1 x2).kernel = s.kernel := by
  unfold State.collFault
  try dsimp only
  repeat' first | with_reducible rfl | (simp; done) | split | (have hp := State.collDamage_kernel' ‹_›; dsimp only at hp; first | exact hp | (rw [hp]; try clear hp)) | (have hp := State.draw_kernel' ‹_›; dsimp only at hp; first | exact hp | (rw [hp]; try clear hp)) | (refine (foldl_fst_kernel _ _ ?_ _).trans ?_) | (intro _) | simp only [State.countC_kernel, State.logInj_kernel, State.interrupt_kernel, State.collDamage_kernel, State.draw_kernel] | rfl | (simp [State.kernel, Function.comp_def]; done) | (fail_if_no_progress (simp only [State.kernel]; simp only [State.kernel_mk])) | (simp_all; done)

@[simp] theorem doBinRingReread_kernel (s : State) (x0 : Nat) (x1 : Nat) (x2 : Nat) (x3 : DWord)  : (doBinRingReread x0 x1 x2 x3 s).kernel = s.kernel := by
  unfold doBinRingReread
  try dsimp only
  repeat' first | with_reducible rfl | (simp; done) | split | (refine (foldl_fst_kernel _ _ ?_ _).trans ?_) | (intro _) | simp only [State.readTiles_kernel, State.modBin_kernel, State.writeTiles_kernel] | rfl | (simp [State.kernel, Function.comp_def]; done) | (fail_if_no_progress (simp only [State.kernel]; simp only [State.kernel_mk])) | (simp_all; done)

@[simp] theorem State.frameChain_kernel (s : State) (x1 : Nat) (x2 : Nat) (x3 : Rec64)  : (State.frameChain s x1 x2 x3).kernel = s.kernel := by
  unfold State.frameChain
  try dsimp only
  repeat' first | with_reducible rfl | (simp; done) | split | (refine (foldl_fst_kernel _ _ ?_ _).trans ?_) | (intro _) | simp only [State.endFrame_kernel, State.modDeliv_kernel] | rfl | (simp [State.kernel, Function.comp_def]; done) | (fail_if_no_progress (simp only [State.kernel]; simp only [State.kernel_mk])) | (simp_all; done)

@[simp] theorem State.binAdd_kernel (s : State) (x1 : Nat) (x2 : Nat) (x3 : Nat) (x4 : Rec64) (x5 : TileEntry)  : (State.binAdd s x1 x2 x3 x4 x5).kernel = s.kernel := by
  unfold State.binAdd
  try dsimp only
  repeat' first | with_reducible rfl | (simp; done) | split | (refine (foldl_fst_kernel _ _ ?_ _).trans ?_) | (intro _) | simp only [State.flushTile_kernel, State.modBin_kernel] | rfl | (simp [State.kernel, Function.comp_def]; done) | (fail_if_no_progress (simp only [State.kernel]; simp only [State.kernel_mk])) | (simp_all; done)

@[simp] theorem State.binChain_kernel (s : State) (x1 : Nat) (x2 : Nat) (x3 : Nat) (x4 : Rec64) (x5 : Word) (x6 : Bool) (x7 : Bool) (x8 : List Rec32)  : (State.binChain s x1 x2 x3 x4 x5 x6 x7 x8).kernel = s.kernel := by
  unfold State.binChain
  try dsimp only
  repeat' first | with_reducible rfl | (simp; done) | split | (have hp := State.binKeyOf_kernel' ‹_›; dsimp only at hp; first | exact hp | (rw [hp]; try clear hp)) | (refine (foldS_kernel _ _ _ ?_).trans ?_) | (refine (foldl_fst_kernel _ _ ?_ _).trans ?_) | (intro _) | simp only [State.binAdd_kernel, State.binKeyOf_kernel] | rfl | (simp [State.kernel, Function.comp_def]; done) | (fail_if_no_progress (simp only [State.kernel]; simp only [State.kernel_mk])) | (simp_all; done)

@[simp] theorem State.streamPut_kernel (s : State) (x1 : Nat) (x2 : Rec32) (x3 : Nat)  : (State.streamPut s x1 x2 x3).kernel = s.kernel := by
  unfold State.streamPut
  try dsimp only
  repeat' first | with_reducible rfl | (simp; done) | split | (have hp := State.addCompletion_kernel' ‹_›; dsimp only at hp; first | exact hp | (rw [hp]; try clear hp)) | (refine (foldl_fst_kernel _ _ ?_ _).trans ?_) | (intro _) | simp only [State.modStream_kernel, State.collPiece_kernel, State.addCompletion_kernel] | rfl | (simp [State.kernel, Function.comp_def]; done) | (fail_if_no_progress (simp only [State.kernel]; simp only [State.kernel_mk])) | (simp_all; done)

@[simp] theorem State.streamDrain_kernel (s : State) (x1 : Nat)  : (State.streamDrain s x1).kernel = s.kernel := by
  unfold State.streamDrain
  try dsimp only
  repeat' first | with_reducible rfl | (simp; done) | split | (refine (iter_kernel _ _ _ ?_).trans ?_) | (refine (foldl_fst_kernel _ _ ?_ _).trans ?_) | (intro _) | simp only [State.modStream_kernel, State.streamPut_kernel] | rfl | (simp [State.kernel, Function.comp_def]; done) | (fail_if_no_progress (simp only [State.kernel]; simp only [State.kernel_mk])) | (simp_all; done)

@[simp] theorem State.streamTake_kernel (s : State) (x1 : Nat) (x2 : Nat) (x3 : List Rec32)  : (State.streamTake s x1 x2 x3).kernel = s.kernel := by
  unfold State.streamTake
  try dsimp only
  repeat' first | with_reducible rfl | (simp; done) | split | (refine (foldl_fst_kernel _ _ ?_ _).trans ?_) | (intro _) | simp only [State.streamDrain_kernel, State.modStream_kernel] | rfl | (simp [State.kernel, Function.comp_def]; done) | (fail_if_no_progress (simp only [State.kernel]; simp only [State.kernel_mk])) | (simp_all; done)

@[simp] theorem State.streamChain_kernel (s : State) (x1 : Nat) (x2 : Nat) (x3 : Nat) (x4 : Rec64) (x5 : List Rec32)  : (State.streamChain s x1 x2 x3 x4 x5).kernel = s.kernel := by
  unfold State.streamChain
  try dsimp only
  repeat' first | with_reducible rfl | (simp; done) | split | (have hp := State.addCompletion_kernel' ‹_›; dsimp only at hp; first | exact hp | (rw [hp]; try clear hp)) | (refine (foldl_fst_kernel _ _ ?_ _).trans ?_) | (intro _) | simp only [State.carries_kernel, State.streamTake_kernel, State.countC_kernel, State.counterAdd_kernel, State.addCompletion_kernel] | rfl | (simp [State.kernel, Function.comp_def]; done) | (fail_if_no_progress (simp only [State.kernel]; simp only [State.kernel_mk])) | (simp_all; done)

@[simp] theorem State.slotChain_kernel (s : State) (x1 : Nat) (x2 : Nat) (x3 : Nat) (x4 : Rec64) (x5 : Word) (x6 : List Rec32)  : (State.slotChain s x1 x2 x3 x4 x5 x6).kernel = s.kernel := by
  unfold State.slotChain
  try dsimp only
  repeat' first | with_reducible rfl | (simp; done) | split | (refine (foldl_fst_kernel _ _ ?_ _).trans ?_) | (intro _) | simp only [State.collWrite_kernel, State.countC_kernel] | rfl | (simp [State.kernel, Function.comp_def]; done) | (fail_if_no_progress (simp only [State.kernel]; simp only [State.kernel_mk])) | (simp_all; done)

@[simp] theorem State.takeChain_kernel (s : State) (x1 : Nat) (x2 : Nat) (x3 : Nat) (x4 : Nat) (x5 : Rec64) (x6 : List Rec32) (x7 : Bool) (x8 : Word) (x9 : Word) (x10 : Bool) (x11 : Bool)  : (State.takeChain s x1 x2 x3 x4 x5 x6 x7 x8 x9 x10 x11).kernel = s.kernel := by
  unfold State.takeChain
  try dsimp only
  repeat' first | with_reducible rfl | (simp; done) | split | (refine (foldl_fst_kernel _ _ ?_ _).trans ?_) | (intro _) | simp only [State.frameChain_kernel, State.binChain_kernel, State.streamChain_kernel, State.slotChain_kernel, State.excChain_kernel] | rfl | (simp [State.kernel, Function.comp_def]; done) | (fail_if_no_progress (simp only [State.kernel]; simp only [State.kernel_mk])) | (simp_all; done)

@[simp] theorem State.popHead_kernel (s : State) (x1 : Nat) (x2 : Nat)  : (State.popHead s x1 x2).kernel = s.kernel := by
  unfold State.popHead
  try dsimp only
  repeat' first | with_reducible rfl | (simp; done) | split | (refine (foldl_fst_kernel _ _ ?_ _).trans ?_) | (intro _) | rfl | (simp [State.kernel, Function.comp_def]; done) | (fail_if_no_progress (simp only [State.kernel]; simp only [State.kernel_mk])) | (simp_all; done)

@[simp] theorem State.excDrop_kernel (s : State) (x1 : Nat) (x2 : Nat)  : (State.excDrop s x1 x2).kernel = s.kernel := by
  unfold State.excDrop
  try dsimp only
  repeat' first | with_reducible rfl | (simp; done) | split | (refine (foldl_fst_kernel _ _ ?_ _).trans ?_) | (intro _) | simp only [State.modDeliv_kernel, State.interrupt_kernel, State.countC_kernel, State.log_kernel] | rfl | (simp [State.kernel, Function.comp_def]; done) | (fail_if_no_progress (simp only [State.kernel]; simp only [State.kernel_mk])) | (simp_all; done)

@[simp] theorem State.freeChain_kernel (s : State) (x1 : Option Nat)  : (State.freeChain s x1).kernel = s.kernel := by
  unfold State.freeChain
  try dsimp only
  repeat' first | with_reducible rfl | (simp; done) | split | (refine (foldl_fst_kernel _ _ ?_ _).trans ?_) | (intro _) | simp only [State.releaseSlot_kernel] | rfl | (simp [State.kernel, Function.comp_def]; done) | (fail_if_no_progress (simp only [State.kernel]; simp only [State.kernel_mk])) | (simp_all; done)

@[simp] theorem State.invalidItem_kernel (s : State) (x1 : Nat) (x2 : Nat) (x3 : Nat)  : (State.invalidItem s x1 x2 x3).kernel = s.kernel := by
  unfold State.invalidItem
  try dsimp only
  repeat' first | with_reducible rfl | (simp; done) | split | (refine (foldl_fst_kernel _ _ ?_ _).trans ?_) | (intro _) | simp only [State.modDeliv_kernel, State.report_kernel, State.countC_kernel] | rfl | (simp [State.kernel, Function.comp_def]; done) | (fail_if_no_progress (simp only [State.kernel]; simp only [State.kernel_mk])) | (simp_all; done)

@[simp] theorem State.dropItem_kernel (s : State) (x1 : CItem)  : (State.dropItem s x1).kernel = s.kernel := by
  unfold State.dropItem
  try dsimp only
  repeat' first | with_reducible rfl | (simp; done) | split | (refine (foldl_fst_kernel _ _ ?_ _).trans ?_) | (intro _) | simp only [State.invalidItem_kernel, State.freeChain_kernel] | rfl | (simp [State.kernel, Function.comp_def]; done) | (fail_if_no_progress (simp only [State.kernel]; simp only [State.kernel_mk])) | (simp_all; done)

@[simp] theorem doExcConsumedRead_kernel (s : State) (x0 : Nat) (x1 : Nat) (x2 : DWord)  : (doExcConsumedRead x0 x1 x2 s).kernel = s.kernel := by
  unfold doExcConsumedRead
  try dsimp only
  repeat' first | with_reducible rfl | (simp; done) | split | (refine (foldl_fst_kernel _ _ ?_ _).trans ?_) | (intro _) | simp only [State.excDrop_kernel, State.excDrain_kernel, State.modDeliv_kernel] | rfl | (simp [State.kernel, Function.comp_def]; done) | (fail_if_no_progress (simp only [State.kernel]; simp only [State.kernel_mk])) | (simp_all; done)

@[simp] theorem State.collRead_kernel (s : State) (x1 : Option EccError) (x2 : Option CollUE)  : (State.collRead s x1 x2).kernel = s.kernel := by
  unfold State.collRead
  try dsimp only
  repeat' first | with_reducible rfl | (simp; done) | split | (have hp := State.spineRead_kernel' ‹_›; dsimp only at hp; first | exact hp | (rw [hp]; try clear hp)) | (have hp := State.draw_kernel' ‹_›; dsimp only at hp; first | exact hp | (rw [hp]; try clear hp)) | (refine (foldl_fst_kernel _ _ ?_ _).trans ?_) | (intro _) | simp only [State.collFault_kernel, State.spineRead_kernel, State.draw_kernel] | rfl | (simp [State.kernel, Function.comp_def]; done) | (fail_if_no_progress (simp only [State.kernel]; simp only [State.kernel_mk])) | (simp_all; done)

@[simp] theorem doAccumWindowClose_kernel (s : State) (x0 : Nat) (x1 : Nat) (x2 : Option EccError)  : (doAccumWindowClose x0 x1 x2 s).kernel = s.kernel := by
  unfold doAccumWindowClose
  try dsimp only
  repeat' first | with_reducible rfl | (simp; done) | split | (refine (foldl_fst_kernel _ _ ?_ _).trans ?_) | (intro _) | simp only [State.collRead_kernel, State.closeWindow_kernel] | rfl | (simp [State.kernel, Function.comp_def]; done) | (fail_if_no_progress (simp only [State.kernel]; simp only [State.kernel_mk])) | (simp_all; done)

@[simp] theorem doWriteAcknowledged_kernel (s : State) (x0 : Nat)  : (doWriteAcknowledged x0 s).kernel = s.kernel := by
  unfold doWriteAcknowledged
  try dsimp only
  repeat' first | with_reducible rfl | (simp; done) | split | (refine (foldl_fst_kernel _ _ ?_ _).trans ?_) | (intro _) | simp only [State.ghostDone_kernel, State.ackWrite_kernel] | rfl | (simp [State.kernel, Function.comp_def]; done) | (fail_if_no_progress (simp only [State.kernel]; simp only [State.kernel_mk])) | (simp_all; done)

@[simp] theorem State.closeFlush_kernel (s : State) (x1 : Nat)  : (State.closeFlush s x1).kernel = s.kernel := by
  unfold State.closeFlush
  try dsimp only
  repeat' first | with_reducible rfl | (simp; done) | split | (refine (foldS_kernel _ _ _ ?_).trans ?_) | (refine (foldl_fst_kernel _ _ ?_ _).trans ?_) | (intro _) | simp only [State.endFrame_kernel, State.flushTiles_kernel] | rfl | (simp [State.kernel, Function.comp_def]; done) | (fail_if_no_progress (simp only [State.kernel]; simp only [State.kernel_mk])) | (simp_all; done)

@[simp] theorem State.gridUpdate_kernel (s : State) (x1 : Nat) (x2 : Nat) (x3 : Rec64) (x4 : Nat × DWord)  : (State.gridUpdate s x1 x2 x3 x4).kernel = s.kernel := by
  unfold State.gridUpdate
  try dsimp only
  repeat' first | with_reducible rfl | (simp; done) | split | (refine (foldl_fst_kernel _ _ ?_ _).trans ?_) | (intro _) | simp only [State.modDeliv_kernel, State.countC_kernel] | rfl | (simp [State.kernel, Function.comp_def]; done) | (fail_if_no_progress (simp only [State.kernel]; simp only [State.kernel_mk])) | (simp_all; done)

@[simp] theorem State.accUpdate_kernel (s : State) (x1 : Nat) (x2 : Nat) (x3 : Nat) (x4 : Rec64) (x5 : Word) (x6 : Nat × DWord)  : (State.accUpdate s x1 x2 x3 x4 x5 x6).kernel = s.kernel := by
  unfold State.accUpdate
  try dsimp only
  repeat' first | with_reducible rfl | (simp; done) | split | (refine (foldl_fst_kernel _ _ ?_ _).trans ?_) | (intro _) | simp only [State.closeWindow_kernel, State.modDeliv_kernel, State.accSend_kernel, State.countC_kernel, State.count_kernel] | rfl | (simp [State.kernel, Function.comp_def]; done) | (fail_if_no_progress (simp only [State.kernel]; simp only [State.kernel_mk])) | (simp_all; done)

@[simp] theorem State.emissionKey_kernel (s : State) (x1 : Rec64) (x2 : Word)  : (State.emissionKey s x1 x2).2.kernel = s.kernel := by
  unfold State.emissionKey
  try dsimp only
  repeat' first | with_reducible rfl | (simp; done) | split | (have hp := State.draw_kernel' ‹_›; dsimp only at hp; first | exact hp | (rw [hp]; try clear hp)) | (refine (foldl_fst_kernel _ _ ?_ _).trans ?_) | (intro _) | simp only [State.draw_kernel] | rfl | (simp [State.kernel, Function.comp_def]; done) | (fail_if_no_progress (simp only [State.kernel]; simp only [State.kernel_mk])) | (simp_all; done)
theorem State.emissionKey_kernel' {s : State} {x1 : Rec64} {x2 : Word}  {p : Nat × State} (h : State.emissionKey s x1 x2 = p) : p.2.kernel = s.kernel := by
  rw [← h]; exact State.emissionKey_kernel s x1 x2 

@[simp] theorem State.takeEmits_kernel (s : State) (x1 : Nat) (x2 : Nat) (x3 : Nat) (x4 : Rec64) (x5 : List (Word × Word × Word × Rec32))  : (State.takeEmits s x1 x2 x3 x4 x5).kernel = s.kernel := by
  unfold State.takeEmits
  try dsimp only
  repeat' first | with_reducible rfl | (simp; done) | split | (have hp := State.binKeyOf_kernel' ‹_›; dsimp only at hp; first | exact hp | (rw [hp]; try clear hp)) | (have hp := State.emissionKey_kernel' ‹_›; dsimp only at hp; first | exact hp | (rw [hp]; try clear hp)) | (have hp := State.addCompletion_kernel' ‹_›; dsimp only at hp; first | exact hp | (rw [hp]; try clear hp)) | (refine (foldS_kernel _ _ _ ?_).trans ?_) | (refine (foldl_fst_kernel _ _ ?_ _).trans ?_) | (intro _) | simp only [State.gridUpdate_kernel, State.accUpdate_kernel, State.binAdd_kernel, State.streamTake_kernel, State.countC_kernel, State.binKeyOf_kernel, State.emissionKey_kernel, State.addCompletion_kernel] | rfl | (simp [State.kernel, Function.comp_def]; done) | (fail_if_no_progress (simp only [State.kernel]; simp only [State.kernel_mk])) | (simp_all; done)

@[simp] theorem State.take_kernel (s : State) (x1 : Rec64) (x2 : CItem)  : (State.take s x1 x2).kernel = s.kernel := by
  unfold State.take
  try dsimp only
  repeat' first | with_reducible rfl | (simp; done) | split | (refine (foldl_fst_kernel _ _ ?_ _).trans ?_) | (intro _) | simp only [State.takeEmits_kernel, State.takeChain_kernel, State.freeChain_kernel] | rfl | (simp [State.kernel, Function.comp_def]; done) | (fail_if_no_progress (simp only [State.kernel]; simp only [State.kernel_mk])) | (simp_all; done)

@[simp] theorem State.accept_kernel (s : State) (x1 : CItem)  : (State.accept s x1).1.kernel = s.kernel := by
  unfold State.accept
  try dsimp only
  repeat' first | with_reducible rfl | (simp; done) | split | (have hp := State.binTakes_kernel' ‹_›; dsimp only at hp; first | exact hp | (rw [hp]; try clear hp)) | (refine (foldl_fst_kernel _ _ ?_ _).trans ?_) | (intro _) | simp only [State.take_kernel, State.writeSpine_kernel, State.dropItem_kernel, State.modDeliv_kernel, State.readFor_kernel, State.binTakes_kernel] | rfl | (simp [State.kernel, Function.comp_def]; done) | (fail_if_no_progress (simp only [State.kernel]; simp only [State.kernel_mk])) | (simp_all; done)
theorem State.accept_kernel' {s : State} {x1 : CItem}  {p : State × Bool} (h : State.accept s x1 = p) : p.1.kernel = s.kernel := by
  rw [← h]; exact State.accept_kernel s x1 

@[simp] theorem doDeliveryEntryFetch_kernel (s : State) (x0 : Nat) (x1 : Nat) (x2 : Option Nat) (x3 : Rec64)  : (doDeliveryEntryFetch x0 x1 x2 x3 s).kernel = s.kernel := by
  unfold doDeliveryEntryFetch
  try dsimp only
  repeat' first | with_reducible rfl | (simp; done) | split | (refine (foldl_fst_kernel _ _ ?_ _).trans ?_) | (intro _) | simp only [State.modBin_kernel, State.writeTiles_kernel, State.report_kernel, State.modDeliv_kernel] | rfl | (simp [State.kernel, Function.comp_def]; done) | (fail_if_no_progress (simp only [State.kernel]; simp only [State.kernel_mk])) | (simp_all; done)

@[simp] theorem State.taken'_kernel (s : State) (x1 : CItem)  : (State.taken' s x1).kernel = s.kernel := by
  unfold State.taken'
  try dsimp only
  repeat' first | with_reducible rfl | (simp; done) | split | (refine (foldl_fst_kernel _ _ ?_ _).trans ?_) | (intro _) | simp only [State.cutFlush_kernel] | rfl | (simp [State.kernel, Function.comp_def]; done) | (fail_if_no_progress (simp only [State.kernel]; simp only [State.kernel_mk])) | (simp_all; done)

@[simp] theorem doBinAgeFlush_kernel (s : State) (x0 : Nat) (x1 : Nat) (x2 : Nat) (x3 : Option EccError)  : (doBinAgeFlush x0 x1 x2 x3 s).kernel = s.kernel := by
  unfold doBinAgeFlush
  try dsimp only
  repeat' first | with_reducible rfl | (simp; done) | split | (refine (foldl_fst_kernel _ _ ?_ _).trans ?_) | (intro _) | simp only [State.collRead_kernel, State.flushTile_kernel] | rfl | (simp [State.kernel, Function.comp_def]; done) | (fail_if_no_progress (simp only [State.kernel]; simp only [State.kernel_mk])) | (simp_all; done)

@[simp] theorem State.takeFirst_kernel (s : State) (l : List (Nat × Nat × CItem)) : (s.takeFirst l).kernel = s.kernel := by
  induction l generalizing s with
  | nil => rfl
  | cons a t ih =>
    obtain ⟨k, j, i⟩ := a
    unfold State.takeFirst
    split
    · rename_i h; have hp := State.accept_kernel' h; simpa using hp
    · rename_i h; have hp := State.accept_kernel' h; rw [ih]; exact hp

@[simp] theorem doCollectorTakeHead_kernel (s : State) (x0 : Option EccError)  : (doCollectorTakeHead x0 s).kernel = s.kernel := by
  unfold doCollectorTakeHead
  try dsimp only
  repeat' first | with_reducible rfl | (simp; done) | split | (refine (foldl_fst_kernel _ _ ?_ _).trans ?_) | (intro _) | simp only [State.takeFirst_kernel, State.collRead_kernel] | rfl | (simp [State.kernel, Function.comp_def]; done) | (fail_if_no_progress (simp only [State.kernel]; simp only [State.kernel_mk])) | (simp_all; done)

end Sys2Proof.Machine
end

