-- ==== Sys2Proof/Laws/KernelContexts.lean ====
section
/-! SUPPORT. Laws/KernelContexts.lean: the operations of Machine/Contexts.lean leave the kernel as it is. -/
namespace Sys2Proof.Machine

@[simp] theorem State.nackKilled_kernel (s : State) (x1 : Nat) (x2 : Origin)  : (State.nackKilled s x1 x2).kernel = s.kernel := by
  unfold State.nackKilled
  try dsimp only
  repeat' first | with_reducible rfl | (simp; done) | split | (refine (foldl_fst_kernel _ _ ?_ _).trans ?_) | (intro _) | simp only [State.sendPacket_kernel] | rfl | (simp [State.kernel, Function.comp_def]; done) | (fail_if_no_progress (simp only [State.kernel]; simp only [State.kernel_mk])) | (simp_all; done)

@[simp] theorem State.killQueries_kernel (s : State) (x1 : Nat)  : (State.killQueries s x1).kernel = s.kernel := by
  unfold State.killQueries
  try dsimp only
  repeat' first | with_reducible rfl | (simp; done) | split | (refine (foldS_kernel _ _ _ ?_).trans ?_) | (refine (foldl_fst_kernel _ _ ?_ _).trans ?_) | (intro _) | simp only [State.settleWatch_kernel, State.countC_kernel, State.modCtx_kernel, State.leaveCohort_kernel, State.releaseSlot_kernel, State.nackKilled_kernel] | rfl | (simp [State.kernel, Function.comp_def]; done) | (fail_if_no_progress (simp only [State.kernel]; simp only [State.kernel_mk])) | (simp_all; done)

@[simp] theorem State.killTransfers_kernel (s : State) (x1 : Nat)  : (State.killTransfers s x1).kernel = s.kernel := by
  unfold State.killTransfers
  try dsimp only
  repeat' first | with_reducible rfl | (simp; done) | split | (refine (foldl_fst_kernel _ _ ?_ _).trans ?_) | (intro _) | simp only [State.cancelXfers_kernel, State.dropFills_kernel] | rfl | (simp [State.kernel, Function.comp_def]; done) | (fail_if_no_progress (simp only [State.kernel]; simp only [State.kernel_mk])) | (simp_all; done)

@[simp] theorem State.dropStaged_kernel (s : State) (x1 : Nat)  : (State.dropStaged s x1).kernel = s.kernel := by
  unfold State.dropStaged
  try dsimp only
  repeat' first | with_reducible rfl | (simp; done) | split | (refine (foldl_fst_kernel _ _ ?_ _).trans ?_) | (intro _) | rfl | (simp [State.kernel, Function.comp_def]; done) | (fail_if_no_progress (simp only [State.kernel]; simp only [State.kernel_mk])) | (simp_all; done)

@[simp] theorem State.orphanTiles_kernel (s : State) (x1 : Nat)  : (State.orphanTiles s x1).kernel = s.kernel := by
  unfold State.orphanTiles
  try dsimp only
  repeat' first | with_reducible rfl | (simp; done) | split | (refine (foldl_fst_kernel _ _ ?_ _).trans ?_) | (intro _) | rfl | (simp [State.kernel, Function.comp_def]; done) | (fail_if_no_progress (simp only [State.kernel]; simp only [State.kernel_mk])) | (simp_all; done)

@[simp] theorem State.dropTileHandles_kernel (s : State) (x1 : Nat)  : (State.dropTileHandles s x1).kernel = s.kernel := by
  unfold State.dropTileHandles
  try dsimp only
  repeat' first | with_reducible rfl | (simp; done) | split | (refine (foldl_fst_kernel _ _ ?_ _).trans ?_) | (intro _) | rfl | (simp [State.kernel, Function.comp_def]; done) | (fail_if_no_progress (simp only [State.kernel]; simp only [State.kernel_mk])) | (simp_all; done)

@[simp] theorem State.idleStream_kernel (s : State) (x1 : Nat)  : (State.idleStream s x1).kernel = s.kernel := by
  unfold State.idleStream
  try dsimp only
  repeat' first | with_reducible rfl | (simp; done) | split | (refine (foldl_fst_kernel _ _ ?_ _).trans ?_) | (intro _) | simp only [State.wake_kernel, State.dropStaged_kernel, State.orphanTiles_kernel, State.dropTileHandles_kernel] | rfl | (simp [State.kernel, Function.comp_def]; done) | (fail_if_no_progress (simp only [State.kernel]; simp only [State.kernel_mk])) | (simp_all; done)

@[simp] theorem State.settleStream_kernel (s : State) (x1 : Nat)  : (State.settleStream s x1).kernel = s.kernel := by
  unfold State.settleStream
  try dsimp only
  repeat' first | with_reducible rfl | (simp; done) | split | (refine (foldl_fst_kernel _ _ ?_ _).trans ?_) | (intro _) | simp only [State.modStream_kernel, State.dropSpace_kernel, State.idleStream_kernel] | rfl | (simp [State.kernel, Function.comp_def]; done) | (fail_if_no_progress (simp only [State.kernel]; simp only [State.kernel_mk])) | (simp_all; done)

@[simp] theorem State.cancelStream_kernel (s : State) (x1 : Nat)  : (State.cancelStream s x1).kernel = s.kernel := by
  unfold State.cancelStream
  try dsimp only
  repeat' first | with_reducible rfl | (simp; done) | split | (refine (foldl_fst_kernel _ _ ?_ _).trans ?_) | (intro _) | simp only [State.settleStream_kernel, State.modStream_kernel, State.dropStaged_kernel, State.cancelXfers_kernel] | rfl | (simp [State.kernel, Function.comp_def]; done) | (fail_if_no_progress (simp only [State.kernel]; simp only [State.kernel_mk])) | (simp_all; done)

@[simp] theorem State.freeScans_kernel (s : State) (x1 : Nat)  : (State.freeScans s x1).kernel = s.kernel := by
  unfold State.freeScans
  try dsimp only
  repeat' first | with_reducible rfl | (simp; done) | split | (refine (foldl_fst_kernel _ _ ?_ _).trans ?_) | (intro _) | simp only [State.cancelXfers_kernel] | rfl | (simp [State.kernel, Function.comp_def]; done) | (fail_if_no_progress (simp only [State.kernel]; simp only [State.kernel_mk])) | (simp_all; done)

@[simp] theorem State.discardDelivery_kernel (s : State) (x1 : Nat)  : (State.discardDelivery s x1).kernel = s.kernel := by
  unfold State.discardDelivery
  try dsimp only
  repeat' first | with_reducible rfl | (simp; done) | split | (refine (foldl_fst_kernel _ _ ?_ _).trans ?_) | (intro _) | simp only [State.modCtx_kernel] | rfl | (simp [State.kernel, Function.comp_def]; done) | (fail_if_no_progress (simp only [State.kernel]; simp only [State.kernel_mk])) | (simp_all; done)

@[simp] theorem State.endTxns_kernel (s : State) (x1 : Nat) (x2 : Nat)  : (State.endTxns s x1 x2).kernel = s.kernel := by
  unfold State.endTxns
  try dsimp only
  repeat' first | with_reducible rfl | (simp; done) | split | (refine (foldS_kernel _ _ _ ?_).trans ?_) | (refine (foldl_fst_kernel _ _ ?_ _).trans ?_) | (intro _) | simp only [State.cancelXfers_kernel, State.abortTxn_kernel] | rfl | (simp [State.kernel, Function.comp_def]; done) | (fail_if_no_progress (simp only [State.kernel]; simp only [State.kernel_mk])) | (simp_all; done)

@[simp] theorem State.discardLines_kernel (s : State) (x1 : Nat)  : (State.discardLines s x1).kernel = s.kernel := by
  unfold State.discardLines
  try dsimp only
  repeat' first | with_reducible rfl | (simp; done) | split | (refine (foldS_kernel _ _ _ ?_).trans ?_) | (refine (foldl_fst_kernel _ _ ?_ _).trans ?_) | (intro _) | simp only [State.departLine_kernel, State.cancelXfers_kernel, State.countC_kernel] | rfl | (simp [State.kernel, Function.comp_def]; done) | (fail_if_no_progress (simp only [State.kernel]; simp only [State.kernel_mk])) | (simp_all; done)

@[simp] theorem State.leaveGhosts_kernel (s : State) (x1 : Nat)  : (State.leaveGhosts s x1).kernel = s.kernel := by
  unfold State.leaveGhosts
  try dsimp only
  repeat' first | with_reducible rfl | (simp; done) | split | (refine (foldl_fst_kernel _ _ ?_ _).trans ?_) | (intro _) | rfl | (simp [State.kernel, Function.comp_def]; done) | (fail_if_no_progress (simp only [State.kernel]; simp only [State.kernel_mk])) | (simp_all; done)

@[simp] theorem State.kill_kernel (s : State) (x1 : Nat) (x2 : Nat) (x3 : Nat) (x4 : Nat) (x5 : DWord)  : (State.kill s x1 x2 x3 x4 x5).kernel = s.kernel := by
  unfold State.kill
  try dsimp only
  repeat' first | with_reducible rfl | (simp; done) | split | (refine (foldS_kernel _ _ _ ?_).trans ?_) | (refine (foldl_fst_kernel _ _ ?_ _).trans ?_) | (intro _) | simp only [State.killQueries_kernel, State.killTransfers_kernel, State.settleMsgs_kernel, State.modStream_kernel, State.cancelStream_kernel, State.freeScans_kernel, State.discardDelivery_kernel, State.clearUrgent_kernel, State.endTxns_kernel, State.discardLines_kernel, State.modCtx_kernel, State.report_kernel, State.count_kernel, State.leaveGhosts_kernel] | rfl | (simp [State.kernel, Function.comp_def]; done) | (fail_if_no_progress (simp only [State.kernel]; simp only [State.kernel_mk])) | (simp_all; done)

@[simp] theorem State.illegal_kernel (s : State) (x1 : Nat) (x2 : Nat) (x3 : Nat)  : (State.illegal s x1 x2 x3).kernel = s.kernel := by
  unfold State.illegal
  try dsimp only
  repeat' first | with_reducible rfl | (simp; done) | split | (refine (foldl_fst_kernel _ _ ?_ _).trans ?_) | (intro _) | simp only [State.kill_kernel] | rfl | (simp [State.kernel, Function.comp_def]; done) | (fail_if_no_progress (simp only [State.kernel]; simp only [State.kernel_mk])) | (simp_all; done)

@[simp] theorem State.dropBlocksOf_kernel (s : State) (x1 : Nat)  : (State.dropBlocksOf s x1).kernel = s.kernel := by
  unfold State.dropBlocksOf
  try dsimp only
  repeat' first | with_reducible rfl | (simp; done) | split | (refine (foldl_fst_kernel _ _ ?_ _).trans ?_) | (intro _) | rfl | (simp [State.kernel, Function.comp_def]; done) | (fail_if_no_progress (simp only [State.kernel]; simp only [State.kernel_mk])) | (simp_all; done)

@[simp] theorem State.removeLane_kernel (s : State) (x1 : Nat) (x2 : Nat)  : (State.removeLane s x1 x2).kernel = s.kernel := by
  unfold State.removeLane
  try dsimp only
  repeat' first | with_reducible rfl | (simp; done) | split | (refine (foldl_fst_kernel _ _ ?_ _).trans ?_) | (intro _) | simp only [State.dropPackets_kernel] | rfl | (simp [State.kernel, Function.comp_def]; done) | (fail_if_no_progress (simp only [State.kernel]; simp only [State.kernel_mk])) | (simp_all; done)

@[simp] theorem State.lateLane_kernel (s : State) (x1 : Nat) (x2 : Lane)  : (State.lateLane s x1 x2).kernel = s.kernel := by
  unfold State.lateLane
  try dsimp only
  repeat' first | with_reducible rfl | (simp; done) | split | (refine (foldl_fst_kernel _ _ ?_ _).trans ?_) | (intro _) | simp only [State.removeLane_kernel, State.finishOk_kernel] | rfl | (simp [State.kernel, Function.comp_def]; done) | (fail_if_no_progress (simp only [State.kernel]; simp only [State.kernel_mk])) | (simp_all; done)

@[simp] theorem doCtxKill_kernel (s : State) (x0 : Nat)  : (doCtxKill x0 s).kernel = s.kernel := by
  unfold doCtxKill
  try dsimp only
  repeat' first | with_reducible rfl | (simp; done) | split | (refine (foldl_fst_kernel _ _ ?_ _).trans ?_) | (intro _) | simp only [State.kill_kernel, State.modCtx_kernel] | rfl | (simp [State.kernel, Function.comp_def]; done) | (fail_if_no_progress (simp only [State.kernel]; simp only [State.kernel_mk])) | (simp_all; done)

@[simp] theorem State.endTimed_kernel (s : State) (x1 : Nat) (x2 : DWord)  : (State.endTimed s x1 x2).kernel = s.kernel := by
  unfold State.endTimed
  try dsimp only
  repeat' first | with_reducible rfl | (simp; done) | split | (refine (foldl_fst_kernel _ _ ?_ _).trans ?_) | (intro _) | simp only [State.wake_kernel] | rfl | (simp [State.kernel, Function.comp_def]; done) | (fail_if_no_progress (simp only [State.kernel]; simp only [State.kernel_mk])) | (simp_all; done)

@[simp] theorem State.startCut_kernel (s : State) (x1 : Nat)  : (State.startCut s x1).kernel = s.kernel := by
  unfold State.startCut
  try dsimp only
  repeat' first | with_reducible rfl | (simp; done) | split | (have hp := State.takeId_kernel' ‹_›; dsimp only at hp; first | exact hp | (rw [hp]; try clear hp)) | (refine (foldl_fst_kernel _ _ ?_ _).trans ?_) | (intro _) | simp only [State.modCtx_kernel, State.takeId_kernel] | rfl | (simp [State.kernel, Function.comp_def]; done) | (fail_if_no_progress (simp only [State.kernel]; simp only [State.kernel_mk])) | (simp_all; done)

@[simp] theorem State.cutSheaf_kernel (s : State) (x1 : Nat)  : (State.cutSheaf s x1).kernel = s.kernel := by
  unfold State.cutSheaf
  try dsimp only
  repeat' first | with_reducible rfl | (simp; done) | split | (refine (foldS_kernel _ _ _ ?_).trans ?_) | (refine (foldl_fst_kernel _ _ ?_ _).trans ?_) | (intro _) | simp only [State.lateLane_kernel] | rfl | (simp [State.kernel, Function.comp_def]; done) | (fail_if_no_progress (simp only [State.kernel]; simp only [State.kernel_mk])) | (simp_all; done)

@[simp] theorem State.cutSheaves_kernel (s : State) (x1 : Nat)  : (State.cutSheaves s x1).kernel = s.kernel := by
  unfold State.cutSheaves
  try dsimp only
  repeat' first | with_reducible rfl | (simp; done) | split | (refine (foldS_kernel _ _ _ ?_).trans ?_) | (refine (foldl_fst_kernel _ _ ?_ _).trans ?_) | (intro _) | simp only [State.cutSheaf_kernel] | rfl | (simp [State.kernel, Function.comp_def]; done) | (fail_if_no_progress (simp only [State.kernel]; simp only [State.kernel_mk])) | (simp_all; done)

@[simp] theorem State.cutQuery_kernel (s : State) (x1 : Nat × Query)  : (State.cutQuery s x1).kernel = s.kernel := by
  unfold State.cutQuery
  try dsimp only
  repeat' first | with_reducible rfl | (simp; done) | split | (refine (foldl_fst_kernel _ _ ?_ _).trans ?_) | (intro _) | simp only [State.settleWatch_kernel, State.leaveCohort_kernel, State.finishOk_kernel] | rfl | (simp [State.kernel, Function.comp_def]; done) | (fail_if_no_progress (simp only [State.kernel]; simp only [State.kernel_mk])) | (simp_all; done)

@[simp] theorem State.cutPool_kernel (s : State) (x1 : Nat)  : (State.cutPool s x1).kernel = s.kernel := by
  unfold State.cutPool
  try dsimp only
  repeat' first | with_reducible rfl | (simp; done) | split | (refine (foldS_kernel _ _ _ ?_).trans ?_) | (refine (foldl_fst_kernel _ _ ?_ _).trans ?_) | (intro _) | simp only [State.cutQuery_kernel] | rfl | (simp [State.kernel, Function.comp_def]; done) | (fail_if_no_progress (simp only [State.kernel]; simp only [State.kernel_mk])) | (simp_all; done)

@[simp] theorem State.readCutRuns_kernel (s : State) (x1 : Nat)  : (State.readCutRuns s x1).kernel = s.kernel := by
  unfold State.readCutRuns
  try dsimp only
  repeat' first | with_reducible rfl | (simp; done) | split | (refine (foldS_kernel _ _ _ ?_).trans ?_) | (refine (foldl_fst_kernel _ _ ?_ _).trans ?_) | (intro _) | simp only [State.requestOnce_kernel] | rfl | (simp [State.kernel, Function.comp_def]; done) | (fail_if_no_progress (simp only [State.kernel]; simp only [State.kernel_mk])) | (simp_all; done)

@[simp] theorem State.settleCut_kernel (s : State) (x1 : Nat)  : (State.settleCut s x1).kernel = s.kernel := by
  unfold State.settleCut
  try dsimp only
  repeat' first | with_reducible rfl | (simp; done) | split | (refine (foldl_fst_kernel _ _ ?_ _).trans ?_) | (intro _) | simp only [State.modCtx_kernel, State.cutFlush_kernel] | rfl | (simp [State.kernel, Function.comp_def]; done) | (fail_if_no_progress (simp only [State.kernel]; simp only [State.kernel_mk])) | (simp_all; done)

@[simp] theorem State.cutContext_kernel (s : State) (x1 : Nat)  : (State.cutContext s x1).kernel = s.kernel := by
  unfold State.cutContext
  try dsimp only
  repeat' first | with_reducible rfl | (simp; done) | split | (refine (foldl_fst_kernel _ _ ?_ _).trans ?_) | (intro _) | simp only [State.startCut_kernel, State.closeFresh_kernel, State.cutSheaves_kernel, State.cutPool_kernel, State.readCutRuns_kernel, State.settleCut_kernel] | rfl | (simp [State.kernel, Function.comp_def]; done) | (fail_if_no_progress (simp only [State.kernel]; simp only [State.kernel_mk])) | (simp_all; done)

@[simp] theorem State.countdownZero_kernel (s : State) (x1 : Nat)  : (State.countdownZero s x1).kernel = s.kernel := by
  unfold State.countdownZero
  try dsimp only
  repeat' first | with_reducible rfl | (simp; done) | split | (refine (foldl_fst_kernel _ _ ?_ _).trans ?_) | (intro _) | simp only [State.endTimed_kernel, State.modCtx_kernel, State.clearUrgent_kernel, State.cutContext_kernel] | rfl | (simp [State.kernel, Function.comp_def]; done) | (fail_if_no_progress (simp only [State.kernel]; simp only [State.kernel_mk])) | (simp_all; done)

@[simp] theorem doCountdownZero_kernel (s : State) (x0 : Nat)  : (doCountdownZero x0 s).kernel = s.kernel := by
  unfold doCountdownZero
  try dsimp only
  repeat' first | with_reducible rfl | (simp; done) | split | (refine (foldl_fst_kernel _ _ ?_ _).trans ?_) | (intro _) | simp only [State.countdownZero_kernel] | rfl | (simp [State.kernel, Function.comp_def]; done) | (fail_if_no_progress (simp only [State.kernel]; simp only [State.kernel_mk])) | (simp_all; done)

@[simp] theorem doCtxCdSet_kernel (s : State) (x0 : Nat) (x1 : Word)  : (doCtxCdSet x0 x1 s).kernel = s.kernel := by
  unfold doCtxCdSet
  try dsimp only
  repeat' first | with_reducible rfl | (simp; done) | split | (refine (foldl_fst_kernel _ _ ?_ _).trans ?_) | (intro _) | simp only [State.endTimed_kernel, State.modCtx_kernel, State.clearUrgent_kernel, doCountdownZero_kernel] | rfl | (simp [State.kernel, Function.comp_def]; done) | (fail_if_no_progress (simp only [State.kernel]; simp only [State.kernel_mk])) | (simp_all; done)

@[simp] theorem State.close_kernel (s : State) (x1 : Nat)  : (State.close s x1).kernel = s.kernel := by
  unfold State.close
  try dsimp only
  repeat' first | with_reducible rfl | (simp; done) | split | (refine (foldS_kernel _ _ _ ?_).trans ?_) | (refine (foldl_fst_kernel _ _ ?_ _).trans ?_) | (intro _) | simp only [State.cancelStream_kernel, State.modStream_kernel, State.settleStream_kernel, State.idleStream_kernel, State.clearUrgent_kernel, State.endTxns_kernel, State.freeScans_kernel, State.modCtx_kernel] | rfl | (simp [State.kernel, Function.comp_def]; done) | (fail_if_no_progress (simp only [State.kernel]; simp only [State.kernel_mk])) | (simp_all; done)

@[simp] theorem doCtxClose_kernel (s : State) (x0 : Nat)  : (doCtxClose x0 s).kernel = s.kernel := by
  unfold doCtxClose
  try dsimp only
  repeat' first | with_reducible rfl | (simp; done) | split | (refine (foldl_fst_kernel _ _ ?_ _).trans ?_) | (intro _) | simp only [State.close_kernel, State.modCtx_kernel] | rfl | (simp [State.kernel, Function.comp_def]; done) | (fail_if_no_progress (simp only [State.kernel]; simp only [State.kernel_mk])) | (simp_all; done)

@[simp] theorem doCtxOpen_kernel (s : State) (x0 : Nat)  : (doCtxOpen x0 s).kernel = s.kernel := by
  unfold doCtxOpen
  try dsimp only
  repeat' first | with_reducible rfl | (simp; done) | split | (refine (foldl_fst_kernel _ _ ?_ _).trans ?_) | (intro _) | simp only [State.readAs_kernel, State.modCtx_kernel] | rfl | (simp [State.kernel, Function.comp_def]; done) | (fail_if_no_progress (simp only [State.kernel]; simp only [State.kernel_mk])) | (simp_all; done)

@[simp] theorem State.readImage_kernel (s : State) (x1 : Nat) (x2 : Nat) (x3 : DWord) (x4 : Bool)  : (State.readImage s x1 x2 x3 x4).kernel = s.kernel := by
  unfold State.readImage
  try dsimp only
  repeat' first | with_reducible rfl | (simp; done) | split | (refine (foldl_fst_kernel _ _ ?_ _).trans ?_) | (intro _) | simp only [State.readAs_kernel] | rfl | (simp [State.kernel, Function.comp_def]; done) | (fail_if_no_progress (simp only [State.kernel]; simp only [State.kernel_mk])) | (simp_all; done)

@[simp] theorem State.readSeqImage_kernel (s : State) (x1 : Nat) (x2 : OpenRead)  : (State.readSeqImage s x1 x2).kernel = s.kernel := by
  unfold State.readSeqImage
  try dsimp only
  repeat' first | with_reducible rfl | (simp; done) | split | (refine (foldl_fst_kernel _ _ ?_ _).trans ?_) | (intro _) | simp only [State.readImage_kernel] | rfl | (simp [State.kernel, Function.comp_def]; done) | (fail_if_no_progress (simp only [State.kernel]; simp only [State.kernel_mk])) | (simp_all; done)

@[simp] theorem State.readEntryImage_kernel (s : State) (x1 : Nat) (x2 : Nat) (x3 : Rec32) (x4 : Option ImageRead)  : (State.readEntryImage s x1 x2 x3 x4).kernel = s.kernel := by
  unfold State.readEntryImage
  try dsimp only
  repeat' first | with_reducible rfl | (simp; done) | split | (refine (foldl_fst_kernel _ _ ?_ _).trans ?_) | (intro _) | simp only [State.readImage_kernel] | rfl | (simp [State.kernel, Function.comp_def]; done) | (fail_if_no_progress (simp only [State.kernel]; simp only [State.kernel_mk])) | (simp_all; done)

@[simp] theorem State.dropRun_kernel (s : State) (x1 : Nat) (x2 : Nat)  : (State.dropRun s x1 x2).kernel = s.kernel := by
  unfold State.dropRun
  try dsimp only
  repeat' first | with_reducible rfl | (simp; done) | split | (refine (foldl_fst_kernel _ _ ?_ _).trans ?_) | (intro _) | simp only [State.modOvf_kernel] | rfl | (simp [State.kernel, Function.comp_def]; done) | (fail_if_no_progress (simp only [State.kernel]; simp only [State.kernel_mk])) | (simp_all; done)

@[simp] theorem State.loseRun_kernel (s : State) (x1 : Nat) (x2 : Nat) (x3 : Nat)  : (State.loseRun s x1 x2 x3).kernel = s.kernel := by
  unfold State.loseRun
  try dsimp only
  repeat' first | with_reducible rfl | (simp; done) | split | (refine (foldl_fst_kernel _ _ ?_ _).trans ?_) | (intro _) | simp only [State.countC_kernel, State.report_kernel, State.dropRun_kernel] | rfl | (simp [State.kernel, Function.comp_def]; done) | (fail_if_no_progress (simp only [State.kernel]; simp only [State.kernel_mk])) | (simp_all; done)

@[simp] theorem State.readRun_kernel (s : State) (x1 : Nat) (x2 : Run) (x3 : RunRead)  : (State.readRun s x1 x2 x3).kernel = s.kernel := by
  unfold State.readRun
  try dsimp only
  repeat' first | with_reducible rfl | (simp; done) | split | (refine (foldl_fst_kernel _ _ ?_ _).trans ?_) | (intro _) | simp only [State.again_kernel, State.finishXfer_kernel, State.linesBack_kernel] | rfl | (simp [State.kernel, Function.comp_def]; done) | (fail_if_no_progress (simp only [State.kernel]; simp only [State.kernel_mk])) | (simp_all; done)

@[simp] theorem State.leaveCommands_kernel (s : State) (x1 : Nat)  : (State.leaveCommands s x1).kernel = s.kernel := by
  unfold State.leaveCommands
  try dsimp only
  repeat' first | with_reducible rfl | (simp; done) | split | (refine (foldl_fst_kernel _ _ ?_ _).trans ?_) | (intro _) | rfl | (simp [State.kernel, Function.comp_def]; done) | (fail_if_no_progress (simp only [State.kernel]; simp only [State.kernel_mk])) | (simp_all; done)

@[simp] theorem doWalkEntryRead_kernel (s : State) (x0 : Nat) (x1 : Nat) (x2 : Rec32) (x3 : Option ImageRead)  : (doWalkEntryRead x0 x1 x2 x3 s).kernel = s.kernel := by
  unfold doWalkEntryRead
  try dsimp only
  repeat' first | with_reducible rfl | (simp; done) | split | (refine (foldl_fst_kernel _ _ ?_ _).trans ?_) | (intro _) | simp only [State.wake_kernel, State.modCtx_kernel, State.kill_kernel, State.readEntryImage_kernel] | rfl | (simp [State.kernel, Function.comp_def]; done) | (fail_if_no_progress (simp only [State.kernel]; simp only [State.kernel_mk])) | (simp_all; done)

@[simp] theorem State.lateRec_kernel (s : State) (x1 : Nat) (x2 : OvfRec)  : (State.lateRec s x1 x2).kernel = s.kernel := by
  unfold State.lateRec
  try dsimp only
  repeat' first | with_reducible rfl | (simp; done) | split | (refine (foldl_fst_kernel _ _ ?_ _).trans ?_) | (intro _) | simp only [State.sendResult_kernel] | rfl | (simp [State.kernel, Function.comp_def]; done) | (fail_if_no_progress (simp only [State.kernel]; simp only [State.kernel_mk])) | (simp_all; done)

@[simp] theorem doCutRunRead_kernel (s : State) (x0 : Nat) (x1 : Nat) (x2 : RunRead) (x3 : RunRead)  : (doCutRunRead x0 x1 x2 x3 s).kernel = s.kernel := by
  unfold doCutRunRead
  try dsimp only
  repeat' first | with_reducible rfl | (simp; done) | split | (refine (foldS_kernel _ _ _ ?_).trans ?_) | (refine (foldl_fst_kernel _ _ ?_ _).trans ?_) | (intro _) | simp only [State.lateRec_kernel, State.countC_kernel, State.dropRun_kernel, State.writeTracked_kernel, State.loseRun_kernel, State.settleCut_kernel, State.readRun_kernel] | rfl | (simp [State.kernel, Function.comp_def]; done) | (fail_if_no_progress (simp only [State.kernel]; simp only [State.kernel_mk])) | (simp_all; done)

@[simp] theorem State.forgetContext_kernel (s : State) (x1 : Nat)  : (State.forgetContext s x1).kernel = s.kernel := by
  unfold State.forgetContext
  try dsimp only
  repeat' first | with_reducible rfl | (simp; done) | split | (refine (foldS_kernel _ _ _ ?_).trans ?_) | (refine (foldl_fst_kernel _ _ ?_ _).trans ?_) | (intro _) | simp only [State.dropBlocksOf_kernel, State.leaveSlot_kernel, State.dropFills_kernel] | rfl | (simp [State.kernel, Function.comp_def]; done) | (fail_if_no_progress (simp only [State.kernel]; simp only [State.kernel_mk])) | (simp_all; done)

@[simp] theorem doAsidKill_kernel (s : State) (x0 : Nat)  : (doAsidKill x0 s).kernel = s.kernel := by
  unfold doAsidKill
  try dsimp only
  repeat' first | with_reducible rfl | (simp; done) | split | (refine (foldS_kernel _ _ _ ?_).trans ?_) | (refine (foldl_fst_kernel _ _ ?_ _).trans ?_) | (intro _) | simp only [State.kill_kernel] | rfl | (simp [State.kernel, Function.comp_def]; done) | (fail_if_no_progress (simp only [State.kernel]; simp only [State.kernel_mk])) | (simp_all; done)

@[simp] theorem State.readShard_kernel (s : State) (x1 : Nat) (x2 : Nat) (x3 : Rec64) (x4 : Option ShardRead)  : (State.readShard s x1 x2 x3 x4).kernel = s.kernel := by
  unfold State.readShard
  try dsimp only
  repeat' first | with_reducible rfl | (simp; done) | split | (refine (foldl_fst_kernel _ _ ?_ _).trans ?_) | (intro _) | simp only [State.readAs_kernel] | rfl | (simp [State.kernel, Function.comp_def]; done) | (fail_if_no_progress (simp only [State.kernel]; simp only [State.kernel_mk])) | (simp_all; done)

@[simp] theorem doSceneDescriptorRead_kernel (s : State) (x0 : Nat) (x1 : Nat) (x2 : Rec64) (x3 : Option ShardRead)  : (doSceneDescriptorRead x0 x1 x2 x3 s).kernel = s.kernel := by
  unfold doSceneDescriptorRead
  try dsimp only
  repeat' first | with_reducible rfl | (simp; done) | split | (refine (foldl_fst_kernel _ _ ?_ _).trans ?_) | (intro _) | simp only [State.modCtx_kernel, State.readShard_kernel] | rfl | (simp [State.kernel, Function.comp_def]; done) | (fail_if_no_progress (simp only [State.kernel]; simp only [State.kernel_mk])) | (simp_all; done)

@[simp] theorem doOpenComplete_kernel (s : State) (x0 : Nat) (x1 : OpenRead)  : (doOpenComplete x0 x1 s).kernel = s.kernel := by
  unfold doOpenComplete
  try dsimp only
  repeat' first | with_reducible rfl | (simp; done) | split | (refine (foldl_fst_kernel _ _ ?_ _).trans ?_) | (intro _) | simp only [State.close_kernel, State.kill_kernel, State.modCtx_kernel, State.readSeqImage_kernel] | rfl | (simp [State.kernel, Function.comp_def]; done) | (fail_if_no_progress (simp only [State.kernel]; simp only [State.kernel_mk])) | (simp_all; done)

@[simp] theorem State.setClosed_kernel (s : State) (x1 : Nat) (x2 : Nat)  : (State.setClosed s x1 x2).kernel = s.kernel := by
  unfold State.setClosed
  try dsimp only
  repeat' first | with_reducible rfl | (simp; done) | split | (refine (foldl_fst_kernel _ _ ?_ _).trans ?_) | (intro _) | simp only [State.leaveCommands_kernel, State.forgetContext_kernel, State.modCtx_kernel] | rfl | (simp [State.kernel, Function.comp_def]; done) | (fail_if_no_progress (simp only [State.kernel]; simp only [State.kernel_mk])) | (simp_all; done)

@[simp] theorem doKillingDone_kernel (s : State) (x0 : Nat)  : (doKillingDone x0 s).kernel = s.kernel := by
  unfold doKillingDone
  try dsimp only
  repeat' first | with_reducible rfl | (simp; done) | split | (refine (foldl_fst_kernel _ _ ?_ _).trans ?_) | (intro _) | simp only [State.setClosed_kernel] | rfl | (simp [State.kernel, Function.comp_def]; done) | (fail_if_no_progress (simp only [State.kernel]; simp only [State.kernel_mk])) | (simp_all; done)

@[simp] theorem State.settleInvalidates_kernel (s : State)   : (State.settleInvalidates s).kernel = s.kernel := by
  unfold State.settleInvalidates
  try dsimp only
  repeat' first | with_reducible rfl | (simp; done) | split | (refine (foldS_kernel _ _ _ ?_).trans ?_) | (refine (foldl_fst_kernel _ _ ?_ _).trans ?_) | (intro _) | simp only [State.emit_kernel] | rfl | (simp [State.kernel, Function.comp_def]; done) | (fail_if_no_progress (simp only [State.kernel]; simp only [State.kernel_mk])) | (simp_all; done)

@[simp] theorem doTranslationInvalidate_kernel (s : State) (x0 : Nat) (x1 : DWord)  : (doTranslationInvalidate x0 x1 s).kernel = s.kernel := by
  unfold doTranslationInvalidate
  try dsimp only
  repeat' first | with_reducible rfl | (simp; done) | split | (refine (foldl_fst_kernel _ _ ?_ _).trans ?_) | (intro _) | simp only [State.emit_kernel] | rfl | (simp [State.kernel, Function.comp_def]; done) | (fail_if_no_progress (simp only [State.kernel]; simp only [State.kernel_mk])) | (simp_all; done)

@[simp] theorem doTranslationFault_kernel (s : State) (x0 : Nat) (x1 : DWord)  : (doTranslationFault x0 x1 s).kernel = s.kernel := by
  unfold doTranslationFault
  try dsimp only
  repeat' first | with_reducible rfl | (simp; done) | split | (refine (foldl_fst_kernel _ _ ?_ _).trans ?_) | (intro _) | simp only [State.kill_kernel, State.modCtx_kernel] | rfl | (simp [State.kernel, Function.comp_def]; done) | (fail_if_no_progress (simp only [State.kernel]; simp only [State.kernel_mk])) | (simp_all; done)

end Sys2Proof.Machine
end

