-- ==== Sys2Proof/Laws/KernelAdmission.lean ====
section
/-! SUPPORT. Laws/KernelAdmission.lean: the operations of Machine/Admission.lean leave the kernel as it is. -/
namespace Sys2Proof.Machine

@[simp] theorem State.endDeliveries_kernel (s : State) (x1 : Nat)  : (State.endDeliveries s x1).kernel = s.kernel := by
  unfold State.endDeliveries
  try dsimp only
  repeat' first | with_reducible rfl | (simp; done) | split | (refine (foldS_kernel _ _ _ ?_).trans ?_) | (refine (foldl_fst_kernel _ _ ?_ _).trans ?_) | (intro _) | simp only [State.cancelXfers_kernel, State.idleStream_kernel] | rfl | (simp [State.kernel, Function.comp_def]; done) | (fail_if_no_progress (simp only [State.kernel]; simp only [State.kernel_mk])) | (simp_all; done)

@[simp] theorem State.askScene_kernel (s : State) (x1 : Nat) (x2 : Nat)  : (State.askScene s x1 x2).kernel = s.kernel := by
  unfold State.askScene
  try dsimp only
  repeat' first | with_reducible rfl | (simp; done) | split | (refine (foldl_fst_kernel _ _ ?_ _).trans ?_) | (intro _) | simp only [State.modCtx_kernel, State.readFor_kernel] | rfl | (simp [State.kernel, Function.comp_def]; done) | (fail_if_no_progress (simp only [State.kernel]; simp only [State.kernel_mk])) | (simp_all; done)

@[simp] theorem State.writeDirect_kernel (s : State) (x1 : Nat) (x2 : Nat) (x3 : OvfRec)  : (State.writeDirect s x1 x2 x3).kernel = s.kernel := by
  unfold State.writeDirect
  try dsimp only
  repeat' first | with_reducible rfl | (simp; done) | split | (have hp := State.takeId_kernel' ‹_›; dsimp only at hp; first | exact hp | (rw [hp]; try clear hp)) | (refine (foldl_fst_kernel _ _ ?_ _).trans ?_) | (intro _) | simp only [State.writeFresh_kernel, State.takeId_kernel] | rfl | (simp [State.kernel, Function.comp_def]; done) | (fail_if_no_progress (simp only [State.kernel]; simp only [State.kernel_mk])) | (simp_all; done)

@[simp] theorem State.countDefault_kernel (s : State) (x1 : Nat) (x2 : Bool)  : (State.countDefault s x1 x2).kernel = s.kernel := by
  unfold State.countDefault
  try dsimp only
  repeat' first | with_reducible rfl | (simp; done) | split | (refine (foldl_fst_kernel _ _ ?_ _).trans ?_) | (intro _) | simp only [State.countC_kernel] | rfl | (simp [State.kernel, Function.comp_def]; done) | (fail_if_no_progress (simp only [State.kernel]; simp only [State.kernel_mk])) | (simp_all; done)

@[simp] theorem State.occupy_kernel (s : State) (x1 : Nat) (x2 : Query) (x3 : FMap Unit256)  : (State.occupy s x1 x2 x3).kernel = s.kernel := by
  unfold State.occupy
  try dsimp only
  repeat' first | with_reducible rfl | (simp; done) | split | (refine (foldl_fst_kernel _ _ ?_ _).trans ?_) | (intro _) | simp only [State.writeSpine_kernel, State.squallCheck_kernel] | rfl | (simp [State.kernel, Function.comp_def]; done) | (fail_if_no_progress (simp only [State.kernel]; simp only [State.kernel_mk])) | (simp_all; done)

theorem State.takeSlot_kernel {s t : State} {x1 : Nat} {x2 : Nat} {x3 : Rec64} {x4 : Bool} {x5 : List Unit256} {x6 : Option Nat} {x7 : Source}  (h : State.takeSlot s x1 x2 x3 x4 x5 x6 x7 = some t) : t.kernel = s.kernel := by
  unfold State.takeSlot at h
  try dsimp only at h
  repeat' first | (simp only [Option.some.injEq, reduceCtorEq] at h) | split at h
  all_goals first | (cases h; done) | ((try subst h); repeat' first | with_reducible rfl | (simp; done) | split | (have hp := State.takeId_kernel' ‹_›; dsimp only at hp; first | exact hp | (rw [hp]; try clear hp)) | (refine (foldl_fst_kernel _ _ ?_ _).trans ?_) | (intro _) | simp only [State.countDefault_kernel, State.occupy_kernel, State.parkOrForward_kernel, State.takeId_kernel] | rfl | (simp [State.kernel, Function.comp_def]; done) | (fail_if_no_progress (simp only [State.kernel]; simp only [State.kernel_mk])) | (simp_all; done))
theorem State.takeSlot_kernel_getD {s d : State} {x1 : Nat} {x2 : Nat} {x3 : Rec64} {x4 : Bool} {x5 : List Unit256} {x6 : Option Nat} {x7 : Source}  (hd : d.kernel = s.kernel) : ((State.takeSlot s x1 x2 x3 x4 x5 x6 x7).getD d).kernel = s.kernel := by
  cases h : State.takeSlot s x1 x2 x3 x4 x5 x6 x7 with
  | none => exact hd
  | some t => exact State.takeSlot_kernel h

theorem State.enterPool_kernel {s t : State} {c cls : Nat} {r : Rec64} {sp : Bool} {data : List Unit256} {src : Source}
    (h : s.enterPool c cls r sp data src = some t) : t.kernel = s.kernel := by
  unfold State.enterPool at h
  split at h
  · exact State.takeSlot_kernel h
  · cases h

theorem State.admitPassed_kernel {s t : State} {x1 : Nat} {x2 : Nat} {x3 : Rec64} {x4 : Bool} {x5 : List Unit256} {x6 : Source}  (h : State.admitPassed s x1 x2 x3 x4 x5 x6 = some t) : t.kernel = s.kernel := by
  unfold State.admitPassed at h
  try dsimp only at h
  repeat' first | (simp only [Option.some.injEq, reduceCtorEq] at h) | split at h
  all_goals first | (cases h; done) | ((try subst h); repeat' first | with_reducible rfl | (simp; done) | split | rw [State.enterPool_kernel ‹_›] | (refine (foldl_fst_kernel _ _ ?_ _).trans ?_) | (intro _) | (first | exact State.enterPool_kernel h | exact (State.enterPool_kernel h).trans (by simp)) | (first | (refine (State.enterPool_kernel_getD ?_).trans ?_)) | simp only [State.writeDirect_kernel, State.count_kernel] | rfl | (simp [State.kernel, Function.comp_def]; done) | (fail_if_no_progress (simp only [State.kernel]; simp only [State.kernel_mk])) | (simp_all; done))
theorem State.admitPassed_kernel_getD {s d : State} {x1 : Nat} {x2 : Nat} {x3 : Rec64} {x4 : Bool} {x5 : List Unit256} {x6 : Source}  (hd : d.kernel = s.kernel) : ((State.admitPassed s x1 x2 x3 x4 x5 x6).getD d).kernel = s.kernel := by
  cases h : State.admitPassed s x1 x2 x3 x4 x5 x6 with
  | none => exact hd
  | some t => exact State.admitPassed_kernel h

@[simp] theorem State.spawnTaken_kernel (s : State) (x1 : Nat) (x2 : List SpawnRec)  : (State.spawnTaken s x1 x2).kernel = s.kernel := by
  unfold State.spawnTaken
  try dsimp only
  repeat' first | with_reducible rfl | (simp; done) | split | (refine (foldl_fst_kernel _ _ ?_ _).trans ?_) | (intro _) | rfl | (simp [State.kernel, Function.comp_def]; done) | (fail_if_no_progress (simp only [State.kernel]; simp only [State.kernel_mk])) | (simp_all; done)

@[simp] theorem State.toFrontEnd_kernel (s : State) (x1 : CItem)  : (State.toFrontEnd s x1).kernel = s.kernel := by
  unfold State.toFrontEnd
  try dsimp only
  repeat' first | with_reducible rfl | (simp; done) | split | (refine (foldl_fst_kernel _ _ ?_ _).trans ?_) | (intro _) | simp only [State.writeSpine_kernel] | rfl | (simp [State.kernel, Function.comp_def]; done) | (fail_if_no_progress (simp only [State.kernel]; simp only [State.kernel_mk])) | (simp_all; done)

@[simp] theorem State.askWalk_kernel (s : State) (x1 : Nat) (x2 : Nat)  : (State.askWalk s x1 x2).kernel = s.kernel := by
  unfold State.askWalk
  try dsimp only
  repeat' first | with_reducible rfl | (simp; done) | split | (refine (foldl_fst_kernel _ _ ?_ _).trans ?_) | (intro _) | simp only [State.modCtx_kernel, State.readFor_kernel] | rfl | (simp [State.kernel, Function.comp_def]; done) | (fail_if_no_progress (simp only [State.kernel]; simp only [State.kernel_mk])) | (simp_all; done)

theorem State.admitSpawned_kernel {s t : State} {core : Nat} (h : s.admitSpawned core = some t) : t.kernel = s.kernel := by
  unfold State.admitSpawned at h
  split at h
  · cases h
  · dsimp only at h
    repeat' split at h
    all_goals first
      | (cases h; done)
      | (cases h; simp; done)
      | (obtain ⟨u, hu, h⟩ := Option.map_eq_some_iff.mp h; cases h; rw [State.spawnTaken_kernel, State.admitPassed_kernel hu])

@[simp] theorem doSpawnAdmit_kernel (s : State) : (doSpawnAdmit s).kernel = s.kernel := by
  unfold doSpawnAdmit
  split
  · rfl
  cases h : s.spawnOrder.findSome? s.admitSpawned with
  | none => rfl
  | some t =>
    obtain ⟨a, -, h⟩ := List.exists_of_findSome?_eq_some h
    exact State.admitSpawned_kernel h

@[simp] theorem State.receive_kernel (s : State) (x1 : Nat) (x2 : Nat) (x3 : Nat)  : (State.receive s x1 x2 x3).kernel = s.kernel := by
  unfold State.receive
  try dsimp only
  repeat' first | with_reducible rfl | (simp; done) | split | (refine (foldl_fst_kernel _ _ ?_ _).trans ?_) | (intro _) | simp only [State.modCtx_kernel] | rfl | (simp [State.kernel, Function.comp_def]; done) | (fail_if_no_progress (simp only [State.kernel]; simp only [State.kernel_mk])) | (simp_all; done)

@[simp] theorem State.modWin_kernel (s : State) (x1 : Nat) (x2 : Nat) (x3 : Window → Window)  : (State.modWin s x1 x2 x3).kernel = s.kernel := by
  unfold State.modWin
  try dsimp only
  repeat' first | with_reducible rfl | (simp; done) | split | (refine (foldl_fst_kernel _ _ ?_ _).trans ?_) | (intro _) | simp only [State.modCtx_kernel] | rfl | (simp [State.kernel, Function.comp_def]; done) | (fail_if_no_progress (simp only [State.kernel]; simp only [State.kernel_mk])) | (simp_all; done)

@[simp] theorem State.parsed_kernel (s : State) (x1 : Nat) (x2 : Nat) (x3 : Nat)  : (State.parsed s x1 x2 x3).kernel = s.kernel := by
  unfold State.parsed
  try dsimp only
  repeat' first | with_reducible rfl | (simp; done) | split | (refine (foldl_fst_kernel _ _ ?_ _).trans ?_) | (intro _) | simp only [State.writeTracked_kernel, State.modWin_kernel] | rfl | (simp [State.kernel, Function.comp_def]; done) | (fail_if_no_progress (simp only [State.kernel]; simp only [State.kernel_mk])) | (simp_all; done)

@[simp] theorem State.noteAdmission_kernel (s : State) (x1 : Bool)  : (State.noteAdmission s x1).kernel = s.kernel := by
  unfold State.noteAdmission
  try dsimp only
  repeat' first | with_reducible rfl | (simp; done) | split | (refine (foldl_fst_kernel _ _ ?_ _).trans ?_) | (intro _) | rfl | (simp [State.kernel, Function.comp_def]; done) | (fail_if_no_progress (simp only [State.kernel]; simp only [State.kernel_mk])) | (simp_all; done)

@[simp] theorem doAdmitRecord_kernel (s : State) (x0 : Nat) (x1 : Nat)  : (doAdmitRecord x0 x1 s).kernel = s.kernel := by
  unfold doAdmitRecord
  try dsimp only
  repeat' first | with_reducible rfl | (simp; done) | split | rw [State.admitPassed_kernel ‹_›] | (refine (foldl_fst_kernel _ _ ?_ _).trans ?_) | (intro _) | (first | exact State.admitPassed_kernel h | exact (State.admitPassed_kernel h).trans (by simp)) | (first | (refine (State.admitPassed_kernel_getD ?_).trans ?_)) | simp only [State.parsed_kernel, State.toFrontEnd_kernel, State.noteAdmission_kernel, State.askWalk_kernel, State.askScene_kernel] | rfl | (simp [State.kernel, Function.comp_def]; done) | (fail_if_no_progress (simp only [State.kernel]; simp only [State.kernel_mk])) | (simp_all; done)

@[simp] theorem State.noteIngest_kernel (s : State) (x1 : DWord) (x2 : List Byte)  : (State.noteIngest s x1 x2).kernel = s.kernel := by
  unfold State.noteIngest
  try dsimp only
  repeat' first | with_reducible rfl | (simp; done) | split | (refine (foldl_fst_kernel _ _ ?_ _).trans ?_) | (intro _) | rfl | (simp [State.kernel, Function.comp_def]; done) | (fail_if_no_progress (simp only [State.kernel]; simp only [State.kernel_mk])) | (simp_all; done)

@[simp] theorem State.windowWrite_kernel (s : State) (x1 : Nat) (x2 : Nat) (x3 : Nat) (x4 : DWord) (x5 : List Byte)  : (State.windowWrite s x1 x2 x3 x4 x5).kernel = s.kernel := by
  unfold State.windowWrite
  try dsimp only
  repeat' first | with_reducible rfl | (simp; done) | split | (refine (foldl_fst_kernel _ _ ?_ _).trans ?_) | (intro _) | simp only [State.receive_kernel, State.writeFor_kernel, State.modWin_kernel, State.emit_kernel, State.noteIngest_kernel, State.countC_kernel] | rfl | (simp [State.kernel, Function.comp_def]; done) | (fail_if_no_progress (simp only [State.kernel]; simp only [State.kernel_mk])) | (simp_all; done)

@[simp] theorem doClosingDone_kernel (s : State) (x0 : Nat)  : (doClosingDone x0 s).kernel = s.kernel := by
  unfold doClosingDone
  try dsimp only
  repeat' first | with_reducible rfl | (simp; done) | split | (refine (foldl_fst_kernel _ _ ?_ _).trans ?_) | (intro _) | simp only [State.setClosed_kernel, State.endDeliveries_kernel, State.closeFlush_kernel] | rfl | (simp [State.kernel, Function.comp_def]; done) | (fail_if_no_progress (simp only [State.kernel]; simp only [State.kernel_mk])) | (simp_all; done)

@[simp] theorem doCommandBytesPerformed_kernel (s : State) (x0 : Nat) (x1 : Nat)  : (doCommandBytesPerformed x0 x1 s).kernel = s.kernel := by
  unfold doCommandBytesPerformed
  try dsimp only
  repeat' first | with_reducible rfl | (simp; done) | split | (refine (foldl_fst_kernel _ _ ?_ _).trans ?_) | (intro _) | simp only [State.modWin_kernel, State.receive_kernel, State.ghostDone_kernel] | rfl | (simp [State.kernel, Function.comp_def]; done) | (fail_if_no_progress (simp only [State.kernel]; simp only [State.kernel_mk])) | (simp_all; done)

@[simp] theorem doIngestWrite_kernel (s : State) (x0 : DWord) (x1 : List Byte)  : (doIngestWrite x0 x1 s).kernel = s.kernel := by
  unfold doIngestWrite
  try dsimp only
  repeat' first | with_reducible rfl | (simp; done) | split | (refine (foldS_kernel _ _ _ ?_).trans ?_) | (refine (foldl_fst_kernel _ _ ?_ _).trans ?_) | (intro _) | simp only [State.windowWrite_kernel, State.emit_kernel] | rfl | (simp [State.kernel, Function.comp_def]; done) | (fail_if_no_progress (simp only [State.kernel]; simp only [State.kernel_mk])) | (simp_all; done)

end Sys2Proof.Machine
end

