-- ==== Sys2Proof/Laws/KernelScheduler.lean ====
section
/-! SUPPORT. Laws/KernelScheduler.lean: the operations of Machine/Scheduler.lean leave the kernel as it is. -/
namespace Sys2Proof.Machine

@[simp] theorem State.failQuery_kernel (s : State) (x1 : Nat) (x2 : Nat) (x3 : Source)  : (State.failQuery s x1 x2 x3).kernel = s.kernel := by
  unfold State.failQuery
  try dsimp only
  repeat' first | with_reducible rfl | (simp; done) | split | (refine (foldl_fst_kernel _ _ ?_ _).trans ?_) | (intro _) | simp only [State.modOvf_kernel, State.settleWatch_kernel, State.removeLane_kernel, State.leaveCohort_kernel, State.finishErr_kernel] | rfl | (simp [State.kernel, Function.comp_def]; done) | (fail_if_no_progress (simp only [State.kernel]; simp only [State.kernel_mk])) | (simp_all; done)

theorem State.reloadRec_kernel {s t : State} {c : Nat} {run : Run} {r : OvfRec} (h : s.reloadRec c run r = some t) : t.kernel = s.kernel := by
  unfold State.reloadRec at h
  repeat' split at h
  · rename_i hx
    have := State.takeId_kernel' hx
    cases h; simpa using this
  · cases h
  · exact State.takeSlot_kernel h
  · cases h; simp
  · cases h; simp
  · exact State.takeSlot_kernel h

theorem State.reloadAll_kernel {s t : State} {c : Nat} {run : Run} {l : List OvfRec} (h : State.reloadAll c run l s = some t) : t.kernel = s.kernel := by
  induction l generalizing s with
  | nil => cases h; rfl
  | cons r u ih =>
    unfold State.reloadAll at h
    split at h
    · rename_i x hx; rw [ih h, State.reloadRec_kernel hx]
    · cases h

@[simp] theorem State.exposeHead_kernel (s : State) (x1 : Nat)  : (State.exposeHead s x1).kernel = s.kernel := by
  unfold State.exposeHead
  try dsimp only
  repeat' first | with_reducible rfl | (simp; done) | split | (refine (foldl_fst_kernel _ _ ?_ _).trans ?_) | (intro _) | simp only [State.closeFresh_kernel] | rfl | (simp [State.kernel, Function.comp_def]; done) | (fail_if_no_progress (simp only [State.kernel]; simp only [State.kernel_mk])) | (simp_all; done)

@[simp] theorem doReloadRun_kernel (s : State) (x0 : RunRead) (x1 : RunRead)  : (doReloadRun x0 x1 s).kernel = s.kernel := by
  unfold doReloadRun
  try dsimp only
  repeat' first | with_reducible rfl | (simp; done) | split | rw [State.reloadAll_kernel ‹_›] | (refine (foldl_fst_kernel _ _ ?_ _).trans ?_) | (intro _) | (first | exact State.reloadAll_kernel h | exact (State.reloadAll_kernel h).trans (by simp)) | (first | (refine (State.reloadAll_kernel_getD ?_).trans ?_)) | simp only [State.count_kernel, State.dropRun_kernel, State.askWalk_kernel, State.askScene_kernel, State.loseRun_kernel, State.readRun_kernel, State.exposeHead_kernel, State.requestOnce_kernel] | rfl | (simp [State.kernel, Function.comp_def]; done) | (fail_if_no_progress (simp only [State.kernel]; simp only [State.kernel_mk])) | (simp_all; done)

@[simp] theorem doSpillCohort_kernel (s : State)   : (doSpillCohort s).kernel = s.kernel := by
  unfold doSpillCohort
  try dsimp only
  repeat' first | with_reducible rfl | (simp; done) | split | (refine (foldl_fst_kernel _ _ ?_ _).trans ?_) | (intro _) | simp only [State.spillMembers_kernel] | rfl | (simp [State.kernel, Function.comp_def]; done) | (fail_if_no_progress (simp only [State.kernel]; simp only [State.kernel_mk])) | (simp_all; done)

@[simp] theorem State.repin_kernel (s : State)   : (State.repin s).kernel = s.kernel := by
  unfold State.repin
  try dsimp only
  repeat' first | with_reducible rfl | (simp; done) | split | (refine (foldl_fst_kernel _ _ ?_ _).trans ?_) | (intro _) | rfl | (simp [State.kernel, Function.comp_def]; done) | (fail_if_no_progress (simp only [State.kernel]; simp only [State.kernel_mk])) | (simp_all; done)

@[simp] theorem State.adaptT_kernel (s : State)   : (State.adaptT s).kernel = s.kernel := by
  unfold State.adaptT
  try dsimp only
  repeat' first | with_reducible rfl | (simp; done) | split | (refine (foldl_fst_kernel _ _ ?_ _).trans ?_) | (intro _) | simp only [State.count_kernel] | rfl | (simp [State.kernel, Function.comp_def]; done) | (fail_if_no_progress (simp only [State.kernel]; simp only [State.kernel_mk])) | (simp_all; done)

@[simp] theorem State.suspendDrizzle_kernel (s : State)   : (State.suspendDrizzle s).kernel = s.kernel := by
  unfold State.suspendDrizzle
  try dsimp only
  repeat' first | with_reducible rfl | (simp; done) | split | (refine (foldl_fst_kernel _ _ ?_ _).trans ?_) | (intro _) | simp only [State.count_kernel] | rfl | (simp [State.kernel, Function.comp_def]; done) | (fail_if_no_progress (simp only [State.kernel]; simp only [State.kernel_mk])) | (simp_all; done)

@[simp] theorem State.halveUse_kernel (s : State)   : (State.halveUse s).kernel = s.kernel := by
  unfold State.halveUse
  try dsimp only
  repeat' first | with_reducible rfl | (simp; done) | split | (refine (foldl_fst_kernel _ _ ?_ _).trans ?_) | (intro _) | rfl | (simp [State.kernel, Function.comp_def]; done) | (fail_if_no_progress (simp only [State.kernel]; simp only [State.kernel_mk])) | (simp_all; done)

@[simp] theorem doSpillAcknowledged_kernel (s : State) (x0 : Nat) (x1 : Nat)  : (doSpillAcknowledged x0 x1 s).kernel = s.kernel := by
  unfold doSpillAcknowledged
  try dsimp only
  repeat' first | with_reducible rfl | (simp; done) | split | (refine (foldS_kernel _ _ _ ?_).trans ?_) | (refine (foldl_fst_kernel _ _ ?_ _).trans ?_) | (intro _) | simp only [State.requestOnce_kernel, State.finishXfer_kernel, State.releaseSlot_kernel, State.linesBack_kernel, State.modOvf_kernel] | rfl | (simp [State.kernel, Function.comp_def]; done) | (fail_if_no_progress (simp only [State.kernel]; simp only [State.kernel_mk])) | (simp_all; done)

@[simp] theorem doFreshRunClose_kernel (s : State) (x0 : Nat) (x1 : Nat)  : (doFreshRunClose x0 x1 s).kernel = s.kernel := by
  unfold doFreshRunClose
  try dsimp only
  repeat' first | with_reducible rfl | (simp; done) | split | (refine (foldl_fst_kernel _ _ ?_ _).trans ?_) | (intro _) | simp only [State.closeFresh_kernel] | rfl | (simp [State.kernel, Function.comp_def]; done) | (fail_if_no_progress (simp only [State.kernel]; simp only [State.kernel_mk])) | (simp_all; done)

@[simp] theorem State.readSlot_kernel (s : State) (x1 : Nat) (x2 : Option EccError)  : (State.readSlot s x1 x2).kernel = s.kernel := by
  unfold State.readSlot
  try dsimp only
  repeat' first | with_reducible rfl | (simp; done) | split | (have hp := State.spineRead_kernel' ‹_›; dsimp only at hp; first | exact hp | (rw [hp]; try clear hp)) | (refine (foldl_fst_kernel _ _ ?_ _).trans ?_) | (intro _) | simp only [State.failQuery_kernel, State.spineRead_kernel] | rfl | (simp [State.kernel, Function.comp_def]; done) | (fail_if_no_progress (simp only [State.kernel]; simp only [State.kernel_mk])) | (simp_all; done)

@[simp] theorem doSheafRelease_kernel (s : State) (x0 : CohortId) (x1 : Nat) (x2 : List (Nat × EccError))  : (doSheafRelease x0 x1 x2 s).kernel = s.kernel := by
  unfold doSheafRelease
  try dsimp only
  repeat' first | with_reducible rfl | (simp; done) | split | (refine (foldS_kernel _ _ _ ?_).trans ?_) | (refine (foldl_fst_kernel _ _ ?_ _).trans ?_) | (intro _) | simp only [State.releaseSheaf_kernel, State.readSlot_kernel] | rfl | (simp [State.kernel, Function.comp_def]; done) | (fail_if_no_progress (simp only [State.kernel]; simp only [State.kernel_mk])) | (simp_all; done)

end Sys2Proof.Machine
end

