-- ==== Sys2Proof/Laws/KernelIssue.lean ====
section
/-! SUPPORT. Laws/KernelIssue.lean: the operations of Machine/Issue.lean leave the kernel as it is. -/
namespace Sys2Proof.Machine

@[simp] theorem State.putSheaf_kernel (s : State) (x1 : Nat) (x2 : Nat) (x3 : Sheaf)  : (State.putSheaf s x1 x2 x3).kernel = s.kernel := by
  unfold State.putSheaf
  try dsimp only
  repeat' first | with_reducible rfl | (simp; done) | split | (refine (foldl_fst_kernel _ _ ?_ _).trans ?_) | (intro _) | rfl | (simp [State.kernel, Function.comp_def]; done) | (fail_if_no_progress (simp only [State.kernel]; simp only [State.kernel_mk])) | (simp_all; done)

@[simp] theorem State.sheafIllegal_kernel (s : State) (x1 : Nat) (x2 : Sheaf)  : (State.sheafIllegal s x1 x2).kernel = s.kernel := by
  unfold State.sheafIllegal
  try dsimp only
  repeat' first | with_reducible rfl | (simp; done) | split | (refine (foldl_fst_kernel _ _ ?_ _).trans ?_) | (intro _) | simp only [State.illegal_kernel] | rfl | (simp [State.kernel, Function.comp_def]; done) | (fail_if_no_progress (simp only [State.kernel]; simp only [State.kernel_mk])) | (simp_all; done)

@[simp] theorem State.issue_kernel (s : State) (x1 : Nat) (x2 : Nat) (x3 : Bool) (x4 : Sheaf → Bool) (x5 : Sheaf → State) (hx5 : ∀ y0, (x5 y0).kernel = s.kernel) : (State.issue s x1 x2 x3 x4 x5).kernel = s.kernel := by
  unfold State.issue
  try dsimp only
  repeat' first | with_reducible rfl | (simp; done) | split | (refine (foldl_fst_kernel _ _ ?_ _).trans ?_) | (intro _) | simp only [State.sheafIllegal_kernel] | rfl | (simp [State.kernel, Function.comp_def]; done) | (fail_if_no_progress (simp only [State.kernel]; simp only [State.kernel_mk])) | (simp_all; done)

@[simp] theorem State.laneOp_kernel (s : State) (x1 : Nat) (x2 : Nat) (x3 : Bool) (x4 : Nat) (x5 : Sheaf → Bool) (x6 : Lane → Lane)  : (State.laneOp s x1 x2 x3 x4 x5 x6).kernel = s.kernel := by
  unfold State.laneOp
  try dsimp only
  repeat' first | with_reducible rfl | (simp; done) | split | (refine (State.issue_kernel _ _ _ _ _ _ ?_).trans ?_) | (refine (foldl_fst_kernel _ _ ?_ _).trans ?_) | (intro _) | simp only [State.putSheaf_kernel] | rfl | (simp [State.kernel, Function.comp_def]; done) | (fail_if_no_progress (simp only [State.kernel]; simp only [State.kernel_mk])) | (simp_all; done)

@[simp] theorem doFop_kernel (s : State) (x0 : Nat) (x1 : Nat) (x2 : Fields)  : (doFop x0 x1 x2 s).kernel = s.kernel := by
  unfold doFop
  try dsimp only
  repeat' first | with_reducible rfl | (simp; done) | split | (refine (foldl_fst_kernel _ _ ?_ _).trans ?_) | (intro _) | simp only [State.laneOp_kernel] | rfl | (simp [State.kernel, Function.comp_def]; done) | (fail_if_no_progress (simp only [State.kernel]; simp only [State.kernel_mk])) | (simp_all; done)

@[simp] theorem State.setReg_kernel (s : State) (x1 : Nat) (x2 : BitVec 6) (x3 : DWord)  : (State.setReg s x1 x2 x3).kernel = s.kernel := by
  unfold State.setReg
  try dsimp only
  repeat' first | with_reducible rfl | (simp; done) | split | (refine (foldl_fst_kernel _ _ ?_ _).trans ?_) | (intro _) | simp only [State.modStrand_kernel] | rfl | (simp [State.kernel, Function.comp_def]; done) | (fail_if_no_progress (simp only [State.kernel]; simp only [State.kernel_mk])) | (simp_all; done)

@[simp] theorem State.strandIssue_kernel (s : State) (x1 : Nat) (x2 : List Nat) (x3 : Bool) (x4 : Bool) (x5 : Nat) (x6 : State → State) (hx6 : ∀ y0, (x6 y0).kernel = y0.kernel) : (State.strandIssue s x1 x2 x3 x4 x5 x6).kernel = s.kernel := by
  unfold State.strandIssue
  try dsimp only
  repeat' first | with_reducible rfl | (simp; done) | split | (refine (foldl_fst_kernel _ _ ?_ _).trans ?_) | (intro _) | simp only [State.modStrand_kernel, State.illegal_kernel] | rfl | (simp [State.kernel, Function.comp_def]; done) | (fail_if_no_progress (simp only [State.kernel]; simp only [State.kernel_mk])) | (simp_all; done)

@[simp] theorem State.laneBranch_kernel (s : State) (x1 : Nat) (x2 : Nat) (x3 : Bool) (x4 : Sheaf → Bool) (x5 : Lane → Bool) (x6 : Lane → Nat) (x7 : Lane → Lane)  : (State.laneBranch s x1 x2 x3 x4 x5 x6 x7).kernel = s.kernel := by
  unfold State.laneBranch
  try dsimp only
  repeat' first | with_reducible rfl | (simp; done) | split | (refine (State.issue_kernel _ _ _ _ _ _ ?_).trans ?_) | (refine (foldl_fst_kernel _ _ ?_ _).trans ?_) | (intro _) | simp only [State.putSheaf_kernel] | rfl | (simp [State.kernel, Function.comp_def]; done) | (fail_if_no_progress (simp only [State.kernel]; simp only [State.kernel_mk])) | (simp_all; done)

@[simp] theorem State.strandBranch_kernel (s : State) (x1 : Nat) (x2 : List Nat) (x3 : Bool) (x4 : Bool) (x5 : Bool) (x6 : Nat) (x7 : State → State) (hx7 : ∀ y0, (x7 y0).kernel = y0.kernel) : (State.strandBranch s x1 x2 x3 x4 x5 x6 x7).kernel = s.kernel := by
  unfold State.strandBranch
  try dsimp only
  repeat' first | with_reducible rfl | (simp; done) | split | (refine (State.strandIssue_kernel _ _ _ _ _ _ _ ?_).trans ?_) | (refine (foldl_fst_kernel _ _ ?_ _).trans ?_) | (intro _) | simp only [State.modStrand_kernel] | rfl | (simp [State.kernel, Function.comp_def]; done) | (fail_if_no_progress (simp only [State.kernel]; simp only [State.kernel_mk])) | (simp_all; done)

@[simp] theorem State.condBranch_kernel (s : State) (x1 : Issuer) (x2 : Fields) (x3 : Bool)  : (State.condBranch s x1 x2 x3).kernel = s.kernel := by
  unfold State.condBranch
  try dsimp only
  repeat' first | with_reducible rfl | (simp; done) | split | (refine (State.strandBranch_kernel _ _ _ _ _ _ _ _ ?_).trans ?_) | (refine (foldl_fst_kernel _ _ ?_ _).trans ?_) | (intro _) | simp only [State.laneBranch_kernel] | rfl | (simp [State.kernel, Function.comp_def]; done) | (fail_if_no_progress (simp only [State.kernel]; simp only [State.kernel_mk])) | (simp_all; done)

@[simp] theorem doBrt_kernel (s : State) (x0 : Issuer) (x1 : Fields)  : (doBrt x0 x1 s).kernel = s.kernel := by
  unfold doBrt
  try dsimp only
  repeat' first | with_reducible rfl | (simp; done) | split | (refine (foldl_fst_kernel _ _ ?_ _).trans ?_) | (intro _) | simp only [State.condBranch_kernel] | rfl | (simp [State.kernel, Function.comp_def]; done) | (fail_if_no_progress (simp only [State.kernel]; simp only [State.kernel_mk])) | (simp_all; done)

@[simp] theorem doPlog_kernel (s : State) (x0 : Nat) (x1 : Nat) (x2 : Fields)  : (doPlog x0 x1 x2 s).kernel = s.kernel := by
  unfold doPlog
  try dsimp only
  repeat' first | with_reducible rfl | (simp; done) | split | (refine (foldl_fst_kernel _ _ ?_ _).trans ?_) | (intro _) | simp only [State.laneOp_kernel] | rfl | (simp [State.kernel, Function.comp_def]; done) | (fail_if_no_progress (simp only [State.kernel]; simp only [State.kernel_mk])) | (simp_all; done)

@[simp] theorem doCmp_kernel (s : State) (x0 : Issuer) (x1 : Fields)  : (doCmp x0 x1 s).kernel = s.kernel := by
  unfold doCmp
  try dsimp only
  repeat' first | with_reducible rfl | (simp; done) | split | (refine (State.strandIssue_kernel _ _ _ _ _ _ _ ?_).trans ?_) | (refine (foldl_fst_kernel _ _ ?_ _).trans ?_) | (intro _) | simp only [State.laneOp_kernel, State.setReg_kernel] | rfl | (simp [State.kernel, Function.comp_def]; done) | (fail_if_no_progress (simp only [State.kernel]; simp only [State.kernel_mk])) | (simp_all; done)

@[simp] theorem doCvt_kernel (s : State) (x0 : Nat) (x1 : Nat) (x2 : Fields)  : (doCvt x0 x1 x2 s).kernel = s.kernel := by
  unfold doCvt
  try dsimp only
  repeat' first | with_reducible rfl | (simp; done) | split | (refine (foldl_fst_kernel _ _ ?_ _).trans ?_) | (intro _) | simp only [State.laneOp_kernel] | rfl | (simp [State.kernel, Function.comp_def]; done) | (fail_if_no_progress (simp only [State.kernel]; simp only [State.kernel_mk])) | (simp_all; done)

@[simp] theorem doCall_kernel (s : State) (x0 : Issuer) (x1 : Fields)  : (doCall x0 x1 s).kernel = s.kernel := by
  unfold doCall
  try dsimp only
  repeat' first | with_reducible rfl | (simp; done) | split | (refine (State.strandBranch_kernel _ _ _ _ _ _ _ _ ?_).trans ?_) | (refine (foldl_fst_kernel _ _ ?_ _).trans ?_) | (intro _) | simp only [State.laneBranch_kernel, State.setReg_kernel] | rfl | (simp [State.kernel, Function.comp_def]; done) | (fail_if_no_progress (simp only [State.kernel]; simp only [State.kernel_mk])) | (simp_all; done)

@[simp] theorem doIllegalInstruction_kernel (s : State) (x0 : Issuer)  : (doIllegalInstruction x0 s).kernel = s.kernel := by
  unfold doIllegalInstruction
  try dsimp only
  repeat' first | with_reducible rfl | (simp; done) | split | (refine (State.issue_kernel _ _ _ _ _ _ ?_).trans ?_) | (refine (State.strandIssue_kernel _ _ _ _ _ _ _ ?_).trans ?_) | (refine (foldl_fst_kernel _ _ ?_ _).trans ?_) | (intro _) | rfl | (simp [State.kernel, Function.comp_def]; done) | (fail_if_no_progress (simp only [State.kernel]; simp only [State.kernel_mk])) | (simp_all; done)

@[simp] theorem doBrf_kernel (s : State) (x0 : Issuer) (x1 : Fields)  : (doBrf x0 x1 s).kernel = s.kernel := by
  unfold doBrf
  try dsimp only
  repeat' first | with_reducible rfl | (simp; done) | split | (refine (foldl_fst_kernel _ _ ?_ _).trans ?_) | (intro _) | simp only [State.condBranch_kernel] | rfl | (simp [State.kernel, Function.comp_def]; done) | (fail_if_no_progress (simp only [State.kernel]; simp only [State.kernel_mk])) | (simp_all; done)

@[simp] theorem doIop_kernel (s : State) (x0 : Issuer) (x1 : Fields)  : (doIop x0 x1 s).kernel = s.kernel := by
  unfold doIop
  try dsimp only
  repeat' first | with_reducible rfl | (simp; done) | split | (refine (State.strandIssue_kernel _ _ _ _ _ _ _ ?_).trans ?_) | (refine (foldl_fst_kernel _ _ ?_ _).trans ?_) | (intro _) | simp only [State.laneOp_kernel, State.setReg_kernel] | rfl | (simp [State.kernel, Function.comp_def]; done) | (fail_if_no_progress (simp only [State.kernel]; simp only [State.kernel_mk])) | (simp_all; done)

@[simp] theorem doMovi_kernel (s : State) (x0 : Issuer) (x1 : Fields)  : (doMovi x0 x1 s).kernel = s.kernel := by
  unfold doMovi
  try dsimp only
  repeat' first | with_reducible rfl | (simp; done) | split | (refine (State.strandIssue_kernel _ _ _ _ _ _ _ ?_).trans ?_) | (refine (foldl_fst_kernel _ _ ?_ _).trans ?_) | (intro _) | simp only [State.laneOp_kernel, State.setReg_kernel] | rfl | (simp [State.kernel, Function.comp_def]; done) | (fail_if_no_progress (simp only [State.kernel]; simp only [State.kernel_mk])) | (simp_all; done)

@[simp] theorem State.writeSpecial_kernel (s : State) (x1 : Nat) (x2 : Nat) (x3 : Lane) (x4 : Word)  : (State.writeSpecial s x1 x2 x3 x4).kernel = s.kernel := by
  unfold State.writeSpecial
  try dsimp only
  repeat' first | with_reducible rfl | (simp; done) | split | (refine (foldl_fst_kernel _ _ ?_ _).trans ?_) | (intro _) | simp only [State.modSheaf_kernel, State.modQuery_kernel] | rfl | (simp [State.kernel, Function.comp_def]; done) | (fail_if_no_progress (simp only [State.kernel]; simp only [State.kernel_mk])) | (simp_all; done)

@[simp] theorem doMovs_kernel (s : State) (x0 : Nat) (x1 : Nat) (x2 : Fields)  : (doMovs x0 x1 x2 s).kernel = s.kernel := by
  unfold doMovs
  try dsimp only
  repeat' first | with_reducible rfl | (simp; done) | split | (refine (foldS_kernel _ _ _ ?_).trans ?_) | (refine (State.issue_kernel _ _ _ _ _ _ ?_).trans ?_) | (refine (foldl_fst_kernel _ _ ?_ _).trans ?_) | (intro _) | simp only [State.writeSpecial_kernel, State.putSheaf_kernel] | rfl | (simp [State.kernel, Function.comp_def]; done) | (fail_if_no_progress (simp only [State.kernel]; simp only [State.kernel_mk])) | (simp_all; done)

@[simp] theorem doMovih_kernel (s : State) (x0 : Issuer) (x1 : Fields)  : (doMovih x0 x1 s).kernel = s.kernel := by
  unfold doMovih
  try dsimp only
  repeat' first | with_reducible rfl | (simp; done) | split | (refine (State.issue_kernel _ _ _ _ _ _ ?_).trans ?_) | (refine (State.strandIssue_kernel _ _ _ _ _ _ _ ?_).trans ?_) | (refine (foldl_fst_kernel _ _ ?_ _).trans ?_) | (intro _) | simp only [State.setReg_kernel] | rfl | (simp [State.kernel, Function.comp_def]; done) | (fail_if_no_progress (simp only [State.kernel]; simp only [State.kernel_mk])) | (simp_all; done)

@[simp] theorem doSel_kernel (s : State) (x0 : Nat) (x1 : Nat) (x2 : Fields)  : (doSel x0 x1 x2 s).kernel = s.kernel := by
  unfold doSel
  try dsimp only
  repeat' first | with_reducible rfl | (simp; done) | split | (refine (foldl_fst_kernel _ _ ?_ _).trans ?_) | (intro _) | simp only [State.laneOp_kernel] | rfl | (simp [State.kernel, Function.comp_def]; done) | (fail_if_no_progress (simp only [State.kernel]; simp only [State.kernel_mk])) | (simp_all; done)

@[simp] theorem doFcmp_kernel (s : State) (x0 : Nat) (x1 : Nat) (x2 : Fields)  : (doFcmp x0 x1 x2 s).kernel = s.kernel := by
  unfold doFcmp
  try dsimp only
  repeat' first | with_reducible rfl | (simp; done) | split | (refine (foldl_fst_kernel _ _ ?_ _).trans ?_) | (intro _) | simp only [State.laneOp_kernel] | rfl | (simp [State.kernel, Function.comp_def]; done) | (fail_if_no_progress (simp only [State.kernel]; simp only [State.kernel_mk])) | (simp_all; done)

@[simp] theorem doIopi_kernel (s : State) (x0 : Issuer) (x1 : Fields)  : (doIopi x0 x1 s).kernel = s.kernel := by
  unfold doIopi
  try dsimp only
  repeat' first | with_reducible rfl | (simp; done) | split | (refine (State.strandIssue_kernel _ _ _ _ _ _ _ ?_).trans ?_) | (refine (foldl_fst_kernel _ _ ?_ _).trans ?_) | (intro _) | simp only [State.laneOp_kernel, State.setReg_kernel] | rfl | (simp [State.kernel, Function.comp_def]; done) | (fail_if_no_progress (simp only [State.kernel]; simp only [State.kernel_mk])) | (simp_all; done)

@[simp] theorem doWalkLong_kernel (s : State) (x0 : Nat) (x1 : Nat) (x2 : Nat)  : (doWalkLong x0 x1 x2 s).kernel = s.kernel := by
  unfold doWalkLong
  try dsimp only
  repeat' first | with_reducible rfl | (simp; done) | split | (refine (foldl_fst_kernel _ _ ?_ _).trans ?_) | (intro _) | simp only [State.modSheaf_kernel, State.countC_kernel, State.report_kernel] | rfl | (simp [State.kernel, Function.comp_def]; done) | (fail_if_no_progress (simp only [State.kernel]; simp only [State.kernel_mk])) | (simp_all; done)

@[simp] theorem doRet_kernel (s : State) (x0 : Issuer) (x1 : Fields)  : (doRet x0 x1 s).kernel = s.kernel := by
  unfold doRet
  try dsimp only
  repeat' first | with_reducible rfl | (simp; done) | split | (refine (State.strandBranch_kernel _ _ _ _ _ _ _ _ ?_).trans ?_) | (refine (foldl_fst_kernel _ _ ?_ _).trans ?_) | (intro _) | simp only [State.laneBranch_kernel] | rfl | (simp [State.kernel, Function.comp_def]; done) | (fail_if_no_progress (simp only [State.kernel]; simp only [State.kernel_mk])) | (simp_all; done)

@[simp] theorem doBr_kernel (s : State) (x0 : Issuer) (x1 : Fields)  : (doBr x0 x1 s).kernel = s.kernel := by
  unfold doBr
  try dsimp only
  repeat' first | with_reducible rfl | (simp; done) | split | (refine (State.strandBranch_kernel _ _ _ _ _ _ _ _ ?_).trans ?_) | (refine (foldl_fst_kernel _ _ ?_ _).trans ?_) | (intro _) | simp only [State.laneBranch_kernel] | rfl | (simp [State.kernel, Function.comp_def]; done) | (fail_if_no_progress (simp only [State.kernel]; simp only [State.kernel_mk])) | (simp_all; done)

@[simp] theorem doNop_kernel (s : State) (x0 : Issuer)  : (doNop x0 s).kernel = s.kernel := by
  unfold doNop
  try dsimp only
  repeat' first | with_reducible rfl | (simp; done) | split | (refine (State.strandIssue_kernel _ _ _ _ _ _ _ ?_).trans ?_) | (refine (foldl_fst_kernel _ _ ?_ _).trans ?_) | (intro _) | simp only [State.laneOp_kernel] | rfl | (simp [State.kernel, Function.comp_def]; done) | (fail_if_no_progress (simp only [State.kernel]; simp only [State.kernel_mk])) | (simp_all; done)

end Sys2Proof.Machine
end

