-- ==== Sys2Proof/Laws/KernelWalk.lean ====
section
/-! SUPPORT. Laws/KernelWalk.lean: the operations of Machine/Walk.lean leave the kernel as it is. -/
namespace Sys2Proof.Machine

@[simp] theorem State.modLane_kernel (s : State) (x1 : Nat) (x2 : Nat) (x3 : Lane → Lane)  : (State.modLane s x1 x2 x3).kernel = s.kernel := by
  unfold State.modLane
  try dsimp only
  repeat' first | with_reducible rfl | (simp; done) | split | (refine (foldl_fst_kernel _ _ ?_ _).trans ?_) | (intro _) | simp only [State.modSheaf_kernel] | rfl | (simp [State.kernel, Function.comp_def]; done) | (fail_if_no_progress (simp only [State.kernel]; simp only [State.kernel_mk])) | (simp_all; done)

@[simp] theorem State.failLane_kernel (s : State) (x1 : Nat) (x2 : Lane) (x3 : Nat)  : (State.failLane s x1 x2 x3).kernel = s.kernel := by
  unfold State.failLane
  try dsimp only
  repeat' first | with_reducible rfl | (simp; done) | split | (refine (foldl_fst_kernel _ _ ?_ _).trans ?_) | (intro _) | simp only [State.removeLane_kernel, State.finishErr_kernel] | rfl | (simp [State.kernel, Function.comp_def]; done) | (fail_if_no_progress (simp only [State.kernel]; simp only [State.kernel_mk])) | (simp_all; done)

@[simp] theorem State.readUnits_kernel (s : State) (err : Option EccError) (l : List Nat) : (s.readUnits err l).1.kernel = s.kernel := by
  induction l generalizing s err with
  | nil => rfl
  | cons n t ih => simp only [State.readUnits, ih, State.spineRead_kernel]
theorem State.readUnits_kernel' {s : State} {err : Option EccError} {l : List Nat} {p : State × Bool} (h : s.readUnits err l = p) :
    p.1.kernel = s.kernel := by
  rw [← h]; exact State.readUnits_kernel s err l

@[simp] theorem State.leaveSheaf_kernel (s : State) (x1 : Nat) (x2 : Lane) (x3 : WalkState)  : (State.leaveSheaf s x1 x2 x3).kernel = s.kernel := by
  unfold State.leaveSheaf
  try dsimp only
  repeat' first | with_reducible rfl | (simp; done) | split | (refine (foldl_fst_kernel _ _ ?_ _).trans ?_) | (intro _) | simp only [State.syncColl_kernel, State.removeLane_kernel, State.modQuery_kernel, State.writeSpine_kernel] | rfl | (simp [State.kernel, Function.comp_def]; done) | (fail_if_no_progress (simp only [State.kernel]; simp only [State.kernel_mk])) | (simp_all; done)

@[simp] theorem State.parkLane_kernel (s : State) (x1 : Nat) (x2 : Lane) (x3 : WalkState) (x4 : Nat) (x5 : Nat) (x6 : Nat)  : (State.parkLane s x1 x2 x3 x4 x5 x6).kernel = s.kernel := by
  unfold State.parkLane
  try dsimp only
  repeat' first | with_reducible rfl | (simp; done) | split | (refine (foldl_fst_kernel _ _ ?_ _).trans ?_) | (intro _) | simp only [State.leaveSheaf_kernel, State.parkOrForward_kernel] | rfl | (simp [State.kernel, Function.comp_def]; done) | (fail_if_no_progress (simp only [State.kernel]; simp only [State.kernel_mk])) | (simp_all; done)

@[simp] theorem State.reparkLane_kernel (s : State) (x1 : Nat) (x2 : Lane) (x3 : Query)  : (State.reparkLane s x1 x2 x3).kernel = s.kernel := by
  unfold State.reparkLane
  try dsimp only
  repeat' first | with_reducible rfl | (simp; done) | split | (refine (foldl_fst_kernel _ _ ?_ _).trans ?_) | (intro _) | simp only [State.parkLane_kernel] | rfl | (simp [State.kernel, Function.comp_def]; done) | (fail_if_no_progress (simp only [State.kernel]; simp only [State.kernel_mk])) | (simp_all; done)

@[simp] theorem State.syncGroup_kernel (s : State) (x1 : Nat) (x2 : List Nat)  : (State.syncGroup s x1 x2).kernel = s.kernel := by
  unfold State.syncGroup
  try dsimp only
  repeat' first | with_reducible rfl | (simp; done) | split | (refine (foldS_kernel _ _ _ ?_).trans ?_) | (refine (foldl_fst_kernel _ _ ?_ _).trans ?_) | (intro _) | simp only [State.syncColl_kernel] | rfl | (simp [State.kernel, Function.comp_def]; done) | (fail_if_no_progress (simp only [State.kernel]; simp only [State.kernel_mk])) | (simp_all; done)

@[simp] theorem State.servePackets_kernel (s : State) (x1 : Nat) (x2 : Sheaf) (x3 : List LaneNo)  : (State.servePackets s x1 x2 x3).kernel = s.kernel := by
  unfold State.servePackets
  try dsimp only
  repeat' first | with_reducible rfl | (simp; done) | split | (refine (foldS_kernel _ _ _ ?_).trans ?_) | (refine (foldl_fst_kernel _ _ ?_ _).trans ?_) | (intro _) | simp only [State.takeAnswers_kernel, State.segmentParity_kernel, State.serveSheaf_kernel] | rfl | (simp [State.kernel, Function.comp_def]; done) | (fail_if_no_progress (simp only [State.kernel]; simp only [State.kernel_mk])) | (simp_all; done)

@[simp] theorem State.putQueries_kernel (s : State) (x1 : Nat) (x2 : Nat) (x3 : Sheaf) (x4 : Nat) (x5 : Query → Lane → Lane)  : (State.putQueries s x1 x2 x3 x4 x5).kernel = s.kernel := by
  unfold State.putQueries
  try dsimp only
  repeat' first | with_reducible rfl | (simp; done) | split | (refine (foldl_fst_kernel _ _ ?_ _).trans ?_) | (intro _) | simp only [State.putSheaf_kernel] | rfl | (simp [State.kernel, Function.comp_def]; done) | (fail_if_no_progress (simp only [State.kernel]; simp only [State.kernel_mk])) | (simp_all; done)

@[simp] theorem State.addTo_kernel (s : State) (x1 : Word) (x2 : Word)  : (State.addTo s x1 x2).2.kernel = s.kernel := by
  unfold State.addTo
  try dsimp only
  repeat' first | with_reducible rfl | (simp; done) | split | (have hp := State.draw_kernel' ‹_›; dsimp only at hp; first | exact hp | (rw [hp]; try clear hp)) | (refine (foldl_fst_kernel _ _ ?_ _).trans ?_) | (intro _) | simp only [State.draw_kernel] | rfl | (simp [State.kernel, Function.comp_def]; done) | (fail_if_no_progress (simp only [State.kernel]; simp only [State.kernel_mk])) | (simp_all; done)
theorem State.addTo_kernel' {s : State} {x1 : Word} {x2 : Word}  {p : Word × State} (h : State.addTo s x1 x2 = p) : p.2.kernel = s.kernel := by
  rw [← h]; exact State.addTo_kernel s x1 x2 

@[simp] theorem State.sumvLane_kernel (s : State) (x1 : Nat) (x2 : Word) (x3 : Word) (x4 : Lane)  : (State.sumvLane s x1 x2 x3 x4).kernel = s.kernel := by
  unfold State.sumvLane
  try dsimp only
  repeat' first | with_reducible rfl | (simp; done) | split | (have hp := State.addTo_kernel' ‹_›; dsimp only at hp; first | exact hp | (rw [hp]; try clear hp)) | (refine (foldl_fst_kernel _ _ ?_ _).trans ?_) | (intro _) | simp only [State.modLane_kernel, State.addTo_kernel] | rfl | (simp [State.kernel, Function.comp_def]; done) | (fail_if_no_progress (simp only [State.kernel]; simp only [State.kernel_mk])) | (simp_all; done)

@[simp] theorem doCollectSumv_kernel (s : State) (x0 : Nat) (x1 : Nat) (x2 : Fields)  : (doCollectSumv x0 x1 x2 s).kernel = s.kernel := by
  unfold doCollectSumv
  try dsimp only
  repeat' first | with_reducible rfl | (simp; done) | split | (refine (foldS_kernel _ _ _ ?_).trans ?_) | (refine (State.issue_kernel _ _ _ _ _ _ ?_).trans ?_) | (refine (foldl_fst_kernel _ _ ?_ _).trans ?_) | (intro _) | simp only [State.sumvLane_kernel, State.syncGroup_kernel, State.putSheaf_kernel] | rfl | (simp [State.kernel, Function.comp_def]; done) | (fail_if_no_progress (simp only [State.kernel]; simp only [State.kernel_mk])) | (simp_all; done)

@[simp] theorem doCollectClear_kernel (s : State) (x0 : Nat) (x1 : Nat) (x2 : Fields)  : (doCollectClear x0 x1 x2 s).kernel = s.kernel := by
  unfold doCollectClear
  try dsimp only
  repeat' first | with_reducible rfl | (simp; done) | split | (refine (State.issue_kernel _ _ _ _ _ _ ?_).trans ?_) | (refine (foldl_fst_kernel _ _ ?_ _).trans ?_) | (intro _) | simp only [State.putQueries_kernel, State.syncGroup_kernel] | rfl | (simp [State.kernel, Function.comp_def]; done) | (fail_if_no_progress (simp only [State.kernel]; simp only [State.kernel_mk])) | (simp_all; done)

theorem State.sendPackets_kernel {s t : State} {x1 : Sheaf} {x2 : List Packet}  (h : State.sendPackets s x1 x2 = some t) : t.kernel = s.kernel := by
  unfold State.sendPackets at h
  try dsimp only at h
  repeat' first | (simp only [Option.some.injEq, reduceCtorEq] at h) | split at h
  all_goals first | (cases h; done) | ((try subst h); repeat' first | with_reducible rfl | (simp; done) | split | (refine (foldl_fst_kernel _ _ ?_ _).trans ?_) | (intro _) | simp only [State.enqueue_kernel] | rfl | (simp [State.kernel, Function.comp_def]; done) | (fail_if_no_progress (simp only [State.kernel]; simp only [State.kernel_mk])) | (simp_all; done))
theorem State.sendPackets_kernel_getD {s d : State} {x1 : Sheaf} {x2 : List Packet}  (hd : d.kernel = s.kernel) : ((State.sendPackets s x1 x2).getD d).kernel = s.kernel := by
  cases h : State.sendPackets s x1 x2 with
  | none => exact hd
  | some t => exact State.sendPackets_kernel h

@[simp] theorem doChild_kernel (s : State) (x0 : Nat) (x1 : Nat) (x2 : Fields)  : (doChild x0 x1 x2 s).kernel = s.kernel := by
  unfold doChild
  try dsimp only
  repeat' first | with_reducible rfl | (simp; done) | split | (refine (foldl_fst_kernel _ _ ?_ _).trans ?_) | (intro _) | simp only [State.laneOp_kernel] | rfl | (simp [State.kernel, Function.comp_def]; done) | (fail_if_no_progress (simp only [State.kernel]; simp only [State.kernel_mk])) | (simp_all; done)

@[simp] theorem doOrder_kernel (s : State) (x0 : Nat) (x1 : Nat) (x2 : Fields)  : (doOrder x0 x1 x2 s).kernel = s.kernel := by
  unfold doOrder
  try dsimp only
  repeat' first | with_reducible rfl | (simp; done) | split | (refine (foldl_fst_kernel _ _ ?_ _).trans ?_) | (intro _) | simp only [State.laneOp_kernel] | rfl | (simp [State.kernel, Function.comp_def]; done) | (fail_if_no_progress (simp only [State.kernel]; simp only [State.kernel_mk])) | (simp_all; done)

@[simp] theorem State.readTested_kernel (s : State) (x1 : Sheaf) (x2 : Rec64) (x3 : Rec64) (x4 : Lane) (x5 : List (LaneNo × Fin 64 × EccError))  : (State.readTested s x1 x2 x3 x4 x5).1.kernel = s.kernel := by
  unfold State.readTested
  try dsimp only
  repeat' first | with_reducible rfl | (simp; done) | split | (have hp := State.readLines_kernel' ‹_›; dsimp only at hp; first | exact hp | (rw [hp]; try clear hp)) | (refine (foldl_fst_kernel _ _ ?_ _).trans ?_) | (intro _) | simp only [State.invalidate_kernel, State.readLines_kernel] | rfl | (simp [State.kernel, Function.comp_def]; done) | (fail_if_no_progress (simp only [State.kernel]; simp only [State.kernel_mk])) | (simp_all; done)
theorem State.readTested_kernel' {s : State} {x1 : Sheaf} {x2 : Rec64} {x3 : Rec64} {x4 : Lane} {x5 : List (LaneNo × Fin 64 × EccError)}  {p : State × Bool} (h : State.readTested s x1 x2 x3 x4 x5 = p) : p.1.kernel = s.kernel := by
  rw [← h]; exact State.readTested_kernel s x1 x2 x3 x4 x5 

@[simp] theorem State.answerLane_kernel (s : State) (x1 : Nat) (x2 : Fields) (x3 : List (LaneNo × Fin 64 × EccError)) (x4 : List (LaneNo × EccError)) (x5 : Lane)  : (State.answerLane s x1 x2 x3 x4 x5).kernel = s.kernel := by
  unfold State.answerLane
  try dsimp only
  repeat' first | with_reducible rfl | (simp; done) | split | (have hp := State.readTested_kernel' ‹_›; dsimp only at hp; first | exact hp | (rw [hp]; try clear hp)) | (have hp := State.readUnits_kernel' ‹_›; dsimp only at hp; first | exact hp | (rw [hp]; try clear hp)) | (refine (foldl_fst_kernel _ _ ?_ _).trans ?_) | (intro _) | simp only [State.modLane_kernel, State.reparkLane_kernel, State.failLane_kernel, State.lateLane_kernel, State.readTested_kernel, State.readUnits_kernel] | rfl | (simp [State.kernel, Function.comp_def]; done) | (fail_if_no_progress (simp only [State.kernel]; simp only [State.kernel_mk])) | (simp_all; done)

@[simp] theorem doTestn_kernel (s : State) (x0 : Nat) (x1 : Nat) (x2 : Fields)  : (doTestn x0 x1 x2 s).kernel = s.kernel := by
  unfold doTestn
  try dsimp only
  repeat' first | with_reducible rfl | (simp; done) | split | rw [State.sendPackets_kernel ‹_›] | (refine (State.issue_kernel _ _ _ _ _ _ ?_).trans ?_) | (refine (foldl_fst_kernel _ _ ?_ _).trans ?_) | (intro _) | (first | exact State.sendPackets_kernel h | exact (State.sendPackets_kernel h).trans (by simp)) | (first | (refine (State.sendPackets_kernel_getD ?_).trans ?_)) | simp only [State.putSheaf_kernel] | rfl | (simp [State.kernel, Function.comp_def]; done) | (fail_if_no_progress (simp only [State.kernel]; simp only [State.kernel_mk])) | (simp_all; done)

@[simp] theorem doPop_kernel (s : State) (x0 : Nat) (x1 : Nat) (x2 : Fields)  : (doPop x0 x1 x2 s).kernel = s.kernel := by
  unfold doPop
  try dsimp only
  repeat' first | with_reducible rfl | (simp; done) | split | (refine (foldl_fst_kernel _ _ ?_ _).trans ?_) | (intro _) | simp only [State.laneOp_kernel] | rfl | (simp [State.kernel, Function.comp_def]; done) | (fail_if_no_progress (simp only [State.kernel]; simp only [State.kernel_mk])) | (simp_all; done)

@[simp] theorem State.queryOp_kernel (s : State) (x1 : Nat) (x2 : Nat) (x3 : Nat) (x4 : Sheaf → Bool) (x5 : Query → Lane → Lane)  : (State.queryOp s x1 x2 x3 x4 x5).kernel = s.kernel := by
  unfold State.queryOp
  try dsimp only
  repeat' first | with_reducible rfl | (simp; done) | split | (refine (State.issue_kernel _ _ _ _ _ _ ?_).trans ?_) | (refine (foldl_fst_kernel _ _ ?_ _).trans ?_) | (intro _) | simp only [State.putQueries_kernel] | rfl | (simp [State.kernel, Function.comp_def]; done) | (fail_if_no_progress (simp only [State.kernel]; simp only [State.kernel_mk])) | (simp_all; done)

@[simp] theorem doPush_kernel (s : State) (x0 : Nat) (x1 : Nat) (x2 : Fields)  : (doPush x0 x1 x2 s).kernel = s.kernel := by
  unfold doPush
  try dsimp only
  repeat' first | with_reducible rfl | (simp; done) | split | (refine (foldl_fst_kernel _ _ ?_ _).trans ?_) | (intro _) | simp only [State.queryOp_kernel] | rfl | (simp [State.kernel, Function.comp_def]; done) | (fail_if_no_progress (simp only [State.kernel]; simp only [State.kernel_mk])) | (simp_all; done)

@[simp] theorem State.addSums_kernel (s : State) (l m : List Word) : (s.addSums l m).2.kernel = s.kernel := by
  induction l generalizing s m with
  | nil => cases m <;> rfl
  | cons a t ih =>
    cases m with
    | nil => rfl
    | cons v u => simp only [State.addSums, ih, State.addTo_kernel]
theorem State.addSums_kernel' {s : State} {l m : List Word} {p : List Word × State} (h : s.addSums l m = p) : p.2.kernel = s.kernel := by
  rw [← h]; exact State.addSums_kernel s l m

@[simp] theorem State.sumLane_kernel (s : State) (x1 : Nat) (x2 : Lane)  : (State.sumLane s x1 x2).kernel = s.kernel := by
  unfold State.sumLane
  try dsimp only
  repeat' first | with_reducible rfl | (simp; done) | split | (have hp := State.addSums_kernel' ‹_›; dsimp only at hp; first | exact hp | (rw [hp]; try clear hp)) | (refine (foldl_fst_kernel _ _ ?_ _).trans ?_) | (intro _) | simp only [State.modLane_kernel, State.addSums_kernel] | rfl | (simp [State.kernel, Function.comp_def]; done) | (fail_if_no_progress (simp only [State.kernel]; simp only [State.kernel_mk])) | (simp_all; done)

@[simp] theorem doTestAnswer_kernel (s : State) (x0 : Nat) (x1 : Nat) (x2 : List (LaneNo × Fin 64 × EccError)) (x3 : List (LaneNo × EccError)) (x4 : List LaneNo)  : (doTestAnswer x0 x1 x2 x3 x4 s).kernel = s.kernel := by
  unfold doTestAnswer
  try dsimp only
  repeat' first | with_reducible rfl | (simp; done) | split | (refine (foldS_kernel _ _ _ ?_).trans ?_) | (refine (foldl_fst_kernel _ _ ?_ _).trans ?_) | (intro _) | simp only [State.answerLane_kernel, State.putSheaf_kernel, State.servePackets_kernel] | rfl | (simp [State.kernel, Function.comp_def]; done) | (fail_if_no_progress (simp only [State.kernel]; simp only [State.kernel_mk])) | (simp_all; done)

@[simp] theorem doCollectEntry_kernel (s : State) (x0 : Nat) (x1 : Nat) (x2 : Fields)  : (doCollectEntry x0 x1 x2 s).kernel = s.kernel := by
  unfold doCollectEntry
  try dsimp only
  repeat' first | with_reducible rfl | (simp; done) | split | (refine (State.issue_kernel _ _ _ _ _ _ ?_).trans ?_) | (refine (foldl_fst_kernel _ _ ?_ _).trans ?_) | (intro _) | simp only [State.putQueries_kernel, State.syncGroup_kernel] | rfl | (simp [State.kernel, Function.comp_def]; done) | (fail_if_no_progress (simp only [State.kernel]; simp only [State.kernel_mk])) | (simp_all; done)

@[simp] theorem doTrail_kernel (s : State) (x0 : Nat) (x1 : Nat) (x2 : Fields)  : (doTrail x0 x1 x2 s).kernel = s.kernel := by
  unfold doTrail
  try dsimp only
  repeat' first | with_reducible rfl | (simp; done) | split | (refine (foldl_fst_kernel _ _ ?_ _).trans ?_) | (intro _) | simp only [State.laneOp_kernel] | rfl | (simp [State.kernel, Function.comp_def]; done) | (fail_if_no_progress (simp only [State.kernel]; simp only [State.kernel_mk])) | (simp_all; done)

@[simp] theorem doCollectSum_kernel (s : State) (x0 : Nat) (x1 : Nat) (x2 : Fields)  : (doCollectSum x0 x1 x2 s).kernel = s.kernel := by
  unfold doCollectSum
  try dsimp only
  repeat' first | with_reducible rfl | (simp; done) | split | (refine (foldS_kernel _ _ _ ?_).trans ?_) | (refine (State.issue_kernel _ _ _ _ _ _ ?_).trans ?_) | (refine (foldl_fst_kernel _ _ ?_ _).trans ?_) | (intro _) | simp only [State.sumLane_kernel, State.syncGroup_kernel, State.putSheaf_kernel] | rfl | (simp [State.kernel, Function.comp_def]; done) | (fail_if_no_progress (simp only [State.kernel]; simp only [State.kernel_mk])) | (simp_all; done)

@[simp] theorem doDescend_kernel (s : State) (x0 : Nat) (x1 : Nat) (x2 : Fields)  : (doDescend x0 x1 x2 s).kernel = s.kernel := by
  unfold doDescend
  try dsimp only
  repeat' first | with_reducible rfl | (simp; done) | split | (refine (foldl_fst_kernel _ _ ?_ _).trans ?_) | (intro _) | simp only [State.queryOp_kernel] | rfl | (simp [State.kernel, Function.comp_def]; done) | (fail_if_no_progress (simp only [State.kernel]; simp only [State.kernel_mk])) | (simp_all; done)

end Sys2Proof.Machine
end

