-- ==== Sys2Proof/Laws/KernelOutput.lean ====
section
/-! SUPPORT. Laws/KernelOutput.lean: the operations of Machine/Output.lean leave the kernel as it is. -/
namespace Sys2Proof.Machine

@[simp] theorem State.mergeNothing_kernel (s : State) (x1 : Nat) (x2 : Fields) (x3 : Lane) (x4 : Bool)  : (State.mergeNothing s x1 x2 x3 x4).kernel = s.kernel := by
  unfold State.mergeNothing
  try dsimp only
  repeat' first | with_reducible rfl | (simp; done) | split | (refine (foldl_fst_kernel _ _ ?_ _).trans ?_) | (intro _) | simp only [State.modLane_kernel] | rfl | (simp [State.kernel, Function.comp_def]; done) | (fail_if_no_progress (simp only [State.kernel]; simp only [State.kernel_mk])) | (simp_all; done)

@[simp] theorem State.scoreLane_kernel (s : State) (x1 : Nat) (x2 : Sheaf) (x3 : Fields) (x4 : Lane) (x5 : Query) (x6 : ChildEntry)  : (State.scoreLane s x1 x2 x3 x4 x5 x6).kernel = s.kernel := by
  unfold State.scoreLane
  try dsimp only
  repeat' first | with_reducible rfl | (simp; done) | split | (refine (foldl_fst_kernel _ _ ?_ _).trans ?_) | (intro _) | simp only [State.modLane_kernel, State.failLane_kernel, State.mergeNothing_kernel] | rfl | (simp [State.kernel, Function.comp_def]; done) | (fail_if_no_progress (simp only [State.kernel]; simp only [State.kernel_mk])) | (simp_all; done)

@[simp] theorem State.mergeLane_kernel (s : State) (x1 : Nat) (x2 : Sheaf) (x3 : Fields) (x4 : List (LaneNo × EccError)) (x5 : Lane)  : (State.mergeLane s x1 x2 x3 x4 x5).kernel = s.kernel := by
  unfold State.mergeLane
  try dsimp only
  repeat' first | with_reducible rfl | (simp; done) | split | (have hp := State.readUnits_kernel' ‹_›; dsimp only at hp; first | exact hp | (rw [hp]; try clear hp)) | (refine (foldl_fst_kernel _ _ ?_ _).trans ?_) | (intro _) | simp only [State.scoreLane_kernel, State.failLane_kernel, State.mergeNothing_kernel, State.reparkLane_kernel, State.lateLane_kernel, State.readUnits_kernel] | rfl | (simp [State.kernel, Function.comp_def]; done) | (fail_if_no_progress (simp only [State.kernel]; simp only [State.kernel_mk])) | (simp_all; done)

@[simp] theorem State.lookHeld_kernel (s : State) (x1 : Nat) (x2 : Lane)  : (State.lookHeld s x1 x2).kernel = s.kernel := by
  unfold State.lookHeld
  try dsimp only
  repeat' first | with_reducible rfl | (simp; done) | split | (have hp := State.lookup_kernel' ‹_›; dsimp only at hp; first | exact hp | (rw [hp]; try clear hp)) | (refine (foldl_fst_kernel _ _ ?_ _).trans ?_) | (intro _) | simp only [State.modLane_kernel, State.lookup_kernel] | rfl | (simp [State.kernel, Function.comp_def]; done) | (fail_if_no_progress (simp only [State.kernel]; simp only [State.kernel_mk])) | (simp_all; done)

@[simp] theorem State.blockParity_kernel (s : State) (x1 : Nat) (x2 : Nat) (x3 : BlockId)  : (State.blockParity s x1 x2 x3).kernel = s.kernel := by
  unfold State.blockParity
  try dsimp only
  repeat' first | with_reducible rfl | (simp; done) | split | (refine (foldl_fst_kernel _ _ ?_ _).trans ?_) | (intro _) | simp only [State.leafFill_kernel, State.modGrove_kernel, State.count_kernel] | rfl | (simp [State.kernel, Function.comp_def]; done) | (fail_if_no_progress (simp only [State.kernel]; simp only [State.kernel_mk])) | (simp_all; done)

@[simp] theorem doTestbMerge_kernel (s : State) (x0 : Nat) (x1 : Nat) (x2 : List (LaneNo × EccError)) (x3 : List LaneNo) (x4 : List BlockId)  : (doTestbMerge x0 x1 x2 x3 x4 s).kernel = s.kernel := by
  unfold doTestbMerge
  try dsimp only
  repeat' first | with_reducible rfl | (simp; done) | split | (refine (foldS_kernel _ _ _ ?_).trans ?_) | (refine (foldl_fst_kernel _ _ ?_ _).trans ?_) | (intro _) | simp only [State.mergeLane_kernel, State.syncGroup_kernel, State.drainLeaf_kernel, State.modSheaf_kernel, State.servePackets_kernel, State.lookHeld_kernel, State.blockParity_kernel] | rfl | (simp [State.kernel, Function.comp_def]; done) | (fail_if_no_progress (simp only [State.kernel]; simp only [State.kernel_mk])) | (simp_all; done)

@[simp] theorem State.pipeFails_kernel (s : State) (x1 : Nat) (x2 : Bool) (x3 : Nat)  : (State.pipeFails s x1 x2 x3).kernel = s.kernel := by
  unfold State.pipeFails
  try dsimp only
  repeat' first | with_reducible rfl | (simp; done) | split | (refine (foldl_fst_kernel _ _ ?_ _).trans ?_) | (intro _) | simp only [State.logInj_kernel, State.interrupt_kernel, State.settleService_kernel, State.modGrove_kernel, State.count_kernel] | rfl | (simp [State.kernel, Function.comp_def]; done) | (fail_if_no_progress (simp only [State.kernel]; simp only [State.kernel_mk])) | (simp_all; done)

@[simp] theorem State.occupyPipe_kernel (s : State) (x1 : Nat) (x2 : Nat) (x3 : Nat)  : (State.occupyPipe s x1 x2 x3).kernel = s.kernel := by
  unfold State.occupyPipe
  try dsimp only
  repeat' first | with_reducible rfl | (simp; done) | split | (refine (foldl_fst_kernel _ _ ?_ _).trans ?_) | (intro _) | simp only [State.modGrove_kernel, State.count_kernel] | rfl | (simp [State.kernel, Function.comp_def]; done) | (fail_if_no_progress (simp only [State.kernel]; simp only [State.kernel_mk])) | (simp_all; done)

@[simp] theorem State.runPipe_kernel (s : State) (x1 : Nat) (x2 : Nat) (x3 : List (Fin 24))  : (State.runPipe s x1 x2 x3).1.kernel = s.kernel := by
  unfold State.runPipe
  try dsimp only
  repeat' first | with_reducible rfl | (simp; done) | split | (refine (foldl_fst_kernel _ _ ?_ _).trans ?_) | (intro _) | simp only [State.disarm_kernel, State.pipeFails_kernel, State.occupyPipe_kernel] | rfl | (simp [State.kernel, Function.comp_def]; done) | (fail_if_no_progress (simp only [State.kernel]; simp only [State.kernel_mk])) | (simp_all; done)
theorem State.runPipe_kernel' {s : State} {x1 : Nat} {x2 : Nat} {x3 : List (Fin 24)}  {p : State × List (Fin 24)} (h : State.runPipe s x1 x2 x3 = p) : p.1.kernel = s.kernel := by
  rw [← h]; exact State.runPipe_kernel s x1 x2 x3 

@[simp] theorem State.hold_kernel (s : State) (x1 : Nat)  : (State.hold s x1).kernel = s.kernel := by
  unfold State.hold
  try dsimp only
  repeat' first | with_reducible rfl | (simp; done) | split | (refine (foldl_fst_kernel _ _ ?_ _).trans ?_) | (intro _) | simp only [State.modSheaf_kernel] | rfl | (simp [State.kernel, Function.comp_def]; done) | (fail_if_no_progress (simp only [State.kernel]; simp only [State.kernel_mk])) | (simp_all; done)

@[simp] theorem State.spawnLane_kernel (s : State) (x1 : Nat) (x2 : Query) (x3 : Lane) (x4 : Nat)  : (State.spawnLane s x1 x2 x3 x4).1.kernel = s.kernel := by
  unfold State.spawnLane
  try dsimp only
  repeat' first | with_reducible rfl | (simp; done) | split | (refine (foldl_fst_kernel _ _ ?_ _).trans ?_) | (intro _) | simp only [State.toFrontEnd_kernel, State.writeDirect_kernel, State.countC_kernel] | rfl | (simp [State.kernel, Function.comp_def]; done) | (fail_if_no_progress (simp only [State.kernel]; simp only [State.kernel_mk])) | (simp_all; done)
theorem State.spawnLane_kernel' {s : State} {x1 : Nat} {x2 : Query} {x3 : Lane} {x4 : Nat}  {p : State × Bool} (h : State.spawnLane s x1 x2 x3 x4 = p) : p.1.kernel = s.kernel := by
  rw [← h]; exact State.spawnLane_kernel s x1 x2 x3 x4 

@[simp] theorem State.spawnLanes_kernel (s : State) (x1 : Nat) (x2 : Nat) (x3 : Nat) (x4 : Nat) (x5 : List Lane)  : (State.spawnLanes s x1 x2 x3 x4 x5).kernel = s.kernel := by
  unfold State.spawnLanes
  try dsimp only
  repeat' first | with_reducible rfl | (simp; done) | split | (have hp := State.spawnLane_kernel' ‹_›; dsimp only at hp; first | exact hp | (rw [hp]; try clear hp)) | (refine (foldS_kernel _ _ _ ?_).trans ?_) | (refine (foldl_fst_kernel _ _ ?_ _).trans ?_) | (intro _) | simp only [State.modLane_kernel, State.spawnLane_kernel] | rfl | (simp [State.kernel, Function.comp_def]; done) | (fail_if_no_progress (simp only [State.kernel]; simp only [State.kernel_mk])) | (simp_all; done)

@[simp] theorem doSpawn_kernel (s : State) (x0 : Nat) (x1 : Nat) (x2 : Fields)  : (doSpawn x0 x1 x2 s).kernel = s.kernel := by
  unfold doSpawn
  try dsimp only
  repeat' first | with_reducible rfl | (simp; done) | split | (refine (State.issue_kernel _ _ _ _ _ _ ?_).trans ?_) | (refine (foldl_fst_kernel _ _ ?_ _).trans ?_) | (intro _) | simp only [State.spawnLanes_kernel, State.modSheaf_kernel] | rfl | (simp [State.kernel, Function.comp_def]; done) | (fail_if_no_progress (simp only [State.kernel]; simp only [State.kernel_mk])) | (simp_all; done)

@[simp] theorem doHit_kernel (s : State) (x0 : Nat) (x1 : Nat) (x2 : Fields)  : (doHit x0 x1 x2 s).kernel = s.kernel := by
  unfold doHit
  try dsimp only
  repeat' first | with_reducible rfl | (simp; done) | split | (refine (State.issue_kernel _ _ _ _ _ _ ?_).trans ?_) | (refine (foldl_fst_kernel _ _ ?_ _).trans ?_) | (intro _) | simp only [State.putSheaf_kernel, State.syncGroup_kernel] | rfl | (simp [State.kernel, Function.comp_def]; done) | (fail_if_no_progress (simp only [State.kernel]; simp only [State.kernel_mk])) | (simp_all; done)

@[simp] theorem State.yieldLane_kernel (s : State) (x1 : Nat) (x2 : Lane)  : (State.yieldLane s x1 x2).kernel = s.kernel := by
  unfold State.yieldLane
  try dsimp only
  repeat' first | with_reducible rfl | (simp; done) | split | (refine (foldl_fst_kernel _ _ ?_ _).trans ?_) | (intro _) | simp only [State.parkLane_kernel] | rfl | (simp [State.kernel, Function.comp_def]; done) | (fail_if_no_progress (simp only [State.kernel]; simp only [State.kernel_mk])) | (simp_all; done)

@[simp] theorem doYield_kernel (s : State) (x0 : Nat) (x1 : Nat) (x2 : Fields)  : (doYield x0 x1 x2 s).kernel = s.kernel := by
  unfold doYield
  try dsimp only
  repeat' first | with_reducible rfl | (simp; done) | split | (refine (foldS_kernel _ _ _ ?_).trans ?_) | (refine (State.issue_kernel _ _ _ _ _ _ ?_).trans ?_) | (refine (foldl_fst_kernel _ _ ?_ _).trans ?_) | (intro _) | simp only [State.yieldLane_kernel] | rfl | (simp [State.kernel, Function.comp_def]; done) | (fail_if_no_progress (simp only [State.kernel]; simp only [State.kernel_mk])) | (simp_all; done)

@[simp] theorem State.endLane_kernel (s : State) (x1 : Nat) (x2 : Lane) (x3 : Nat)  : (State.endLane s x1 x2 x3).kernel = s.kernel := by
  unfold State.endLane
  try dsimp only
  repeat' first | with_reducible rfl | (simp; done) | split | (refine (foldl_fst_kernel _ _ ?_ _).trans ?_) | (intro _) | simp only [State.removeLane_kernel, State.finishOk_kernel] | rfl | (simp [State.kernel, Function.comp_def]; done) | (fail_if_no_progress (simp only [State.kernel]; simp only [State.kernel_mk])) | (simp_all; done)

@[simp] theorem State.endOrHook_kernel (s : State) (x1 : Nat) (x2 : Binding) (x3 : Lane) (x4 : Nat)  : (State.endOrHook s x1 x2 x3 x4).kernel = s.kernel := by
  unfold State.endOrHook
  try dsimp only
  repeat' first | with_reducible rfl | (simp; done) | split | (refine (foldl_fst_kernel _ _ ?_ _).trans ?_) | (intro _) | simp only [State.endLane_kernel, State.modLane_kernel] | rfl | (simp [State.kernel, Function.comp_def]; done) | (fail_if_no_progress (simp only [State.kernel]; simp only [State.kernel_mk])) | (simp_all; done)

@[simp] theorem State.treeLane_kernel (s : State) (x1 : Nat) (x2 : Binding) (x3 : Lane)  : (State.treeLane s x1 x2 x3).kernel = s.kernel := by
  unfold State.treeLane
  try dsimp only
  repeat' first | with_reducible rfl | (simp; done) | split | (refine (foldl_fst_kernel _ _ ?_ _).trans ?_) | (intro _) | simp only [State.parkLane_kernel, State.endOrHook_kernel] | rfl | (simp [State.kernel, Function.comp_def]; done) | (fail_if_no_progress (simp only [State.kernel]; simp only [State.kernel_mk])) | (simp_all; done)

@[simp] theorem doLeaf_kernel (s : State) (x0 : Nat) (x1 : Nat) (x2 : Fields)  : (doLeaf x0 x1 x2 s).kernel = s.kernel := by
  unfold doLeaf
  try dsimp only
  repeat' first | with_reducible rfl | (simp; done) | split | (refine (foldS_kernel _ _ _ ?_).trans ?_) | (refine (State.issue_kernel _ _ _ _ _ _ ?_).trans ?_) | (refine (foldl_fst_kernel _ _ ?_ _).trans ?_) | (intro _) | simp only [State.lookHeld_kernel, State.putSheaf_kernel] | rfl | (simp [State.kernel, Function.comp_def]; done) | (fail_if_no_progress (simp only [State.kernel]; simp only [State.kernel_mk])) | (simp_all; done)

@[simp] theorem doTestb_kernel (s : State) (x0 : Nat) (x1 : Nat) (x2 : Fields)  : (doTestb x0 x1 x2 s).kernel = s.kernel := by
  unfold doTestb
  try dsimp only
  repeat' first | with_reducible rfl | (simp; done) | split | rw [State.sendPackets_kernel ‹_›] | (refine (foldS_kernel _ _ _ ?_).trans ?_) | (refine (State.issue_kernel _ _ _ _ _ _ ?_).trans ?_) | (refine (foldl_fst_kernel _ _ ?_ _).trans ?_) | (intro _) | (first | exact State.sendPackets_kernel h | exact (State.sendPackets_kernel h).trans (by simp)) | (first | (refine (State.sendPackets_kernel_getD ?_).trans ?_)) | simp only [State.lookHeld_kernel, State.putSheaf_kernel] | rfl | (simp [State.kernel, Function.comp_def]; done) | (fail_if_no_progress (simp only [State.kernel]; simp only [State.kernel_mk])) | (simp_all; done)

@[simp] theorem doLeafFillInstall_kernel (s : State) (x0 : Nat) (x1 : BlockId) (x2 : List Line)  : (doLeafFillInstall x0 x1 x2 s).kernel = s.kernel := by
  unfold doLeafFillInstall
  try dsimp only
  repeat' first | with_reducible rfl | (simp; done) | split | (refine (foldl_fst_kernel _ _ ?_ _).trans ?_) | (intro _) | simp only [State.linesBack_kernel, State.leafArrived_kernel] | rfl | (simp [State.kernel, Function.comp_def]; done) | (fail_if_no_progress (simp only [State.kernel]; simp only [State.kernel_mk])) | (simp_all; done)

@[simp] theorem doYieldTree_kernel (s : State) (x0 : Nat) (x1 : Nat) (x2 : Fields)  : (doYieldTree x0 x1 x2 s).kernel = s.kernel := by
  unfold doYieldTree
  try dsimp only
  repeat' first | with_reducible rfl | (simp; done) | split | (refine (foldS_kernel _ _ _ ?_).trans ?_) | (refine (State.issue_kernel _ _ _ _ _ _ ?_).trans ?_) | (refine (foldl_fst_kernel _ _ ?_ _).trans ?_) | (intro _) | simp only [State.hold_kernel, State.treeLane_kernel] | rfl | (simp [State.kernel, Function.comp_def]; done) | (fail_if_no_progress (simp only [State.kernel]; simp only [State.kernel_mk])) | (simp_all; done)

@[simp] theorem State.leafApply_kernel (s : State) (x1 : Nat) (x2 : Sheaf) (x3 : Fields) (x4 : List (Fin 24)) (x5 : Lane)  : (State.leafApply s x1 x2 x3 x4 x5).1.kernel = s.kernel := by
  unfold State.leafApply
  try dsimp only
  repeat' first | with_reducible rfl | (simp; done) | split | (have hp := State.runPipe_kernel' ‹_›; dsimp only at hp; first | exact hp | (rw [hp]; try clear hp)) | (refine (foldl_fst_kernel _ _ ?_ _).trans ?_) | (intro _) | simp only [State.modLane_kernel, State.failLane_kernel, State.lateLane_kernel, State.runPipe_kernel] | rfl | (simp [State.kernel, Function.comp_def]; done) | (fail_if_no_progress (simp only [State.kernel]; simp only [State.kernel_mk])) | (simp_all; done)
theorem State.leafApply_kernel' {s : State} {x1 : Nat} {x2 : Sheaf} {x3 : Fields} {x4 : List (Fin 24)} {x5 : Lane}  {p : State × List (Fin 24)} (h : State.leafApply s x1 x2 x3 x4 x5 = p) : p.1.kernel = s.kernel := by
  rw [← h]; exact State.leafApply_kernel s x1 x2 x3 x4 x5 

@[simp] theorem State.leafApplyAll_kernel (s : State) (key : Nat) (x : Sheaf) (f : Fields) (r : List (Fin 24)) (l : List Lane) :
    (s.leafApplyAll key x f r l).kernel = s.kernel := by
  induction l generalizing s r with
  | nil => rfl
  | cons a t ih => simp only [State.leafApplyAll, ih, State.leafApply_kernel]

@[simp] theorem State.askLeaf_kernel (s : State) (x1 : Nat) (x2 : Query) (x3 : Lane) (x4 : LeafOut)  : (State.askLeaf s x1 x2 x3 x4).kernel = s.kernel := by
  unfold State.askLeaf
  try dsimp only
  repeat' first | with_reducible rfl | (simp; done) | split | (have hp := State.lookup_kernel' ‹_›; dsimp only at hp; first | exact hp | (rw [hp]; try clear hp)) | (refine (foldS_kernel _ _ _ ?_).trans ?_) | (refine (foldl_fst_kernel _ _ ?_ _).trans ?_) | (intro _) | simp only [State.askScene_kernel, State.lookup_kernel] | rfl | (simp [State.kernel, Function.comp_def]; done) | (fail_if_no_progress (simp only [State.kernel]; simp only [State.kernel_mk])) | (simp_all; done)

@[simp] theorem doLeafResult_kernel (s : State) (x0 : Nat) (x1 : Nat) (x2 : List (Fin 24)) (x3 : List BlockId)  : (doLeafResult x0 x1 x2 x3 s).kernel = s.kernel := by
  unfold doLeafResult
  try dsimp only
  repeat' first | with_reducible rfl | (simp; done) | split | (refine (foldS_kernel _ _ _ ?_).trans ?_) | (refine (foldl_fst_kernel _ _ ?_ _).trans ?_) | (intro _) | simp only [State.modSheaf_kernel, State.leafApplyAll_kernel, State.drainLeaf_kernel, State.askLeaf_kernel, State.lookHeld_kernel, State.blockParity_kernel] | rfl | (simp [State.kernel, Function.comp_def]; done) | (fail_if_no_progress (simp only [State.kernel]; simp only [State.kernel_mk])) | (simp_all; done)

@[simp] theorem State.fwdLane_kernel (s : State) (x1 : Nat) (x2 : Lane)  : (State.fwdLane s x1 x2).kernel = s.kernel := by
  unfold State.fwdLane
  try dsimp only
  repeat' first | with_reducible rfl | (simp; done) | split | (refine (foldl_fst_kernel _ _ ?_ _).trans ?_) | (intro _) | simp only [State.parkLane_kernel] | rfl | (simp [State.kernel, Function.comp_def]; done) | (fail_if_no_progress (simp only [State.kernel]; simp only [State.kernel_mk])) | (simp_all; done)

@[simp] theorem State.emitAway_kernel (s : State) (x1 : Nat) (x2 : Nat) (x3 : Lane)  : (State.emitAway s x1 x2 x3).kernel = s.kernel := by
  unfold State.emitAway
  try dsimp only
  repeat' first | with_reducible rfl | (simp; done) | split | (refine (foldl_fst_kernel _ _ ?_ _).trans ?_) | (intro _) | simp only [State.sendPacket_kernel, State.modLane_kernel] | rfl | (simp [State.kernel, Function.comp_def]; done) | (fail_if_no_progress (simp only [State.kernel]; simp only [State.kernel_mk])) | (simp_all; done)

@[simp] theorem State.returnLane_kernel (s : State) (x1 : Nat) (x2 : Binding) (x3 : Lane)  : (State.returnLane s x1 x2 x3).kernel = s.kernel := by
  unfold State.returnLane
  try dsimp only
  repeat' first | with_reducible rfl | (simp; done) | split | (refine (foldl_fst_kernel _ _ ?_ _).trans ?_) | (intro _) | simp only [State.endLane_kernel, State.modLane_kernel] | rfl | (simp [State.kernel, Function.comp_def]; done) | (fail_if_no_progress (simp only [State.kernel]; simp only [State.kernel_mk])) | (simp_all; done)

@[simp] theorem doRetH_kernel (s : State) (x0 : Issuer)  : (doRetH x0 s).kernel = s.kernel := by
  unfold doRetH
  try dsimp only
  repeat' first | with_reducible rfl | (simp; done) | split | (refine (foldS_kernel _ _ _ ?_).trans ?_) | (refine (State.issue_kernel _ _ _ _ _ _ ?_).trans ?_) | (refine (State.strandIssue_kernel _ _ _ _ _ _ _ ?_).trans ?_) | (refine (foldl_fst_kernel _ _ ?_ _).trans ?_) | (intro _) | simp only [State.hold_kernel, State.returnLane_kernel, State.syncGroup_kernel] | rfl | (simp [State.kernel, Function.comp_def]; done) | (fail_if_no_progress (simp only [State.kernel]; simp only [State.kernel_mk])) | (simp_all; done)

@[simp] theorem doWalkEnd_kernel (s : State) (x0 : Nat) (x1 : Nat) (x2 : Fields)  : (doWalkEnd x0 x1 x2 s).kernel = s.kernel := by
  unfold doWalkEnd
  try dsimp only
  repeat' first | with_reducible rfl | (simp; done) | split | (refine (foldS_kernel _ _ _ ?_).trans ?_) | (refine (State.issue_kernel _ _ _ _ _ _ ?_).trans ?_) | (refine (foldl_fst_kernel _ _ ?_ _).trans ?_) | (intro _) | simp only [State.hold_kernel, State.endOrHook_kernel] | rfl | (simp [State.kernel, Function.comp_def]; done) | (fail_if_no_progress (simp only [State.kernel]; simp only [State.kernel_mk])) | (simp_all; done)

@[simp] theorem doEmit_kernel (s : State) (x0 : Nat) (x1 : Nat) (x2 : Fields)  : (doEmit x0 x1 x2 s).kernel = s.kernel := by
  unfold doEmit
  try dsimp only
  repeat' first | with_reducible rfl | (simp; done) | split | (refine (foldS_kernel _ _ _ ?_).trans ?_) | (refine (State.issue_kernel _ _ _ _ _ _ ?_).trans ?_) | (refine (foldl_fst_kernel _ _ ?_ _).trans ?_) | (intro _) | simp only [State.emitAway_kernel, State.toSource_kernel, State.putSheaf_kernel, State.hold_kernel] | rfl | (simp [State.kernel, Function.comp_def]; done) | (fail_if_no_progress (simp only [State.kernel]; simp only [State.kernel_mk])) | (simp_all; done)

@[simp] theorem doFwd_kernel (s : State) (x0 : Nat) (x1 : Nat) (x2 : Fields)  : (doFwd x0 x1 x2 s).kernel = s.kernel := by
  unfold doFwd
  try dsimp only
  repeat' first | with_reducible rfl | (simp; done) | split | (refine (foldS_kernel _ _ _ ?_).trans ?_) | (refine (State.issue_kernel _ _ _ _ _ _ ?_).trans ?_) | (refine (foldl_fst_kernel _ _ ?_ _).trans ?_) | (intro _) | simp only [State.fwdLane_kernel] | rfl | (simp [State.kernel, Function.comp_def]; done) | (fail_if_no_progress (simp only [State.kernel]; simp only [State.kernel_mk])) | (simp_all; done)

end Sys2Proof.Machine
end

