-- ==== Sys2Proof/Laws/KernelSequencer.lean ====
section
/-! SUPPORT. Laws/KernelSequencer.lean: the operations of Machine/Sequencer.lean leave the kernel as it is. -/
namespace Sys2Proof.Machine

@[simp] theorem State.access_kernel (s : State) (x1 : Nat) (x2 : DWord) (x3 : Nat) (x4 : Bool) (x5 : Access)  : (State.access s x1 x2 x3 x4 x5).kernel = s.kernel := by
  unfold State.access
  try dsimp only
  repeat' first | with_reducible rfl | (simp; done) | split | (have hp := State.takeId_kernel' ‹_›; dsimp only at hp; first | exact hp | (rw [hp]; try clear hp)) | (have hp := State.addCompletion_kernel' ‹_›; dsimp only at hp; first | exact hp | (rw [hp]; try clear hp)) | (refine (foldl_fst_kernel _ _ ?_ _).trans ?_) | (intro _) | simp only [State.sendAccess_kernel, State.modStrand_kernel, State.takeId_kernel, State.addCompletion_kernel] | rfl | (simp [State.kernel, Function.comp_def]; done) | (fail_if_no_progress (simp only [State.kernel]; simp only [State.kernel_mk])) | (simp_all; done)

@[simp] theorem doAmo_kernel (s : State) (x0 : Nat) (x1 : Fields)  : (doAmo x0 x1 s).kernel = s.kernel := by
  unfold doAmo
  try dsimp only
  repeat' first | with_reducible rfl | (simp; done) | split | (refine (State.strandIssue_kernel _ _ _ _ _ _ _ ?_).trans ?_) | (refine (foldl_fst_kernel _ _ ?_ _).trans ?_) | (intro _) | simp only [State.access_kernel] | rfl | (simp [State.kernel, Function.comp_def]; done) | (fail_if_no_progress (simp only [State.kernel]; simp only [State.kernel_mk])) | (simp_all; done)

@[simp] theorem doStrandEnd_kernel (s : State) (x0 : Nat) (x1 : Fields)  : (doStrandEnd x0 x1 s).kernel = s.kernel := by
  unfold doStrandEnd
  try dsimp only
  repeat' first | with_reducible rfl | (simp; done) | split | (refine (State.strandIssue_kernel _ _ _ _ _ _ _ ?_).trans ?_) | (refine (foldl_fst_kernel _ _ ?_ _).trans ?_) | (intro _) | simp only [State.close_kernel, State.modStrand_kernel] | rfl | (simp [State.kernel, Function.comp_def]; done) | (fail_if_no_progress (simp only [State.kernel]; simp only [State.kernel_mk])) | (simp_all; done)

@[simp] theorem doFence_kernel (s : State) (x0 : Nat) (x1 : Fields)  : (doFence x0 x1 s).kernel = s.kernel := by
  unfold doFence
  try dsimp only
  repeat' first | with_reducible rfl | (simp; done) | split | (refine (State.strandIssue_kernel _ _ _ _ _ _ _ ?_).trans ?_) | (refine (foldl_fst_kernel _ _ ?_ _).trans ?_) | (intro _) | simp only [State.waitOn_kernel] | rfl | (simp [State.kernel, Function.comp_def]; done) | (fail_if_no_progress (simp only [State.kernel]; simp only [State.kernel_mk])) | (simp_all; done)

@[simp] theorem State.readIssue_kernel (s : State) (x1 : Nat) (x2 : List Nat) (x3 : Bool) (x4 : State → State) (hx4 : ∀ y0, (x4 y0).kernel = y0.kernel) : (State.readIssue s x1 x2 x3 x4).kernel = s.kernel := by
  unfold State.readIssue
  try dsimp only
  repeat' first | with_reducible rfl | (simp; done) | split | (refine (State.strandIssue_kernel _ _ _ _ _ _ _ ?_).trans ?_) | (refine (foldl_fst_kernel _ _ ?_ _).trans ?_) | (intro _) | rfl | (simp [State.kernel, Function.comp_def]; done) | (fail_if_no_progress (simp only [State.kernel]; simp only [State.kernel_mk])) | (simp_all; done)

@[simp] theorem doFenceDone_kernel (s : State) (x0 : Nat)  : (doFenceDone x0 s).kernel = s.kernel := by
  unfold doFenceDone
  try dsimp only
  repeat' first | with_reducible rfl | (simp; done) | split | (refine (foldl_fst_kernel _ _ ?_ _).trans ?_) | (intro _) | simp only [State.wake_kernel] | rfl | (simp [State.kernel, Function.comp_def]; done) | (fail_if_no_progress (simp only [State.kernel]; simp only [State.kernel_mk])) | (simp_all; done)

@[simp] theorem doSt_kernel (s : State) (x0 : Nat) (x1 : Fields)  : (doSt x0 x1 s).kernel = s.kernel := by
  unfold doSt
  try dsimp only
  repeat' first | with_reducible rfl | (simp; done) | split | (refine (State.strandIssue_kernel _ _ _ _ _ _ _ ?_).trans ?_) | (refine (foldl_fst_kernel _ _ ?_ _).trans ?_) | (intro _) | simp only [State.access_kernel] | rfl | (simp [State.kernel, Function.comp_def]; done) | (fail_if_no_progress (simp only [State.kernel]; simp only [State.kernel_mk])) | (simp_all; done)

@[simp] theorem doRdc_kernel (s : State) (x0 : Nat) (x1 : Fields)  : (doRdc x0 x1 s).kernel = s.kernel := by
  unfold doRdc
  try dsimp only
  repeat' first | with_reducible rfl | (simp; done) | split | (refine (State.strandIssue_kernel _ _ _ _ _ _ _ ?_).trans ?_) | (refine (foldl_fst_kernel _ _ ?_ _).trans ?_) | (intro _) | simp only [State.setReg_kernel] | rfl | (simp [State.kernel, Function.comp_def]; done) | (fail_if_no_progress (simp only [State.kernel]; simp only [State.kernel_mk])) | (simp_all; done)

@[simp] theorem doWaitcT_kernel (s : State) (x0 : Nat) (x1 : Fields)  : (doWaitcT x0 x1 s).kernel = s.kernel := by
  unfold doWaitcT
  try dsimp only
  repeat' first | with_reducible rfl | (simp; done) | split | (refine (State.strandIssue_kernel _ _ _ _ _ _ _ ?_).trans ?_) | (refine (foldl_fst_kernel _ _ ?_ _).trans ?_) | (intro _) | simp only [State.modCtx_kernel, State.waitOn_kernel, State.setReg_kernel] | rfl | (simp [State.kernel, Function.comp_def]; done) | (fail_if_no_progress (simp only [State.kernel]; simp only [State.kernel_mk])) | (simp_all; done)

@[simp] theorem doWaitcMet_kernel (s : State) (x0 : Nat)  : (doWaitcMet x0 s).kernel = s.kernel := by
  unfold doWaitcMet
  try dsimp only
  repeat' first | with_reducible rfl | (simp; done) | split | (refine (foldl_fst_kernel _ _ ?_ _).trans ?_) | (intro _) | simp only [State.modCtx_kernel, State.wake_kernel] | rfl | (simp [State.kernel, Function.comp_def]; done) | (fail_if_no_progress (simp only [State.kernel]; simp only [State.kernel_mk])) | (simp_all; done)

@[simp] theorem doLaunch_kernel (s : State) (x0 : Nat) (x1 : Fields)  : (doLaunch x0 x1 s).kernel = s.kernel := by
  unfold doLaunch
  try dsimp only
  repeat' first | with_reducible rfl | (simp; done) | split | (refine (State.readIssue_kernel _ _ _ _ _ ?_).trans ?_) | (refine (foldl_fst_kernel _ _ ?_ _).trans ?_) | (intro _) | simp only [State.waitOn_kernel, State.readFor_kernel, State.setReg_kernel] | rfl | (simp [State.kernel, Function.comp_def]; done) | (fail_if_no_progress (simp only [State.kernel]; simp only [State.kernel_mk])) | (simp_all; done)

@[simp] theorem doWaitc_kernel (s : State) (x0 : Nat) (x1 : Fields)  : (doWaitc x0 x1 s).kernel = s.kernel := by
  unfold doWaitc
  try dsimp only
  repeat' first | with_reducible rfl | (simp; done) | split | (refine (State.strandIssue_kernel _ _ _ _ _ _ _ ?_).trans ?_) | (refine (foldl_fst_kernel _ _ ?_ _).trans ?_) | (intro _) | simp only [State.waitOn_kernel, State.setReg_kernel] | rfl | (simp [State.kernel, Function.comp_def]; done) | (fail_if_no_progress (simp only [State.kernel]; simp only [State.kernel_mk])) | (simp_all; done)

@[simp] theorem doLoadDataReturn_kernel (s : State) (x0 : Nat) (x1 : Nat) (x2 : DWord)  : (doLoadDataReturn x0 x1 x2 s).kernel = s.kernel := by
  unfold doLoadDataReturn
  try dsimp only
  repeat' first | with_reducible rfl | (simp; done) | split | (refine (foldl_fst_kernel _ _ ?_ _).trans ?_) | (intro _) | simp only [State.modStrand_kernel, State.accessDone_kernel, State.ghostDone_kernel] | rfl | (simp [State.kernel, Function.comp_def]; done) | (fail_if_no_progress (simp only [State.kernel]; simp only [State.kernel_mk])) | (simp_all; done)

@[simp] theorem doLd_kernel (s : State) (x0 : Nat) (x1 : Fields)  : (doLd x0 x1 s).kernel = s.kernel := by
  unfold doLd
  try dsimp only
  repeat' first | with_reducible rfl | (simp; done) | split | (refine (State.strandIssue_kernel _ _ _ _ _ _ _ ?_).trans ?_) | (refine (foldl_fst_kernel _ _ ?_ _).trans ?_) | (intro _) | simp only [State.access_kernel] | rfl | (simp [State.kernel, Function.comp_def]; done) | (fail_if_no_progress (simp only [State.kernel]; simp only [State.kernel_mk])) | (simp_all; done)

end Sys2Proof.Machine
end

