-- ==== Sys2Proof/Laws/KernelStreams.lean ====
section
/-! SUPPORT. Laws/KernelStreams.lean: the operations of Machine/Streams.lean leave the kernel as it is. -/
namespace Sys2Proof.Machine

@[simp] theorem State.skipEntry_kernel (s : State) (x1 : Nat)  : (State.skipEntry s x1).kernel = s.kernel := by
  unfold State.skipEntry
  try dsimp only
  repeat' first | with_reducible rfl | (simp; done) | split | (refine (foldl_fst_kernel _ _ ?_ _).trans ?_) | (intro _) | simp only [State.countC_kernel, State.modStream_kernel] | rfl | (simp [State.kernel, Function.comp_def]; done) | (fail_if_no_progress (simp only [State.kernel]; simp only [State.kernel_mk])) | (simp_all; done)

@[simp] theorem doPreloadEntry_kernel (s : State) (x0 : Nat) (x1 : DWord)  : (doPreloadEntry x0 x1 s).kernel = s.kernel := by
  unfold doPreloadEntry
  try dsimp only
  repeat' first | with_reducible rfl | (simp; done) | split | (refine (foldl_fst_kernel _ _ ?_ _).trans ?_) | (intro _) | simp only [State.crownPark_kernel, State.modStream_kernel, State.skipEntry_kernel, State.linesBack_kernel, State.finishXfer_kernel, State.askScene_kernel] | rfl | (simp [State.kernel, Function.comp_def]; done) | (fail_if_no_progress (simp only [State.kernel]; simp only [State.kernel_mk])) | (simp_all; done)

@[simp] theorem State.streamIssue_kernel (s : State) (x1 : Nat) (x2 : Fields) (x3 : Nat) (x4 : State → Nat → State) (hx4 : ∀ y0 y1, (x4 y0 y1).kernel = y0.kernel) : (State.streamIssue s x1 x2 x3 x4).kernel = s.kernel := by
  unfold State.streamIssue
  try dsimp only
  repeat' first | with_reducible rfl | (simp; done) | split | (refine (State.strandIssue_kernel _ _ _ _ _ _ _ ?_).trans ?_) | (refine (foldl_fst_kernel _ _ ?_ _).trans ?_) | (intro _) | simp only [State.setReg_kernel] | rfl | (simp [State.kernel, Function.comp_def]; done) | (fail_if_no_progress (simp only [State.kernel]; simp only [State.kernel_mk])) | (simp_all; done)

@[simp] theorem doStrmStat_kernel (s : State) (x0 : Nat) (x1 : Fields)  : (doStrmStat x0 x1 s).kernel = s.kernel := by
  unfold doStrmStat
  try dsimp only
  repeat' first | with_reducible rfl | (simp; done) | split | (refine (State.streamIssue_kernel _ _ _ _ _ ?_).trans ?_) | (refine (foldl_fst_kernel _ _ ?_ _).trans ?_) | (intro _) | simp only [State.setReg_kernel] | rfl | (simp [State.kernel, Function.comp_def]; done) | (fail_if_no_progress (simp only [State.kernel]; simp only [State.kernel_mk])) | (simp_all; done)

@[simp] theorem doTileComplete_kernel (s : State) (x0 : Nat) (x1 : Nat)  : (doTileComplete x0 x1 s).kernel = s.kernel := by
  unfold doTileComplete
  try dsimp only
  repeat' first | with_reducible rfl | (simp; done) | split | (refine (foldl_fst_kernel _ _ ?_ _).trans ?_) | (intro _) | simp only [State.settleHalves_kernel, State.settleStream_kernel, State.receive_kernel, State.finishXfer_kernel, State.modStream_kernel] | rfl | (simp [State.kernel, Function.comp_def]; done) | (fail_if_no_progress (simp only [State.kernel]; simp only [State.kernel_mk])) | (simp_all; done)

@[simp] theorem doStreamImageRead_kernel (s : State) (x0 : Nat) (x1 : Line)  : (doStreamImageRead x0 x1 s).kernel = s.kernel := by
  unfold doStreamImageRead
  try dsimp only
  repeat' first | with_reducible rfl | (simp; done) | split | (refine (foldl_fst_kernel _ _ ?_ _).trans ?_) | (intro _) | simp only [State.modStream_kernel, State.askScene_kernel, State.wake_kernel] | rfl | (simp [State.kernel, Function.comp_def]; done) | (fail_if_no_progress (simp only [State.kernel]; simp only [State.kernel_mk])) | (simp_all; done)

@[simp] theorem State.handTile_kernel (s : State) (x1 : Nat) (x2 : Nat) (x3 : List LeafBlock)  : (State.handTile s x1 x2 x3).kernel = s.kernel := by
  unfold State.handTile
  try dsimp only
  repeat' first | with_reducible rfl | (simp; done) | split | (refine (foldS_kernel _ _ _ ?_).trans ?_) | (refine (foldl_fst_kernel _ _ ?_ _).trans ?_) | (intro _) | simp only [State.drainLeaf_kernel, State.pushLeaf_kernel, State.settleLeafXfer_kernel, State.modStream_kernel] | rfl | (simp [State.kernel, Function.comp_def]; done) | (fail_if_no_progress (simp only [State.kernel]; simp only [State.kernel_mk])) | (simp_all; done)

@[simp] theorem State.stagedUse_kernel (s : State) (x1 : Nat) (x2 : Line) (x3 : Rec64) (x4 : List (Nat × List Line))  : (State.stagedUse s x1 x2 x3 x4).2.kernel = s.kernel := by
  unfold State.stagedUse
  try dsimp only
  repeat' first | with_reducible rfl | (simp; done) | split | (refine (foldS_kernel _ _ _ ?_).trans ?_) | (refine (foldl_fst_kernel _ _ ?_ _).trans ?_) | (intro _) | simp only [State.keylessLeaf_kernel] | rfl | (simp [State.kernel, Function.comp_def]; done) | (fail_if_no_progress (simp only [State.kernel]; simp only [State.kernel_mk])) | (simp_all; done)
theorem State.stagedUse_kernel' {s : State} {x1 : Nat} {x2 : Line} {x3 : Rec64} {x4 : List (Nat × List Line)}  {p : List (Nat × List Line) × State} (h : State.stagedUse s x1 x2 x3 x4 = p) : p.2.kernel = s.kernel := by
  rw [← h]; exact State.stagedUse_kernel s x1 x2 x3 x4 

@[simp] theorem doStagedTileInstall_kernel (s : State) (x0 : Nat) (x1 : Nat) (x2 : List Line)  : (doStagedTileInstall x0 x1 x2 s).kernel = s.kernel := by
  unfold doStagedTileInstall
  try dsimp only
  repeat' first | with_reducible rfl | (simp; done) | split | (have hp := State.stagedUse_kernel' ‹_›; dsimp only at hp; first | exact hp | (rw [hp]; try clear hp)) | (refine (foldl_fst_kernel _ _ ?_ _).trans ?_) | (intro _) | simp only [State.handTile_kernel, State.finishXfer_kernel, State.linesBack_kernel, State.stagedUse_kernel] | rfl | (simp [State.kernel, Function.comp_def]; done) | (fail_if_no_progress (simp only [State.kernel]; simp only [State.kernel_mk])) | (simp_all; done)

@[simp] theorem doStreamRateUpdate_kernel (s : State)   : (doStreamRateUpdate s).kernel = s.kernel := by
  unfold doStreamRateUpdate
  try dsimp only
  repeat' first | with_reducible rfl | (simp; done) | split | (refine (foldl_fst_kernel _ _ ?_ _).trans ?_) | (intro _) | rfl | (simp [State.kernel, Function.comp_def]; done) | (fail_if_no_progress (simp only [State.kernel]; simp only [State.kernel_mk])) | (simp_all; done)

@[simp] theorem doStrmArm_kernel (s : State) (x0 : Nat) (x1 : Fields)  : (doStrmArm x0 x1 s).kernel = s.kernel := by
  unfold doStrmArm
  try dsimp only
  repeat' first | with_reducible rfl | (simp; done) | split | (refine (State.readIssue_kernel _ _ _ _ _ ?_).trans ?_) | (refine (foldl_fst_kernel _ _ ?_ _).trans ?_) | (intro _) | simp only [State.waitOn_kernel, State.readFor_kernel, State.setReg_kernel] | rfl | (simp [State.kernel, Function.comp_def]; done) | (fail_if_no_progress (simp only [State.kernel]; simp only [State.kernel_mk])) | (simp_all; done)

@[simp] theorem State.drainStreams_kernel (s : State)   : (State.drainStreams s).kernel = s.kernel := by
  unfold State.drainStreams
  try dsimp only
  repeat' first | with_reducible rfl | (simp; done) | split | (refine (foldS_kernel _ _ _ ?_).trans ?_) | (refine (foldl_fst_kernel _ _ ?_ _).trans ?_) | (intro _) | simp only [State.streamDrain_kernel] | rfl | (simp [State.kernel, Function.comp_def]; done) | (fail_if_no_progress (simp only [State.kernel]; simp only [State.kernel_mk])) | (simp_all; done)

@[simp] theorem doTransferRetire_kernel (s : State) (x0 : Nat)  : (doTransferRetire x0 s).kernel = s.kernel := by
  unfold doTransferRetire
  try dsimp only
  repeat' first | with_reducible rfl | (simp; done) | split | (refine (foldl_fst_kernel _ _ ?_ _).trans ?_) | (intro _) | simp only [State.modStream_kernel, State.settleStream_kernel, State.dropXfer_kernel, State.drainStreams_kernel] | rfl | (simp [State.kernel, Function.comp_def]; done) | (fail_if_no_progress (simp only [State.kernel]; simp only [State.kernel_mk])) | (simp_all; done)

@[simp] theorem State.issueTile_kernel (s : State) (x1 : Nat) (x2 : Nat)  : (State.issueTile s x1 x2).kernel = s.kernel := by
  unfold State.issueTile
  try dsimp only
  repeat' first | with_reducible rfl | (simp; done) | split | (refine (foldl_fst_kernel _ _ ?_ _).trans ?_) | (intro _) | simp only [State.modStream_kernel, State.request_kernel, State.streamDrain_kernel] | rfl | (simp [State.kernel, Function.comp_def]; done) | (fail_if_no_progress (simp only [State.kernel]; simp only [State.kernel_mk])) | (simp_all; done)

@[simp] theorem doStreamTileIssue_kernel (s : State) (x0 : Nat)  : (doStreamTileIssue x0 s).kernel = s.kernel := by
  unfold doStreamTileIssue
  try dsimp only
  repeat' first | with_reducible rfl | (simp; done) | split | (refine (foldl_fst_kernel _ _ ?_ _).trans ?_) | (intro _) | simp only [State.modStream_kernel, State.issueTile_kernel] | rfl | (simp [State.kernel, Function.comp_def]; done) | (fail_if_no_progress (simp only [State.kernel]; simp only [State.kernel_mk])) | (simp_all; done)

@[simp] theorem doStallDataReadback_kernel (s : State) (x0 : Nat)  : (doStallDataReadback x0 s).kernel = s.kernel := by
  unfold doStallDataReadback
  try dsimp only
  repeat' first | with_reducible rfl | (simp; done) | split | (refine (foldl_fst_kernel _ _ ?_ _).trans ?_) | (intro _) | simp only [State.modStream_kernel, State.streamDrain_kernel, State.linesBack_kernel, State.finishXfer_kernel, State.modOvf_kernel, State.requestOnce_kernel] | rfl | (simp [State.kernel, Function.comp_def]; done) | (fail_if_no_progress (simp only [State.kernel]; simp only [State.kernel_mk])) | (simp_all; done)

@[simp] theorem State.breakDelivery_kernel (s : State) (x1 : Nat)  : (State.breakDelivery s x1).kernel = s.kernel := by
  unfold State.breakDelivery
  try dsimp only
  repeat' first | with_reducible rfl | (simp; done) | split | (refine (foldl_fst_kernel _ _ ?_ _).trans ?_) | (intro _) | simp only [State.addRuns_kernel, State.modStream_kernel, State.request_kernel] | rfl | (simp [State.kernel, Function.comp_def]; done) | (fail_if_no_progress (simp only [State.kernel]; simp only [State.kernel_mk])) | (simp_all; done)

@[simp] theorem State.breakStage_kernel (s : State) (x1 : Nat)  : (State.breakStage s x1).kernel = s.kernel := by
  unfold State.breakStage
  try dsimp only
  repeat' first | with_reducible rfl | (simp; done) | split | (refine (foldl_fst_kernel _ _ ?_ _).trans ?_) | (intro _) | simp only [State.dropStaged_kernel, State.orphanTiles_kernel, State.dropTileHandles_kernel, State.modStream_kernel] | rfl | (simp [State.kernel, Function.comp_def]; done) | (fail_if_no_progress (simp only [State.kernel]; simp only [State.kernel_mk])) | (simp_all; done)

@[simp] theorem doStrmStop_kernel (s : State) (x0 : Nat) (x1 : Fields)  : (doStrmStop x0 x1 s).kernel = s.kernel := by
  unfold doStrmStop
  try dsimp only
  repeat' first | with_reducible rfl | (simp; done) | split | (refine (State.streamIssue_kernel _ _ _ _ _ ?_).trans ?_) | (refine (foldl_fst_kernel _ _ ?_ _).trans ?_) | (intro _) | simp only [State.modStream_kernel, State.setReg_kernel] | rfl | (simp [State.kernel, Function.comp_def]; done) | (fail_if_no_progress (simp only [State.kernel]; simp only [State.kernel_mk])) | (simp_all; done)

theorem State.breakStream_kernel {s t : State} {x1 : Nat}  (h : State.breakStream s x1 = some t) : t.kernel = s.kernel := by
  unfold State.breakStream at h
  try dsimp only at h
  repeat' first | (simp only [Option.some.injEq, reduceCtorEq] at h) | split at h
  all_goals first | (cases h; done) | ((try subst h); repeat' first | with_reducible rfl | (simp; done) | split | (refine (foldl_fst_kernel _ _ ?_ _).trans ?_) | (intro _) | simp only [State.breakDelivery_kernel, State.breakStage_kernel, State.pumpXfers_kernel] | rfl | (simp [State.kernel, Function.comp_def]; done) | (fail_if_no_progress (simp only [State.kernel]; simp only [State.kernel_mk])) | (simp_all; done))
theorem State.breakStream_kernel_getD {s d : State} {x1 : Nat}  (hd : d.kernel = s.kernel) : ((State.breakStream s x1).getD d).kernel = s.kernel := by
  cases h : State.breakStream s x1 with
  | none => exact hd
  | some t => exact State.breakStream_kernel h

@[simp] theorem doStallBreak_kernel (s : State) (k : Nat) : (doStallBreak k s).kernel = s.kernel := by
  unfold doStallBreak
  split
  · rfl
  · dsimp only
    split
    · rename_i ms _ j t heq
      obtain ⟨i, -, h⟩ := List.exists_of_findSome?_eq_some heq
      obtain ⟨u, hu, h⟩ := Option.map_eq_some_iff.mp h
      cases h
      rw [State.countC_kernel, State.breakStream_kernel hu]
    · rfl

@[simp] theorem doPreloadTimeout_kernel (s : State) (x0 : Nat)  : (doPreloadTimeout x0 s).kernel = s.kernel := by
  unfold doPreloadTimeout
  try dsimp only
  repeat' first | with_reducible rfl | (simp; done) | split | (refine (foldl_fst_kernel _ _ ?_ _).trans ?_) | (intro _) | simp only [State.skipEntry_kernel] | rfl | (simp [State.kernel, Function.comp_def]; done) | (fail_if_no_progress (simp only [State.kernel]; simp only [State.kernel_mk])) | (simp_all; done)

@[simp] theorem doStrmRearm_kernel (s : State) (x0 : Nat) (x1 : Fields)  : (doStrmRearm x0 x1 s).kernel = s.kernel := by
  unfold doStrmRearm
  try dsimp only
  repeat' first | with_reducible rfl | (simp; done) | split | (refine (State.readIssue_kernel _ _ _ _ _ ?_).trans ?_) | (refine (foldl_fst_kernel _ _ ?_ _).trans ?_) | (intro _) | simp only [State.countC_kernel, State.modStream_kernel, State.setReg_kernel] | rfl | (simp [State.kernel, Function.comp_def]; done) | (fail_if_no_progress (simp only [State.kernel]; simp only [State.kernel_mk])) | (simp_all; done)

@[simp] theorem doStrmCancel_kernel (s : State) (x0 : Nat) (x1 : Fields)  : (doStrmCancel x0 x1 s).kernel = s.kernel := by
  unfold doStrmCancel
  try dsimp only
  repeat' first | with_reducible rfl | (simp; done) | split | (refine (State.streamIssue_kernel _ _ _ _ _ ?_).trans ?_) | (refine (foldl_fst_kernel _ _ ?_ _).trans ?_) | (intro _) | simp only [State.waitOn_kernel, State.cancelStream_kernel, State.setReg_kernel] | rfl | (simp [State.kernel, Function.comp_def]; done) | (fail_if_no_progress (simp only [State.kernel]; simp only [State.kernel_mk])) | (simp_all; done)

@[simp] theorem State.releaseStart_kernel (s : State) (x1 : Nat)  : (State.releaseStart s x1).kernel = s.kernel := by
  unfold State.releaseStart
  try dsimp only
  repeat' first | with_reducible rfl | (simp; done) | split | (refine (foldl_fst_kernel _ _ ?_ _).trans ?_) | (intro _) | simp only [State.countC_kernel, State.modStream_kernel, State.releaseHalf_kernel, State.settleHalves_kernel] | rfl | (simp [State.kernel, Function.comp_def]; done) | (fail_if_no_progress (simp only [State.kernel]; simp only [State.kernel_mk])) | (simp_all; done)

@[simp] theorem doStrmStart_kernel (s : State) (x0 : Nat) (x1 : Fields)  : (doStrmStart x0 x1 s).kernel = s.kernel := by
  unfold doStrmStart
  try dsimp only
  repeat' first | with_reducible rfl | (simp; done) | split | (refine (State.streamIssue_kernel _ _ _ _ _ ?_).trans ?_) | (refine (foldl_fst_kernel _ _ ?_ _).trans ?_) | (intro _) | simp only [State.releaseStart_kernel, State.settleStream_kernel, State.modStream_kernel, State.setReg_kernel] | rfl | (simp [State.kernel, Function.comp_def]; done) | (fail_if_no_progress (simp only [State.kernel]; simp only [State.kernel_mk])) | (simp_all; done)

end Sys2Proof.Machine
end

