-- ==== Sys2Proof/Laws/KernelScans.lean ====
section
/-! SUPPORT. Laws/KernelScans.lean: the operations of Machine/Scans.lean leave the kernel as it is. -/
namespace Sys2Proof.Machine

@[simp] theorem State.finishScan_kernel (s : State) (x1 : Nat)  : (State.finishScan s x1).kernel = s.kernel := by
  unfold State.finishScan
  try dsimp only
  repeat' first | with_reducible rfl | (simp; done) | split | (have hp := State.addCompletion_kernel' ‹_›; dsimp only at hp; first | exact hp | (rw [hp]; try clear hp)) | (refine (foldl_fst_kernel _ _ ?_ _).trans ?_) | (intro _) | simp only [State.interrupt_kernel, State.countC_kernel, State.log_kernel, State.touch_kernel, State.emit_kernel, State.modScan_kernel, State.addCompletion_kernel] | rfl | (simp [State.kernel, Function.comp_def]; done) | (fail_if_no_progress (simp only [State.kernel]; simp only [State.kernel_mk])) | (simp_all; done)

@[simp] theorem doScanChunkArrive_kernel (s : State) (x0 : Nat) (x1 : List Byte)  : (doScanChunkArrive x0 x1 s).kernel = s.kernel := by
  unfold doScanChunkArrive
  try dsimp only
  repeat' first | with_reducible rfl | (simp; done) | split | (refine (foldl_fst_kernel _ _ ?_ _).trans ?_) | (intro _) | simp only [State.request_kernel, State.finishScan_kernel, State.countC_kernel, State.finishXfer_kernel, State.linesBack_kernel, State.modScan_kernel] | rfl | (simp [State.kernel, Function.comp_def]; done) | (fail_if_no_progress (simp only [State.kernel]; simp only [State.kernel_mk])) | (simp_all; done)

@[simp] theorem State.scanIssue_kernel (s : State) (x1 : Nat) (x2 : Fields) (x3 : Nat) (x4 : State → Nat → State) (hx4 : ∀ y0 y1, (x4 y0 y1).kernel = y0.kernel) : (State.scanIssue s x1 x2 x3 x4).kernel = s.kernel := by
  unfold State.scanIssue
  try dsimp only
  repeat' first | with_reducible rfl | (simp; done) | split | (refine (State.strandIssue_kernel _ _ _ _ _ _ _ ?_).trans ?_) | (refine (foldl_fst_kernel _ _ ?_ _).trans ?_) | (intro _) | simp only [State.setReg_kernel] | rfl | (simp [State.kernel, Function.comp_def]; done) | (fail_if_no_progress (simp only [State.kernel]; simp only [State.kernel_mk])) | (simp_all; done)

@[simp] theorem doScanWait_kernel (s : State) (x0 : Nat) (x1 : Fields)  : (doScanWait x0 x1 s).kernel = s.kernel := by
  unfold doScanWait
  try dsimp only
  repeat' first | with_reducible rfl | (simp; done) | split | (refine (State.scanIssue_kernel _ _ _ _ _ ?_).trans ?_) | (refine (foldl_fst_kernel _ _ ?_ _).trans ?_) | (intro _) | simp only [State.waitOn_kernel, State.modScan_kernel, State.setReg_kernel] | rfl | (simp [State.kernel, Function.comp_def]; done) | (fail_if_no_progress (simp only [State.kernel]; simp only [State.kernel_mk])) | (simp_all; done)

@[simp] theorem doCrcscan_kernel (s : State) (x0 : Nat) (x1 : Fields)  : (doCrcscan x0 x1 s).kernel = s.kernel := by
  unfold doCrcscan
  try dsimp only
  repeat' first | with_reducible rfl | (simp; done) | split | (refine (State.readIssue_kernel _ _ _ _ _ ?_).trans ?_) | (refine (foldl_fst_kernel _ _ ?_ _).trans ?_) | (intro _) | simp only [State.waitOn_kernel, State.readFor_kernel] | rfl | (simp [State.kernel, Function.comp_def]; done) | (fail_if_no_progress (simp only [State.kernel]; simp only [State.kernel_mk])) | (simp_all; done)

@[simp] theorem doScanBlockRead_kernel (s : State) (x0 : Nat) (x1 : Rec64)  : (doScanBlockRead x0 x1 s).kernel = s.kernel := by
  unfold doScanBlockRead
  try dsimp only
  repeat' first | with_reducible rfl | (simp; done) | split | (refine (foldl_fst_kernel _ _ ?_ _).trans ?_) | (intro _) | simp only [State.request_kernel, State.finishScan_kernel, State.writeTracked_kernel, State.modScan_kernel, State.wake_kernel] | rfl | (simp [State.kernel, Function.comp_def]; done) | (fail_if_no_progress (simp only [State.kernel]; simp only [State.kernel_mk])) | (simp_all; done)

@[simp] theorem doScanStat_kernel (s : State) (x0 : Nat) (x1 : Fields)  : (doScanStat x0 x1 s).kernel = s.kernel := by
  unfold doScanStat
  try dsimp only
  repeat' first | with_reducible rfl | (simp; done) | split | (refine (State.scanIssue_kernel _ _ _ _ _ ?_).trans ?_) | (refine (foldl_fst_kernel _ _ ?_ _).trans ?_) | (intro _) | simp only [State.setReg_kernel] | rfl | (simp [State.kernel, Function.comp_def]; done) | (fail_if_no_progress (simp only [State.kernel]; simp only [State.kernel_mk])) | (simp_all; done)

@[simp] theorem doScanSuspend_kernel (s : State) (x0 : Nat) (x1 : Fields)  : (doScanSuspend x0 x1 s).kernel = s.kernel := by
  unfold doScanSuspend
  try dsimp only
  repeat' first | with_reducible rfl | (simp; done) | split | (refine (State.scanIssue_kernel _ _ _ _ _ ?_).trans ?_) | (refine (foldl_fst_kernel _ _ ?_ _).trans ?_) | (intro _) | simp only [State.cancelXfers_kernel, State.setReg_kernel, State.modScan_kernel, State.writeTracked_kernel] | rfl | (simp [State.kernel, Function.comp_def]; done) | (fail_if_no_progress (simp only [State.kernel]; simp only [State.kernel_mk])) | (simp_all; done)

end Sys2Proof.Machine
end

