-- ==== Sys2Proof/Laws/KernelEdits.lean ====
section
/-! SUPPORT. Laws/KernelEdits.lean: the operations of Machine/Edits.lean leave the kernel as it is. -/
namespace Sys2Proof.Machine

@[simp] theorem State.unwanted_kernel (s : State) (x1 : RLine) (x2 : Line)  : (State.unwanted s x1 x2).kernel = s.kernel := by
  unfold State.unwanted
  try dsimp only
  repeat' first | with_reducible rfl | (simp; done) | split | (refine (foldl_fst_kernel _ _ ?_ _).trans ?_) | (intro _) | simp only [State.departLine_kernel, State.enterDir_kernel] | rfl | (simp [State.kernel, Function.comp_def]; done) | (fail_if_no_progress (simp only [State.kernel]; simp only [State.kernel_mk])) | (simp_all; done)

@[simp] theorem State.dropOldBoughs_kernel (s : State) (x1 : BufLine)  : (State.dropOldBoughs s x1).kernel = s.kernel := by
  unfold State.dropOldBoughs
  try dsimp only
  repeat' first | with_reducible rfl | (simp; done) | split | (refine (foldS_kernel _ _ _ ?_).trans ?_) | (refine (foldl_fst_kernel _ _ ?_ _).trans ?_) | (intro _) | simp only [State.leaveSlot_kernel, State.dropFills_kernel] | rfl | (simp [State.kernel, Function.comp_def]; done) | (fail_if_no_progress (simp only [State.kernel]; simp only [State.kernel_mk])) | (simp_all; done)

@[simp] theorem State.dropOldBlocks_kernel (s : State) (x1 : BufLine)  : (State.dropOldBlocks s x1).kernel = s.kernel := by
  unfold State.dropOldBlocks
  try dsimp only
  repeat' first | with_reducible rfl | (simp; done) | split | (refine (foldl_fst_kernel _ _ ?_ _).trans ?_) | (intro _) | simp only [State.cancelXfers_kernel] | rfl | (simp [State.kernel, Function.comp_def]; done) | (fail_if_no_progress (simp only [State.kernel]; simp only [State.kernel_mk])) | (simp_all; done)

@[simp] theorem State.dropOld_kernel (s : State) (x1 : BufLine)  : (State.dropOld s x1).kernel = s.kernel := by
  unfold State.dropOld
  try dsimp only
  repeat' first | with_reducible rfl | (simp; done) | split | (refine (foldl_fst_kernel _ _ ?_ _).trans ?_) | (intro _) | simp only [State.dropOldBoughs_kernel, State.dropOldBlocks_kernel] | rfl | (simp [State.kernel, Function.comp_def]; done) | (fail_if_no_progress (simp only [State.kernel]; simp only [State.kernel_mk])) | (simp_all; done)

@[simp] theorem State.sendThrough_kernel (s : State) (x1 : Nat) (x2 : BufLine) (x3 : DirEntry)  : (State.sendThrough s x1 x2 x3).kernel = s.kernel := by
  unfold State.sendThrough
  try dsimp only
  repeat' first | with_reducible rfl | (simp; done) | split | (refine (foldl_fst_kernel _ _ ?_ _).trans ?_) | (intro _) | simp only [State.modDir_kernel, State.departLine_kernel] | rfl | (simp [State.kernel, Function.comp_def]; done) | (fail_if_no_progress (simp only [State.kernel]; simp only [State.kernel_mk])) | (simp_all; done)

@[simp] theorem State.retakeLine_kernel (s : State) (x1 : BufLine)  : (State.retakeLine s x1).kernel = s.kernel := by
  unfold State.retakeLine
  try dsimp only
  repeat' first | with_reducible rfl | (simp; done) | split | (refine (foldl_fst_kernel _ _ ?_ _).trans ?_) | (intro _) | simp only [State.readOwn_kernel] | rfl | (simp [State.kernel, Function.comp_def]; done) | (fail_if_no_progress (simp only [State.kernel]; simp only [State.kernel_mk])) | (simp_all; done)

@[simp] theorem State.wtWrite_kernel (s : State) (x1 : Nat) (x2 : BufLine) (x3 : DirEntry)  : (State.wtWrite s x1 x2 x3).kernel = s.kernel := by
  unfold State.wtWrite
  try dsimp only
  repeat' first | with_reducible rfl | (simp; done) | split | (refine (foldl_fst_kernel _ _ ?_ _).trans ?_) | (intro _) | simp only [State.readBuf_kernel, State.dropOld_kernel, State.sendThrough_kernel, State.retakeLine_kernel] | rfl | (simp [State.kernel, Function.comp_def]; done) | (fail_if_no_progress (simp only [State.kernel]; simp only [State.kernel_mk])) | (simp_all; done)

@[simp] theorem State.wtGo_kernel (s : State) (x1 : Nat)  : (State.wtGo s x1).kernel = s.kernel := by
  unfold State.wtGo
  try dsimp only
  repeat' first | with_reducible rfl | (simp; done) | split | (refine (foldl_fst_kernel _ _ ?_ _).trans ?_) | (intro _) | simp only [State.modXfer_kernel, State.wtWrite_kernel, State.upgradeLine_kernel, State.countC_kernel, State.readOwn_kernel] | rfl | (simp [State.kernel, Function.comp_def]; done) | (fail_if_no_progress (simp only [State.kernel]; simp only [State.kernel_mk])) | (simp_all; done)

@[simp] theorem State.granted_kernel (s : State) (x1 : RingPend) (x2 : Line)  : (State.granted s x1 x2).kernel = s.kernel := by
  unfold State.granted
  try dsimp only
  repeat' first | with_reducible rfl | (simp; done) | split | (refine (foldl_fst_kernel _ _ ?_ _).trans ?_) | (intro _) | simp only [State.unwanted_kernel, State.wtGo_kernel, State.enterDir_kernel, State.mergeAll_kernel] | rfl | (simp [State.kernel, Function.comp_def]; done) | (fail_if_no_progress (simp only [State.kernel]; simp only [State.kernel_mk])) | (simp_all; done)

@[simp] theorem State.upgraded_kernel (s : State) (x1 : RingPend) (x2 : Line)  : (State.upgraded s x1 x2).kernel = s.kernel := by
  unfold State.upgraded
  try dsimp only
  repeat' first | with_reducible rfl | (simp; done) | split | (refine (foldl_fst_kernel _ _ ?_ _).trans ?_) | (intro _) | simp only [State.wtGo_kernel, State.modDir_kernel, State.mergeAll_kernel] | rfl | (simp [State.kernel, Function.comp_def]; done) | (fail_if_no_progress (simp only [State.kernel]; simp only [State.kernel_mk])) | (simp_all; done)

@[simp] theorem doRingGrant_kernel (s : State) (x0 : Nat) (x1 : DWord) (x2 : Line)  : (doRingGrant x0 x1 x2 s).kernel = s.kernel := by
  unfold doRingGrant
  try dsimp only
  repeat' first | with_reducible rfl | (simp; done) | split | (refine (foldl_fst_kernel _ _ ?_ _).trans ?_) | (intro _) | simp only [State.granted_kernel, State.upgraded_kernel, State.pumpRing_kernel] | rfl | (simp [State.kernel, Function.comp_def]; done) | (fail_if_no_progress (simp only [State.kernel]; simp only [State.kernel_mk])) | (simp_all; done)

@[simp] theorem State.commitNow_kernel (s : State) (x1 : Nat) (x2 : Nat) (x3 : Nat) (x4 : FMap Line)  : (State.commitNow s x1 x2 x3 x4).kernel = s.kernel := by
  unfold State.commitNow
  try dsimp only
  repeat' first | with_reducible rfl | (simp; done) | split | (refine (foldl_fst_kernel _ _ ?_ _).trans ?_) | (intro _) | simp only [State.modCtx_kernel, State.countC_kernel, State.wake_kernel] | rfl | (simp [State.kernel, Function.comp_def]; done) | (fail_if_no_progress (simp only [State.kernel]; simp only [State.kernel_mk])) | (simp_all; done)

@[simp] theorem doCommitPoint_kernel (s : State) (x0 : Nat) (x1 : List (DWord × Line))  : (doCommitPoint x0 x1 s).kernel = s.kernel := by
  unfold doCommitPoint
  try dsimp only
  repeat' first | with_reducible rfl | (simp; done) | split | (refine (foldS_kernel _ _ _ ?_).trans ?_) | (refine (foldl_fst_kernel _ _ ?_ _).trans ?_) | (intro _) | simp only [State.commitNow_kernel, State.readBuf_kernel] | rfl | (simp [State.kernel, Function.comp_def]; done) | (fail_if_no_progress (simp only [State.kernel]; simp only [State.kernel_mk])) | (simp_all; done)

@[simp] theorem State.xactIssue_kernel (s : State) (x1 : Nat) (x2 : Fields) (x3 : Nat) (x4 : State → State) (hx4 : ∀ y0, (x4 y0).kernel = y0.kernel) : (State.xactIssue s x1 x2 x3 x4).kernel = s.kernel := by
  unfold State.xactIssue
  try dsimp only
  repeat' first | with_reducible rfl | (simp; done) | split | (refine (State.strandIssue_kernel _ _ _ _ _ _ _ ?_).trans ?_) | (refine (foldl_fst_kernel _ _ ?_ _).trans ?_) | (intro _) | rfl | (simp [State.kernel, Function.comp_def]; done) | (fail_if_no_progress (simp only [State.kernel]; simp only [State.kernel_mk])) | (simp_all; done)

@[simp] theorem doXwtwait_kernel (s : State) (x0 : Nat) (x1 : Fields)  : (doXwtwait x0 x1 s).kernel = s.kernel := by
  unfold doXwtwait
  try dsimp only
  repeat' first | with_reducible rfl | (simp; done) | split | (refine (State.xactIssue_kernel _ _ _ _ _ ?_).trans ?_) | (refine (foldl_fst_kernel _ _ ?_ _).trans ?_) | (intro _) | simp only [State.waitOn_kernel, State.setReg_kernel] | rfl | (simp [State.kernel, Function.comp_def]; done) | (fail_if_no_progress (simp only [State.kernel]; simp only [State.kernel_mk])) | (simp_all; done)

@[simp] theorem doWriteThroughDue_kernel (s : State) (x0 : Nat)  : (doWriteThroughDue x0 s).kernel = s.kernel := by
  unfold doWriteThroughDue
  try dsimp only
  repeat' first | with_reducible rfl | (simp; done) | split | (refine (foldl_fst_kernel _ _ ?_ _).trans ?_) | (intro _) | simp only [State.requestOnce_kernel, State.wtGo_kernel] | rfl | (simp [State.kernel, Function.comp_def]; done) | (fail_if_no_progress (simp only [State.kernel]; simp only [State.kernel_mk])) | (simp_all; done)

@[simp] theorem State.claimLine_kernel (s : State) (x1 : Nat) (x2 : Txn) (x3 : Bool) (x4 : Bool) (x5 : Nat) (x6 : DWord)  : (State.claimLine s x1 x2 x3 x4 x5 x6).kernel = s.kernel := by
  unfold State.claimLine
  try dsimp only
  repeat' first | with_reducible rfl | (simp; done) | split | (refine (foldl_fst_kernel _ _ ?_ _).trans ?_) | (intro _) | simp only [State.readOwn_kernel, State.modDir_kernel, State.useLine_kernel, State.abortTxn_kernel] | rfl | (simp [State.kernel, Function.comp_def]; done) | (fail_if_no_progress (simp only [State.kernel]; simp only [State.kernel_mk])) | (simp_all; done)

@[simp] theorem State.xwriteOpen_kernel (s : State) (x1 : Nat) (x2 : Nat) (x3 : Nat) (x4 : Txn) (x5 : Bool) (x6 : DWord) (x7 : DWord)  : (State.xwriteOpen s x1 x2 x3 x4 x5 x6 x7).kernel = s.kernel := by
  unfold State.xwriteOpen
  try dsimp only
  repeat' first | with_reducible rfl | (simp; done) | split | (refine (foldl_fst_kernel _ _ ?_ _).trans ?_) | (intro _) | simp only [State.waitOn_kernel, State.request_kernel, State.claimLine_kernel, State.abortTxn_kernel, State.modStrand_kernel] | rfl | (simp [State.kernel, Function.comp_def]; done) | (fail_if_no_progress (simp only [State.kernel]; simp only [State.kernel_mk])) | (simp_all; done)

@[simp] theorem State.xwrite_kernel (s : State) (x1 : Bool) (x2 : Nat) (x3 : Fields)  : (State.xwrite s x1 x2 x3).kernel = s.kernel := by
  unfold State.xwrite
  try dsimp only
  repeat' first | with_reducible rfl | (simp; done) | split | (refine (State.readIssue_kernel _ _ _ _ _ ?_).trans ?_) | (refine (foldl_fst_kernel _ _ ?_ _).trans ?_) | (intro _) | simp only [State.xwriteOpen_kernel, State.setReg_kernel] | rfl | (simp [State.kernel, Function.comp_def]; done) | (fail_if_no_progress (simp only [State.kernel]; simp only [State.kernel_mk])) | (simp_all; done)

@[simp] theorem doXwriteNode_kernel (s : State) (x0 : Nat) (x1 : Fields)  : (doXwriteNode x0 x1 s).kernel = s.kernel := by
  unfold doXwriteNode
  try dsimp only
  repeat' first | with_reducible rfl | (simp; done) | split | (refine (foldl_fst_kernel _ _ ?_ _).trans ?_) | (intro _) | simp only [State.xwrite_kernel] | rfl | (simp [State.kernel, Function.comp_def]; done) | (fail_if_no_progress (simp only [State.kernel]; simp only [State.kernel_mk])) | (simp_all; done)

@[simp] theorem doXstat_kernel (s : State) (x0 : Nat) (x1 : Fields)  : (doXstat x0 x1 s).kernel = s.kernel := by
  unfold doXstat
  try dsimp only
  repeat' first | with_reducible rfl | (simp; done) | split | (refine (State.xactIssue_kernel _ _ _ _ _ ?_).trans ?_) | (refine (foldl_fst_kernel _ _ ?_ _).trans ?_) | (intro _) | simp only [State.setReg_kernel] | rfl | (simp [State.kernel, Function.comp_def]; done) | (fail_if_no_progress (simp only [State.kernel]; simp only [State.kernel_mk])) | (simp_all; done)

@[simp] theorem doXabort_kernel (s : State) (x0 : Nat) (x1 : Fields)  : (doXabort x0 x1 s).kernel = s.kernel := by
  unfold doXabort
  try dsimp only
  repeat' first | with_reducible rfl | (simp; done) | split | (refine (State.xactIssue_kernel _ _ _ _ _ ?_).trans ?_) | (refine (foldl_fst_kernel _ _ ?_ _).trans ?_) | (intro _) | simp only [State.abortTxn_kernel, State.setReg_kernel] | rfl | (simp [State.kernel, Function.comp_def]; done) | (fail_if_no_progress (simp only [State.kernel]; simp only [State.kernel_mk])) | (simp_all; done)

@[simp] theorem State.settleWt_kernel (s : State) (x1 : Nat)  : (State.settleWt s x1).kernel = s.kernel := by
  unfold State.settleWt
  try dsimp only
  repeat' first | with_reducible rfl | (simp; done) | split | (refine (foldl_fst_kernel _ _ ?_ _).trans ?_) | (intro _) | simp only [State.wake_kernel] | rfl | (simp [State.kernel, Function.comp_def]; done) | (fail_if_no_progress (simp only [State.kernel]; simp only [State.kernel_mk])) | (simp_all; done)

@[simp] theorem doXbegin_kernel (s : State) (x0 : Nat) (x1 : Fields)  : (doXbegin x0 x1 s).kernel = s.kernel := by
  unfold doXbegin
  try dsimp only
  repeat' first | with_reducible rfl | (simp; done) | split | (have hp := State.takeId_kernel' ‹_›; dsimp only at hp; first | exact hp | (rw [hp]; try clear hp)) | (refine (State.strandIssue_kernel _ _ _ _ _ _ _ ?_).trans ?_) | (refine (foldl_fst_kernel _ _ ?_ _).trans ?_) | (intro _) | simp only [State.countC_kernel, State.setReg_kernel, State.askScene_kernel, State.takeId_kernel] | rfl | (simp [State.kernel, Function.comp_def]; done) | (fail_if_no_progress (simp only [State.kernel]; simp only [State.kernel_mk])) | (simp_all; done)

@[simp] theorem doXwriteReadDone_kernel (s : State) (x0 : Nat) (x1 : Line)  : (doXwriteReadDone x0 x1 s).kernel = s.kernel := by
  unfold doXwriteReadDone
  try dsimp only
  repeat' first | with_reducible rfl | (simp; done) | split | (refine (foldl_fst_kernel _ _ ?_ _).trans ?_) | (intro _) | simp only [State.injectSram_kernel, State.clearMark_kernel, State.finishXfer_kernel, State.wake_kernel] | rfl | (simp [State.kernel, Function.comp_def]; done) | (fail_if_no_progress (simp only [State.kernel]; simp only [State.kernel_mk])) | (simp_all; done)

@[simp] theorem doXwriteLeaf_kernel (s : State) (x0 : Nat) (x1 : Fields)  : (doXwriteLeaf x0 x1 s).kernel = s.kernel := by
  unfold doXwriteLeaf
  try dsimp only
  repeat' first | with_reducible rfl | (simp; done) | split | (refine (foldl_fst_kernel _ _ ?_ _).trans ?_) | (intro _) | simp only [State.xwrite_kernel] | rfl | (simp [State.kernel, Function.comp_def]; done) | (fail_if_no_progress (simp only [State.kernel]; simp only [State.kernel_mk])) | (simp_all; done)

@[simp] theorem State.rekey_kernel (s : State) (x1 : CohortId) (x2 : CohortId)  : (State.rekey s x1 x2).kernel = s.kernel := by
  unfold State.rekey
  try dsimp only
  repeat' first | with_reducible rfl | (simp; done) | split | (refine (foldS_kernel _ _ _ ?_).trans ?_) | (refine (foldl_fst_kernel _ _ ?_ _).trans ?_) | (intro _) | simp only [State.leaveSlot_kernel, State.dropFills_kernel] | rfl | (simp [State.kernel, Function.comp_def]; done) | (fail_if_no_progress (simp only [State.kernel]; simp only [State.kernel_mk])) | (simp_all; done)

@[simp] theorem doXwtpend_kernel (s : State) (x0 : Nat) (x1 : Fields)  : (doXwtpend x0 x1 s).kernel = s.kernel := by
  unfold doXwtpend
  try dsimp only
  repeat' first | with_reducible rfl | (simp; done) | split | (refine (State.xactIssue_kernel _ _ _ _ _ ?_).trans ?_) | (refine (foldl_fst_kernel _ _ ?_ _).trans ?_) | (intro _) | simp only [State.setReg_kernel] | rfl | (simp [State.kernel, Function.comp_def]; done) | (fail_if_no_progress (simp only [State.kernel]; simp only [State.kernel_mk])) | (simp_all; done)

@[simp] theorem State.rekeyCrown_kernel (s : State) (x1 : CrownRec)  : (State.rekeyCrown s x1).kernel = s.kernel := by
  unfold State.rekeyCrown
  try dsimp only
  repeat' first | with_reducible rfl | (simp; done) | split | (refine (foldS_kernel _ _ _ ?_).trans ?_) | (refine (foldl_fst_kernel _ _ ?_ _).trans ?_) | (intro _) | simp only [State.rekey_kernel, State.removeCrown_kernel] | rfl | (simp [State.kernel, Function.comp_def]; done) | (fail_if_no_progress (simp only [State.kernel]; simp only [State.kernel_mk])) | (simp_all; done)

@[simp] theorem State.rekeyBoughs_kernel (s : State) (x1 : BufLine)  : (State.rekeyBoughs s x1).kernel = s.kernel := by
  unfold State.rekeyBoughs
  try dsimp only
  repeat' first | with_reducible rfl | (simp; done) | split | (refine (foldS_kernel _ _ _ ?_).trans ?_) | (refine (foldl_fst_kernel _ _ ?_ _).trans ?_) | (intro _) | simp only [State.rekeyCrown_kernel, State.rekey_kernel] | rfl | (simp [State.kernel, Function.comp_def]; done) | (fail_if_no_progress (simp only [State.kernel]; simp only [State.kernel_mk])) | (simp_all; done)

@[simp] theorem State.rekeyBlocks_kernel (s : State) (x1 : BufLine)  : (State.rekeyBlocks s x1).kernel = s.kernel := by
  unfold State.rekeyBlocks
  try dsimp only
  repeat' first | with_reducible rfl | (simp; done) | split | (refine (foldl_fst_kernel _ _ ?_ _).trans ?_) | (intro _) | rfl | (simp [State.kernel, Function.comp_def]; done) | (fail_if_no_progress (simp only [State.kernel]; simp only [State.kernel_mk])) | (simp_all; done)

@[simp] theorem doWriteThroughAck_kernel (s : State) (x0 : Nat)  : (doWriteThroughAck x0 s).kernel = s.kernel := by
  unfold doWriteThroughAck
  try dsimp only
  repeat' first | with_reducible rfl | (simp; done) | split | (refine (foldl_fst_kernel _ _ ?_ _).trans ?_) | (intro _) | simp only [State.rekeyBoughs_kernel, State.rekeyBlocks_kernel, State.settleWt_kernel, State.clearMark_kernel, State.count_kernel, State.finishXfer_kernel] | rfl | (simp [State.kernel, Function.comp_def]; done) | (fail_if_no_progress (simp only [State.kernel]; simp only [State.kernel_mk])) | (simp_all; done)

@[simp] theorem doXcommit_kernel (s : State) (x0 : Nat) (x1 : Fields)  : (doXcommit x0 x1 s).kernel = s.kernel := by
  unfold doXcommit
  try dsimp only
  repeat' first | with_reducible rfl | (simp; done) | split | (refine (foldS_kernel _ _ _ ?_).trans ?_) | (refine (State.xactIssue_kernel _ _ _ _ _ ?_).trans ?_) | (refine (foldl_fst_kernel _ _ ?_ _).trans ?_) | (intro _) | simp only [State.claimLine_kernel, State.waitOn_kernel, State.setReg_kernel] | rfl | (simp [State.kernel, Function.comp_def]; done) | (fail_if_no_progress (simp only [State.kernel]; simp only [State.kernel_mk])) | (simp_all; done)

end Sys2Proof.Machine
end

