-- ==== Sys2Proof/Laws/KernelIntegrity.lean ====
section
/-! SUPPORT. Laws/KernelIntegrity.lean: the operations of Machine/Integrity.lean leave the kernel as it is. -/
namespace Sys2Proof.Machine

@[simp] theorem doTxnScrub_kernel (s : State) (x0 : Option EccError)  : (doTxnScrub x0 s).kernel = s.kernel := by
  unfold doTxnScrub
  try dsimp only
  repeat' first | with_reducible rfl | (simp; done) | split | (refine (foldl_fst_kernel _ _ ?_ _).trans ?_) | (intro _) | simp only [State.readBuf_kernel] | rfl | (simp [State.kernel, Function.comp_def]; done) | (fail_if_no_progress (simp only [State.kernel]; simp only [State.kernel_mk])) | (simp_all; done)

@[simp] theorem State.fabricFail_kernel (s : State) (x1 : Nat) (x2 : Nat) (x3 : DWord)  : (State.fabricFail s x1 x2 x3).kernel = s.kernel := by
  unfold State.fabricFail
  try dsimp only
  repeat' first | with_reducible rfl | (simp; done) | split | (refine (foldl_fst_kernel _ _ ?_ _).trans ?_) | (intro _) | simp only [State.count_kernel, State.log_kernel] | rfl | (simp [State.kernel, Function.comp_def]; done) | (fail_if_no_progress (simp only [State.kernel]; simp only [State.kernel_mk])) | (simp_all; done)

@[simp] theorem State.failOnce_kernel (s : State) (x1 : Nat) (x2 : State → Nat → State) (x3 : State → State) (hx2 : ∀ y0 y1, (x2 y0 y1).kernel = y0.kernel) (hx3 : ∀ y0, (x3 y0).kernel = y0.kernel) : (State.failOnce s x1 x2 x3).kernel = s.kernel := by
  unfold State.failOnce
  try dsimp only
  repeat' first | with_reducible rfl | (simp; done) | split | (refine (foldl_fst_kernel _ _ ?_ _).trans ?_) | (intro _) | simp only [State.count_kernel] | rfl | (simp [State.kernel, Function.comp_def]; done) | (fail_if_no_progress (simp only [State.kernel]; simp only [State.kernel_mk])) | (simp_all; done)

@[simp] theorem State.lineFails_kernel (s : State) (x1 : Xfer) (x2 : Nat) (x3 : Nat) (x4 : DWord) (x5 : State → State) (hx5 : ∀ y0, (x5 y0).kernel = y0.kernel) : (State.lineFails s x1 x2 x3 x4 x5).kernel = s.kernel := by
  unfold State.lineFails
  try dsimp only
  repeat' first | with_reducible rfl | (simp; done) | split | (refine (State.failOnce_kernel _ _ _ _ ?_ ?_).trans ?_) | (refine (foldl_fst_kernel _ _ ?_ _).trans ?_) | (intro _) | simp only [State.fabricFail_kernel, State.modXfer_kernel] | rfl | (simp [State.kernel, Function.comp_def]; done) | (fail_if_no_progress (simp only [State.kernel]; simp only [State.kernel_mk])) | (simp_all; done)

@[simp] theorem State.scanLineFails_kernel (s : State) (x1 : Nat) (x2 : Xfer) (x3 : Nat)  : (State.scanLineFails s x1 x2 x3).kernel = s.kernel := by
  unfold State.scanLineFails
  try dsimp only
  repeat' first | with_reducible rfl | (simp; done) | split | (refine (State.lineFails_kernel _ _ _ _ _ _ ?_).trans ?_) | (refine (foldl_fst_kernel _ _ ?_ _).trans ?_) | (intro _) | simp only [State.modScan_kernel, State.finishXfer_kernel, State.finishScan_kernel] | rfl | (simp [State.kernel, Function.comp_def]; done) | (fail_if_no_progress (simp only [State.kernel]; simp only [State.kernel_mk])) | (simp_all; done)

theorem State.loseLeafHandle_kernel {s t : State} {x1 : Nat} {x2 : Nat}  (h : State.loseLeafHandle s x1 x2 = some t) : t.kernel = s.kernel := by
  unfold State.loseLeafHandle at h
  try dsimp only at h
  repeat' first | (simp only [Option.some.injEq, reduceCtorEq] at h) | split at h
  all_goals first | (cases h; done) | ((try subst h); repeat' first | with_reducible rfl | (simp; done) | split | (refine (foldl_fst_kernel _ _ ?_ _).trans ?_) | (intro _) | simp only [State.request_kernel, State.modStream_kernel] | rfl | (simp [State.kernel, Function.comp_def]; done) | (fail_if_no_progress (simp only [State.kernel]; simp only [State.kernel_mk])) | (simp_all; done))
theorem State.loseLeafHandle_kernel_getD {s d : State} {x1 : Nat} {x2 : Nat}  (hd : d.kernel = s.kernel) : ((State.loseLeafHandle s x1 x2).getD d).kernel = s.kernel := by
  cases h : State.loseLeafHandle s x1 x2 with
  | none => exact hd
  | some t => exact State.loseLeafHandle_kernel h

@[simp] theorem State.reissueFill_kernel (s : State) (x1 : CohortId)  : (State.reissueFill s x1).kernel = s.kernel := by
  unfold State.reissueFill
  try dsimp only
  repeat' first | with_reducible rfl | (simp; done) | split | (refine (foldl_fst_kernel _ _ ?_ _).trans ?_) | (intro _) | simp only [State.request_kernel, State.modFill_kernel, State.finishXfer_kernel] | rfl | (simp [State.kernel, Function.comp_def]; done) | (fail_if_no_progress (simp only [State.kernel]; simp only [State.kernel_mk])) | (simp_all; done)

theorem State.losePlacement_kernel {s t : State} {g i : Nat} (h : s.losePlacement g i = some t) : t.kernel = s.kernel := by
  obtain ⟨e, -, rfl⟩ := Option.map_eq_some_iff.mp h
  simp

@[simp] theorem State.loseDepart_kernel (s : State) (x1 : RLine)  : (State.loseDepart s x1).kernel = s.kernel := by
  unfold State.loseDepart
  try dsimp only
  repeat' first | with_reducible rfl | (simp; done) | split | (refine (foldl_fst_kernel _ _ ?_ _).trans ?_) | (intro _) | rfl | (simp [State.kernel, Function.comp_def]; done) | (fail_if_no_progress (simp only [State.kernel]; simp only [State.kernel_mk])) | (simp_all; done)

@[simp] theorem State.disownLine_kernel (s : State) (x1 : RLine)  : (State.disownLine s x1).kernel = s.kernel := by
  unfold State.disownLine
  try dsimp only
  repeat' first | with_reducible rfl | (simp; done) | split | (refine (foldl_fst_kernel _ _ ?_ _).trans ?_) | (intro _) | rfl | (simp [State.kernel, Function.comp_def]; done) | (fail_if_no_progress (simp only [State.kernel]; simp only [State.kernel_mk])) | (simp_all; done)

@[simp] theorem State.loseDir_kernel (s : State) (x1 : RLine)  : (State.loseDir s x1).kernel = s.kernel := by
  unfold State.loseDir
  try dsimp only
  repeat' first | with_reducible rfl | (simp; done) | split | (refine (foldl_fst_kernel _ _ ?_ _).trans ?_) | (intro _) | simp only [State.dropDir_kernel, State.disownLine_kernel] | rfl | (simp [State.kernel, Function.comp_def]; done) | (fail_if_no_progress (simp only [State.kernel]; simp only [State.kernel_mk])) | (simp_all; done)

@[simp] theorem State.parity_kernel (s : State) (x1 : Bool) (x2 : Nat) (x3 : Nat) (x4 : Nat) (x5 : Bool)  : (State.parity s x1 x2 x3 x4 x5).kernel = s.kernel := by
  unfold State.parity
  try dsimp only
  repeat' first | with_reducible rfl | (simp; done) | split | (refine (foldl_fst_kernel _ _ ?_ _).trans ?_) | (intro _) | simp only [State.interrupt_kernel, State.count_kernel, State.logInj_kernel] | rfl | (simp [State.kernel, Function.comp_def]; done) | (fail_if_no_progress (simp only [State.kernel]; simp only [State.kernel_mk])) | (simp_all; done)

theorem State.ctrlFault_kernel {s t : State} {x1 : Bool} {x2 : CtrlFault}  (h : State.ctrlFault s x1 x2 = some t) : t.kernel = s.kernel := by
  unfold State.ctrlFault at h
  try dsimp only at h
  repeat' first | (simp only [Option.some.injEq, reduceCtorEq] at h) | split at h
  all_goals first | (cases h; done) | ((try subst h); repeat' first | with_reducible rfl | (simp; done) | split | rw [State.loseLeafHandle_kernel ‹_›] | rw [State.losePlacement_kernel ‹_›] | (refine (foldl_fst_kernel _ _ ?_ _).trans ?_) | (intro _) | (first | exact State.loseLeafHandle_kernel h | exact (State.loseLeafHandle_kernel h).trans (by simp) | exact State.losePlacement_kernel h | exact (State.losePlacement_kernel h).trans (by simp)) | (first | (refine (State.loseLeafHandle_kernel_getD ?_).trans ?_) | (refine (State.losePlacement_kernel_getD ?_).trans ?_)) | simp only [State.loseDepart_kernel, State.loseDir_kernel, State.failQuery_kernel, State.reissueFill_kernel, State.cancelStream_kernel, State.modStrand_kernel, State.failLane_kernel, State.invalidate_kernel, State.modCohort_kernel, State.parity_kernel] | rfl | (simp [State.kernel, Function.comp_def]; done) | (fail_if_no_progress (simp only [State.kernel]; simp only [State.kernel_mk])) | (simp_all; done))
theorem State.ctrlFault_kernel_getD {s d : State} {x1 : Bool} {x2 : CtrlFault}  (hd : d.kernel = s.kernel) : ((State.ctrlFault s x1 x2).getD d).kernel = s.kernel := by
  cases h : State.ctrlFault s x1 x2 with
  | none => exact hd
  | some t => exact State.ctrlFault_kernel h

@[simp] theorem doSchedSweep_kernel (s : State) (x0 : Option CtrlFault)  : (doSchedSweep x0 s).kernel = s.kernel := by
  unfold doSchedSweep
  try dsimp only
  repeat' first | with_reducible rfl | (simp; done) | split | rw [State.ctrlFault_kernel ‹_›] | (refine (foldl_fst_kernel _ _ ?_ _).trans ?_) | (intro _) | (first | exact State.ctrlFault_kernel h | exact (State.ctrlFault_kernel h).trans (by simp)) | (first | (refine (State.ctrlFault_kernel_getD ?_).trans ?_)) | simp only [State.disarm_kernel] | rfl | (simp [State.kernel, Function.comp_def]; done) | (fail_if_no_progress (simp only [State.kernel]; simp only [State.kernel_mk])) | (simp_all; done)

@[simp] theorem State.collUncorrected_kernel (s : State) (x1 : Bool)  : (State.collUncorrected s x1).kernel = s.kernel := by
  unfold State.collUncorrected
  try dsimp only
  repeat' first | with_reducible rfl | (simp; done) | split | (have hp := State.draw_kernel' ‹_›; dsimp only at hp; first | exact hp | (rw [hp]; try clear hp)) | (refine (foldl_fst_kernel _ _ ?_ _).trans ?_) | (intro _) | simp only [State.collFault_kernel, State.draw_kernel] | rfl | (simp [State.kernel, Function.comp_def]; done) | (fail_if_no_progress (simp only [State.kernel]; simp only [State.kernel_mk])) | (simp_all; done)

@[simp] theorem State.spineUncorrected_kernel (s : State) (x1 : Bool) (x2 : Nat)  : (State.spineUncorrected s x1 x2).kernel = s.kernel := by
  unfold State.spineUncorrected
  try dsimp only
  repeat' first | with_reducible rfl | (simp; done) | split | (refine (foldl_fst_kernel _ _ ?_ _).trans ?_) | (intro _) | simp only [State.collUncorrected_kernel, State.failQuery_kernel] | rfl | (simp [State.kernel, Function.comp_def]; done) | (fail_if_no_progress (simp only [State.kernel]; simp only [State.kernel_mk])) | (simp_all; done)

@[simp] theorem State.writeFails_kernel (s : State) (x1 : Nat)  : (State.writeFails s x1).kernel = s.kernel := by
  unfold State.writeFails
  try dsimp only
  repeat' first | with_reducible rfl | (simp; done) | split | (refine (State.failOnce_kernel _ _ _ _ ?_ ?_).trans ?_) | (refine (foldl_fst_kernel _ _ ?_ _).trans ?_) | (intro _) | simp only [State.fabricFail_kernel, State.ackWrite_kernel, State.modCompletion_kernel] | rfl | (simp [State.kernel, Function.comp_def]; done) | (fail_if_no_progress (simp only [State.kernel]; simp only [State.kernel_mk])) | (simp_all; done)

@[simp] theorem doKatInjection_kernel (s : State) (x0 : Nat) (x1 : Bool)  : (doKatInjection x0 x1 s).kernel = s.kernel := by
  unfold doKatInjection
  try dsimp only
  repeat' first | with_reducible rfl | (simp; done) | split | (refine (foldl_fst_kernel _ _ ?_ _).trans ?_) | (intro _) | simp only [State.count_kernel, State.logInj_kernel, State.interrupt_kernel, State.failBank_kernel, State.disarm_kernel, State.modBank_kernel] | rfl | (simp [State.kernel, Function.comp_def]; done) | (fail_if_no_progress (simp only [State.kernel]; simp only [State.kernel_mk])) | (simp_all; done)

@[simp] theorem State.strandReadFails_kernel (s : State) (x1 : Nat) (x2 : DWord)  : (State.strandReadFails s x1 x2).kernel = s.kernel := by
  unfold State.strandReadFails
  try dsimp only
  repeat' first | with_reducible rfl | (simp; done) | split | (refine (State.failOnce_kernel _ _ _ _ ?_ ?_).trans ?_) | (refine (foldl_fst_kernel _ _ ?_ _).trans ?_) | (intro _) | simp only [State.fabricFail_kernel, State.kill_kernel, State.modStrand_kernel] | rfl | (simp [State.kernel, Function.comp_def]; done) | (fail_if_no_progress (simp only [State.kernel]; simp only [State.kernel_mk])) | (simp_all; done)

@[simp] theorem State.loseDirLine_kernel (s : State) (x1 : Nat) (x2 : Nat)  : (State.loseDirLine s x1 x2).kernel = s.kernel := by
  unfold State.loseDirLine
  try dsimp only
  repeat' first | with_reducible rfl | (simp; done) | split | (refine (foldl_fst_kernel _ _ ?_ _).trans ?_) | (intro _) | simp only [State.loseDepart_kernel, State.loseDir_kernel] | rfl | (simp [State.kernel, Function.comp_def]; done) | (fail_if_no_progress (simp only [State.kernel]; simp only [State.kernel_mk])) | (simp_all; done)

@[simp] theorem doDirScrub_kernel (s : State) (x0 : Option EccError)  : (doDirScrub x0 s).kernel = s.kernel := by
  unfold doDirScrub
  try dsimp only
  repeat' first | with_reducible rfl | (simp; done) | split | (have hp := State.draw_kernel' ‹_›; dsimp only at hp; first | exact hp | (rw [hp]; try clear hp)) | (refine (foldl_fst_kernel _ _ ?_ _).trans ?_) | (intro _) | simp only [State.loseDirLine_kernel, State.count_kernel, State.report_kernel, State.draw_kernel] | rfl | (simp [State.kernel, Function.comp_def]; done) | (fail_if_no_progress (simp only [State.kernel]; simp only [State.kernel_mk])) | (simp_all; done)

@[simp] theorem State.leafLineFails_kernel (s : State) (x1 : Nat) (x2 : LeafFill) (x3 : Rec64) (x4 : Xfer) (x5 : Nat)  : (State.leafLineFails s x1 x2 x3 x4 x5).kernel = s.kernel := by
  unfold State.leafLineFails
  try dsimp only
  repeat' first | with_reducible rfl | (simp; done) | split | (refine (State.lineFails_kernel _ _ _ _ _ _ ?_).trans ?_) | (refine (foldl_fst_kernel _ _ ?_ _).trans ?_) | (intro _) | simp only [State.leafArrived_kernel] | rfl | (simp [State.kernel, Function.comp_def]; done) | (fail_if_no_progress (simp only [State.kernel]; simp only [State.kernel_mk])) | (simp_all; done)

@[simp] theorem State.tableFails_kernel (s : State) (x1 : Nat) (x2 : DWord)  : (State.tableFails s x1 x2).kernel = s.kernel := by
  unfold State.tableFails
  try dsimp only
  repeat' first | with_reducible rfl | (simp; done) | split | (refine (State.failOnce_kernel _ _ _ _ ?_ ?_).trans ?_) | (refine (foldl_fst_kernel _ _ ?_ _).trans ?_) | (intro _) | simp only [State.fabricFail_kernel, State.modCtx_kernel] | rfl | (simp [State.kernel, Function.comp_def]; done) | (fail_if_no_progress (simp only [State.kernel]; simp only [State.kernel_mk])) | (simp_all; done)

@[simp] theorem State.readingFails_kernel (s : State) (x1 : Nat) (x2 : Run) (x3 : Xfer)  : (State.readingFails s x1 x2 x3).kernel = s.kernel := by
  unfold State.readingFails
  try dsimp only
  repeat' first | with_reducible rfl | (simp; done) | split | (refine (foldl_fst_kernel _ _ ?_ _).trans ?_) | (intro _) | simp only [State.settleCut_kernel, State.finishXfer_kernel, State.loseRun_kernel, State.modOvf_kernel, State.modXfer_kernel, State.pumpLines_kernel] | rfl | (simp [State.kernel, Function.comp_def]; done) | (fail_if_no_progress (simp only [State.kernel]; simp only [State.kernel_mk])) | (simp_all; done)

@[simp] theorem doScrubRead_kernel (s : State) (x0 : Nat) (x1 : Option EccError)  : (doScrubRead x0 x1 s).kernel = s.kernel := by
  unfold doScrubRead
  try dsimp only
  repeat' first | with_reducible rfl | (simp; done) | split | (have hp := State.bankRead_kernel' ‹_›; dsimp only at hp; first | exact hp | (rw [hp]; try clear hp)) | (refine (foldl_fst_kernel _ _ ?_ _).trans ?_) | (intro _) | simp only [State.modBank_kernel, State.clearMark_kernel, State.count_kernel, State.invalidate_kernel, State.bankRead_kernel] | rfl | (simp [State.kernel, Function.comp_def]; done) | (fail_if_no_progress (simp only [State.kernel]; simp only [State.kernel_mk])) | (simp_all; done)

@[simp] theorem doCohortEntryRebuilt_kernel (s : State) (x0 : CohortId)  : (doCohortEntryRebuilt x0 s).kernel = s.kernel := by
  unfold doCohortEntryRebuilt
  try dsimp only
  repeat' first | with_reducible rfl | (simp; done) | split | (refine (foldl_fst_kernel _ _ ?_ _).trans ?_) | (intro _) | simp only [State.modCohort_kernel, State.lapse_kernel] | rfl | (simp [State.kernel, Function.comp_def]; done) | (fail_if_no_progress (simp only [State.kernel]; simp only [State.kernel_mk])) | (simp_all; done)

@[simp] theorem State.tileLineFails_kernel (s : State) (x1 : Nat) (x2 : Nat) (x3 : Xfer) (x4 : Nat)  : (State.tileLineFails s x1 x2 x3 x4).kernel = s.kernel := by
  unfold State.tileLineFails
  try dsimp only
  repeat' first | with_reducible rfl | (simp; done) | split | (refine (State.lineFails_kernel _ _ _ _ _ _ ?_).trans ?_) | (refine (foldl_fst_kernel _ _ ?_ _).trans ?_) | (intro _) | simp only [State.modXfer_kernel] | rfl | (simp [State.kernel, Function.comp_def]; done) | (fail_if_no_progress (simp only [State.kernel]; simp only [State.kernel_mk])) | (simp_all; done)

@[simp] theorem State.runLineFails_kernel (s : State) (x1 : Nat) (x2 : Run) (x3 : Xfer) (x4 : Nat)  : (State.runLineFails s x1 x2 x3 x4).kernel = s.kernel := by
  unfold State.runLineFails
  try dsimp only
  repeat' first | with_reducible rfl | (simp; done) | split | (refine (State.lineFails_kernel _ _ _ _ _ _ ?_).trans ?_) | (refine (foldl_fst_kernel _ _ ?_ _).trans ?_) | (intro _) | simp only [State.readingFails_kernel] | rfl | (simp [State.kernel, Function.comp_def]; done) | (fail_if_no_progress (simp only [State.kernel]; simp only [State.kernel_mk])) | (simp_all; done)

@[simp] theorem State.fillLineFails_kernel (s : State) (x1 : CohortId) (x2 : Rec64) (x3 : Fill) (x4 : Nat)  : (State.fillLineFails s x1 x2 x3 x4).kernel = s.kernel := by
  unfold State.fillLineFails
  try dsimp only
  repeat' first | with_reducible rfl | (simp; done) | split | (refine (State.failOnce_kernel _ _ _ _ ?_ ?_).trans ?_) | (refine (foldl_fst_kernel _ _ ?_ _).trans ?_) | (intro _) | simp only [State.checkFill_kernel, State.fabricFail_kernel, State.modFill_kernel] | rfl | (simp [State.kernel, Function.comp_def]; done) | (fail_if_no_progress (simp only [State.kernel]; simp only [State.kernel_mk])) | (simp_all; done)

@[simp] theorem doFabricRetry_kernel (s : State) (x0 : FabricItem)  : (doFabricRetry x0 s).kernel = s.kernel := by
  unfold doFabricRetry
  try dsimp only
  repeat' first | with_reducible rfl | (simp; done) | split | (refine (State.lineFails_kernel _ _ _ _ _ _ ?_).trans ?_) | (refine (foldl_fst_kernel _ _ ?_ _).trans ?_) | (intro _) | simp only [State.strandReadFails_kernel, State.writeFails_kernel, State.tableFails_kernel, State.tileLineFails_kernel, State.scanLineFails_kernel, State.runLineFails_kernel, State.leafLineFails_kernel, State.fillLineFails_kernel] | rfl | (simp [State.kernel, Function.comp_def]; done) | (fail_if_no_progress (simp only [State.kernel]; simp only [State.kernel_mk])) | (simp_all; done)

@[simp] theorem doSpineScrub_kernel (s : State) (x0 : Option EccError)  : (doSpineScrub x0 s).kernel = s.kernel := by
  unfold doSpineScrub
  try dsimp only
  repeat' first | with_reducible rfl | (simp; done) | split | (have hp := State.spineRead_kernel' ‹_›; dsimp only at hp; first | exact hp | (rw [hp]; try clear hp)) | (refine (foldl_fst_kernel _ _ ?_ _).trans ?_) | (intro _) | simp only [State.spineUncorrected_kernel, State.spineRead_kernel] | rfl | (simp [State.kernel, Function.comp_def]; done) | (fail_if_no_progress (simp only [State.kernel]; simp only [State.kernel_mk])) | (simp_all; done)

end Sys2Proof.Machine
end

