-- ==== Sys2Proof/Laws/KernelForward.lean ====
section
/-! SUPPORT. Laws/KernelForward.lean: the operations of Machine/Forward.lean leave the kernel as it is. -/
namespace Sys2Proof.Machine

@[simp] theorem State.settleForward_kernel (s : State) (x1 : Nat)  : (State.settleForward s x1).kernel = s.kernel := by
  unfold State.settleForward
  try dsimp only
  repeat' first | with_reducible rfl | (simp; done) | split | (refine (foldl_fst_kernel _ _ ?_ _).trans ?_) | (intro _) | simp only [State.toSource_kernel, State.settleWatch_kernel, State.modQuery_kernel] | rfl | (simp [State.kernel, Function.comp_def]; done) | (fail_if_no_progress (simp only [State.kernel]; simp only [State.kernel_mk])) | (simp_all; done)

@[simp] theorem State.fwdDiscard_kernel (s : State) (x1 : Rec64)  : (State.fwdDiscard s x1).kernel = s.kernel := by
  unfold State.fwdDiscard
  try dsimp only
  repeat' first | with_reducible rfl | (simp; done) | split | (refine (foldl_fst_kernel _ _ ?_ _).trans ?_) | (intro _) | simp only [State.countC_kernel] | rfl | (simp [State.kernel, Function.comp_def]; done) | (fail_if_no_progress (simp only [State.kernel]; simp only [State.kernel_mk])) | (simp_all; done)

@[simp] theorem State.heardFrom_kernel (s : State) (x1 : Nat)  : (State.heardFrom s x1).kernel = s.kernel := by
  unfold State.heardFrom
  try dsimp only
  repeat' first | with_reducible rfl | (simp; done) | split | (refine (foldl_fst_kernel _ _ ?_ _).trans ?_) | (intro _) | rfl | (simp [State.kernel, Function.comp_def]; done) | (fail_if_no_progress (simp only [State.kernel]; simp only [State.kernel_mk])) | (simp_all; done)

@[simp] theorem State.fwdBad_kernel (s : State) (x1 : Rec64)  : (State.fwdBad s x1).kernel = s.kernel := by
  unfold State.fwdBad
  try dsimp only
  repeat' first | with_reducible rfl | (simp; done) | split | (have hp := State.draw_kernel' ‹_›; dsimp only at hp; first | exact hp | (rw [hp]; try clear hp)) | (refine (foldl_fst_kernel _ _ ?_ _).trans ?_) | (intro _) | simp only [State.count_kernel, State.report_kernel, State.draw_kernel] | rfl | (simp [State.kernel, Function.comp_def]; done) | (fail_if_no_progress (simp only [State.kernel]; simp only [State.kernel_mk])) | (simp_all; done)

@[simp] theorem State.onPacket_kernel (s : State) (x1 : Rec64) (x2 : Nat) (x3 : Nat) (x4 : State → State) (hx4 : ∀ y0, (x4 y0).kernel = y0.kernel) : (State.onPacket s x1 x2 x3 x4).kernel = s.kernel := by
  unfold State.onPacket
  try dsimp only
  repeat' first | with_reducible rfl | (simp; done) | split | (refine (foldl_fst_kernel _ _ ?_ _).trans ?_) | (intro _) | simp only [State.heardFrom_kernel, State.fwdBad_kernel] | rfl | (simp [State.kernel, Function.comp_def]; done) | (fail_if_no_progress (simp only [State.kernel]; simp only [State.kernel_mk])) | (simp_all; done)

@[simp] theorem doEmitPacket_kernel (s : State) (x0 : Rec64) (x1 : List Rec32)  : (doEmitPacket x0 x1 s).kernel = s.kernel := by
  unfold doEmitPacket
  try dsimp only
  repeat' first | with_reducible rfl | (simp; done) | split | (refine (State.onPacket_kernel _ _ _ _ _ ?_).trans ?_) | (refine (foldl_fst_kernel _ _ ?_ _).trans ?_) | (intro _) | simp only [State.settleForward_kernel, State.toSource_kernel, State.modQuery_kernel, State.fwdDiscard_kernel] | rfl | (simp [State.kernel, Function.comp_def]; done) | (fail_if_no_progress (simp only [State.kernel]; simp only [State.kernel_mk])) | (simp_all; done)

@[simp] theorem State.keepBeat_kernel (s : State) (x1 : Nat)  : (State.keepBeat s x1).kernel = s.kernel := by
  unfold State.keepBeat
  try dsimp only
  repeat' first | with_reducible rfl | (simp; done) | split | (refine (foldl_fst_kernel _ _ ?_ _).trans ?_) | (intro _) | rfl | (simp [State.kernel, Function.comp_def]; done) | (fail_if_no_progress (simp only [State.kernel]; simp only [State.kernel_mk])) | (simp_all; done)

@[simp] theorem doWatchdogExpire_kernel (s : State) (x0 : Nat)  : (doWatchdogExpire x0 s).kernel = s.kernel := by
  unfold doWatchdogExpire
  try dsimp only
  repeat' first | with_reducible rfl | (simp; done) | split | (refine (foldS_kernel _ _ _ ?_).trans ?_) | (refine (foldl_fst_kernel _ _ ?_ _).trans ?_) | (intro _) | simp only [State.addLost_kernel, State.report_kernel, State.settleWatch_kernel, State.finishErr_kernel] | rfl | (simp [State.kernel, Function.comp_def]; done) | (fail_if_no_progress (simp only [State.kernel]; simp only [State.kernel_mk])) | (simp_all; done)

@[simp] theorem State.addRecv_kernel (s : State) (x1 : Nat) (x2 : Nat) (x3 : Nat)  : (State.addRecv s x1 x2 x3).kernel = s.kernel := by
  unfold State.addRecv
  try dsimp only
  repeat' first | with_reducible rfl | (simp; done) | split | (refine (foldl_fst_kernel _ _ ?_ _).trans ?_) | (intro _) | simp only [State.modCtx_kernel] | rfl | (simp [State.kernel, Function.comp_def]; done) | (fail_if_no_progress (simp only [State.kernel]; simp only [State.kernel_mk])) | (simp_all; done)

@[simp] theorem State.loseChild_kernel (s : State) (x1 : Nat) (x2 : Barrier) (x3 : Nat)  : (State.loseChild s x1 x2 x3).kernel = s.kernel := by
  unfold State.loseChild
  try dsimp only
  repeat' first | with_reducible rfl | (simp; done) | split | (refine (foldl_fst_kernel _ _ ?_ _).trans ?_) | (intro _) | simp only [State.modCtx_kernel, State.addRecv_kernel, State.countC_kernel, State.report_kernel] | rfl | (simp [State.kernel, Function.comp_def]; done) | (fail_if_no_progress (simp only [State.kernel]; simp only [State.kernel_mk])) | (simp_all; done)

@[simp] theorem State.endBarrier_kernel (s : State) (x1 : Nat) (x2 : Barrier) (x3 : Bool)  : (State.endBarrier s x1 x2 x3).kernel = s.kernel := by
  unfold State.endBarrier
  try dsimp only
  repeat' first | with_reducible rfl | (simp; done) | split | (refine (foldl_fst_kernel _ _ ?_ _).trans ?_) | (intro _) | simp only [State.wake_kernel, State.countC_kernel, State.modCtx_kernel] | rfl | (simp [State.kernel, Function.comp_def]; done) | (fail_if_no_progress (simp only [State.kernel]; simp only [State.kernel_mk])) | (simp_all; done)

@[simp] theorem doBarrierTimeout_kernel (s : State) (x0 : Nat)  : (doBarrierTimeout x0 s).kernel = s.kernel := by
  unfold doBarrierTimeout
  try dsimp only
  repeat' first | with_reducible rfl | (simp; done) | split | (refine (foldS_kernel _ _ _ ?_).trans ?_) | (refine (foldl_fst_kernel _ _ ?_ _).trans ?_) | (intro _) | simp only [State.addLost_kernel, State.loseChild_kernel, State.countC_kernel, State.report_kernel, State.endBarrier_kernel] | rfl | (simp [State.kernel, Function.comp_def]; done) | (fail_if_no_progress (simp only [State.kernel]; simp only [State.kernel_mk])) | (simp_all; done)

@[simp] theorem State.sendRelease_kernel (s : State) (x1 : Nat) (x2 : Nat) (x3 : Bool)  : (State.sendRelease s x1 x2 x3).kernel = s.kernel := by
  unfold State.sendRelease
  try dsimp only
  repeat' first | with_reducible rfl | (simp; done) | split | (refine (foldS_kernel _ _ _ ?_).trans ?_) | (refine (foldl_fst_kernel _ _ ?_ _).trans ?_) | (intro _) | simp only [State.sendPacket_kernel] | rfl | (simp [State.kernel, Function.comp_def]; done) | (fail_if_no_progress (simp only [State.kernel]; simp only [State.kernel_mk])) | (simp_all; done)

@[simp] theorem State.settleBarrier_kernel (s : State) (x1 : Nat)  : (State.settleBarrier s x1).kernel = s.kernel := by
  unfold State.settleBarrier
  try dsimp only
  repeat' first | with_reducible rfl | (simp; done) | split | (refine (foldl_fst_kernel _ _ ?_ _).trans ?_) | (intro _) | simp only [State.sendRelease_kernel, State.endBarrier_kernel] | rfl | (simp [State.kernel, Function.comp_def]; done) | (fail_if_no_progress (simp only [State.kernel]; simp only [State.kernel_mk])) | (simp_all; done)

@[simp] theorem doRelease_kernel (s : State) (x0 : Rec64)  : (doRelease x0 s).kernel = s.kernel := by
  unfold doRelease
  try dsimp only
  repeat' first | with_reducible rfl | (simp; done) | split | (refine (State.onPacket_kernel _ _ _ _ _ ?_).trans ?_) | (refine (foldl_fst_kernel _ _ ?_ _).trans ?_) | (intro _) | simp only [State.addRecv_kernel, State.modCtx_kernel, State.settleBarrier_kernel] | rfl | (simp [State.kernel, Function.comp_def]; done) | (fail_if_no_progress (simp only [State.kernel]; simp only [State.kernel_mk])) | (simp_all; done)

@[simp] theorem doHeartbeat_kernel (s : State) (x0 : Rec64)  : (doHeartbeat x0 s).kernel = s.kernel := by
  unfold doHeartbeat
  try dsimp only
  repeat' first | with_reducible rfl | (simp; done) | split | (refine (State.onPacket_kernel _ _ _ _ _ ?_).trans ?_) | (refine (foldl_fst_kernel _ _ ?_ _).trans ?_) | (intro _) | rfl | (simp [State.kernel, Function.comp_def]; done) | (fail_if_no_progress (simp only [State.kernel]; simp only [State.kernel_mk])) | (simp_all; done)

@[simp] theorem doResultPacket_kernel (s : State) (x0 : Rec64) (x1 : List Rec32)  : (doResultPacket x0 x1 s).kernel = s.kernel := by
  unfold doResultPacket
  try dsimp only
  repeat' first | with_reducible rfl | (simp; done) | split | (refine (State.onPacket_kernel _ _ _ _ _ ?_).trans ?_) | (refine (foldl_fst_kernel _ _ ?_ _).trans ?_) | (intro _) | simp only [State.modQuery_kernel, State.settleForward_kernel, State.fwdDiscard_kernel] | rfl | (simp [State.kernel, Function.comp_def]; done) | (fail_if_no_progress (simp only [State.kernel]; simp only [State.kernel_mk])) | (simp_all; done)

@[simp] theorem doArrive_kernel (s : State) (x0 : Rec64)  : (doArrive x0 s).kernel = s.kernel := by
  unfold doArrive
  try dsimp only
  repeat' first | with_reducible rfl | (simp; done) | split | (refine (State.onPacket_kernel _ _ _ _ _ ?_).trans ?_) | (refine (foldl_fst_kernel _ _ ?_ _).trans ?_) | (intro _) | simp only [State.addRecv_kernel, State.modCtx_kernel] | rfl | (simp [State.kernel, Function.comp_def]; done) | (fail_if_no_progress (simp only [State.kernel]; simp only [State.kernel_mk])) | (simp_all; done)

theorem State.writeForwarded_kernel {s t : State} {x1 : Rec64} {x2 : QueryImage}  (h : State.writeForwarded s x1 x2 = some t) : t.kernel = s.kernel := by
  unfold State.writeForwarded at h
  try dsimp only at h
  repeat' first | (simp only [Option.some.injEq, reduceCtorEq] at h) | split at h
  all_goals first | (cases h; done) | ((try subst h); repeat' first | with_reducible rfl | (simp; done) | split | (have hp := State.takeId_kernel' ‹_›; dsimp only at hp; first | exact hp | (rw [hp]; try clear hp)) | (refine (foldl_fst_kernel _ _ ?_ _).trans ?_) | (intro _) | simp only [State.countDefault_kernel, State.request_kernel, State.count_kernel, State.addRuns_kernel, State.takeId_kernel] | rfl | (simp [State.kernel, Function.comp_def]; done) | (fail_if_no_progress (simp only [State.kernel]; simp only [State.kernel_mk])) | (simp_all; done))
theorem State.writeForwarded_kernel_getD {s d : State} {x1 : Rec64} {x2 : QueryImage}  (hd : d.kernel = s.kernel) : ((State.writeForwarded s x1 x2).getD d).kernel = s.kernel := by
  cases h : State.writeForwarded s x1 x2 with
  | none => exact hd
  | some t => exact State.writeForwarded_kernel h

theorem State.takeForwarded_kernel {s t : State} {x1 : Rec64} {x2 : QueryImage}  (h : State.takeForwarded s x1 x2 = some t) : t.kernel = s.kernel := by
  unfold State.takeForwarded at h
  try dsimp only at h
  repeat' first | (simp only [Option.some.injEq, reduceCtorEq] at h) | split at h
  all_goals first | (cases h; done) | ((try subst h); repeat' first | with_reducible rfl | (simp; done) | split | (have hp := State.takeId_kernel' ‹_›; dsimp only at hp; first | exact hp | (rw [hp]; try clear hp)) | (refine (foldl_fst_kernel _ _ ?_ _).trans ?_) | (intro _) | simp only [State.countDefault_kernel, State.occupy_kernel, State.syncColl_kernel, State.park_kernel, State.count_kernel, State.takeId_kernel] | rfl | (simp [State.kernel, Function.comp_def]; done) | (fail_if_no_progress (simp only [State.kernel]; simp only [State.kernel_mk])) | (simp_all; done))
theorem State.takeForwarded_kernel_getD {s d : State} {x1 : Rec64} {x2 : QueryImage}  (hd : d.kernel = s.kernel) : ((State.takeForwarded s x1 x2).getD d).kernel = s.kernel := by
  cases h : State.takeForwarded s x1 x2 with
  | none => exact hd
  | some t => exact State.takeForwarded_kernel h

@[simp] theorem State.nackTo_kernel (s : State) (x1 : Rec64) (x2 : Nat)  : (State.nackTo s x1 x2).kernel = s.kernel := by
  unfold State.nackTo
  try dsimp only
  repeat' first | with_reducible rfl | (simp; done) | split | (refine (foldl_fst_kernel _ _ ?_ _).trans ?_) | (intro _) | simp only [State.sendPacket_kernel] | rfl | (simp [State.kernel, Function.comp_def]; done) | (fail_if_no_progress (simp only [State.kernel]; simp only [State.kernel_mk])) | (simp_all; done)

@[simp] theorem doQueryPacket_kernel (s : State) (x0 : Rec64) (x1 : QueryImage)  : (doQueryPacket x0 x1 s).kernel = s.kernel := by
  unfold doQueryPacket
  try dsimp only
  repeat' first | with_reducible rfl | (simp; done) | split | rw [State.writeForwarded_kernel ‹_›] | rw [State.takeForwarded_kernel ‹_›] | (refine (State.onPacket_kernel _ _ _ _ _ ?_).trans ?_) | (refine (foldl_fst_kernel _ _ ?_ _).trans ?_) | (intro _) | (first | exact State.writeForwarded_kernel h | exact (State.writeForwarded_kernel h).trans (by simp) | exact State.takeForwarded_kernel h | exact (State.takeForwarded_kernel h).trans (by simp)) | (first | (refine (State.writeForwarded_kernel_getD ?_).trans ?_) | (refine (State.takeForwarded_kernel_getD ?_).trans ?_)) | simp only [State.count_kernel, State.keepBeat_kernel, State.askWalk_kernel, State.askScene_kernel, State.nackTo_kernel] | rfl | (simp [State.kernel, Function.comp_def]; done) | (fail_if_no_progress (simp only [State.kernel]; simp only [State.kernel_mk])) | (simp_all; done)

@[simp] theorem State.loseListed_kernel (s : State) (x1 : Nat) (x2 : Barrier)  : (State.loseListed s x1 x2).kernel = s.kernel := by
  unfold State.loseListed
  try dsimp only
  repeat' first | with_reducible rfl | (simp; done) | split | (refine (foldS_kernel _ _ _ ?_).trans ?_) | (refine (foldl_fst_kernel _ _ ?_ _).trans ?_) | (intro _) | simp only [State.loseChild_kernel] | rfl | (simp [State.kernel, Function.comp_def]; done) | (fail_if_no_progress (simp only [State.kernel]; simp only [State.kernel_mk])) | (simp_all; done)

@[simp] theorem doArriveSend_kernel (s : State) (x0 : Nat)  : (doArriveSend x0 s).kernel = s.kernel := by
  unfold doArriveSend
  try dsimp only
  repeat' first | with_reducible rfl | (simp; done) | split | (refine (foldl_fst_kernel _ _ ?_ _).trans ?_) | (intro _) | simp only [State.modCtx_kernel, State.settleBarrier_kernel, State.sendPacket_kernel, State.sendRelease_kernel, State.endBarrier_kernel, State.loseListed_kernel] | rfl | (simp [State.kernel, Function.comp_def]; done) | (fail_if_no_progress (simp only [State.kernel]; simp only [State.kernel_mk])) | (simp_all; done)

@[simp] theorem doHeartbeatSend_kernel (s : State) (x0 : Nat)  : (doHeartbeatSend x0 s).kernel = s.kernel := by
  unfold doHeartbeatSend
  try dsimp only
  repeat' first | with_reducible rfl | (simp; done) | split | (refine (foldl_fst_kernel _ _ ?_ _).trans ?_) | (intro _) | simp only [State.sendPacket_kernel] | rfl | (simp [State.kernel, Function.comp_def]; done) | (fail_if_no_progress (simp only [State.kernel]; simp only [State.kernel_mk])) | (simp_all; done)

@[simp] theorem doNack_kernel (s : State) (x0 : Rec64)  : (doNack x0 s).kernel = s.kernel := by
  unfold doNack
  try dsimp only
  repeat' first | with_reducible rfl | (simp; done) | split | (refine (State.onPacket_kernel _ _ _ _ _ ?_).trans ?_) | (refine (foldl_fst_kernel _ _ ?_ _).trans ?_) | (intro _) | simp only [State.finishErr_kernel, State.settleWatch_kernel, State.addLost_kernel, State.report_kernel, State.count_kernel] | rfl | (simp [State.kernel, Function.comp_def]; done) | (fail_if_no_progress (simp only [State.kernel]; simp only [State.kernel_mk])) | (simp_all; done)

@[simp] theorem doBarrier_kernel (s : State) (x0 : Nat) (x1 : Fields)  : (doBarrier x0 x1 s).kernel = s.kernel := by
  unfold doBarrier
  try dsimp only
  repeat' first | with_reducible rfl | (simp; done) | split | (refine (State.strandIssue_kernel _ _ _ _ _ _ _ ?_).trans ?_) | (refine (foldl_fst_kernel _ _ ?_ _).trans ?_) | (intro _) | simp only [State.modCtx_kernel, State.waitOn_kernel] | rfl | (simp [State.kernel, Function.comp_def]; done) | (fail_if_no_progress (simp only [State.kernel]; simp only [State.kernel_mk])) | (simp_all; done)

@[simp] theorem doHandoff_kernel (s : State) (x0 : Rec64)  : (doHandoff x0 s).kernel = s.kernel := by
  unfold doHandoff
  try dsimp only
  repeat' first | with_reducible rfl | (simp; done) | split | (refine (State.onPacket_kernel _ _ _ _ _ ?_).trans ?_) | (refine (foldl_fst_kernel _ _ ?_ _).trans ?_) | (intro _) | simp only [State.modQuery_kernel, State.settleWatch_kernel, State.fwdDiscard_kernel] | rfl | (simp [State.kernel, Function.comp_def]; done) | (fail_if_no_progress (simp only [State.kernel]; simp only [State.kernel_mk])) | (simp_all; done)

end Sys2Proof.Machine
end

