-- ==== Sys2Proof/Laws/KernelNvm.lean ====
section
/-! SUPPORT. Laws/KernelNvm.lean: the operations of Machine/Nvm.lean leave the kernel as it is. -/
namespace Sys2Proof.Machine

@[simp] theorem State.beginStore_kernel (s : State) (x1 : StoreBy) (x2 : Nat)  : (State.beginStore s x1 x2).kernel = s.kernel := by
  unfold State.beginStore
  try dsimp only
  repeat' first | with_reducible rfl | (simp; done) | split | (refine (foldl_fst_kernel _ _ ?_ _).trans ?_) | (intro _) | simp only [State.modDev_kernel] | rfl | (simp [State.kernel, Function.comp_def]; done) | (fail_if_no_progress (simp only [State.kernel]; simp only [State.kernel_mk])) | (simp_all; done)

@[simp] theorem State.storeOutcome_kernel (s : State) (x1 : Nat) (x2 : Nat)  : (State.storeOutcome s x1 x2).kernel = s.kernel := by
  unfold State.storeOutcome
  try dsimp only
  repeat' first | with_reducible rfl | (simp; done) | split | (refine (foldl_fst_kernel _ _ ?_ _).trans ?_) | (intro _) | simp only [State.modDev_kernel] | rfl | (simp [State.kernel, Function.comp_def]; done) | (fail_if_no_progress (simp only [State.kernel]; simp only [State.kernel_mk])) | (simp_all; done)

@[simp] theorem State.drawBytes_kernel (s : State) (n : Nat) : (State.drawBytes n s).2.kernel = s.kernel := by
  induction n generalizing s with
  | zero => rfl
  | succ n ih => simp only [State.drawBytes, ih, State.draw_kernel]
theorem State.drawBytes_kernel' {s : State} {n : Nat} {p : List Byte × State} (h : State.drawBytes n s = p) : p.2.kernel = s.kernel := by
  rw [← h]; exact State.drawBytes_kernel s n

@[simp] theorem doNvstore_kernel (s : State) (x0 : Nat) (x1 : Fields)  : (doNvstore x0 x1 s).kernel = s.kernel := by
  unfold doNvstore
  try dsimp only
  repeat' first | with_reducible rfl | (simp; done) | split | (refine (State.readIssue_kernel _ _ _ _ _ ?_).trans ?_) | (refine (foldl_fst_kernel _ _ ?_ _).trans ?_) | (intro _) | simp only [State.beginStore_kernel, State.waitOn_kernel, State.storeOutcome_kernel, State.setReg_kernel] | rfl | (simp [State.kernel, Function.comp_def]; done) | (fail_if_no_progress (simp only [State.kernel]; simp only [State.kernel_mk])) | (simp_all; done)

@[simp] theorem State.answerStore_kernel (s : State) (x1 : Store) (x2 : Bool)  : (State.answerStore s x1 x2).kernel = s.kernel := by
  unfold State.answerStore
  try dsimp only
  repeat' first | with_reducible rfl | (simp; done) | split | (refine (foldl_fst_kernel _ _ ?_ _).trans ?_) | (intro _) | simp only [State.wake_kernel] | rfl | (simp [State.kernel, Function.comp_def]; done) | (fail_if_no_progress (simp only [State.kernel]; simp only [State.kernel_mk])) | (simp_all; done)

end Sys2Proof.Machine
end

