-- ==== Sys2Proof/Laws/KernelGroves.lean ====
section
/-! SUPPORT. Laws/KernelGroves.lean: the operations of Machine/Groves.lean leave the kernel as it is. -/
namespace Sys2Proof.Machine

@[simp] theorem State.dropLeafFills_kernel (s : State) (x1 : Nat)  : (State.dropLeafFills s x1).kernel = s.kernel := by
  unfold State.dropLeafFills
  try dsimp only
  repeat' first | with_reducible rfl | (simp; done) | split | (refine (foldl_fst_kernel _ _ ?_ _).trans ?_) | (intro _) | rfl | (simp [State.kernel, Function.comp_def]; done) | (fail_if_no_progress (simp only [State.kernel]; simp only [State.kernel_mk])) | (simp_all; done)

@[simp] theorem State.patchApply_kernel (s : State)   : (State.patchApply s).kernel = s.kernel := by
  unfold State.patchApply
  try dsimp only
  repeat' first | with_reducible rfl | (simp; done) | split | (refine (foldl_fst_kernel _ _ ?_ _).trans ?_) | (intro _) | simp only [State.modDev_kernel] | rfl | (simp [State.kernel, Function.comp_def]; done) | (fail_if_no_progress (simp only [State.kernel]; simp only [State.kernel_mk])) | (simp_all; done)

@[simp] theorem State.reassign_kernel (s : State) (x1 : Nat)  : (State.reassign s x1).kernel = s.kernel := by
  unfold State.reassign
  try dsimp only
  repeat' first | with_reducible rfl | (simp; done) | split | (have hp := State.rotateGrove_kernel' ‹_›; dsimp only at hp; first | exact hp | (rw [hp]; try clear hp)) | (refine (foldS_kernel _ _ _ ?_).trans ?_) | (refine (foldl_fst_kernel _ _ ?_ _).trans ?_) | (intro _) | simp only [State.modQuery_kernel, State.rotateGrove_kernel] | rfl | (simp [State.kernel, Function.comp_def]; done) | (fail_if_no_progress (simp only [State.kernel]; simp only [State.kernel_mk])) | (simp_all; done)

@[simp] theorem State.repairWrite_kernel (s : State) (x1 : Nat) (x2 : Nat)  : (State.repairWrite s x1 x2).kernel = s.kernel := by
  unfold State.repairWrite
  try dsimp only
  repeat' first | with_reducible rfl | (simp; done) | split | (refine (foldl_fst_kernel _ _ ?_ _).trans ?_) | (intro _) | simp only [State.modGrove_kernel] | rfl | (simp [State.kernel, Function.comp_def]; done) | (fail_if_no_progress (simp only [State.kernel]; simp only [State.kernel_mk])) | (simp_all; done)

@[simp] theorem doSeqPatchDone_kernel (s : State)   : (doSeqPatchDone s).kernel = s.kernel := by
  unfold doSeqPatchDone
  try dsimp only
  repeat' first | with_reducible rfl | (simp; done) | split | (refine (foldl_fst_kernel _ _ ?_ _).trans ?_) | (intro _) | simp only [State.modDev_kernel] | rfl | (simp [State.kernel, Function.comp_def]; done) | (fail_if_no_progress (simp only [State.kernel]; simp only [State.kernel_mk])) | (simp_all; done)

@[simp] theorem State.loseLines_kernel (s : State) (x1 : Nat) (x2 : List Nat)  : (State.loseLines s x1 x2).kernel = s.kernel := by
  unfold State.loseLines
  try dsimp only
  repeat' first | with_reducible rfl | (simp; done) | split | (refine (foldS_kernel _ _ _ ?_).trans ?_) | (refine (foldl_fst_kernel _ _ ?_ _).trans ?_) | (intro _) | simp only [State.invalidate_kernel] | rfl | (simp [State.kernel, Function.comp_def]; done) | (fail_if_no_progress (simp only [State.kernel]; simp only [State.kernel_mk])) | (simp_all; done)

@[simp] theorem doRepairComplete_kernel (s : State) (x0 : Nat) (x1 : List (Fin 512)) (x2 : Bool)  : (doRepairComplete x0 x1 x2 s).kernel = s.kernel := by
  unfold doRepairComplete
  try dsimp only
  repeat' first | with_reducible rfl | (simp; done) | split | (have hp := State.draw_kernel' ‹_›; dsimp only at hp; first | exact hp | (rw [hp]; try clear hp)) | (refine (foldl_fst_kernel _ _ ?_ _).trans ?_) | (intro _) | simp only [State.count_kernel, State.logInj_kernel, State.interrupt_kernel, State.failBank_kernel, State.disarm_kernel, State.modBank_kernel, State.modGrove_kernel, State.loseLines_kernel, State.draw_kernel] | rfl | (simp [State.kernel, Function.comp_def]; done) | (fail_if_no_progress (simp only [State.kernel]; simp only [State.kernel_mk])) | (simp_all; done)

end Sys2Proof.Machine
end

