-- ==== Sys2Proof/Laws/KernelSecurity.lean ====
section
/-! SUPPORT. Laws/KernelSecurity.lean: the operations of Machine/Security.lean leave the kernel as it is. -/
namespace Sys2Proof.Machine

@[simp] theorem State.killKeyed_kernel (s : State)   : (State.killKeyed s).kernel = s.kernel := by
  unfold State.killKeyed
  try dsimp only
  repeat' first | with_reducible rfl | (simp; done) | split | (refine (foldS_kernel _ _ _ ?_).trans ?_) | (refine (foldl_fst_kernel _ _ ?_ _).trans ?_) | (intro _) | simp only [State.kill_kernel] | rfl | (simp [State.kernel, Function.comp_def]; done) | (fail_if_no_progress (simp only [State.kernel]; simp only [State.kernel_mk])) | (simp_all; done)

@[simp] theorem State.expelLines_kernel (s : State)   : (State.expelLines s).kernel = s.kernel := by
  unfold State.expelLines
  try dsimp only
  repeat' first | with_reducible rfl | (simp; done) | split | (refine (foldS_kernel _ _ _ ?_).trans ?_) | (refine (foldl_fst_kernel _ _ ?_ _).trans ?_) | (intro _) | simp only [State.departLine_kernel] | rfl | (simp [State.kernel, Function.comp_def]; done) | (fail_if_no_progress (simp only [State.kernel]; simp only [State.kernel_mk])) | (simp_all; done)

end Sys2Proof.Machine
end

