-- ==== Sys2Proof/Laws/KernelRegisters.lean ====
section
/-! SUPPORT. Laws/KernelRegisters.lean: the operations of Machine/Registers.lean leave the kernel as it is. -/
namespace Sys2Proof.Machine

@[simp] theorem State.tracePut_kernel (s : State) (x1 : Word)  : (State.tracePut s x1).kernel = s.kernel := by
  unfold State.tracePut
  try dsimp only
  repeat' first | with_reducible rfl | (simp; done) | split | (refine (foldl_fst_kernel _ _ ?_ _).trans ?_) | (intro _) | simp only [State.modDev_kernel] | rfl | (simp [State.kernel, Function.comp_def]; done) | (fail_if_no_progress (simp only [State.kernel]; simp only [State.kernel_mk])) | (simp_all; done)

@[simp] theorem State.lostPut_kernel (s : State) (x1 : Word)  : (State.lostPut s x1).kernel = s.kernel := by
  unfold State.lostPut
  try dsimp only
  repeat' first | with_reducible rfl | (simp; done) | split | (refine (foldl_fst_kernel _ _ ?_ _).trans ?_) | (intro _) | rfl | (simp [State.kernel, Function.comp_def]; done) | (fail_if_no_progress (simp only [State.kernel]; simp only [State.kernel_mk])) | (simp_all; done)

@[simp] theorem State.basePut_kernel (s : State) (x1 : BaseReg) (x2 : DWord)  : (State.basePut s x1 x2).kernel = s.kernel := by
  unfold State.basePut
  try dsimp only
  repeat' first | with_reducible rfl | (simp; done) | split | (refine (foldl_fst_kernel _ _ ?_ _).trans ?_) | (intro _) | simp only [State.modDev_kernel] | rfl | (simp [State.kernel, Function.comp_def]; done) | (fail_if_no_progress (simp only [State.kernel]; simp only [State.kernel_mk])) | (simp_all; done)

@[simp] theorem RegWrite.onLow_kernel (s : State) (x0 : RegWrite) (x2 : Word → State) (hx2 : ∀ y0, (x2 y0).kernel = s.kernel) : (RegWrite.onLow x0 s x2).kernel = s.kernel := by
  unfold RegWrite.onLow
  try dsimp only
  repeat' first | with_reducible rfl | (simp; done) | split | (refine (foldl_fst_kernel _ _ ?_ _).trans ?_) | (intro _) | rfl | (simp [State.kernel, Function.comp_def]; done) | (fail_if_no_progress (simp only [State.kernel]; simp only [State.kernel_mk])) | (simp_all; done)

@[simp] theorem State.pendClear_kernel (s : State) (x1 : BitVec 4)  : (State.pendClear s x1).kernel = s.kernel := by
  unfold State.pendClear
  try dsimp only
  repeat' first | with_reducible rfl | (simp; done) | split | (refine (foldS_kernel _ _ _ ?_).trans ?_) | (refine (foldl_fst_kernel _ _ ?_ _).trans ?_) | (intro _) | simp only [State.interrupt_kernel] | rfl | (simp [State.kernel, Function.comp_def]; done) | (fail_if_no_progress (simp only [State.kernel]; simp only [State.kernel_mk])) | (simp_all; done)

@[simp] theorem State.headPut_kernel (s : State) (x1 : Word)  : (State.headPut s x1).kernel = s.kernel := by
  unfold State.headPut
  try dsimp only
  repeat' first | with_reducible rfl | (simp; done) | split | (refine (foldl_fst_kernel _ _ ?_ _).trans ?_) | (intro _) | rfl | (simp [State.kernel, Function.comp_def]; done) | (fail_if_no_progress (simp only [State.kernel]; simp only [State.kernel_mk])) | (simp_all; done)

@[simp] theorem State.injPut_kernel (s : State) (x1 : Word)  : (State.injPut s x1).kernel = s.kernel := by
  unfold State.injPut
  try dsimp only
  repeat' first | with_reducible rfl | (simp; done) | split | (refine (foldl_fst_kernel _ _ ?_ _).trans ?_) | (intro _) | rfl | (simp [State.kernel, Function.comp_def]; done) | (fail_if_no_progress (simp only [State.kernel]; simp only [State.kernel_mk])) | (simp_all; done)

@[simp] theorem State.integWrite_kernel (s : State) (x1 : Nat) (x2 : RegWrite)  : (State.integWrite s x1 x2).kernel = s.kernel := by
  unfold State.integWrite
  try dsimp only
  repeat' first | with_reducible rfl | (simp; done) | split | (refine (RegWrite.onLow_kernel _ _ _ ?_).trans ?_) | (refine (foldl_fst_kernel _ _ ?_ _).trans ?_) | (intro _) | simp only [State.pendClear_kernel, State.headPut_kernel, State.injPut_kernel] | rfl | (simp [State.kernel, Function.comp_def]; done) | (fail_if_no_progress (simp only [State.kernel]; simp only [State.kernel_mk])) | (simp_all; done)

@[simp] theorem State.flushPut_kernel (s : State) (x1 : Word)  : (State.flushPut s x1).kernel = s.kernel := by
  unfold State.flushPut
  try dsimp only
  repeat' first | with_reducible rfl | (simp; done) | split | (refine (foldl_fst_kernel _ _ ?_ _).trans ?_) | (intro _) | simp only [State.flushEntry_kernel] | rfl | (simp [State.kernel, Function.comp_def]; done) | (fail_if_no_progress (simp only [State.kernel]; simp only [State.kernel_mk])) | (simp_all; done)

@[simp] theorem State.ctxCmd_kernel (s : State) (x1 : Nat) (x2 : Nat)  : (State.ctxCmd s x1 x2).kernel = s.kernel := by
  unfold State.ctxCmd
  try dsimp only
  repeat' first | with_reducible rfl | (simp; done) | split | (refine (foldl_fst_kernel _ _ ?_ _).trans ?_) | (intro _) | simp only [doCtxKill_kernel, doCtxClose_kernel, doCtxOpen_kernel] | rfl | (simp [State.kernel, Function.comp_def]; done) | (fail_if_no_progress (simp only [State.kernel]; simp only [State.kernel_mk])) | (simp_all; done)

@[simp] theorem State.pwrOff_kernel (s : State)   : (State.pwrOff s).kernel = s.kernel := by
  unfold State.pwrOff
  try dsimp only
  repeat' first | with_reducible rfl | (simp; done) | split | (refine (foldl_fst_kernel _ _ ?_ _).trans ?_) | (intro _) | simp only [State.modDev_kernel, State.expelLines_kernel] | rfl | (simp [State.kernel, Function.comp_def]; done) | (fail_if_no_progress (simp only [State.kernel]; simp only [State.kernel_mk])) | (simp_all; done)

end Sys2Proof.Machine
end

