-- ==== Sys2Proof/Laws/Keeps.lean ====
section
/-! SUPPORT. Laws/Keeps.lean: the operations that change the kernel leave the queue as it is, and keep a legal state legal. -/
namespace Sys2Proof.Machine

/-- A change of state that leaves the queue as it is and keeps the rules of the kernel. -/
structure Keeps (s t : State) : Prop where
  queue : t.pending = s.pending
  legal : Legal s → Legal t

theorem Keeps.refl (s : State) : Keeps s s := ⟨rfl, id⟩
theorem Keeps.trans {s t u : State} (h : Keeps s t) (k : Keeps t u) : Keeps s u := ⟨k.queue.trans h.queue, fun l => k.legal (h.legal l)⟩
/-- What leaves the kernel as it is. -/
theorem Keeps.of_kernel {s t : State} (h : t.kernel = s.kernel) : Keeps s t :=
  ⟨congrArg Kernel.queue h, fun l => by unfold Legal; rw [h]; exact l⟩
/-- What follows leaves the kernel as it is. -/
theorem Keeps.then {s t u : State} (h : Keeps s t) (k : u.kernel = t.kernel) : Keeps s u := h.trans (Keeps.of_kernel k)
theorem Keeps.foldS {α : Type} (l : List α) (f : State → α → State) (h : ∀ s a, Keeps s (f s a)) (s : State) : Keeps s (foldS l s f) := by
  unfold Machine.foldS
  induction l generalizing s with
  | nil => exact Keeps.refl s
  | cons a t ih => exact (h s a).trans (ih (f s a))
theorem Keeps.ite {c : Prop} [Decidable c] {s t u : State} (h : Keeps s t) (k : Keeps s u) : Keeps s (if c then t else u) := by
  split <;> assumption

/-! ### The scheduler -/

theorem State.adaptD_keeps (s : State) : Keeps s s.adaptD := by
  unfold State.adaptD
  dsimp only
  split
  · split
    · exact ⟨rfl, fun h => { h with leafPfD := Nat.min_le_left _ _ }⟩
    · exact Keeps.refl s
  · split
    · exact ⟨rfl, fun h => { h with leafPfD := Nat.le_trans (Nat.div_le_self _ _) h.leafPfD }⟩
    · exact Keeps.refl s
theorem State.applyParams_keeps (s : State) : Keeps s s.applyParams := by
  unfold State.applyParams
  refine Keeps.then ?_ (State.squallCheck_kernel _)
  exact ⟨rfl, fun h => { h with params := h.pend }⟩
theorem doIntervalEnd_keeps (s : State) : Keeps s (doIntervalEnd s) := by
  unfold doIntervalEnd
  refine Keeps.trans (t := s.adaptT.adaptD.suspendDrizzle.repin.halveUse.applyParams) ?_ (Keeps.of_kernel rfl)
  refine Keeps.trans ?_ (State.applyParams_keeps _)
  refine Keeps.trans (t := s.adaptT.adaptD) ?_ (Keeps.of_kernel (by simp))
  exact Keeps.trans (Keeps.of_kernel (State.adaptT_kernel s)) (State.adaptD_keeps _)

/-! ### NVM and its window -/

theorem State.markErase_keeps (s : State) (b : Bool) : Keeps s (s.markErase b) :=
  ⟨rfl, fun h => { h with nvm := memWrite_wf _ _ h.nvm }⟩
theorem State.putNvm_keeps (s : State) (n : Nat) (bs : List Byte) : Keeps s (s.putNvm n bs) :=
  ⟨rfl, fun h => { h with nvm := setSector_wf _ _ h.nvm }⟩
theorem State.putStaged_keeps (s : State) (n : Nat) (bs : List Byte) : Keeps s (s.putStaged n bs) :=
  ⟨rfl, fun h => { h with staged := setSector_wf _ _ h.staged }⟩
theorem State.spoilNvm_keeps (s : State) (n : Nat) (f : List Byte → List Byte) : Keeps s (s.spoilNvm n f) := by
  unfold State.spoilNvm
  have hd := State.drawBytes_kernel s 512
  generalize State.drawBytes 512 s = p at hd ⊢
  obtain ⟨free, v⟩ := p
  exact (Keeps.of_kernel hd).trans (State.putNvm_keeps _ _ _)
theorem State.finishStore_keeps (s : State) (st : Store) (ok : Bool) : Keeps s (s.finishStore st ok) := by
  unfold State.finishStore
  dsimp only
  have h : Keeps s (if ok = true then
      (s.putStaged st.sector (storeBytes (sectorBytes s.staged st.sector) (sectorBytes s.nvm st.sector))).putNvm st.sector
        (storeBytes (sectorBytes s.staged st.sector) (sectorBytes s.nvm st.sector))
      else ((s.putStaged st.sector (storeBytes (sectorBytes s.staged st.sector) (sectorBytes s.nvm st.sector))).spoilNvm st.sector id).count 72 1) :=
    Keeps.ite ((State.putStaged_keeps _ _ _).trans (State.putNvm_keeps _ _ _))
      (((State.putStaged_keeps _ _ _).trans (State.spoilNvm_keeps _ _ _)).then (State.count_kernel _ _ _))
  exact h.then (by simp)
theorem State.breakStore_keeps (s : State) : Keeps s s.breakStore := by
  unfold State.breakStore
  split
  · exact Keeps.ite (State.spoilNvm_keeps _ _ _) (Keeps.refl s)
  · exact Keeps.refl s
theorem doStagedNvmLoad_keeps (s : State) : Keeps s (doStagedNvmLoad s) := by
  unfold doStagedNvmLoad
  refine Keeps.ite (Keeps.refl s) ?_
  exact ⟨rfl, fun h => { h with staged := spliceSectors_wf 25 37 h.staged (sectorCells_wf 25 37 h.nvm) (fun _ => sectorCells_mem) }⟩
theorem nextPtr_ok {p : Nat} (h : p % 8 = 0 ∧ p < 262144) : nextPtr p % 8 = 0 ∧ nextPtr p < 262144 := by
  unfold nextPtr
  omega
theorem State.advancePtr_keeps (s : State) : Keeps s s.advancePtr :=
  ⟨rfl, fun h => { h with nvmPtr := nextPtr_ok h.nvmPtr }⟩
theorem State.nvmPut_keeps (s : State) (chain : Bool) (v : DWord) : Keeps s (s.nvmPut chain v) := by
  unfold State.nvmPut
  dsimp only
  refine Keeps.ite ?_ (Keeps.ite (State.advancePtr_keeps s) ?_)
  · exact (Keeps.of_kernel (by simp)).trans (State.advancePtr_keeps _)
  · exact Keeps.trans (t := { s with staged := memWriteBytes s.staged s.dev.nvmPtr (bytesOf v 8) })
      ⟨rfl, fun h => { h with staged := memWriteBytes_wf _ _ h.staged }⟩ (State.advancePtr_keeps _)

/-! ### Groves -/

theorem List.getElem?_modify' {α : Type} (l : List α) (f : α → α) (i j : Nat) :
    (l.modify i f)[j]? = if i = j then l[j]?.map f else l[j]? := by
  rw [List.getElem?_modify]
  split <;> simp_all
/-- A grove changed so that it still stands as EZ_GROVE_EN says. -/
theorem State.modGrove_keeps (s : State) (g : Nat) (f : Grove → Grove)
    (h : Legal s → ∀ x, s.groves[g]? = some x → groveOk s.dev.groveEn g ((f x).state, (f x).thawing) = true) : Keeps s (s.modGrove g f) := by
  refine ⟨rfl, fun l => { l with groves := ?_ }⟩
  refine ⟨by simpa [State.kernel, State.modGrove] using l.groves.1, fun i x hx => ?_⟩
  simp only [State.kernel, State.modGrove, List.getElem?_map, List.getElem?_modify'] at hx
  split at hx
  · rename_i hg
    subst hg
    cases hy : s.groves[g]? with
    | none => rw [hy] at hx; cases hx
    | some y =>
      rw [hy] at hx
      cases hx
      exact h l y hy
  · exact l.groves.2 i x (by simpa [State.kernel, List.getElem?_map] using hx)
/-- A grove that is not inactive is one of EZ_GROVE_EN. -/
theorem Legal.enabled {s : State} (h : Legal s) {g : Nat} {x : Grove} (hx : s.groves[g]? = some x) (ha : x.state ≠ .inactive) :
    s.dev.groveEn.getLsbD g = true := by
  have := h.groves.2 g (x.state, x.thawing) (by simp [State.kernel, List.getElem?_map, hx])
  unfold groveOk at this
  split at this
  · assumption
  · simp_all
theorem Legal.grove_getElem {s : State} (h : Legal s) {g : Nat} (hg : (s.grove g).state ≠ .inactive) : s.groves[g]? = some (s.grove g) := by
  unfold State.grove nth at hg ⊢
  rw [List.getD_eq_getElem?_getD] at hg ⊢
  cases hx : s.groves[g]? with
  | none => rw [hx] at hg; exact absurd rfl hg
  | some x => rfl
/-- Setting the state of an active grove to one that is not inactive. -/
theorem State.modGrove_active (s : State) (g : Nat) (f : Grove → Grove) (ha : (s.grove g).state ≠ .inactive)
    (hf : ∀ x, (f x).state ≠ .inactive ∨ (f x).state = x.state) : Keeps s (s.modGrove g f) := by
  refine State.modGrove_keeps s g f (fun l x hx => ?_)
  have hx' : x = s.grove g := by
    have := l.grove_getElem ha
    rw [hx] at this
    exact Option.some.inj this
  have he : s.dev.groveEn.getLsbD g = true := l.enabled hx (hx' ▸ ha)
  unfold groveOk
  rw [if_pos he]
  rcases hf x with h | h
  · simpa using h
  · rw [h, hx']; simpa using ha
theorem State.setGrove_keeps (s : State) (g : Nat) (st : GroveState) (r : Nat) (ha : (s.grove g).state ≠ .inactive) (hs : st ≠ .inactive) :
    Keeps s (s.setGrove g st r) := State.modGrove_active s g _ ha (fun _ => .inl hs)
theorem State.startDrain_keeps (s : State) (g : Nat) (ha : (s.grove g).state ≠ .inactive) : Keeps s (s.startDrain g) := by
  unfold State.startDrain
  refine (State.setGrove_keeps s g .drain grNONE ha (by decide)).then ?_
  refine (foldS_kernel _ _ _ (fun t e => ?_)).trans ?_
  · split
    · split
      · rfl
      · simp
    · rfl
  · simp
theorem State.frost_keeps (s : State) (g : Nat) : Keeps s (s.frost g) := by
  unfold State.frost
  split
  · rename_i h
    refine Keeps.ite ((State.startDrain_keeps s g (by rw [h]; decide)).then (by simp)) (Keeps.of_kernel (by simp))
  · exact Keeps.of_kernel (by simp)
  · exact Keeps.refl s
  · exact Keeps.refl s
theorem State.enterFrost_keeps (s : State) (g : Nat) (ha : (s.grove g).state ≠ .inactive) : Keeps s (s.enterFrost g) := by
  unfold State.enterFrost
  refine (State.setGrove_keeps s g .frost grOK ha (by decide)).then ?_
  dsimp only
  rw [State.settleService_kernel, State.cancelXfers_kernel, State.dropLeafFills_kernel]
  exact State.modGrove_kernel _ _ _ (fun _ => ⟨rfl, rfl⟩)
theorem State.abortFrost_keeps (s : State) (g : Nat) (ha : (s.grove g).state ≠ .inactive) : Keeps s (s.abortFrost g) := by
  unfold State.abortFrost
  exact (State.setGrove_keeps s g .run grTIMEOUT ha (by decide)).then (by simp)
theorem State.thaw_keeps (s : State) (g : Nat) : Keeps s (s.thaw g) := by
  unfold State.thaw
  split
  · exact Keeps.of_kernel (by simp)
  · rename_i h
    exact (State.setGrove_keeps s g .run grOK (by rw [h]; decide) (by decide)).then (by simp)
  · rename_i h
    exact State.modGrove_active s g _ (by rw [h]; decide) (fun _ => .inr rfl)
  · exact Keeps.refl s
theorem State.finishThaw_keeps (s : State) (g : Nat) (ht : (s.grove g).thawing = true) : Keeps s (s.finishThaw g) := by
  unfold State.finishThaw
  dsimp only
  refine Keeps.then ?_ (State.settleService_kernel _)
  refine State.modGrove_keeps s g _ (fun l x hx => ?_)
  have hg : s.grove g = x := by
    unfold State.grove nth
    rw [List.getD_eq_getElem?_getD, hx]; rfl
  have := l.groves.2 g (x.state, x.thawing) (by simp [State.kernel, List.getElem?_map, hx])
  rw [hg] at ht
  unfold groveOk at this ⊢
  split at this
  · rename_i he
    have he : s.dev.groveEn.getLsbD g = true := he
    rw [if_pos he]; rfl
  · simp_all

/-! ### Keys and debug -/

theorem State.endKey_keeps (s : State) (r : Nat) : Keeps s (s.endKey r) := ⟨rfl, fun h => { h with keyBuf := by simp [State.kernel, State.endKey] }⟩
theorem State.keyStart_keeps (s : State) (k : Nat) (cmd : KeyCmd) : Keeps s (s.keyStart k cmd) := by
  unfold State.keyStart
  exact Keeps.ite (Keeps.of_kernel rfl) (Keeps.ite (State.endKey_keeps s _) (Keeps.of_kernel rfl))
theorem State.eraseKey_keeps (s : State) (k : Nat) : Keeps s { s with keys := merase s.keys k } :=
  ⟨rfl, fun h => { h with debug := fun hd => by have := h.debug hd; simp only [State.kernel] at this ⊢; rw [this]; rfl }⟩
theorem State.keyClear_keeps (s : State) (k : Nat) : Keeps s (s.keyClear k) := by
  unfold State.keyClear
  exact Keeps.ite (Keeps.of_kernel rfl) (Keeps.ite (State.endKey_keeps s _) ((State.eraseKey_keeps s k).trans (State.endKey_keeps _ _)))
theorem State.keyPut_keeps (s : State) (i : Nat) (v : DWord) : Keeps s (s.keyPut i v) := by
  unfold State.keyPut
  refine Keeps.ite (Keeps.of_kernel rfl) ⟨rfl, fun h => { h with keyBuf := ?_ }⟩
  simpa [State.kernel] using h.keyBuf
theorem State.keyOp_keeps (s : State) (k op : Nat) : Keeps s (s.keyOp k op) := by
  unfold State.keyOp
  split
  · exact State.keyStart_keeps _ _ _
  · exact State.keyStart_keeps _ _ _
  · exact State.keyClear_keeps _ _
  · exact Keeps.refl s
theorem State.putKey_keeps (s : State) (k : Nat) (x : KeySlot) (h : s.dev.debugOpen = false) : Keeps s { s with keys := mset s.keys k x } :=
  ⟨rfl, fun l => { l with debug := fun hd => by simp [State.kernel, h] at hd }⟩
theorem doKeyCmdDone_keeps (s : State) : Keeps s (doKeyCmdDone s) := by
  unfold doKeyCmdDone
  split
  · exact Keeps.refl s
  · dsimp only
    split
    · split
      · exact (State.eraseKey_keeps s _).trans (State.endKey_keeps _ _)
      · rename_i hd
        exact (State.putKey_keeps s _ _ (by simp_all)).trans (State.endKey_keeps _ _)
    · exact (State.eraseKey_keeps s _).trans (State.endKey_keeps _ _)
theorem State.startErase_keeps (s : State) : Keeps s s.startErase := by
  unfold State.startErase
  refine Keeps.then ?_ (State.modDev_kernel _ _ (fun _ => ⟨rfl, rfl, rfl, rfl, rfl, rfl, rfl⟩))
  refine Keeps.trans (t := { s with keys := [] }) ⟨rfl, fun h => { h with debug := fun _ => rfl }⟩ (State.markErase_keeps _ _)
theorem State.settleUnlock_keeps (s : State) : Keeps s s.settleUnlock := by
  unfold State.settleUnlock
  have hk : Keeps s s.killKeyed := Keeps.of_kernel (by simp)
  exact Keeps.ite (Keeps.ite (hk.trans (State.startErase_keeps _)) hk) (Keeps.refl s)
theorem doDbgUnlock_keeps (s : State) : Keeps s (doDbgUnlock s) := by
  unfold doDbgUnlock
  refine Keeps.ite (Keeps.refl s) (Keeps.trans ?_ (State.settleUnlock_keeps _))
  exact Keeps.of_kernel (by simp)
theorem State.eraseSecret_keeps (s : State) : Keeps s s.eraseSecret :=
  ⟨rfl, fun h => { h with nvm := setSector_wf _ _ h.nvm, staged := setSector_wf _ _ h.staged }⟩
theorem doDbgEraseDone_keeps (s : State) (e : Bool) : Keeps s (doDbgEraseDone e s) := by
  unfold doDbgEraseDone
  refine Keeps.ite (Keeps.refl s) (Keeps.ite (Keeps.ite (State.startErase_keeps s) (Keeps.refl s)) ?_)
  dsimp only
  refine (State.eraseSecret_keeps s).trans ?_
  generalize s.eraseSecret = t
  split
  · split
    · rename_i hk
      refine (State.markErase_keeps t false).trans ⟨rfl, fun h => { h with debug := fun _ => ?_ }⟩
      exact List.isEmpty_iff.mp hk
    · exact State.startErase_keeps t
  · refine Keeps.trans ?_ (State.settleUnlock_keeps _)
    exact (State.markErase_keeps t false).then (State.modDev_kernel _ _ (fun _ => ⟨rfl, rfl, rfl, rfl, rfl, rfl, rfl⟩))

/-! ### Reset -/

/-- Reset is legal. -/
theorem State.reset_legal : Legal State.reset where
  nvm := by decide +kernel
  staged := by decide +kernel
  pend := by decide +kernel
  params := by decide +kernel
  keyBuf := by decide +kernel
  stageLines := by decide +kernel
  leafPfD := by decide +kernel
  shares := by decide +kernel
  debug := by decide +kernel
  address := by decide +kernel
  barN := by decide +kernel
  drainMax := by decide +kernel
  nvmPtr := by decide +kernel
  groves := by
    refine ⟨by decide +kernel, fun g x hx => ?_⟩
    simp only [State.kernel, State.reset, List.map_replicate, List.getElem?_replicate] at hx
    split at hx
    · cases hx; simp [groveOk, State.kernel, State.reset, Dev.reset, Grove.reset]
    · cases hx
theorem State.bringup_keeps (s : State) (st : PowerStage) (en : BitVec 16) (svc : Bool) : Keeps s (s.bringup st en svc) := by
  refine ⟨rfl, fun h => { State.reset_legal with nvm := h.nvm, groves := ⟨by simp [State.kernel, State.bringup], fun g x hx => ?_⟩ }⟩
  simp only [State.kernel, State.bringup, List.map_map, List.getElem?_map, Option.map_eq_some_iff] at hx
  obtain ⟨i, hi, hx⟩ := hx
  obtain ⟨_, rfl⟩ := List.getElem?_eq_some_iff.mp hi
  rw [← hx]
  simp only [Function.comp_def, groveFor, groveOk, State.kernel, State.bringup, List.getElem_range]
  split <;> simp_all [Grove.reset]
theorem State.chainBringup_keeps (s : State) : Keeps s s.chainBringup := by
  have hb := State.bringup_keeps s .bringup s.dev.groveEn s.dev.svcEn
  refine ⟨hb.queue, fun h => { hb.legal h with debug := fun _ => ?_, address := ?_ }⟩
  · rfl
  · exact h.address
theorem State.settleReset_keeps (s : State) : Keeps s s.settleReset := by
  unfold State.settleReset
  refine Keeps.ite ?_ (Keeps.refl s)
  exact (Keeps.of_kernel (by simp)).trans (State.chainBringup_keeps _)
theorem State.settleAll_keeps (s : State) : Keeps s s.settleAll := by
  unfold State.settleAll
  dsimp only
  refine Keeps.trans ?_ (State.settleReset_keeps _)
  refine Keeps.trans ?_ (State.settleUnlock_keeps _)
  exact Keeps.ite (Keeps.of_kernel (by simp)) (Keeps.refl s)

/-! ### Registers -/

theorem RegWrite.onLow_keeps (w : RegWrite) (s : State) (f : Word → State) (h : ∀ v, Keeps s (f v)) : Keeps s (w.onLow s f) := by
  unfold RegWrite.onLow
  exact Keeps.ite (h _) (Keeps.refl s)
theorem schedOk_set {p : List Nat} {n v : Nat} (h : schedOk p = true) (ha : paramsAgree (p.set n v) = true) : schedOk (p.set n v) = true := by
  simp only [schedOk, Bool.and_eq_true, decide_eq_true_eq] at h ⊢
  exact ⟨by rw [List.length_set]; exact h.1, ha⟩
theorem State.paramPut_keeps (s : State) (n w : Nat) : Keeps s (s.paramPut n w) := by
  unfold State.paramPut
  dsimp only
  split
  · rename_i hp
    refine ⟨rfl, fun h => { h with pend := ?_ }⟩
    have hl : schedOk s.sched.pend = true := h.pend
    rw [Bool.and_eq_true] at hp
    exact schedOk_set hl hp.2
  · exact Keeps.of_kernel rfl
theorem State.stageLinesPut_keeps (s : State) (v : Nat) : Keeps s (s.stageLinesPut v) := by
  unfold State.stageLinesPut
  split
  · rename_i hv
    simp only [Bool.and_eq_true, decide_eq_true_eq] at hv
    exact ⟨rfl, fun h => { h with stageLines := hv.1 }⟩
  · exact Keeps.of_kernel rfl
theorem State.pfDepthPut_keeps (s : State) (v : Nat) : Keeps s (s.pfDepthPut v) := by
  unfold State.pfDepthPut
  split
  · rename_i hv
    exact ⟨rfl, fun h => { h with leafPfD := hv }⟩
  · exact Keeps.of_kernel rfl
theorem State.sharesPut_keeps (s : State) (v : Word) : Keeps s (s.sharesPut v) := by
  unfold State.sharesPut
  dsimp only
  split
  · rename_i hv
    simp only [Bool.and_eq_true, decide_eq_true_eq] at hv
    exact ⟨rfl, fun h => { h with shares := hv.1.1.1 }⟩
  · exact Keeps.of_kernel rfl
theorem State.groveWrite_keeps (s : State) (g off : Nat) (w : RegWrite) : Keeps s (s.groveWrite g off w) := by
  unfold State.groveWrite
  refine Keeps.ite (Keeps.refl s) ?_
  split
  · refine w.onLow_keeps s _ (fun v => ?_)
    split
    · exact State.frost_keeps s g
    · exact State.thaw_keeps s g
    · exact Keeps.refl s
  · exact Keeps.ite (Keeps.of_kernel (by simp)) (Keeps.refl s)
  · exact w.onLow_keeps s _ (fun v => Keeps.of_kernel (by simp))
  · exact w.onLow_keeps s _ (fun v => Keeps.of_kernel (by simp))
  · exact Keeps.refl s
theorem State.lowWrite_keeps (s : State) (off : Nat) (w : RegWrite) : Keeps s (s.lowWrite off w) := by
  unfold State.lowWrite
  split
  case h_2 =>
    refine w.onLow_keeps s _ (fun v => ?_)
    split
    · exact Keeps.refl s
    · rename_i hv
      exact ⟨rfl, fun h => { h with drainMax := hv }⟩
  all_goals first
    | exact Keeps.refl s
    | exact w.onLow_keeps s _ (fun v => State.stageLinesPut_keeps s _)
    | exact w.onLow_keeps s _ (fun v => State.pfDepthPut_keeps s _)
    | exact w.onLow_keeps s _ (fun v => State.sharesPut_keeps s _)
    | (refine w.onLow_keeps s _ (fun v => Keeps.of_kernel ?_); first | (split <;> first | rfl | (simp; done)) | (simp; done))
    | (refine Keeps.of_kernel ?_; simp; done)
theorem State.highWrite_keeps (s : State) (chain : Bool) (off : Nat) (w : RegWrite) : Keeps s (s.highWrite chain off w) := by
  unfold State.highWrite
  split
  case h_1 =>
    refine w.onLow_keeps s _ (fun v => ⟨rfl, fun h => { h with nvmPtr := ?_ }⟩)
    have : fbit v 3 15 < 2 ^ 15 := (v.extractLsb' 3 15).isLt
    simp only [State.kernel, State.modDev]
    omega
  case h_2 => exact Keeps.ite (State.nvmPut_keeps _ _ _) (Keeps.refl s)
  case h_5 => exact w.onLow_keeps s _ (fun v => State.keyOp_keeps _ _ _)
  case h_9 =>
    refine w.onLow_keeps s _ (fun v => ?_)
    dsimp only
    split
    · rename_i hn
      exact ⟨rfl, fun h => { h with barN := hn }⟩
    · exact Keeps.refl s
  all_goals first
    | (refine w.onLow_keeps s _ (fun v => Keeps.of_kernel ?_); first | (split <;> first | rfl | (simp; done)) | (simp; done))
    | (refine Keeps.of_kernel ?_; simp; done)
    | exact Keeps.ite (State.keyPut_keeps _ _ _) (Keeps.refl s)
theorem State.regWrite_keeps (s : State) (chain : Bool) (off : Nat) (w : RegWrite) : Keeps s (s.regWrite chain off w) := by
  unfold State.regWrite
  refine Keeps.ite (State.groveWrite_keeps _ _ _ _) (Keeps.ite (w.onLow_keeps s _ (fun v => State.paramPut_keeps _ _ _)) ?_)
  exact Keeps.ite (State.lowWrite_keeps _ _ _) (Keeps.ite (Keeps.of_kernel (by simp)) (State.highWrite_keeps _ _ _ _))
theorem State.hostWrite_keeps (s : State) (act : State → State) (h : Keeps s (act s)) : Keeps s (s.hostWrite act) := by
  unfold State.hostWrite
  split
  · exact h.trans (State.settleAll_keeps _)
  · exact Keeps.of_kernel (by simp)
  all_goals exact Keeps.refl s
theorem doRegisterWrite_keeps (s : State) (off size : Nat) (v : DWord) : Keeps s (doRegisterWrite off size v s) := by
  unfold doRegisterWrite
  refine State.hostWrite_keeps s _ ?_
  split
  · exact Keeps.refl s
  · exact Keeps.ite (Keeps.of_kernel (by simp)) (State.regWrite_keeps _ _ _ _)
theorem doNvmDataRead_keeps (s : State) : Keeps s (doNvmDataRead s) := by
  unfold doNvmDataRead
  split
  · exact Keeps.ite ((Keeps.of_kernel (State.emit_kernel _ _)).trans (State.advancePtr_keeps _)) (Keeps.of_kernel (by simp))
  · exact Keeps.of_kernel (by simp)
  all_goals exact Keeps.refl s

/-! ### The maintenance chain -/

/-- A frame repeated with an outcome. -/
theorem Keeps.outcome {s t : State} (h : Keeps s t) (f : Frame) (o : Nat) : Keeps s (t.outcome f o) := h.then (State.outcome_kernel t f o)
theorem State.outcome_keeps (s : State) (f : Frame) (o : Nat) : Keeps s (s.outcome f o) := (Keeps.refl s).outcome f o
/-- A long command that begins. -/
theorem Keeps.long {s t : State} (h : Keeps s t) (x : Option ChainLong) : Keeps s { t with chainLong := x } := h.then rfl
theorem State.enum_keeps (s : State) (f : Frame) : Keeps s (s.enum f) := by
  unfold State.enum
  refine Keeps.then ?_ (State.repeatFrame_kernel _ _)
  exact ⟨rfl, fun h => { h with address := fun _ => rfl }⟩
theorem State.assign_keeps (s : State) (f : Frame) : Keeps s (s.assign f) := by
  unfold State.assign
  refine Keeps.ite (Keeps.of_kernel (by simp)) (Keeps.ite (Keeps.of_kernel (by simp)) ?_)
  refine Keeps.then ?_ (State.repeatFrame_kernel _ _)
  exact ⟨rfl, fun h => { h with address := fun ha => by cases ha }⟩
theorem State.peek_keeps (s : State) (f : Frame) : Keeps s (s.peek f) := by
  unfold State.peek
  dsimp only
  refine Keeps.ite (Keeps.of_kernel (by simp)) (Keeps.ite (Keeps.of_kernel (by simp)) (Keeps.ite ?_ (Keeps.of_kernel (by simp))))
  exact (Keeps.of_kernel (by simp)).trans (State.advancePtr_keeps _)
theorem State.poke_keeps (s : State) (f : Frame) : Keeps s (s.poke f) := by
  unfold State.poke
  refine Keeps.ite (State.outcome_keeps s f _) (Keeps.ite (State.outcome_keeps s f _) ?_)
  exact ((State.regWrite_keeps s true _ _).trans (State.settleAll_keeps _)).outcome f csOK
theorem State.chainReset_keeps (s : State) (f : Frame) : Keeps s (s.chainReset f) := by
  unfold State.chainReset
  refine Keeps.trans ?_ (State.settleAll_keeps _)
  exact ((State.outcome_keeps s f csOK).long _).then (foldS_kernel _ _ _ (fun t c => doCtxKill_kernel _ _))
theorem State.chainStore_keeps (s : State) (f : Frame) : Keeps s (s.chainStore f) := Keeps.of_kernel (State.chainStore_kernel s f)
theorem State.chainFrost_keeps (s : State) (f : Frame) : Keeps s (s.chainFrost f) := by
  unfold State.chainFrost
  have h := State.frost_keeps s (frAddr f)
  exact Keeps.ite (State.outcome_keeps s f _) (Keeps.ite (Keeps.ite ((h.outcome f _).long _) (h.outcome f _)) (h.outcome f _))
theorem State.chainThaw_keeps (s : State) (f : Frame) : Keeps s (s.chainThaw f) := by
  unfold State.chainThaw
  have h := (State.thaw_keeps s (frAddr f)).outcome f csOK
  exact Keeps.ite (State.outcome_keeps s f _) (Keeps.ite (h.long _) h)
theorem State.frame_keeps (s : State) (f : Frame) : Keeps s (s.frame f) := by
  unfold State.frame
  split
  · exact State.enum_keeps s f
  · exact State.assign_keeps s f
  · refine Keeps.ite (Keeps.of_kernel (by simp)) (Keeps.ite (Keeps.of_kernel (by simp)) (Keeps.ite (Keeps.of_kernel (by simp)) ?_))
    split
    · exact State.peek_keeps s f
    · exact State.poke_keeps s f
    · exact State.chainReset_keeps s f
    · exact Keeps.of_kernel (by simp)
    · exact State.chainFrost_keeps s f
    · exact State.chainThaw_keeps s f
    · exact Keeps.of_kernel (by simp)
theorem State.takeFrame_keeps (s : State) (f : Frame) : Keeps s (s.takeFrame f) := by
  unfold State.takeFrame
  exact Keeps.ite (Keeps.refl s) (Keeps.ite (Keeps.ite (Keeps.of_kernel rfl) (Keeps.refl s)) (State.frame_keeps s f))
theorem State.onFrame_keeps (s : State) (op : Nat) (f : Frame) : Keeps s (s.onFrame op f) := by
  unfold State.onFrame
  exact Keeps.ite (State.takeFrame_keeps s f) (Keeps.refl s)
theorem State.releaseChain_keeps (s : State) : Keeps s s.releaseChain := by
  unfold State.releaseChain
  dsimp only
  split
  · exact Keeps.trans (t := { s with chainLong := none, chainHeld := none }) (Keeps.of_kernel rfl) (State.frame_keeps _ _)
  · exact Keeps.of_kernel rfl
theorem State.settleChain_keeps (s : State) : Keeps s s.settleChain := by
  unfold State.settleChain
  exact Keeps.ite (State.releaseChain_keeps s) (Keeps.refl s)
theorem doNvmStoreDone_keeps (s : State) (ok : Bool) : Keeps s (doNvmStoreDone ok s) := by
  unfold doNvmStoreDone
  split
  · exact Keeps.ite (((State.finishStore_keeps _ _ _).trans (State.settleAll_keeps _)).trans (State.settleChain_keeps _)) (Keeps.refl s)
  · exact Keeps.refl s
theorem doGroveCmdFrost_keeps (s : State) (g : Nat) : Keeps s (doGroveCmdFrost g s) :=
  (State.hostWrite_keeps s _ (State.frost_keeps s g)).trans (State.settleChain_keeps _)
theorem doGroveCmdThaw_keeps (s : State) (g : Nat) : Keeps s (doGroveCmdThaw g s) :=
  (State.hostWrite_keeps s _ (State.thaw_keeps s g)).trans (State.settleChain_keeps _)
theorem doGroveDrainComplete_keeps (s : State) (g : Nat) : Keeps s (doGroveDrainComplete g s) := by
  unfold doGroveDrainComplete
  split
  · rename_i h
    simp only [Bool.and_eq_true, beq_iff_eq] at h
    exact (State.enterFrost_keeps s g (by rw [h.1]; decide)).trans (State.settleChain_keeps _)
  · exact Keeps.refl s
theorem doFrostDrainTimeout_keeps (s : State) (g : Nat) : Keeps s (doFrostDrainTimeout g s) := by
  unfold doFrostDrainTimeout
  split
  · rename_i h
    simp only [Bool.and_eq_true, beq_iff_eq] at h
    exact (State.abortFrost_keeps s g (by rw [h.1]; decide)).trans (State.settleChain_keeps _)
  · exact Keeps.refl s
theorem doThawComplete_keeps (s : State) (g : Nat) : Keeps s (doThawComplete g s) := by
  unfold doThawComplete
  split
  · rename_i h
    simp only [Bool.and_eq_true] at h
    exact (State.finishThaw_keeps s g h.1).trans (State.settleChain_keeps _)
  · exact Keeps.refl s

/-! ### Power and bring-up -/

theorem doPowerOnReset_keeps (s : State) (en : BitVec 16) (svc : Bool) : Keeps s (doPowerOnReset en svc s) := by
  unfold doPowerOnReset
  exact Keeps.ite (State.bringup_keeps _ _ _ _) (Keeps.refl s)
theorem doPorstFall_keeps (s : State) : Keeps s (doPorstFall s) := by
  unfold doPorstFall
  exact Keeps.ite (Keeps.refl s) ((State.breakStore_keeps s).trans (State.bringup_keeps _ _ _ _))
theorem doPowerRemoved_keeps (s : State) : Keeps s (doPowerRemoved s) := (State.breakStore_keeps s).trans (State.bringup_keeps _ _ _ _)
theorem schedDefaults_ok : schedOk schedDefaults = true := by decide +kernel
theorem configParams_ok (ws : List (Nat × DWord)) : schedOk (configParams ws) = true := by
  unfold configParams
  dsimp only
  split
  · rename_i h
    simp only [schedOk, Bool.and_eq_true, decide_eq_true_eq, List.length_map, List.length_range, h, and_self]
  · exact schedDefaults_ok
theorem State.putParams_keeps (s : State) (p : List Nat) (h : schedOk p = true) : Keeps s (s.putParams p) :=
  ⟨rfl, fun l => { l with pend := h, params := h }⟩
theorem State.loadConfig_keeps (s : State) : Keeps s s.loadConfig := by
  unfold State.loadConfig
  split
  · exact Keeps.refl s
  · dsimp only
    refine Keeps.trans ?_ (State.putParams_keeps _ _ (configParams_ok _))
    exact (Keeps.of_kernel (by simp)).trans (Keeps.foldS _ _ (fun t e => State.regWrite_keeps t _ _ _) _)
theorem State.loadStaged_keeps (s : State) : Keeps s s.loadStaged := by
  refine ⟨rfl, fun h => { h with staged := ?_, groves := ?_ }⟩
  · refine append_wf (sectorCells_wf 0 25 h.nvm) (sectorCells_wf 62 2 h.nvm) (fun a ha b hb => ?_)
    have h1 := (sectorCells_mem ha).2
    have h2 := (sectorCells_mem hb).1
    omega
  · have hk : s.loadStaged.kernel.groveStates = s.kernel.groveStates := by simp [State.kernel, State.loadStaged, Function.comp_def]
    rw [hk]; exact h.groves
theorem doBringupReady_keeps (s : State) (l : List BankNo) : Keeps s (doBringupReady l s) := by
  unfold doBringupReady
  refine Keeps.ite (Keeps.refl s) ?_
  dsimp only
  have h : Keeps s (foldS l s.loadStaged.setReady.loadMaps.loadConfig (fun s b => s.bringupKat b)).settleService := by
    refine Keeps.then ?_ (State.settleService_kernel _)
    refine Keeps.trans ?_ (Keeps.foldS _ _ (fun t b => Keeps.of_kernel (State.bringupKat_kernel _ _)) _)
    refine Keeps.trans ?_ (State.loadConfig_keeps _)
    exact (State.loadStaged_keeps s).then (by simp)
  exact Keeps.ite (h.trans (State.releaseChain_keeps _)) h

/-! ### Time -/

theorem State.settleLimits_keeps (s : State) : Keeps s s.settleLimits := by
  unfold State.settleLimits
  refine Keeps.trans ?_ (Keeps.foldS _ _ (fun t d => Keeps.of_kernel (doWatchdogExpire_kernel t d)) _)
  refine Keeps.trans ?_ (Keeps.foldS _ _ (fun t d => Keeps.of_kernel (doHeartbeatSend_kernel t d)) _)
  exact (Keeps.of_kernel (State.settleCountdowns_kernel s)).trans (Keeps.foldS _ _ (fun t g => doFrostDrainTimeout_keeps t g) _)
theorem State.tick_keeps (s : State) : Keeps s s.tick := by
  unfold State.tick
  split
  · exact Keeps.refl s
  · exact Keeps.refl s
  · exact Keeps.refl s
  · exact Keeps.of_kernel (by simp)
  · refine (State.settleLimits_keeps s).trans ?_
    refine (Keeps.of_kernel (t := s.settleLimits.countCycle.countDown.ageWatch) (by simp)).trans ?_
    dsimp only
    exact (Keeps.foldS (List.range 16) State.portTake (fun t p => Keeps.of_kernel (State.portTake_kernel t p)) _).then (by simp)

end Sys2Proof.Machine
end

