-- ==== Sys2Proof/Laws/State.lean ====
section
/-! SUPPORT. Laws/State.lean: what each update of Machine/Ops.lean leaves of every field of the state, so that no proof unfolds
one. It imports the kernel laws so that their simp sets stay as they are. -/
namespace Sys2Proof.Machine

/-! An output changes the outputs alone. -/
@[simp] theorem State.emit_pending (s : State) (o : Output) : (s.emit o).pending = s.pending := rfl
@[simp] theorem State.emit_freeCtr (s : State) (o : Output) : (s.emit o).freeCtr = s.freeCtr := rfl
@[simp] theorem State.emit_nextId (s : State) (o : Output) : (s.emit o).nextId = s.nextId := rfl
@[simp] theorem State.emit_dev (s : State) (o : Output) : (s.emit o).dev = s.dev := rfl
@[simp] theorem State.emit_sched (s : State) (o : Output) : (s.emit o).sched = s.sched := rfl
@[simp] theorem State.emit_integ (s : State) (o : Output) : (s.emit o).integ = s.integ := rfl
@[simp] theorem State.emit_msgs (s : State) (o : Output) : (s.emit o).msgs = s.msgs := rfl
@[simp] theorem State.emit_devCnt (s : State) (o : Output) : (s.emit o).devCnt = s.devCnt := rfl
@[simp] theorem State.emit_groves (s : State) (o : Output) : (s.emit o).groves = s.groves := rfl
@[simp] theorem State.emit_banks (s : State) (o : Output) : (s.emit o).banks = s.banks := rfl
@[simp] theorem State.emit_octets (s : State) (o : Output) : (s.emit o).octets = s.octets := rfl
@[simp] theorem State.emit_slots (s : State) (o : Output) : (s.emit o).slots = s.slots := rfl
@[simp] theorem State.emit_cohorts (s : State) (o : Output) : (s.emit o).cohorts = s.cohorts := rfl
@[simp] theorem State.emit_crowns (s : State) (o : Output) : (s.emit o).crowns = s.crowns := rfl
@[simp] theorem State.emit_pool (s : State) (o : Output) : (s.emit o).pool = s.pool := rfl
@[simp] theorem State.emit_ext (s : State) (o : Output) : (s.emit o).ext = s.ext := rfl
@[simp] theorem State.emit_fills (s : State) (o : Output) : (s.emit o).fills = s.fills := rfl
@[simp] theorem State.emit_leafFills (s : State) (o : Output) : (s.emit o).leafFills = s.leafFills := rfl
@[simp] theorem State.emit_xfers (s : State) (o : Output) : (s.emit o).xfers = s.xfers := rfl
@[simp] theorem State.emit_sheaves (s : State) (o : Output) : (s.emit o).sheaves = s.sheaves := rfl
@[simp] theorem State.emit_spawnBufs (s : State) (o : Output) : (s.emit o).spawnBufs = s.spawnBufs := rfl
@[simp] theorem State.emit_ctxs (s : State) (o : Output) : (s.emit o).ctxs = s.ctxs := rfl
@[simp] theorem State.emit_streams (s : State) (o : Output) : (s.emit o).streams = s.streams := rfl
@[simp] theorem State.emit_stageLines (s : State) (o : Output) : (s.emit o).stageLines = s.stageLines := rfl
@[simp] theorem State.emit_leafPfD (s : State) (o : Output) : (s.emit o).leafPfD = s.leafPfD := rfl
@[simp] theorem State.emit_stageParamErr (s : State) (o : Output) : (s.emit o).stageParamErr = s.stageParamErr := rfl
@[simp] theorem State.emit_hq (s : State) (o : Output) : (s.emit o).hq = s.hq := rfl
@[simp] theorem State.emit_leafQ (s : State) (o : Output) : (s.emit o).leafQ = s.leafQ := rfl
@[simp] theorem State.emit_leafHeld (s : State) (o : Output) : (s.emit o).leafHeld = s.leafHeld := rfl
@[simp] theorem State.emit_ingested (s : State) (o : Output) : (s.emit o).ingested = s.ingested := rfl
@[simp] theorem State.emit_shareBin (s : State) (o : Output) : (s.emit o).shareBin = s.shareBin := rfl
@[simp] theorem State.emit_shareAcc (s : State) (o : Output) : (s.emit o).shareAcc = s.shareAcc := rfl
@[simp] theorem State.emit_shareGrid (s : State) (o : Output) : (s.emit o).shareGrid = s.shareGrid := rfl
@[simp] theorem State.emit_collectErr (s : State) (o : Output) : (s.emit o).collectErr = s.collectErr := rfl
@[simp] theorem State.emit_feQ (s : State) (o : Output) : (s.emit o).feQ = s.feQ := rfl
@[simp] theorem State.emit_schedQ (s : State) (o : Output) : (s.emit o).schedQ = s.schedQ := rfl
@[simp] theorem State.emit_fwdQ (s : State) (o : Output) : (s.emit o).fwdQ = s.fwdQ := rfl
@[simp] theorem State.emit_walkQ (s : State) (o : Output) : (s.emit o).walkQ = s.walkQ := rfl
@[simp] theorem State.emit_collRot (s : State) (o : Output) : (s.emit o).collRot = s.collRot := rfl
@[simp] theorem State.emit_walkRot (s : State) (o : Output) : (s.emit o).walkRot = s.walkRot := rfl
@[simp] theorem State.emit_completions (s : State) (o : Output) : (s.emit o).completions = s.completions := rfl
@[simp] theorem State.emit_ports (s : State) (o : Output) : (s.emit o).ports = s.ports := rfl
@[simp] theorem State.emit_ownWrites (s : State) (o : Output) : (s.emit o).ownWrites = s.ownWrites := rfl
@[simp] theorem State.emit_taken (s : State) (o : Output) : (s.emit o).taken = s.taken := rfl
@[simp] theorem State.emit_dir (s : State) (o : Output) : (s.emit o).dir = s.dir := rfl
@[simp] theorem State.emit_depart (s : State) (o : Output) : (s.emit o).depart = s.depart := rfl
@[simp] theorem State.emit_ringPend (s : State) (o : Output) : (s.emit o).ringPend = s.ringPend := rfl
@[simp] theorem State.emit_txns (s : State) (o : Output) : (s.emit o).txns = s.txns := rfl
@[simp] theorem State.emit_txnBuf (s : State) (o : Output) : (s.emit o).txnBuf = s.txnBuf := rfl
@[simp] theorem State.emit_scans (s : State) (o : Output) : (s.emit o).scans = s.scans := rfl
@[simp] theorem State.emit_keys (s : State) (o : Output) : (s.emit o).keys = s.keys := rfl
@[simp] theorem State.emit_keyCmd (s : State) (o : Output) : (s.emit o).keyCmd = s.keyCmd := rfl
@[simp] theorem State.emit_keyResult (s : State) (o : Output) : (s.emit o).keyResult = s.keyResult := rfl
@[simp] theorem State.emit_keyBuf (s : State) (o : Output) : (s.emit o).keyBuf = s.keyBuf := rfl
@[simp] theorem State.emit_nvm (s : State) (o : Output) : (s.emit o).nvm = s.nvm := rfl
@[simp] theorem State.emit_staged (s : State) (o : Output) : (s.emit o).staged = s.staged := rfl
@[simp] theorem State.emit_chainLong (s : State) (o : Output) : (s.emit o).chainLong = s.chainLong := rfl
@[simp] theorem State.emit_chainHeld (s : State) (o : Output) : (s.emit o).chainHeld = s.chainHeld := rfl
@[simp] theorem State.emit_lost (s : State) (o : Output) : (s.emit o).lost = s.lost := rfl
@[simp] theorem State.emit_watch (s : State) (o : Output) : (s.emit o).watch = s.watch := rfl
@[simp] theorem State.emit_beats (s : State) (o : Output) : (s.emit o).beats = s.beats := rfl
@[simp] theorem State.emit_fwdWait (s : State) (o : Output) : (s.emit o).fwdWait = s.fwdWait := rfl
@[simp] theorem State.emit_tlb (s : State) (o : Output) : (s.emit o).tlb = s.tlb := rfl
@[simp] theorem State.emit_invalidates (s : State) (o : Output) : (s.emit o).invalidates = s.invalidates := rfl
@[simp] theorem State.emit_ghosts (s : State) (o : Output) : (s.emit o).ghosts = s.ghosts := rfl

/-! A change of the device registers changes them alone. -/
@[simp] theorem State.modDev_pending (s : State) (f : Dev → Dev) : (s.modDev f).pending = s.pending := rfl
@[simp] theorem State.modDev_out (s : State) (f : Dev → Dev) : (s.modDev f).out = s.out := rfl
@[simp] theorem State.modDev_freeCtr (s : State) (f : Dev → Dev) : (s.modDev f).freeCtr = s.freeCtr := rfl
@[simp] theorem State.modDev_nextId (s : State) (f : Dev → Dev) : (s.modDev f).nextId = s.nextId := rfl
@[simp] theorem State.modDev_sched (s : State) (f : Dev → Dev) : (s.modDev f).sched = s.sched := rfl
@[simp] theorem State.modDev_integ (s : State) (f : Dev → Dev) : (s.modDev f).integ = s.integ := rfl
@[simp] theorem State.modDev_msgs (s : State) (f : Dev → Dev) : (s.modDev f).msgs = s.msgs := rfl
@[simp] theorem State.modDev_devCnt (s : State) (f : Dev → Dev) : (s.modDev f).devCnt = s.devCnt := rfl
@[simp] theorem State.modDev_groves (s : State) (f : Dev → Dev) : (s.modDev f).groves = s.groves := rfl
@[simp] theorem State.modDev_banks (s : State) (f : Dev → Dev) : (s.modDev f).banks = s.banks := rfl
@[simp] theorem State.modDev_octets (s : State) (f : Dev → Dev) : (s.modDev f).octets = s.octets := rfl
@[simp] theorem State.modDev_slots (s : State) (f : Dev → Dev) : (s.modDev f).slots = s.slots := rfl
@[simp] theorem State.modDev_cohorts (s : State) (f : Dev → Dev) : (s.modDev f).cohorts = s.cohorts := rfl
@[simp] theorem State.modDev_crowns (s : State) (f : Dev → Dev) : (s.modDev f).crowns = s.crowns := rfl
@[simp] theorem State.modDev_pool (s : State) (f : Dev → Dev) : (s.modDev f).pool = s.pool := rfl
@[simp] theorem State.modDev_ext (s : State) (f : Dev → Dev) : (s.modDev f).ext = s.ext := rfl
@[simp] theorem State.modDev_fills (s : State) (f : Dev → Dev) : (s.modDev f).fills = s.fills := rfl
@[simp] theorem State.modDev_leafFills (s : State) (f : Dev → Dev) : (s.modDev f).leafFills = s.leafFills := rfl
@[simp] theorem State.modDev_xfers (s : State) (f : Dev → Dev) : (s.modDev f).xfers = s.xfers := rfl
@[simp] theorem State.modDev_sheaves (s : State) (f : Dev → Dev) : (s.modDev f).sheaves = s.sheaves := rfl
@[simp] theorem State.modDev_spawnBufs (s : State) (f : Dev → Dev) : (s.modDev f).spawnBufs = s.spawnBufs := rfl
@[simp] theorem State.modDev_ctxs (s : State) (f : Dev → Dev) : (s.modDev f).ctxs = s.ctxs := rfl
@[simp] theorem State.modDev_streams (s : State) (f : Dev → Dev) : (s.modDev f).streams = s.streams := rfl
@[simp] theorem State.modDev_stageLines (s : State) (f : Dev → Dev) : (s.modDev f).stageLines = s.stageLines := rfl
@[simp] theorem State.modDev_leafPfD (s : State) (f : Dev → Dev) : (s.modDev f).leafPfD = s.leafPfD := rfl
@[simp] theorem State.modDev_stageParamErr (s : State) (f : Dev → Dev) : (s.modDev f).stageParamErr = s.stageParamErr := rfl
@[simp] theorem State.modDev_hq (s : State) (f : Dev → Dev) : (s.modDev f).hq = s.hq := rfl
@[simp] theorem State.modDev_leafQ (s : State) (f : Dev → Dev) : (s.modDev f).leafQ = s.leafQ := rfl
@[simp] theorem State.modDev_leafHeld (s : State) (f : Dev → Dev) : (s.modDev f).leafHeld = s.leafHeld := rfl
@[simp] theorem State.modDev_ingested (s : State) (f : Dev → Dev) : (s.modDev f).ingested = s.ingested := rfl
@[simp] theorem State.modDev_shareBin (s : State) (f : Dev → Dev) : (s.modDev f).shareBin = s.shareBin := rfl
@[simp] theorem State.modDev_shareAcc (s : State) (f : Dev → Dev) : (s.modDev f).shareAcc = s.shareAcc := rfl
@[simp] theorem State.modDev_shareGrid (s : State) (f : Dev → Dev) : (s.modDev f).shareGrid = s.shareGrid := rfl
@[simp] theorem State.modDev_collectErr (s : State) (f : Dev → Dev) : (s.modDev f).collectErr = s.collectErr := rfl
@[simp] theorem State.modDev_feQ (s : State) (f : Dev → Dev) : (s.modDev f).feQ = s.feQ := rfl
@[simp] theorem State.modDev_schedQ (s : State) (f : Dev → Dev) : (s.modDev f).schedQ = s.schedQ := rfl
@[simp] theorem State.modDev_fwdQ (s : State) (f : Dev → Dev) : (s.modDev f).fwdQ = s.fwdQ := rfl
@[simp] theorem State.modDev_walkQ (s : State) (f : Dev → Dev) : (s.modDev f).walkQ = s.walkQ := rfl
@[simp] theorem State.modDev_collRot (s : State) (f : Dev → Dev) : (s.modDev f).collRot = s.collRot := rfl
@[simp] theorem State.modDev_walkRot (s : State) (f : Dev → Dev) : (s.modDev f).walkRot = s.walkRot := rfl
@[simp] theorem State.modDev_completions (s : State) (f : Dev → Dev) : (s.modDev f).completions = s.completions := rfl
@[simp] theorem State.modDev_ports (s : State) (f : Dev → Dev) : (s.modDev f).ports = s.ports := rfl
@[simp] theorem State.modDev_ownWrites (s : State) (f : Dev → Dev) : (s.modDev f).ownWrites = s.ownWrites := rfl
@[simp] theorem State.modDev_taken (s : State) (f : Dev → Dev) : (s.modDev f).taken = s.taken := rfl
@[simp] theorem State.modDev_dir (s : State) (f : Dev → Dev) : (s.modDev f).dir = s.dir := rfl
@[simp] theorem State.modDev_depart (s : State) (f : Dev → Dev) : (s.modDev f).depart = s.depart := rfl
@[simp] theorem State.modDev_ringPend (s : State) (f : Dev → Dev) : (s.modDev f).ringPend = s.ringPend := rfl
@[simp] theorem State.modDev_txns (s : State) (f : Dev → Dev) : (s.modDev f).txns = s.txns := rfl
@[simp] theorem State.modDev_txnBuf (s : State) (f : Dev → Dev) : (s.modDev f).txnBuf = s.txnBuf := rfl
@[simp] theorem State.modDev_scans (s : State) (f : Dev → Dev) : (s.modDev f).scans = s.scans := rfl
@[simp] theorem State.modDev_keys (s : State) (f : Dev → Dev) : (s.modDev f).keys = s.keys := rfl
@[simp] theorem State.modDev_keyCmd (s : State) (f : Dev → Dev) : (s.modDev f).keyCmd = s.keyCmd := rfl
@[simp] theorem State.modDev_keyResult (s : State) (f : Dev → Dev) : (s.modDev f).keyResult = s.keyResult := rfl
@[simp] theorem State.modDev_keyBuf (s : State) (f : Dev → Dev) : (s.modDev f).keyBuf = s.keyBuf := rfl
@[simp] theorem State.modDev_nvm (s : State) (f : Dev → Dev) : (s.modDev f).nvm = s.nvm := rfl
@[simp] theorem State.modDev_staged (s : State) (f : Dev → Dev) : (s.modDev f).staged = s.staged := rfl
@[simp] theorem State.modDev_chainLong (s : State) (f : Dev → Dev) : (s.modDev f).chainLong = s.chainLong := rfl
@[simp] theorem State.modDev_chainHeld (s : State) (f : Dev → Dev) : (s.modDev f).chainHeld = s.chainHeld := rfl
@[simp] theorem State.modDev_lost (s : State) (f : Dev → Dev) : (s.modDev f).lost = s.lost := rfl
@[simp] theorem State.modDev_watch (s : State) (f : Dev → Dev) : (s.modDev f).watch = s.watch := rfl
@[simp] theorem State.modDev_beats (s : State) (f : Dev → Dev) : (s.modDev f).beats = s.beats := rfl
@[simp] theorem State.modDev_fwdWait (s : State) (f : Dev → Dev) : (s.modDev f).fwdWait = s.fwdWait := rfl
@[simp] theorem State.modDev_tlb (s : State) (f : Dev → Dev) : (s.modDev f).tlb = s.tlb := rfl
@[simp] theorem State.modDev_invalidates (s : State) (f : Dev → Dev) : (s.modDev f).invalidates = s.invalidates := rfl
@[simp] theorem State.modDev_ghosts (s : State) (f : Dev → Dev) : (s.modDev f).ghosts = s.ghosts := rfl

/-! A device counter changes the device counters alone. -/
@[simp] theorem State.count_pending (s : State) (k n : Nat) : (s.count k n).pending = s.pending := rfl
@[simp] theorem State.count_out (s : State) (k n : Nat) : (s.count k n).out = s.out := rfl
@[simp] theorem State.count_freeCtr (s : State) (k n : Nat) : (s.count k n).freeCtr = s.freeCtr := rfl
@[simp] theorem State.count_nextId (s : State) (k n : Nat) : (s.count k n).nextId = s.nextId := rfl
@[simp] theorem State.count_dev (s : State) (k n : Nat) : (s.count k n).dev = s.dev := rfl
@[simp] theorem State.count_sched (s : State) (k n : Nat) : (s.count k n).sched = s.sched := rfl
@[simp] theorem State.count_integ (s : State) (k n : Nat) : (s.count k n).integ = s.integ := rfl
@[simp] theorem State.count_msgs (s : State) (k n : Nat) : (s.count k n).msgs = s.msgs := rfl
@[simp] theorem State.count_groves (s : State) (k n : Nat) : (s.count k n).groves = s.groves := rfl
@[simp] theorem State.count_banks (s : State) (k n : Nat) : (s.count k n).banks = s.banks := rfl
@[simp] theorem State.count_octets (s : State) (k n : Nat) : (s.count k n).octets = s.octets := rfl
@[simp] theorem State.count_slots (s : State) (k n : Nat) : (s.count k n).slots = s.slots := rfl
@[simp] theorem State.count_cohorts (s : State) (k n : Nat) : (s.count k n).cohorts = s.cohorts := rfl
@[simp] theorem State.count_crowns (s : State) (k n : Nat) : (s.count k n).crowns = s.crowns := rfl
@[simp] theorem State.count_pool (s : State) (k n : Nat) : (s.count k n).pool = s.pool := rfl
@[simp] theorem State.count_ext (s : State) (k n : Nat) : (s.count k n).ext = s.ext := rfl
@[simp] theorem State.count_fills (s : State) (k n : Nat) : (s.count k n).fills = s.fills := rfl
@[simp] theorem State.count_leafFills (s : State) (k n : Nat) : (s.count k n).leafFills = s.leafFills := rfl
@[simp] theorem State.count_xfers (s : State) (k n : Nat) : (s.count k n).xfers = s.xfers := rfl
@[simp] theorem State.count_sheaves (s : State) (k n : Nat) : (s.count k n).sheaves = s.sheaves := rfl
@[simp] theorem State.count_spawnBufs (s : State) (k n : Nat) : (s.count k n).spawnBufs = s.spawnBufs := rfl
@[simp] theorem State.count_ctxs (s : State) (k n : Nat) : (s.count k n).ctxs = s.ctxs := rfl
@[simp] theorem State.count_streams (s : State) (k n : Nat) : (s.count k n).streams = s.streams := rfl
@[simp] theorem State.count_stageLines (s : State) (k n : Nat) : (s.count k n).stageLines = s.stageLines := rfl
@[simp] theorem State.count_leafPfD (s : State) (k n : Nat) : (s.count k n).leafPfD = s.leafPfD := rfl
@[simp] theorem State.count_stageParamErr (s : State) (k n : Nat) : (s.count k n).stageParamErr = s.stageParamErr := rfl
@[simp] theorem State.count_hq (s : State) (k n : Nat) : (s.count k n).hq = s.hq := rfl
@[simp] theorem State.count_leafQ (s : State) (k n : Nat) : (s.count k n).leafQ = s.leafQ := rfl
@[simp] theorem State.count_leafHeld (s : State) (k n : Nat) : (s.count k n).leafHeld = s.leafHeld := rfl
@[simp] theorem State.count_ingested (s : State) (k n : Nat) : (s.count k n).ingested = s.ingested := rfl
@[simp] theorem State.count_shareBin (s : State) (k n : Nat) : (s.count k n).shareBin = s.shareBin := rfl
@[simp] theorem State.count_shareAcc (s : State) (k n : Nat) : (s.count k n).shareAcc = s.shareAcc := rfl
@[simp] theorem State.count_shareGrid (s : State) (k n : Nat) : (s.count k n).shareGrid = s.shareGrid := rfl
@[simp] theorem State.count_collectErr (s : State) (k n : Nat) : (s.count k n).collectErr = s.collectErr := rfl
@[simp] theorem State.count_feQ (s : State) (k n : Nat) : (s.count k n).feQ = s.feQ := rfl
@[simp] theorem State.count_schedQ (s : State) (k n : Nat) : (s.count k n).schedQ = s.schedQ := rfl
@[simp] theorem State.count_fwdQ (s : State) (k n : Nat) : (s.count k n).fwdQ = s.fwdQ := rfl
@[simp] theorem State.count_walkQ (s : State) (k n : Nat) : (s.count k n).walkQ = s.walkQ := rfl
@[simp] theorem State.count_collRot (s : State) (k n : Nat) : (s.count k n).collRot = s.collRot := rfl
@[simp] theorem State.count_walkRot (s : State) (k n : Nat) : (s.count k n).walkRot = s.walkRot := rfl
@[simp] theorem State.count_completions (s : State) (k n : Nat) : (s.count k n).completions = s.completions := rfl
@[simp] theorem State.count_ports (s : State) (k n : Nat) : (s.count k n).ports = s.ports := rfl
@[simp] theorem State.count_ownWrites (s : State) (k n : Nat) : (s.count k n).ownWrites = s.ownWrites := rfl
@[simp] theorem State.count_taken (s : State) (k n : Nat) : (s.count k n).taken = s.taken := rfl
@[simp] theorem State.count_dir (s : State) (k n : Nat) : (s.count k n).dir = s.dir := rfl
@[simp] theorem State.count_depart (s : State) (k n : Nat) : (s.count k n).depart = s.depart := rfl
@[simp] theorem State.count_ringPend (s : State) (k n : Nat) : (s.count k n).ringPend = s.ringPend := rfl
@[simp] theorem State.count_txns (s : State) (k n : Nat) : (s.count k n).txns = s.txns := rfl
@[simp] theorem State.count_txnBuf (s : State) (k n : Nat) : (s.count k n).txnBuf = s.txnBuf := rfl
@[simp] theorem State.count_scans (s : State) (k n : Nat) : (s.count k n).scans = s.scans := rfl
@[simp] theorem State.count_keys (s : State) (k n : Nat) : (s.count k n).keys = s.keys := rfl
@[simp] theorem State.count_keyCmd (s : State) (k n : Nat) : (s.count k n).keyCmd = s.keyCmd := rfl
@[simp] theorem State.count_keyResult (s : State) (k n : Nat) : (s.count k n).keyResult = s.keyResult := rfl
@[simp] theorem State.count_keyBuf (s : State) (k n : Nat) : (s.count k n).keyBuf = s.keyBuf := rfl
@[simp] theorem State.count_nvm (s : State) (k n : Nat) : (s.count k n).nvm = s.nvm := rfl
@[simp] theorem State.count_staged (s : State) (k n : Nat) : (s.count k n).staged = s.staged := rfl
@[simp] theorem State.count_chainLong (s : State) (k n : Nat) : (s.count k n).chainLong = s.chainLong := rfl
@[simp] theorem State.count_chainHeld (s : State) (k n : Nat) : (s.count k n).chainHeld = s.chainHeld := rfl
@[simp] theorem State.count_lost (s : State) (k n : Nat) : (s.count k n).lost = s.lost := rfl
@[simp] theorem State.count_watch (s : State) (k n : Nat) : (s.count k n).watch = s.watch := rfl
@[simp] theorem State.count_beats (s : State) (k n : Nat) : (s.count k n).beats = s.beats := rfl
@[simp] theorem State.count_fwdWait (s : State) (k n : Nat) : (s.count k n).fwdWait = s.fwdWait := rfl
@[simp] theorem State.count_tlb (s : State) (k n : Nat) : (s.count k n).tlb = s.tlb := rfl
@[simp] theorem State.count_invalidates (s : State) (k n : Nat) : (s.count k n).invalidates = s.invalidates := rfl
@[simp] theorem State.count_ghosts (s : State) (k n : Nat) : (s.count k n).ghosts = s.ghosts := rfl

/-! A context put in its place changes the contexts alone. -/
@[simp] theorem State.setCtx_pending (s : State) (c : Nat) (x : Context) : (s.setCtx c x).pending = s.pending := rfl
@[simp] theorem State.setCtx_out (s : State) (c : Nat) (x : Context) : (s.setCtx c x).out = s.out := rfl
@[simp] theorem State.setCtx_freeCtr (s : State) (c : Nat) (x : Context) : (s.setCtx c x).freeCtr = s.freeCtr := rfl
@[simp] theorem State.setCtx_nextId (s : State) (c : Nat) (x : Context) : (s.setCtx c x).nextId = s.nextId := rfl
@[simp] theorem State.setCtx_dev (s : State) (c : Nat) (x : Context) : (s.setCtx c x).dev = s.dev := rfl
@[simp] theorem State.setCtx_sched (s : State) (c : Nat) (x : Context) : (s.setCtx c x).sched = s.sched := rfl
@[simp] theorem State.setCtx_integ (s : State) (c : Nat) (x : Context) : (s.setCtx c x).integ = s.integ := rfl
@[simp] theorem State.setCtx_msgs (s : State) (c : Nat) (x : Context) : (s.setCtx c x).msgs = s.msgs := rfl
@[simp] theorem State.setCtx_devCnt (s : State) (c : Nat) (x : Context) : (s.setCtx c x).devCnt = s.devCnt := rfl
@[simp] theorem State.setCtx_groves (s : State) (c : Nat) (x : Context) : (s.setCtx c x).groves = s.groves := rfl
@[simp] theorem State.setCtx_banks (s : State) (c : Nat) (x : Context) : (s.setCtx c x).banks = s.banks := rfl
@[simp] theorem State.setCtx_octets (s : State) (c : Nat) (x : Context) : (s.setCtx c x).octets = s.octets := rfl
@[simp] theorem State.setCtx_slots (s : State) (c : Nat) (x : Context) : (s.setCtx c x).slots = s.slots := rfl
@[simp] theorem State.setCtx_cohorts (s : State) (c : Nat) (x : Context) : (s.setCtx c x).cohorts = s.cohorts := rfl
@[simp] theorem State.setCtx_crowns (s : State) (c : Nat) (x : Context) : (s.setCtx c x).crowns = s.crowns := rfl
@[simp] theorem State.setCtx_pool (s : State) (c : Nat) (x : Context) : (s.setCtx c x).pool = s.pool := rfl
@[simp] theorem State.setCtx_ext (s : State) (c : Nat) (x : Context) : (s.setCtx c x).ext = s.ext := rfl
@[simp] theorem State.setCtx_fills (s : State) (c : Nat) (x : Context) : (s.setCtx c x).fills = s.fills := rfl
@[simp] theorem State.setCtx_leafFills (s : State) (c : Nat) (x : Context) : (s.setCtx c x).leafFills = s.leafFills := rfl
@[simp] theorem State.setCtx_xfers (s : State) (c : Nat) (x : Context) : (s.setCtx c x).xfers = s.xfers := rfl
@[simp] theorem State.setCtx_sheaves (s : State) (c : Nat) (x : Context) : (s.setCtx c x).sheaves = s.sheaves := rfl
@[simp] theorem State.setCtx_spawnBufs (s : State) (c : Nat) (x : Context) : (s.setCtx c x).spawnBufs = s.spawnBufs := rfl
@[simp] theorem State.setCtx_streams (s : State) (c : Nat) (x : Context) : (s.setCtx c x).streams = s.streams := rfl
@[simp] theorem State.setCtx_stageLines (s : State) (c : Nat) (x : Context) : (s.setCtx c x).stageLines = s.stageLines := rfl
@[simp] theorem State.setCtx_leafPfD (s : State) (c : Nat) (x : Context) : (s.setCtx c x).leafPfD = s.leafPfD := rfl
@[simp] theorem State.setCtx_stageParamErr (s : State) (c : Nat) (x : Context) : (s.setCtx c x).stageParamErr = s.stageParamErr := rfl
@[simp] theorem State.setCtx_hq (s : State) (c : Nat) (x : Context) : (s.setCtx c x).hq = s.hq := rfl
@[simp] theorem State.setCtx_leafQ (s : State) (c : Nat) (x : Context) : (s.setCtx c x).leafQ = s.leafQ := rfl
@[simp] theorem State.setCtx_leafHeld (s : State) (c : Nat) (x : Context) : (s.setCtx c x).leafHeld = s.leafHeld := rfl
@[simp] theorem State.setCtx_ingested (s : State) (c : Nat) (x : Context) : (s.setCtx c x).ingested = s.ingested := rfl
@[simp] theorem State.setCtx_shareBin (s : State) (c : Nat) (x : Context) : (s.setCtx c x).shareBin = s.shareBin := rfl
@[simp] theorem State.setCtx_shareAcc (s : State) (c : Nat) (x : Context) : (s.setCtx c x).shareAcc = s.shareAcc := rfl
@[simp] theorem State.setCtx_shareGrid (s : State) (c : Nat) (x : Context) : (s.setCtx c x).shareGrid = s.shareGrid := rfl
@[simp] theorem State.setCtx_collectErr (s : State) (c : Nat) (x : Context) : (s.setCtx c x).collectErr = s.collectErr := rfl
@[simp] theorem State.setCtx_feQ (s : State) (c : Nat) (x : Context) : (s.setCtx c x).feQ = s.feQ := rfl
@[simp] theorem State.setCtx_schedQ (s : State) (c : Nat) (x : Context) : (s.setCtx c x).schedQ = s.schedQ := rfl
@[simp] theorem State.setCtx_fwdQ (s : State) (c : Nat) (x : Context) : (s.setCtx c x).fwdQ = s.fwdQ := rfl
@[simp] theorem State.setCtx_walkQ (s : State) (c : Nat) (x : Context) : (s.setCtx c x).walkQ = s.walkQ := rfl
@[simp] theorem State.setCtx_collRot (s : State) (c : Nat) (x : Context) : (s.setCtx c x).collRot = s.collRot := rfl
@[simp] theorem State.setCtx_walkRot (s : State) (c : Nat) (x : Context) : (s.setCtx c x).walkRot = s.walkRot := rfl
@[simp] theorem State.setCtx_completions (s : State) (c : Nat) (x : Context) : (s.setCtx c x).completions = s.completions := rfl
@[simp] theorem State.setCtx_ports (s : State) (c : Nat) (x : Context) : (s.setCtx c x).ports = s.ports := rfl
@[simp] theorem State.setCtx_ownWrites (s : State) (c : Nat) (x : Context) : (s.setCtx c x).ownWrites = s.ownWrites := rfl
@[simp] theorem State.setCtx_taken (s : State) (c : Nat) (x : Context) : (s.setCtx c x).taken = s.taken := rfl
@[simp] theorem State.setCtx_dir (s : State) (c : Nat) (x : Context) : (s.setCtx c x).dir = s.dir := rfl
@[simp] theorem State.setCtx_depart (s : State) (c : Nat) (x : Context) : (s.setCtx c x).depart = s.depart := rfl
@[simp] theorem State.setCtx_ringPend (s : State) (c : Nat) (x : Context) : (s.setCtx c x).ringPend = s.ringPend := rfl
@[simp] theorem State.setCtx_txns (s : State) (c : Nat) (x : Context) : (s.setCtx c x).txns = s.txns := rfl
@[simp] theorem State.setCtx_txnBuf (s : State) (c : Nat) (x : Context) : (s.setCtx c x).txnBuf = s.txnBuf := rfl
@[simp] theorem State.setCtx_scans (s : State) (c : Nat) (x : Context) : (s.setCtx c x).scans = s.scans := rfl
@[simp] theorem State.setCtx_keys (s : State) (c : Nat) (x : Context) : (s.setCtx c x).keys = s.keys := rfl
@[simp] theorem State.setCtx_keyCmd (s : State) (c : Nat) (x : Context) : (s.setCtx c x).keyCmd = s.keyCmd := rfl
@[simp] theorem State.setCtx_keyResult (s : State) (c : Nat) (x : Context) : (s.setCtx c x).keyResult = s.keyResult := rfl
@[simp] theorem State.setCtx_keyBuf (s : State) (c : Nat) (x : Context) : (s.setCtx c x).keyBuf = s.keyBuf := rfl
@[simp] theorem State.setCtx_nvm (s : State) (c : Nat) (x : Context) : (s.setCtx c x).nvm = s.nvm := rfl
@[simp] theorem State.setCtx_staged (s : State) (c : Nat) (x : Context) : (s.setCtx c x).staged = s.staged := rfl
@[simp] theorem State.setCtx_chainLong (s : State) (c : Nat) (x : Context) : (s.setCtx c x).chainLong = s.chainLong := rfl
@[simp] theorem State.setCtx_chainHeld (s : State) (c : Nat) (x : Context) : (s.setCtx c x).chainHeld = s.chainHeld := rfl
@[simp] theorem State.setCtx_lost (s : State) (c : Nat) (x : Context) : (s.setCtx c x).lost = s.lost := rfl
@[simp] theorem State.setCtx_watch (s : State) (c : Nat) (x : Context) : (s.setCtx c x).watch = s.watch := rfl
@[simp] theorem State.setCtx_beats (s : State) (c : Nat) (x : Context) : (s.setCtx c x).beats = s.beats := rfl
@[simp] theorem State.setCtx_fwdWait (s : State) (c : Nat) (x : Context) : (s.setCtx c x).fwdWait = s.fwdWait := rfl
@[simp] theorem State.setCtx_tlb (s : State) (c : Nat) (x : Context) : (s.setCtx c x).tlb = s.tlb := rfl
@[simp] theorem State.setCtx_invalidates (s : State) (c : Nat) (x : Context) : (s.setCtx c x).invalidates = s.invalidates := rfl
@[simp] theorem State.setCtx_ghosts (s : State) (c : Nat) (x : Context) : (s.setCtx c x).ghosts = s.ghosts := rfl

/-! A change of a context changes the contexts alone. -/
@[simp] theorem State.modCtx_pending (s : State) (c : Nat) (f : Context → Context) : (s.modCtx c f).pending = s.pending := rfl
@[simp] theorem State.modCtx_out (s : State) (c : Nat) (f : Context → Context) : (s.modCtx c f).out = s.out := rfl
@[simp] theorem State.modCtx_freeCtr (s : State) (c : Nat) (f : Context → Context) : (s.modCtx c f).freeCtr = s.freeCtr := rfl
@[simp] theorem State.modCtx_nextId (s : State) (c : Nat) (f : Context → Context) : (s.modCtx c f).nextId = s.nextId := rfl
@[simp] theorem State.modCtx_dev (s : State) (c : Nat) (f : Context → Context) : (s.modCtx c f).dev = s.dev := rfl
@[simp] theorem State.modCtx_sched (s : State) (c : Nat) (f : Context → Context) : (s.modCtx c f).sched = s.sched := rfl
@[simp] theorem State.modCtx_integ (s : State) (c : Nat) (f : Context → Context) : (s.modCtx c f).integ = s.integ := rfl
@[simp] theorem State.modCtx_msgs (s : State) (c : Nat) (f : Context → Context) : (s.modCtx c f).msgs = s.msgs := rfl
@[simp] theorem State.modCtx_devCnt (s : State) (c : Nat) (f : Context → Context) : (s.modCtx c f).devCnt = s.devCnt := rfl
@[simp] theorem State.modCtx_groves (s : State) (c : Nat) (f : Context → Context) : (s.modCtx c f).groves = s.groves := rfl
@[simp] theorem State.modCtx_banks (s : State) (c : Nat) (f : Context → Context) : (s.modCtx c f).banks = s.banks := rfl
@[simp] theorem State.modCtx_octets (s : State) (c : Nat) (f : Context → Context) : (s.modCtx c f).octets = s.octets := rfl
@[simp] theorem State.modCtx_slots (s : State) (c : Nat) (f : Context → Context) : (s.modCtx c f).slots = s.slots := rfl
@[simp] theorem State.modCtx_cohorts (s : State) (c : Nat) (f : Context → Context) : (s.modCtx c f).cohorts = s.cohorts := rfl
@[simp] theorem State.modCtx_crowns (s : State) (c : Nat) (f : Context → Context) : (s.modCtx c f).crowns = s.crowns := rfl
@[simp] theorem State.modCtx_pool (s : State) (c : Nat) (f : Context → Context) : (s.modCtx c f).pool = s.pool := rfl
@[simp] theorem State.modCtx_ext (s : State) (c : Nat) (f : Context → Context) : (s.modCtx c f).ext = s.ext := rfl
@[simp] theorem State.modCtx_fills (s : State) (c : Nat) (f : Context → Context) : (s.modCtx c f).fills = s.fills := rfl
@[simp] theorem State.modCtx_leafFills (s : State) (c : Nat) (f : Context → Context) : (s.modCtx c f).leafFills = s.leafFills := rfl
@[simp] theorem State.modCtx_xfers (s : State) (c : Nat) (f : Context → Context) : (s.modCtx c f).xfers = s.xfers := rfl
@[simp] theorem State.modCtx_sheaves (s : State) (c : Nat) (f : Context → Context) : (s.modCtx c f).sheaves = s.sheaves := rfl
@[simp] theorem State.modCtx_spawnBufs (s : State) (c : Nat) (f : Context → Context) : (s.modCtx c f).spawnBufs = s.spawnBufs := rfl
@[simp] theorem State.modCtx_streams (s : State) (c : Nat) (f : Context → Context) : (s.modCtx c f).streams = s.streams := rfl
@[simp] theorem State.modCtx_stageLines (s : State) (c : Nat) (f : Context → Context) : (s.modCtx c f).stageLines = s.stageLines := rfl
@[simp] theorem State.modCtx_leafPfD (s : State) (c : Nat) (f : Context → Context) : (s.modCtx c f).leafPfD = s.leafPfD := rfl
@[simp] theorem State.modCtx_stageParamErr (s : State) (c : Nat) (f : Context → Context) : (s.modCtx c f).stageParamErr = s.stageParamErr := rfl
@[simp] theorem State.modCtx_hq (s : State) (c : Nat) (f : Context → Context) : (s.modCtx c f).hq = s.hq := rfl
@[simp] theorem State.modCtx_leafQ (s : State) (c : Nat) (f : Context → Context) : (s.modCtx c f).leafQ = s.leafQ := rfl
@[simp] theorem State.modCtx_leafHeld (s : State) (c : Nat) (f : Context → Context) : (s.modCtx c f).leafHeld = s.leafHeld := rfl
@[simp] theorem State.modCtx_ingested (s : State) (c : Nat) (f : Context → Context) : (s.modCtx c f).ingested = s.ingested := rfl
@[simp] theorem State.modCtx_shareBin (s : State) (c : Nat) (f : Context → Context) : (s.modCtx c f).shareBin = s.shareBin := rfl
@[simp] theorem State.modCtx_shareAcc (s : State) (c : Nat) (f : Context → Context) : (s.modCtx c f).shareAcc = s.shareAcc := rfl
@[simp] theorem State.modCtx_shareGrid (s : State) (c : Nat) (f : Context → Context) : (s.modCtx c f).shareGrid = s.shareGrid := rfl
@[simp] theorem State.modCtx_collectErr (s : State) (c : Nat) (f : Context → Context) : (s.modCtx c f).collectErr = s.collectErr := rfl
@[simp] theorem State.modCtx_feQ (s : State) (c : Nat) (f : Context → Context) : (s.modCtx c f).feQ = s.feQ := rfl
@[simp] theorem State.modCtx_schedQ (s : State) (c : Nat) (f : Context → Context) : (s.modCtx c f).schedQ = s.schedQ := rfl
@[simp] theorem State.modCtx_fwdQ (s : State) (c : Nat) (f : Context → Context) : (s.modCtx c f).fwdQ = s.fwdQ := rfl
@[simp] theorem State.modCtx_walkQ (s : State) (c : Nat) (f : Context → Context) : (s.modCtx c f).walkQ = s.walkQ := rfl
@[simp] theorem State.modCtx_collRot (s : State) (c : Nat) (f : Context → Context) : (s.modCtx c f).collRot = s.collRot := rfl
@[simp] theorem State.modCtx_walkRot (s : State) (c : Nat) (f : Context → Context) : (s.modCtx c f).walkRot = s.walkRot := rfl
@[simp] theorem State.modCtx_completions (s : State) (c : Nat) (f : Context → Context) : (s.modCtx c f).completions = s.completions := rfl
@[simp] theorem State.modCtx_ports (s : State) (c : Nat) (f : Context → Context) : (s.modCtx c f).ports = s.ports := rfl
@[simp] theorem State.modCtx_ownWrites (s : State) (c : Nat) (f : Context → Context) : (s.modCtx c f).ownWrites = s.ownWrites := rfl
@[simp] theorem State.modCtx_taken (s : State) (c : Nat) (f : Context → Context) : (s.modCtx c f).taken = s.taken := rfl
@[simp] theorem State.modCtx_dir (s : State) (c : Nat) (f : Context → Context) : (s.modCtx c f).dir = s.dir := rfl
@[simp] theorem State.modCtx_depart (s : State) (c : Nat) (f : Context → Context) : (s.modCtx c f).depart = s.depart := rfl
@[simp] theorem State.modCtx_ringPend (s : State) (c : Nat) (f : Context → Context) : (s.modCtx c f).ringPend = s.ringPend := rfl
@[simp] theorem State.modCtx_txns (s : State) (c : Nat) (f : Context → Context) : (s.modCtx c f).txns = s.txns := rfl
@[simp] theorem State.modCtx_txnBuf (s : State) (c : Nat) (f : Context → Context) : (s.modCtx c f).txnBuf = s.txnBuf := rfl
@[simp] theorem State.modCtx_scans (s : State) (c : Nat) (f : Context → Context) : (s.modCtx c f).scans = s.scans := rfl
@[simp] theorem State.modCtx_keys (s : State) (c : Nat) (f : Context → Context) : (s.modCtx c f).keys = s.keys := rfl
@[simp] theorem State.modCtx_keyCmd (s : State) (c : Nat) (f : Context → Context) : (s.modCtx c f).keyCmd = s.keyCmd := rfl
@[simp] theorem State.modCtx_keyResult (s : State) (c : Nat) (f : Context → Context) : (s.modCtx c f).keyResult = s.keyResult := rfl
@[simp] theorem State.modCtx_keyBuf (s : State) (c : Nat) (f : Context → Context) : (s.modCtx c f).keyBuf = s.keyBuf := rfl
@[simp] theorem State.modCtx_nvm (s : State) (c : Nat) (f : Context → Context) : (s.modCtx c f).nvm = s.nvm := rfl
@[simp] theorem State.modCtx_staged (s : State) (c : Nat) (f : Context → Context) : (s.modCtx c f).staged = s.staged := rfl
@[simp] theorem State.modCtx_chainLong (s : State) (c : Nat) (f : Context → Context) : (s.modCtx c f).chainLong = s.chainLong := rfl
@[simp] theorem State.modCtx_chainHeld (s : State) (c : Nat) (f : Context → Context) : (s.modCtx c f).chainHeld = s.chainHeld := rfl
@[simp] theorem State.modCtx_lost (s : State) (c : Nat) (f : Context → Context) : (s.modCtx c f).lost = s.lost := rfl
@[simp] theorem State.modCtx_watch (s : State) (c : Nat) (f : Context → Context) : (s.modCtx c f).watch = s.watch := rfl
@[simp] theorem State.modCtx_beats (s : State) (c : Nat) (f : Context → Context) : (s.modCtx c f).beats = s.beats := rfl
@[simp] theorem State.modCtx_fwdWait (s : State) (c : Nat) (f : Context → Context) : (s.modCtx c f).fwdWait = s.fwdWait := rfl
@[simp] theorem State.modCtx_tlb (s : State) (c : Nat) (f : Context → Context) : (s.modCtx c f).tlb = s.tlb := rfl
@[simp] theorem State.modCtx_invalidates (s : State) (c : Nat) (f : Context → Context) : (s.modCtx c f).invalidates = s.invalidates := rfl
@[simp] theorem State.modCtx_ghosts (s : State) (c : Nat) (f : Context → Context) : (s.modCtx c f).ghosts = s.ghosts := rfl

/-! A counter of a context changes the contexts alone. -/
@[simp] theorem State.countC_pending (s : State) (c k n : Nat) : (s.countC c k n).pending = s.pending := rfl
@[simp] theorem State.countC_out (s : State) (c k n : Nat) : (s.countC c k n).out = s.out := rfl
@[simp] theorem State.countC_freeCtr (s : State) (c k n : Nat) : (s.countC c k n).freeCtr = s.freeCtr := rfl
@[simp] theorem State.countC_nextId (s : State) (c k n : Nat) : (s.countC c k n).nextId = s.nextId := rfl
@[simp] theorem State.countC_dev (s : State) (c k n : Nat) : (s.countC c k n).dev = s.dev := rfl
@[simp] theorem State.countC_sched (s : State) (c k n : Nat) : (s.countC c k n).sched = s.sched := rfl
@[simp] theorem State.countC_integ (s : State) (c k n : Nat) : (s.countC c k n).integ = s.integ := rfl
@[simp] theorem State.countC_msgs (s : State) (c k n : Nat) : (s.countC c k n).msgs = s.msgs := rfl
@[simp] theorem State.countC_devCnt (s : State) (c k n : Nat) : (s.countC c k n).devCnt = s.devCnt := rfl
@[simp] theorem State.countC_groves (s : State) (c k n : Nat) : (s.countC c k n).groves = s.groves := rfl
@[simp] theorem State.countC_banks (s : State) (c k n : Nat) : (s.countC c k n).banks = s.banks := rfl
@[simp] theorem State.countC_octets (s : State) (c k n : Nat) : (s.countC c k n).octets = s.octets := rfl
@[simp] theorem State.countC_slots (s : State) (c k n : Nat) : (s.countC c k n).slots = s.slots := rfl
@[simp] theorem State.countC_cohorts (s : State) (c k n : Nat) : (s.countC c k n).cohorts = s.cohorts := rfl
@[simp] theorem State.countC_crowns (s : State) (c k n : Nat) : (s.countC c k n).crowns = s.crowns := rfl
@[simp] theorem State.countC_pool (s : State) (c k n : Nat) : (s.countC c k n).pool = s.pool := rfl
@[simp] theorem State.countC_ext (s : State) (c k n : Nat) : (s.countC c k n).ext = s.ext := rfl
@[simp] theorem State.countC_fills (s : State) (c k n : Nat) : (s.countC c k n).fills = s.fills := rfl
@[simp] theorem State.countC_leafFills (s : State) (c k n : Nat) : (s.countC c k n).leafFills = s.leafFills := rfl
@[simp] theorem State.countC_xfers (s : State) (c k n : Nat) : (s.countC c k n).xfers = s.xfers := rfl
@[simp] theorem State.countC_sheaves (s : State) (c k n : Nat) : (s.countC c k n).sheaves = s.sheaves := rfl
@[simp] theorem State.countC_spawnBufs (s : State) (c k n : Nat) : (s.countC c k n).spawnBufs = s.spawnBufs := rfl
@[simp] theorem State.countC_streams (s : State) (c k n : Nat) : (s.countC c k n).streams = s.streams := rfl
@[simp] theorem State.countC_stageLines (s : State) (c k n : Nat) : (s.countC c k n).stageLines = s.stageLines := rfl
@[simp] theorem State.countC_leafPfD (s : State) (c k n : Nat) : (s.countC c k n).leafPfD = s.leafPfD := rfl
@[simp] theorem State.countC_stageParamErr (s : State) (c k n : Nat) : (s.countC c k n).stageParamErr = s.stageParamErr := rfl
@[simp] theorem State.countC_hq (s : State) (c k n : Nat) : (s.countC c k n).hq = s.hq := rfl
@[simp] theorem State.countC_leafQ (s : State) (c k n : Nat) : (s.countC c k n).leafQ = s.leafQ := rfl
@[simp] theorem State.countC_leafHeld (s : State) (c k n : Nat) : (s.countC c k n).leafHeld = s.leafHeld := rfl
@[simp] theorem State.countC_ingested (s : State) (c k n : Nat) : (s.countC c k n).ingested = s.ingested := rfl
@[simp] theorem State.countC_shareBin (s : State) (c k n : Nat) : (s.countC c k n).shareBin = s.shareBin := rfl
@[simp] theorem State.countC_shareAcc (s : State) (c k n : Nat) : (s.countC c k n).shareAcc = s.shareAcc := rfl
@[simp] theorem State.countC_shareGrid (s : State) (c k n : Nat) : (s.countC c k n).shareGrid = s.shareGrid := rfl
@[simp] theorem State.countC_collectErr (s : State) (c k n : Nat) : (s.countC c k n).collectErr = s.collectErr := rfl
@[simp] theorem State.countC_feQ (s : State) (c k n : Nat) : (s.countC c k n).feQ = s.feQ := rfl
@[simp] theorem State.countC_schedQ (s : State) (c k n : Nat) : (s.countC c k n).schedQ = s.schedQ := rfl
@[simp] theorem State.countC_fwdQ (s : State) (c k n : Nat) : (s.countC c k n).fwdQ = s.fwdQ := rfl
@[simp] theorem State.countC_walkQ (s : State) (c k n : Nat) : (s.countC c k n).walkQ = s.walkQ := rfl
@[simp] theorem State.countC_collRot (s : State) (c k n : Nat) : (s.countC c k n).collRot = s.collRot := rfl
@[simp] theorem State.countC_walkRot (s : State) (c k n : Nat) : (s.countC c k n).walkRot = s.walkRot := rfl
@[simp] theorem State.countC_completions (s : State) (c k n : Nat) : (s.countC c k n).completions = s.completions := rfl
@[simp] theorem State.countC_ports (s : State) (c k n : Nat) : (s.countC c k n).ports = s.ports := rfl
@[simp] theorem State.countC_ownWrites (s : State) (c k n : Nat) : (s.countC c k n).ownWrites = s.ownWrites := rfl
@[simp] theorem State.countC_taken (s : State) (c k n : Nat) : (s.countC c k n).taken = s.taken := rfl
@[simp] theorem State.countC_dir (s : State) (c k n : Nat) : (s.countC c k n).dir = s.dir := rfl
@[simp] theorem State.countC_depart (s : State) (c k n : Nat) : (s.countC c k n).depart = s.depart := rfl
@[simp] theorem State.countC_ringPend (s : State) (c k n : Nat) : (s.countC c k n).ringPend = s.ringPend := rfl
@[simp] theorem State.countC_txns (s : State) (c k n : Nat) : (s.countC c k n).txns = s.txns := rfl
@[simp] theorem State.countC_txnBuf (s : State) (c k n : Nat) : (s.countC c k n).txnBuf = s.txnBuf := rfl
@[simp] theorem State.countC_scans (s : State) (c k n : Nat) : (s.countC c k n).scans = s.scans := rfl
@[simp] theorem State.countC_keys (s : State) (c k n : Nat) : (s.countC c k n).keys = s.keys := rfl
@[simp] theorem State.countC_keyCmd (s : State) (c k n : Nat) : (s.countC c k n).keyCmd = s.keyCmd := rfl
@[simp] theorem State.countC_keyResult (s : State) (c k n : Nat) : (s.countC c k n).keyResult = s.keyResult := rfl
@[simp] theorem State.countC_keyBuf (s : State) (c k n : Nat) : (s.countC c k n).keyBuf = s.keyBuf := rfl
@[simp] theorem State.countC_nvm (s : State) (c k n : Nat) : (s.countC c k n).nvm = s.nvm := rfl
@[simp] theorem State.countC_staged (s : State) (c k n : Nat) : (s.countC c k n).staged = s.staged := rfl
@[simp] theorem State.countC_chainLong (s : State) (c k n : Nat) : (s.countC c k n).chainLong = s.chainLong := rfl
@[simp] theorem State.countC_chainHeld (s : State) (c k n : Nat) : (s.countC c k n).chainHeld = s.chainHeld := rfl
@[simp] theorem State.countC_lost (s : State) (c k n : Nat) : (s.countC c k n).lost = s.lost := rfl
@[simp] theorem State.countC_watch (s : State) (c k n : Nat) : (s.countC c k n).watch = s.watch := rfl
@[simp] theorem State.countC_beats (s : State) (c k n : Nat) : (s.countC c k n).beats = s.beats := rfl
@[simp] theorem State.countC_fwdWait (s : State) (c k n : Nat) : (s.countC c k n).fwdWait = s.fwdWait := rfl
@[simp] theorem State.countC_tlb (s : State) (c k n : Nat) : (s.countC c k n).tlb = s.tlb := rfl
@[simp] theorem State.countC_invalidates (s : State) (c k n : Nat) : (s.countC c k n).invalidates = s.invalidates := rfl
@[simp] theorem State.countC_ghosts (s : State) (c k n : Nat) : (s.countC c k n).ghosts = s.ghosts := rfl

/-! A change of a strand changes the contexts alone. -/
@[simp] theorem State.modStrand_pending (s : State) (c : Nat) (f : Strand → Strand) : (s.modStrand c f).pending = s.pending := rfl
@[simp] theorem State.modStrand_out (s : State) (c : Nat) (f : Strand → Strand) : (s.modStrand c f).out = s.out := rfl
@[simp] theorem State.modStrand_freeCtr (s : State) (c : Nat) (f : Strand → Strand) : (s.modStrand c f).freeCtr = s.freeCtr := rfl
@[simp] theorem State.modStrand_nextId (s : State) (c : Nat) (f : Strand → Strand) : (s.modStrand c f).nextId = s.nextId := rfl
@[simp] theorem State.modStrand_dev (s : State) (c : Nat) (f : Strand → Strand) : (s.modStrand c f).dev = s.dev := rfl
@[simp] theorem State.modStrand_sched (s : State) (c : Nat) (f : Strand → Strand) : (s.modStrand c f).sched = s.sched := rfl
@[simp] theorem State.modStrand_integ (s : State) (c : Nat) (f : Strand → Strand) : (s.modStrand c f).integ = s.integ := rfl
@[simp] theorem State.modStrand_msgs (s : State) (c : Nat) (f : Strand → Strand) : (s.modStrand c f).msgs = s.msgs := rfl
@[simp] theorem State.modStrand_devCnt (s : State) (c : Nat) (f : Strand → Strand) : (s.modStrand c f).devCnt = s.devCnt := rfl
@[simp] theorem State.modStrand_groves (s : State) (c : Nat) (f : Strand → Strand) : (s.modStrand c f).groves = s.groves := rfl
@[simp] theorem State.modStrand_banks (s : State) (c : Nat) (f : Strand → Strand) : (s.modStrand c f).banks = s.banks := rfl
@[simp] theorem State.modStrand_octets (s : State) (c : Nat) (f : Strand → Strand) : (s.modStrand c f).octets = s.octets := rfl
@[simp] theorem State.modStrand_slots (s : State) (c : Nat) (f : Strand → Strand) : (s.modStrand c f).slots = s.slots := rfl
@[simp] theorem State.modStrand_cohorts (s : State) (c : Nat) (f : Strand → Strand) : (s.modStrand c f).cohorts = s.cohorts := rfl
@[simp] theorem State.modStrand_crowns (s : State) (c : Nat) (f : Strand → Strand) : (s.modStrand c f).crowns = s.crowns := rfl
@[simp] theorem State.modStrand_pool (s : State) (c : Nat) (f : Strand → Strand) : (s.modStrand c f).pool = s.pool := rfl
@[simp] theorem State.modStrand_ext (s : State) (c : Nat) (f : Strand → Strand) : (s.modStrand c f).ext = s.ext := rfl
@[simp] theorem State.modStrand_fills (s : State) (c : Nat) (f : Strand → Strand) : (s.modStrand c f).fills = s.fills := rfl
@[simp] theorem State.modStrand_leafFills (s : State) (c : Nat) (f : Strand → Strand) : (s.modStrand c f).leafFills = s.leafFills := rfl
@[simp] theorem State.modStrand_xfers (s : State) (c : Nat) (f : Strand → Strand) : (s.modStrand c f).xfers = s.xfers := rfl
@[simp] theorem State.modStrand_sheaves (s : State) (c : Nat) (f : Strand → Strand) : (s.modStrand c f).sheaves = s.sheaves := rfl
@[simp] theorem State.modStrand_spawnBufs (s : State) (c : Nat) (f : Strand → Strand) : (s.modStrand c f).spawnBufs = s.spawnBufs := rfl
@[simp] theorem State.modStrand_streams (s : State) (c : Nat) (f : Strand → Strand) : (s.modStrand c f).streams = s.streams := rfl
@[simp] theorem State.modStrand_stageLines (s : State) (c : Nat) (f : Strand → Strand) : (s.modStrand c f).stageLines = s.stageLines := rfl
@[simp] theorem State.modStrand_leafPfD (s : State) (c : Nat) (f : Strand → Strand) : (s.modStrand c f).leafPfD = s.leafPfD := rfl
@[simp] theorem State.modStrand_stageParamErr (s : State) (c : Nat) (f : Strand → Strand) : (s.modStrand c f).stageParamErr = s.stageParamErr := rfl
@[simp] theorem State.modStrand_hq (s : State) (c : Nat) (f : Strand → Strand) : (s.modStrand c f).hq = s.hq := rfl
@[simp] theorem State.modStrand_leafQ (s : State) (c : Nat) (f : Strand → Strand) : (s.modStrand c f).leafQ = s.leafQ := rfl
@[simp] theorem State.modStrand_leafHeld (s : State) (c : Nat) (f : Strand → Strand) : (s.modStrand c f).leafHeld = s.leafHeld := rfl
@[simp] theorem State.modStrand_ingested (s : State) (c : Nat) (f : Strand → Strand) : (s.modStrand c f).ingested = s.ingested := rfl
@[simp] theorem State.modStrand_shareBin (s : State) (c : Nat) (f : Strand → Strand) : (s.modStrand c f).shareBin = s.shareBin := rfl
@[simp] theorem State.modStrand_shareAcc (s : State) (c : Nat) (f : Strand → Strand) : (s.modStrand c f).shareAcc = s.shareAcc := rfl
@[simp] theorem State.modStrand_shareGrid (s : State) (c : Nat) (f : Strand → Strand) : (s.modStrand c f).shareGrid = s.shareGrid := rfl
@[simp] theorem State.modStrand_collectErr (s : State) (c : Nat) (f : Strand → Strand) : (s.modStrand c f).collectErr = s.collectErr := rfl
@[simp] theorem State.modStrand_feQ (s : State) (c : Nat) (f : Strand → Strand) : (s.modStrand c f).feQ = s.feQ := rfl
@[simp] theorem State.modStrand_schedQ (s : State) (c : Nat) (f : Strand → Strand) : (s.modStrand c f).schedQ = s.schedQ := rfl
@[simp] theorem State.modStrand_fwdQ (s : State) (c : Nat) (f : Strand → Strand) : (s.modStrand c f).fwdQ = s.fwdQ := rfl
@[simp] theorem State.modStrand_walkQ (s : State) (c : Nat) (f : Strand → Strand) : (s.modStrand c f).walkQ = s.walkQ := rfl
@[simp] theorem State.modStrand_collRot (s : State) (c : Nat) (f : Strand → Strand) : (s.modStrand c f).collRot = s.collRot := rfl
@[simp] theorem State.modStrand_walkRot (s : State) (c : Nat) (f : Strand → Strand) : (s.modStrand c f).walkRot = s.walkRot := rfl
@[simp] theorem State.modStrand_completions (s : State) (c : Nat) (f : Strand → Strand) : (s.modStrand c f).completions = s.completions := rfl
@[simp] theorem State.modStrand_ports (s : State) (c : Nat) (f : Strand → Strand) : (s.modStrand c f).ports = s.ports := rfl
@[simp] theorem State.modStrand_ownWrites (s : State) (c : Nat) (f : Strand → Strand) : (s.modStrand c f).ownWrites = s.ownWrites := rfl
@[simp] theorem State.modStrand_taken (s : State) (c : Nat) (f : Strand → Strand) : (s.modStrand c f).taken = s.taken := rfl
@[simp] theorem State.modStrand_dir (s : State) (c : Nat) (f : Strand → Strand) : (s.modStrand c f).dir = s.dir := rfl
@[simp] theorem State.modStrand_depart (s : State) (c : Nat) (f : Strand → Strand) : (s.modStrand c f).depart = s.depart := rfl
@[simp] theorem State.modStrand_ringPend (s : State) (c : Nat) (f : Strand → Strand) : (s.modStrand c f).ringPend = s.ringPend := rfl
@[simp] theorem State.modStrand_txns (s : State) (c : Nat) (f : Strand → Strand) : (s.modStrand c f).txns = s.txns := rfl
@[simp] theorem State.modStrand_txnBuf (s : State) (c : Nat) (f : Strand → Strand) : (s.modStrand c f).txnBuf = s.txnBuf := rfl
@[simp] theorem State.modStrand_scans (s : State) (c : Nat) (f : Strand → Strand) : (s.modStrand c f).scans = s.scans := rfl
@[simp] theorem State.modStrand_keys (s : State) (c : Nat) (f : Strand → Strand) : (s.modStrand c f).keys = s.keys := rfl
@[simp] theorem State.modStrand_keyCmd (s : State) (c : Nat) (f : Strand → Strand) : (s.modStrand c f).keyCmd = s.keyCmd := rfl
@[simp] theorem State.modStrand_keyResult (s : State) (c : Nat) (f : Strand → Strand) : (s.modStrand c f).keyResult = s.keyResult := rfl
@[simp] theorem State.modStrand_keyBuf (s : State) (c : Nat) (f : Strand → Strand) : (s.modStrand c f).keyBuf = s.keyBuf := rfl
@[simp] theorem State.modStrand_nvm (s : State) (c : Nat) (f : Strand → Strand) : (s.modStrand c f).nvm = s.nvm := rfl
@[simp] theorem State.modStrand_staged (s : State) (c : Nat) (f : Strand → Strand) : (s.modStrand c f).staged = s.staged := rfl
@[simp] theorem State.modStrand_chainLong (s : State) (c : Nat) (f : Strand → Strand) : (s.modStrand c f).chainLong = s.chainLong := rfl
@[simp] theorem State.modStrand_chainHeld (s : State) (c : Nat) (f : Strand → Strand) : (s.modStrand c f).chainHeld = s.chainHeld := rfl
@[simp] theorem State.modStrand_lost (s : State) (c : Nat) (f : Strand → Strand) : (s.modStrand c f).lost = s.lost := rfl
@[simp] theorem State.modStrand_watch (s : State) (c : Nat) (f : Strand → Strand) : (s.modStrand c f).watch = s.watch := rfl
@[simp] theorem State.modStrand_beats (s : State) (c : Nat) (f : Strand → Strand) : (s.modStrand c f).beats = s.beats := rfl
@[simp] theorem State.modStrand_fwdWait (s : State) (c : Nat) (f : Strand → Strand) : (s.modStrand c f).fwdWait = s.fwdWait := rfl
@[simp] theorem State.modStrand_tlb (s : State) (c : Nat) (f : Strand → Strand) : (s.modStrand c f).tlb = s.tlb := rfl
@[simp] theorem State.modStrand_invalidates (s : State) (c : Nat) (f : Strand → Strand) : (s.modStrand c f).invalidates = s.invalidates := rfl
@[simp] theorem State.modStrand_ghosts (s : State) (c : Nat) (f : Strand → Strand) : (s.modStrand c f).ghosts = s.ghosts := rfl

/-! A change of a stream changes the streams alone. -/
@[simp] theorem State.modStream_pending (s : State) (k : Nat) (f : Stream → Stream) : (s.modStream k f).pending = s.pending := rfl
@[simp] theorem State.modStream_out (s : State) (k : Nat) (f : Stream → Stream) : (s.modStream k f).out = s.out := rfl
@[simp] theorem State.modStream_freeCtr (s : State) (k : Nat) (f : Stream → Stream) : (s.modStream k f).freeCtr = s.freeCtr := rfl
@[simp] theorem State.modStream_nextId (s : State) (k : Nat) (f : Stream → Stream) : (s.modStream k f).nextId = s.nextId := rfl
@[simp] theorem State.modStream_dev (s : State) (k : Nat) (f : Stream → Stream) : (s.modStream k f).dev = s.dev := rfl
@[simp] theorem State.modStream_sched (s : State) (k : Nat) (f : Stream → Stream) : (s.modStream k f).sched = s.sched := rfl
@[simp] theorem State.modStream_integ (s : State) (k : Nat) (f : Stream → Stream) : (s.modStream k f).integ = s.integ := rfl
@[simp] theorem State.modStream_msgs (s : State) (k : Nat) (f : Stream → Stream) : (s.modStream k f).msgs = s.msgs := rfl
@[simp] theorem State.modStream_devCnt (s : State) (k : Nat) (f : Stream → Stream) : (s.modStream k f).devCnt = s.devCnt := rfl
@[simp] theorem State.modStream_groves (s : State) (k : Nat) (f : Stream → Stream) : (s.modStream k f).groves = s.groves := rfl
@[simp] theorem State.modStream_banks (s : State) (k : Nat) (f : Stream → Stream) : (s.modStream k f).banks = s.banks := rfl
@[simp] theorem State.modStream_octets (s : State) (k : Nat) (f : Stream → Stream) : (s.modStream k f).octets = s.octets := rfl
@[simp] theorem State.modStream_slots (s : State) (k : Nat) (f : Stream → Stream) : (s.modStream k f).slots = s.slots := rfl
@[simp] theorem State.modStream_cohorts (s : State) (k : Nat) (f : Stream → Stream) : (s.modStream k f).cohorts = s.cohorts := rfl
@[simp] theorem State.modStream_crowns (s : State) (k : Nat) (f : Stream → Stream) : (s.modStream k f).crowns = s.crowns := rfl
@[simp] theorem State.modStream_pool (s : State) (k : Nat) (f : Stream → Stream) : (s.modStream k f).pool = s.pool := rfl
@[simp] theorem State.modStream_ext (s : State) (k : Nat) (f : Stream → Stream) : (s.modStream k f).ext = s.ext := rfl
@[simp] theorem State.modStream_fills (s : State) (k : Nat) (f : Stream → Stream) : (s.modStream k f).fills = s.fills := rfl
@[simp] theorem State.modStream_leafFills (s : State) (k : Nat) (f : Stream → Stream) : (s.modStream k f).leafFills = s.leafFills := rfl
@[simp] theorem State.modStream_xfers (s : State) (k : Nat) (f : Stream → Stream) : (s.modStream k f).xfers = s.xfers := rfl
@[simp] theorem State.modStream_sheaves (s : State) (k : Nat) (f : Stream → Stream) : (s.modStream k f).sheaves = s.sheaves := rfl
@[simp] theorem State.modStream_spawnBufs (s : State) (k : Nat) (f : Stream → Stream) : (s.modStream k f).spawnBufs = s.spawnBufs := rfl
@[simp] theorem State.modStream_ctxs (s : State) (k : Nat) (f : Stream → Stream) : (s.modStream k f).ctxs = s.ctxs := rfl
@[simp] theorem State.modStream_stageLines (s : State) (k : Nat) (f : Stream → Stream) : (s.modStream k f).stageLines = s.stageLines := rfl
@[simp] theorem State.modStream_leafPfD (s : State) (k : Nat) (f : Stream → Stream) : (s.modStream k f).leafPfD = s.leafPfD := rfl
@[simp] theorem State.modStream_stageParamErr (s : State) (k : Nat) (f : Stream → Stream) : (s.modStream k f).stageParamErr = s.stageParamErr := rfl
@[simp] theorem State.modStream_hq (s : State) (k : Nat) (f : Stream → Stream) : (s.modStream k f).hq = s.hq := rfl
@[simp] theorem State.modStream_leafQ (s : State) (k : Nat) (f : Stream → Stream) : (s.modStream k f).leafQ = s.leafQ := rfl
@[simp] theorem State.modStream_leafHeld (s : State) (k : Nat) (f : Stream → Stream) : (s.modStream k f).leafHeld = s.leafHeld := rfl
@[simp] theorem State.modStream_ingested (s : State) (k : Nat) (f : Stream → Stream) : (s.modStream k f).ingested = s.ingested := rfl
@[simp] theorem State.modStream_shareBin (s : State) (k : Nat) (f : Stream → Stream) : (s.modStream k f).shareBin = s.shareBin := rfl
@[simp] theorem State.modStream_shareAcc (s : State) (k : Nat) (f : Stream → Stream) : (s.modStream k f).shareAcc = s.shareAcc := rfl
@[simp] theorem State.modStream_shareGrid (s : State) (k : Nat) (f : Stream → Stream) : (s.modStream k f).shareGrid = s.shareGrid := rfl
@[simp] theorem State.modStream_collectErr (s : State) (k : Nat) (f : Stream → Stream) : (s.modStream k f).collectErr = s.collectErr := rfl
@[simp] theorem State.modStream_feQ (s : State) (k : Nat) (f : Stream → Stream) : (s.modStream k f).feQ = s.feQ := rfl
@[simp] theorem State.modStream_schedQ (s : State) (k : Nat) (f : Stream → Stream) : (s.modStream k f).schedQ = s.schedQ := rfl
@[simp] theorem State.modStream_fwdQ (s : State) (k : Nat) (f : Stream → Stream) : (s.modStream k f).fwdQ = s.fwdQ := rfl
@[simp] theorem State.modStream_walkQ (s : State) (k : Nat) (f : Stream → Stream) : (s.modStream k f).walkQ = s.walkQ := rfl
@[simp] theorem State.modStream_collRot (s : State) (k : Nat) (f : Stream → Stream) : (s.modStream k f).collRot = s.collRot := rfl
@[simp] theorem State.modStream_walkRot (s : State) (k : Nat) (f : Stream → Stream) : (s.modStream k f).walkRot = s.walkRot := rfl
@[simp] theorem State.modStream_completions (s : State) (k : Nat) (f : Stream → Stream) : (s.modStream k f).completions = s.completions := rfl
@[simp] theorem State.modStream_ports (s : State) (k : Nat) (f : Stream → Stream) : (s.modStream k f).ports = s.ports := rfl
@[simp] theorem State.modStream_ownWrites (s : State) (k : Nat) (f : Stream → Stream) : (s.modStream k f).ownWrites = s.ownWrites := rfl
@[simp] theorem State.modStream_taken (s : State) (k : Nat) (f : Stream → Stream) : (s.modStream k f).taken = s.taken := rfl
@[simp] theorem State.modStream_dir (s : State) (k : Nat) (f : Stream → Stream) : (s.modStream k f).dir = s.dir := rfl
@[simp] theorem State.modStream_depart (s : State) (k : Nat) (f : Stream → Stream) : (s.modStream k f).depart = s.depart := rfl
@[simp] theorem State.modStream_ringPend (s : State) (k : Nat) (f : Stream → Stream) : (s.modStream k f).ringPend = s.ringPend := rfl
@[simp] theorem State.modStream_txns (s : State) (k : Nat) (f : Stream → Stream) : (s.modStream k f).txns = s.txns := rfl
@[simp] theorem State.modStream_txnBuf (s : State) (k : Nat) (f : Stream → Stream) : (s.modStream k f).txnBuf = s.txnBuf := rfl
@[simp] theorem State.modStream_scans (s : State) (k : Nat) (f : Stream → Stream) : (s.modStream k f).scans = s.scans := rfl
@[simp] theorem State.modStream_keys (s : State) (k : Nat) (f : Stream → Stream) : (s.modStream k f).keys = s.keys := rfl
@[simp] theorem State.modStream_keyCmd (s : State) (k : Nat) (f : Stream → Stream) : (s.modStream k f).keyCmd = s.keyCmd := rfl
@[simp] theorem State.modStream_keyResult (s : State) (k : Nat) (f : Stream → Stream) : (s.modStream k f).keyResult = s.keyResult := rfl
@[simp] theorem State.modStream_keyBuf (s : State) (k : Nat) (f : Stream → Stream) : (s.modStream k f).keyBuf = s.keyBuf := rfl
@[simp] theorem State.modStream_nvm (s : State) (k : Nat) (f : Stream → Stream) : (s.modStream k f).nvm = s.nvm := rfl
@[simp] theorem State.modStream_staged (s : State) (k : Nat) (f : Stream → Stream) : (s.modStream k f).staged = s.staged := rfl
@[simp] theorem State.modStream_chainLong (s : State) (k : Nat) (f : Stream → Stream) : (s.modStream k f).chainLong = s.chainLong := rfl
@[simp] theorem State.modStream_chainHeld (s : State) (k : Nat) (f : Stream → Stream) : (s.modStream k f).chainHeld = s.chainHeld := rfl
@[simp] theorem State.modStream_lost (s : State) (k : Nat) (f : Stream → Stream) : (s.modStream k f).lost = s.lost := rfl
@[simp] theorem State.modStream_watch (s : State) (k : Nat) (f : Stream → Stream) : (s.modStream k f).watch = s.watch := rfl
@[simp] theorem State.modStream_beats (s : State) (k : Nat) (f : Stream → Stream) : (s.modStream k f).beats = s.beats := rfl
@[simp] theorem State.modStream_fwdWait (s : State) (k : Nat) (f : Stream → Stream) : (s.modStream k f).fwdWait = s.fwdWait := rfl
@[simp] theorem State.modStream_tlb (s : State) (k : Nat) (f : Stream → Stream) : (s.modStream k f).tlb = s.tlb := rfl
@[simp] theorem State.modStream_invalidates (s : State) (k : Nat) (f : Stream → Stream) : (s.modStream k f).invalidates = s.invalidates := rfl
@[simp] theorem State.modStream_ghosts (s : State) (k : Nat) (f : Stream → Stream) : (s.modStream k f).ghosts = s.ghosts := rfl

/-! A change of a scan channel changes the channels alone. -/
@[simp] theorem State.modScan_pending (s : State) (k : Nat) (f : Scan → Scan) : (s.modScan k f).pending = s.pending := rfl
@[simp] theorem State.modScan_out (s : State) (k : Nat) (f : Scan → Scan) : (s.modScan k f).out = s.out := rfl
@[simp] theorem State.modScan_freeCtr (s : State) (k : Nat) (f : Scan → Scan) : (s.modScan k f).freeCtr = s.freeCtr := rfl
@[simp] theorem State.modScan_nextId (s : State) (k : Nat) (f : Scan → Scan) : (s.modScan k f).nextId = s.nextId := rfl
@[simp] theorem State.modScan_dev (s : State) (k : Nat) (f : Scan → Scan) : (s.modScan k f).dev = s.dev := rfl
@[simp] theorem State.modScan_sched (s : State) (k : Nat) (f : Scan → Scan) : (s.modScan k f).sched = s.sched := rfl
@[simp] theorem State.modScan_integ (s : State) (k : Nat) (f : Scan → Scan) : (s.modScan k f).integ = s.integ := rfl
@[simp] theorem State.modScan_msgs (s : State) (k : Nat) (f : Scan → Scan) : (s.modScan k f).msgs = s.msgs := rfl
@[simp] theorem State.modScan_devCnt (s : State) (k : Nat) (f : Scan → Scan) : (s.modScan k f).devCnt = s.devCnt := rfl
@[simp] theorem State.modScan_groves (s : State) (k : Nat) (f : Scan → Scan) : (s.modScan k f).groves = s.groves := rfl
@[simp] theorem State.modScan_banks (s : State) (k : Nat) (f : Scan → Scan) : (s.modScan k f).banks = s.banks := rfl
@[simp] theorem State.modScan_octets (s : State) (k : Nat) (f : Scan → Scan) : (s.modScan k f).octets = s.octets := rfl
@[simp] theorem State.modScan_slots (s : State) (k : Nat) (f : Scan → Scan) : (s.modScan k f).slots = s.slots := rfl
@[simp] theorem State.modScan_cohorts (s : State) (k : Nat) (f : Scan → Scan) : (s.modScan k f).cohorts = s.cohorts := rfl
@[simp] theorem State.modScan_crowns (s : State) (k : Nat) (f : Scan → Scan) : (s.modScan k f).crowns = s.crowns := rfl
@[simp] theorem State.modScan_pool (s : State) (k : Nat) (f : Scan → Scan) : (s.modScan k f).pool = s.pool := rfl
@[simp] theorem State.modScan_ext (s : State) (k : Nat) (f : Scan → Scan) : (s.modScan k f).ext = s.ext := rfl
@[simp] theorem State.modScan_fills (s : State) (k : Nat) (f : Scan → Scan) : (s.modScan k f).fills = s.fills := rfl
@[simp] theorem State.modScan_leafFills (s : State) (k : Nat) (f : Scan → Scan) : (s.modScan k f).leafFills = s.leafFills := rfl
@[simp] theorem State.modScan_xfers (s : State) (k : Nat) (f : Scan → Scan) : (s.modScan k f).xfers = s.xfers := rfl
@[simp] theorem State.modScan_sheaves (s : State) (k : Nat) (f : Scan → Scan) : (s.modScan k f).sheaves = s.sheaves := rfl
@[simp] theorem State.modScan_spawnBufs (s : State) (k : Nat) (f : Scan → Scan) : (s.modScan k f).spawnBufs = s.spawnBufs := rfl
@[simp] theorem State.modScan_ctxs (s : State) (k : Nat) (f : Scan → Scan) : (s.modScan k f).ctxs = s.ctxs := rfl
@[simp] theorem State.modScan_streams (s : State) (k : Nat) (f : Scan → Scan) : (s.modScan k f).streams = s.streams := rfl
@[simp] theorem State.modScan_stageLines (s : State) (k : Nat) (f : Scan → Scan) : (s.modScan k f).stageLines = s.stageLines := rfl
@[simp] theorem State.modScan_leafPfD (s : State) (k : Nat) (f : Scan → Scan) : (s.modScan k f).leafPfD = s.leafPfD := rfl
@[simp] theorem State.modScan_stageParamErr (s : State) (k : Nat) (f : Scan → Scan) : (s.modScan k f).stageParamErr = s.stageParamErr := rfl
@[simp] theorem State.modScan_hq (s : State) (k : Nat) (f : Scan → Scan) : (s.modScan k f).hq = s.hq := rfl
@[simp] theorem State.modScan_leafQ (s : State) (k : Nat) (f : Scan → Scan) : (s.modScan k f).leafQ = s.leafQ := rfl
@[simp] theorem State.modScan_leafHeld (s : State) (k : Nat) (f : Scan → Scan) : (s.modScan k f).leafHeld = s.leafHeld := rfl
@[simp] theorem State.modScan_ingested (s : State) (k : Nat) (f : Scan → Scan) : (s.modScan k f).ingested = s.ingested := rfl
@[simp] theorem State.modScan_shareBin (s : State) (k : Nat) (f : Scan → Scan) : (s.modScan k f).shareBin = s.shareBin := rfl
@[simp] theorem State.modScan_shareAcc (s : State) (k : Nat) (f : Scan → Scan) : (s.modScan k f).shareAcc = s.shareAcc := rfl
@[simp] theorem State.modScan_shareGrid (s : State) (k : Nat) (f : Scan → Scan) : (s.modScan k f).shareGrid = s.shareGrid := rfl
@[simp] theorem State.modScan_collectErr (s : State) (k : Nat) (f : Scan → Scan) : (s.modScan k f).collectErr = s.collectErr := rfl
@[simp] theorem State.modScan_feQ (s : State) (k : Nat) (f : Scan → Scan) : (s.modScan k f).feQ = s.feQ := rfl
@[simp] theorem State.modScan_schedQ (s : State) (k : Nat) (f : Scan → Scan) : (s.modScan k f).schedQ = s.schedQ := rfl
@[simp] theorem State.modScan_fwdQ (s : State) (k : Nat) (f : Scan → Scan) : (s.modScan k f).fwdQ = s.fwdQ := rfl
@[simp] theorem State.modScan_walkQ (s : State) (k : Nat) (f : Scan → Scan) : (s.modScan k f).walkQ = s.walkQ := rfl
@[simp] theorem State.modScan_collRot (s : State) (k : Nat) (f : Scan → Scan) : (s.modScan k f).collRot = s.collRot := rfl
@[simp] theorem State.modScan_walkRot (s : State) (k : Nat) (f : Scan → Scan) : (s.modScan k f).walkRot = s.walkRot := rfl
@[simp] theorem State.modScan_completions (s : State) (k : Nat) (f : Scan → Scan) : (s.modScan k f).completions = s.completions := rfl
@[simp] theorem State.modScan_ports (s : State) (k : Nat) (f : Scan → Scan) : (s.modScan k f).ports = s.ports := rfl
@[simp] theorem State.modScan_ownWrites (s : State) (k : Nat) (f : Scan → Scan) : (s.modScan k f).ownWrites = s.ownWrites := rfl
@[simp] theorem State.modScan_taken (s : State) (k : Nat) (f : Scan → Scan) : (s.modScan k f).taken = s.taken := rfl
@[simp] theorem State.modScan_dir (s : State) (k : Nat) (f : Scan → Scan) : (s.modScan k f).dir = s.dir := rfl
@[simp] theorem State.modScan_depart (s : State) (k : Nat) (f : Scan → Scan) : (s.modScan k f).depart = s.depart := rfl
@[simp] theorem State.modScan_ringPend (s : State) (k : Nat) (f : Scan → Scan) : (s.modScan k f).ringPend = s.ringPend := rfl
@[simp] theorem State.modScan_txns (s : State) (k : Nat) (f : Scan → Scan) : (s.modScan k f).txns = s.txns := rfl
@[simp] theorem State.modScan_txnBuf (s : State) (k : Nat) (f : Scan → Scan) : (s.modScan k f).txnBuf = s.txnBuf := rfl
@[simp] theorem State.modScan_keys (s : State) (k : Nat) (f : Scan → Scan) : (s.modScan k f).keys = s.keys := rfl
@[simp] theorem State.modScan_keyCmd (s : State) (k : Nat) (f : Scan → Scan) : (s.modScan k f).keyCmd = s.keyCmd := rfl
@[simp] theorem State.modScan_keyResult (s : State) (k : Nat) (f : Scan → Scan) : (s.modScan k f).keyResult = s.keyResult := rfl
@[simp] theorem State.modScan_keyBuf (s : State) (k : Nat) (f : Scan → Scan) : (s.modScan k f).keyBuf = s.keyBuf := rfl
@[simp] theorem State.modScan_nvm (s : State) (k : Nat) (f : Scan → Scan) : (s.modScan k f).nvm = s.nvm := rfl
@[simp] theorem State.modScan_staged (s : State) (k : Nat) (f : Scan → Scan) : (s.modScan k f).staged = s.staged := rfl
@[simp] theorem State.modScan_chainLong (s : State) (k : Nat) (f : Scan → Scan) : (s.modScan k f).chainLong = s.chainLong := rfl
@[simp] theorem State.modScan_chainHeld (s : State) (k : Nat) (f : Scan → Scan) : (s.modScan k f).chainHeld = s.chainHeld := rfl
@[simp] theorem State.modScan_lost (s : State) (k : Nat) (f : Scan → Scan) : (s.modScan k f).lost = s.lost := rfl
@[simp] theorem State.modScan_watch (s : State) (k : Nat) (f : Scan → Scan) : (s.modScan k f).watch = s.watch := rfl
@[simp] theorem State.modScan_beats (s : State) (k : Nat) (f : Scan → Scan) : (s.modScan k f).beats = s.beats := rfl
@[simp] theorem State.modScan_fwdWait (s : State) (k : Nat) (f : Scan → Scan) : (s.modScan k f).fwdWait = s.fwdWait := rfl
@[simp] theorem State.modScan_tlb (s : State) (k : Nat) (f : Scan → Scan) : (s.modScan k f).tlb = s.tlb := rfl
@[simp] theorem State.modScan_invalidates (s : State) (k : Nat) (f : Scan → Scan) : (s.modScan k f).invalidates = s.invalidates := rfl
@[simp] theorem State.modScan_ghosts (s : State) (k : Nat) (f : Scan → Scan) : (s.modScan k f).ghosts = s.ghosts := rfl

/-! A translation noted changes the cached translations alone. -/
@[simp] theorem State.touch_pending (s : State) (a : Nat) (d : DWord) : (s.touch a d).pending = s.pending := by unfold State.touch; dsimp only; split <;> rfl
@[simp] theorem State.touch_out (s : State) (a : Nat) (d : DWord) : (s.touch a d).out = s.out := by unfold State.touch; dsimp only; split <;> rfl
@[simp] theorem State.touch_freeCtr (s : State) (a : Nat) (d : DWord) : (s.touch a d).freeCtr = s.freeCtr := by unfold State.touch; dsimp only; split <;> rfl
@[simp] theorem State.touch_nextId (s : State) (a : Nat) (d : DWord) : (s.touch a d).nextId = s.nextId := by unfold State.touch; dsimp only; split <;> rfl
@[simp] theorem State.touch_dev (s : State) (a : Nat) (d : DWord) : (s.touch a d).dev = s.dev := by unfold State.touch; dsimp only; split <;> rfl
@[simp] theorem State.touch_sched (s : State) (a : Nat) (d : DWord) : (s.touch a d).sched = s.sched := by unfold State.touch; dsimp only; split <;> rfl
@[simp] theorem State.touch_integ (s : State) (a : Nat) (d : DWord) : (s.touch a d).integ = s.integ := by unfold State.touch; dsimp only; split <;> rfl
@[simp] theorem State.touch_msgs (s : State) (a : Nat) (d : DWord) : (s.touch a d).msgs = s.msgs := by unfold State.touch; dsimp only; split <;> rfl
@[simp] theorem State.touch_devCnt (s : State) (a : Nat) (d : DWord) : (s.touch a d).devCnt = s.devCnt := by unfold State.touch; dsimp only; split <;> rfl
@[simp] theorem State.touch_groves (s : State) (a : Nat) (d : DWord) : (s.touch a d).groves = s.groves := by unfold State.touch; dsimp only; split <;> rfl
@[simp] theorem State.touch_banks (s : State) (a : Nat) (d : DWord) : (s.touch a d).banks = s.banks := by unfold State.touch; dsimp only; split <;> rfl
@[simp] theorem State.touch_octets (s : State) (a : Nat) (d : DWord) : (s.touch a d).octets = s.octets := by unfold State.touch; dsimp only; split <;> rfl
@[simp] theorem State.touch_slots (s : State) (a : Nat) (d : DWord) : (s.touch a d).slots = s.slots := by unfold State.touch; dsimp only; split <;> rfl
@[simp] theorem State.touch_cohorts (s : State) (a : Nat) (d : DWord) : (s.touch a d).cohorts = s.cohorts := by unfold State.touch; dsimp only; split <;> rfl
@[simp] theorem State.touch_crowns (s : State) (a : Nat) (d : DWord) : (s.touch a d).crowns = s.crowns := by unfold State.touch; dsimp only; split <;> rfl
@[simp] theorem State.touch_pool (s : State) (a : Nat) (d : DWord) : (s.touch a d).pool = s.pool := by unfold State.touch; dsimp only; split <;> rfl
@[simp] theorem State.touch_ext (s : State) (a : Nat) (d : DWord) : (s.touch a d).ext = s.ext := by unfold State.touch; dsimp only; split <;> rfl
@[simp] theorem State.touch_fills (s : State) (a : Nat) (d : DWord) : (s.touch a d).fills = s.fills := by unfold State.touch; dsimp only; split <;> rfl
@[simp] theorem State.touch_leafFills (s : State) (a : Nat) (d : DWord) : (s.touch a d).leafFills = s.leafFills := by unfold State.touch; dsimp only; split <;> rfl
@[simp] theorem State.touch_xfers (s : State) (a : Nat) (d : DWord) : (s.touch a d).xfers = s.xfers := by unfold State.touch; dsimp only; split <;> rfl
@[simp] theorem State.touch_sheaves (s : State) (a : Nat) (d : DWord) : (s.touch a d).sheaves = s.sheaves := by unfold State.touch; dsimp only; split <;> rfl
@[simp] theorem State.touch_spawnBufs (s : State) (a : Nat) (d : DWord) : (s.touch a d).spawnBufs = s.spawnBufs := by unfold State.touch; dsimp only; split <;> rfl
@[simp] theorem State.touch_ctxs (s : State) (a : Nat) (d : DWord) : (s.touch a d).ctxs = s.ctxs := by unfold State.touch; dsimp only; split <;> rfl
@[simp] theorem State.touch_streams (s : State) (a : Nat) (d : DWord) : (s.touch a d).streams = s.streams := by unfold State.touch; dsimp only; split <;> rfl
@[simp] theorem State.touch_stageLines (s : State) (a : Nat) (d : DWord) : (s.touch a d).stageLines = s.stageLines := by unfold State.touch; dsimp only; split <;> rfl
@[simp] theorem State.touch_leafPfD (s : State) (a : Nat) (d : DWord) : (s.touch a d).leafPfD = s.leafPfD := by unfold State.touch; dsimp only; split <;> rfl
@[simp] theorem State.touch_stageParamErr (s : State) (a : Nat) (d : DWord) : (s.touch a d).stageParamErr = s.stageParamErr := by unfold State.touch; dsimp only; split <;> rfl
@[simp] theorem State.touch_hq (s : State) (a : Nat) (d : DWord) : (s.touch a d).hq = s.hq := by unfold State.touch; dsimp only; split <;> rfl
@[simp] theorem State.touch_leafQ (s : State) (a : Nat) (d : DWord) : (s.touch a d).leafQ = s.leafQ := by unfold State.touch; dsimp only; split <;> rfl
@[simp] theorem State.touch_leafHeld (s : State) (a : Nat) (d : DWord) : (s.touch a d).leafHeld = s.leafHeld := by unfold State.touch; dsimp only; split <;> rfl
@[simp] theorem State.touch_ingested (s : State) (a : Nat) (d : DWord) : (s.touch a d).ingested = s.ingested := by unfold State.touch; dsimp only; split <;> rfl
@[simp] theorem State.touch_shareBin (s : State) (a : Nat) (d : DWord) : (s.touch a d).shareBin = s.shareBin := by unfold State.touch; dsimp only; split <;> rfl
@[simp] theorem State.touch_shareAcc (s : State) (a : Nat) (d : DWord) : (s.touch a d).shareAcc = s.shareAcc := by unfold State.touch; dsimp only; split <;> rfl
@[simp] theorem State.touch_shareGrid (s : State) (a : Nat) (d : DWord) : (s.touch a d).shareGrid = s.shareGrid := by unfold State.touch; dsimp only; split <;> rfl
@[simp] theorem State.touch_collectErr (s : State) (a : Nat) (d : DWord) : (s.touch a d).collectErr = s.collectErr := by unfold State.touch; dsimp only; split <;> rfl
@[simp] theorem State.touch_feQ (s : State) (a : Nat) (d : DWord) : (s.touch a d).feQ = s.feQ := by unfold State.touch; dsimp only; split <;> rfl
@[simp] theorem State.touch_schedQ (s : State) (a : Nat) (d : DWord) : (s.touch a d).schedQ = s.schedQ := by unfold State.touch; dsimp only; split <;> rfl
@[simp] theorem State.touch_fwdQ (s : State) (a : Nat) (d : DWord) : (s.touch a d).fwdQ = s.fwdQ := by unfold State.touch; dsimp only; split <;> rfl
@[simp] theorem State.touch_walkQ (s : State) (a : Nat) (d : DWord) : (s.touch a d).walkQ = s.walkQ := by unfold State.touch; dsimp only; split <;> rfl
@[simp] theorem State.touch_collRot (s : State) (a : Nat) (d : DWord) : (s.touch a d).collRot = s.collRot := by unfold State.touch; dsimp only; split <;> rfl
@[simp] theorem State.touch_walkRot (s : State) (a : Nat) (d : DWord) : (s.touch a d).walkRot = s.walkRot := by unfold State.touch; dsimp only; split <;> rfl
@[simp] theorem State.touch_completions (s : State) (a : Nat) (d : DWord) : (s.touch a d).completions = s.completions := by unfold State.touch; dsimp only; split <;> rfl
@[simp] theorem State.touch_ports (s : State) (a : Nat) (d : DWord) : (s.touch a d).ports = s.ports := by unfold State.touch; dsimp only; split <;> rfl
@[simp] theorem State.touch_ownWrites (s : State) (a : Nat) (d : DWord) : (s.touch a d).ownWrites = s.ownWrites := by unfold State.touch; dsimp only; split <;> rfl
@[simp] theorem State.touch_taken (s : State) (a : Nat) (d : DWord) : (s.touch a d).taken = s.taken := by unfold State.touch; dsimp only; split <;> rfl
@[simp] theorem State.touch_dir (s : State) (a : Nat) (d : DWord) : (s.touch a d).dir = s.dir := by unfold State.touch; dsimp only; split <;> rfl
@[simp] theorem State.touch_depart (s : State) (a : Nat) (d : DWord) : (s.touch a d).depart = s.depart := by unfold State.touch; dsimp only; split <;> rfl
@[simp] theorem State.touch_ringPend (s : State) (a : Nat) (d : DWord) : (s.touch a d).ringPend = s.ringPend := by unfold State.touch; dsimp only; split <;> rfl
@[simp] theorem State.touch_txns (s : State) (a : Nat) (d : DWord) : (s.touch a d).txns = s.txns := by unfold State.touch; dsimp only; split <;> rfl
@[simp] theorem State.touch_txnBuf (s : State) (a : Nat) (d : DWord) : (s.touch a d).txnBuf = s.txnBuf := by unfold State.touch; dsimp only; split <;> rfl
@[simp] theorem State.touch_scans (s : State) (a : Nat) (d : DWord) : (s.touch a d).scans = s.scans := by unfold State.touch; dsimp only; split <;> rfl
@[simp] theorem State.touch_keys (s : State) (a : Nat) (d : DWord) : (s.touch a d).keys = s.keys := by unfold State.touch; dsimp only; split <;> rfl
@[simp] theorem State.touch_keyCmd (s : State) (a : Nat) (d : DWord) : (s.touch a d).keyCmd = s.keyCmd := by unfold State.touch; dsimp only; split <;> rfl
@[simp] theorem State.touch_keyResult (s : State) (a : Nat) (d : DWord) : (s.touch a d).keyResult = s.keyResult := by unfold State.touch; dsimp only; split <;> rfl
@[simp] theorem State.touch_keyBuf (s : State) (a : Nat) (d : DWord) : (s.touch a d).keyBuf = s.keyBuf := by unfold State.touch; dsimp only; split <;> rfl
@[simp] theorem State.touch_nvm (s : State) (a : Nat) (d : DWord) : (s.touch a d).nvm = s.nvm := by unfold State.touch; dsimp only; split <;> rfl
@[simp] theorem State.touch_staged (s : State) (a : Nat) (d : DWord) : (s.touch a d).staged = s.staged := by unfold State.touch; dsimp only; split <;> rfl
@[simp] theorem State.touch_chainLong (s : State) (a : Nat) (d : DWord) : (s.touch a d).chainLong = s.chainLong := by unfold State.touch; dsimp only; split <;> rfl
@[simp] theorem State.touch_chainHeld (s : State) (a : Nat) (d : DWord) : (s.touch a d).chainHeld = s.chainHeld := by unfold State.touch; dsimp only; split <;> rfl
@[simp] theorem State.touch_lost (s : State) (a : Nat) (d : DWord) : (s.touch a d).lost = s.lost := by unfold State.touch; dsimp only; split <;> rfl
@[simp] theorem State.touch_watch (s : State) (a : Nat) (d : DWord) : (s.touch a d).watch = s.watch := by unfold State.touch; dsimp only; split <;> rfl
@[simp] theorem State.touch_beats (s : State) (a : Nat) (d : DWord) : (s.touch a d).beats = s.beats := by unfold State.touch; dsimp only; split <;> rfl
@[simp] theorem State.touch_fwdWait (s : State) (a : Nat) (d : DWord) : (s.touch a d).fwdWait = s.fwdWait := by unfold State.touch; dsimp only; split <;> rfl
@[simp] theorem State.touch_invalidates (s : State) (a : Nat) (d : DWord) : (s.touch a d).invalidates = s.invalidates := by unfold State.touch; dsimp only; split <;> rfl
@[simp] theorem State.touch_ghosts (s : State) (a : Nat) (d : DWord) : (s.touch a d).ghosts = s.ghosts := by unfold State.touch; dsimp only; split <;> rfl

/-! A log record changes the log and ERRLOG_DROPPED alone. -/
@[simp] theorem State.log_pending (s : State) (a b c d e f : Nat) : (s.log a b c d e f).pending = s.pending := by unfold State.log State.logInj; dsimp only; split <;> rfl
@[simp] theorem State.log_out (s : State) (a b c d e f : Nat) : (s.log a b c d e f).out = s.out := by unfold State.log State.logInj; dsimp only; split <;> rfl
@[simp] theorem State.log_freeCtr (s : State) (a b c d e f : Nat) : (s.log a b c d e f).freeCtr = s.freeCtr := by unfold State.log State.logInj; dsimp only; split <;> rfl
@[simp] theorem State.log_nextId (s : State) (a b c d e f : Nat) : (s.log a b c d e f).nextId = s.nextId := by unfold State.log State.logInj; dsimp only; split <;> rfl
@[simp] theorem State.log_dev (s : State) (a b c d e f : Nat) : (s.log a b c d e f).dev = s.dev := by unfold State.log State.logInj; dsimp only; split <;> rfl
@[simp] theorem State.log_sched (s : State) (a b c d e f : Nat) : (s.log a b c d e f).sched = s.sched := by unfold State.log State.logInj; dsimp only; split <;> rfl
@[simp] theorem State.log_groves (s : State) (a b c d e f : Nat) : (s.log a b c d e f).groves = s.groves := by unfold State.log State.logInj; dsimp only; split <;> rfl
@[simp] theorem State.log_banks (s : State) (a b c d e f : Nat) : (s.log a b c d e f).banks = s.banks := by unfold State.log State.logInj; dsimp only; split <;> rfl
@[simp] theorem State.log_octets (s : State) (a b c d e f : Nat) : (s.log a b c d e f).octets = s.octets := by unfold State.log State.logInj; dsimp only; split <;> rfl
@[simp] theorem State.log_slots (s : State) (a b c d e f : Nat) : (s.log a b c d e f).slots = s.slots := by unfold State.log State.logInj; dsimp only; split <;> rfl
@[simp] theorem State.log_cohorts (s : State) (a b c d e f : Nat) : (s.log a b c d e f).cohorts = s.cohorts := by unfold State.log State.logInj; dsimp only; split <;> rfl
@[simp] theorem State.log_crowns (s : State) (a b c d e f : Nat) : (s.log a b c d e f).crowns = s.crowns := by unfold State.log State.logInj; dsimp only; split <;> rfl
@[simp] theorem State.log_pool (s : State) (a b c d e f : Nat) : (s.log a b c d e f).pool = s.pool := by unfold State.log State.logInj; dsimp only; split <;> rfl
@[simp] theorem State.log_ext (s : State) (a b c d e f : Nat) : (s.log a b c d e f).ext = s.ext := by unfold State.log State.logInj; dsimp only; split <;> rfl
@[simp] theorem State.log_fills (s : State) (a b c d e f : Nat) : (s.log a b c d e f).fills = s.fills := by unfold State.log State.logInj; dsimp only; split <;> rfl
@[simp] theorem State.log_leafFills (s : State) (a b c d e f : Nat) : (s.log a b c d e f).leafFills = s.leafFills := by unfold State.log State.logInj; dsimp only; split <;> rfl
@[simp] theorem State.log_xfers (s : State) (a b c d e f : Nat) : (s.log a b c d e f).xfers = s.xfers := by unfold State.log State.logInj; dsimp only; split <;> rfl
@[simp] theorem State.log_sheaves (s : State) (a b c d e f : Nat) : (s.log a b c d e f).sheaves = s.sheaves := by unfold State.log State.logInj; dsimp only; split <;> rfl
@[simp] theorem State.log_spawnBufs (s : State) (a b c d e f : Nat) : (s.log a b c d e f).spawnBufs = s.spawnBufs := by unfold State.log State.logInj; dsimp only; split <;> rfl
@[simp] theorem State.log_ctxs (s : State) (a b c d e f : Nat) : (s.log a b c d e f).ctxs = s.ctxs := by unfold State.log State.logInj; dsimp only; split <;> rfl
@[simp] theorem State.log_streams (s : State) (a b c d e f : Nat) : (s.log a b c d e f).streams = s.streams := by unfold State.log State.logInj; dsimp only; split <;> rfl
@[simp] theorem State.log_stageLines (s : State) (a b c d e f : Nat) : (s.log a b c d e f).stageLines = s.stageLines := by unfold State.log State.logInj; dsimp only; split <;> rfl
@[simp] theorem State.log_leafPfD (s : State) (a b c d e f : Nat) : (s.log a b c d e f).leafPfD = s.leafPfD := by unfold State.log State.logInj; dsimp only; split <;> rfl
@[simp] theorem State.log_stageParamErr (s : State) (a b c d e f : Nat) : (s.log a b c d e f).stageParamErr = s.stageParamErr := by unfold State.log State.logInj; dsimp only; split <;> rfl
@[simp] theorem State.log_hq (s : State) (a b c d e f : Nat) : (s.log a b c d e f).hq = s.hq := by unfold State.log State.logInj; dsimp only; split <;> rfl
@[simp] theorem State.log_msgs (s : State) (a b c d e f : Nat) : (s.log a b c d e f).msgs = s.msgs := by unfold State.log State.logInj; dsimp only; split <;> rfl
@[simp] theorem State.log_leafQ (s : State) (a b c d e f : Nat) : (s.log a b c d e f).leafQ = s.leafQ := by unfold State.log State.logInj; dsimp only; split <;> rfl
@[simp] theorem State.log_leafHeld (s : State) (a b c d e f : Nat) : (s.log a b c d e f).leafHeld = s.leafHeld := by unfold State.log State.logInj; dsimp only; split <;> rfl
@[simp] theorem State.log_ingested (s : State) (a b c d e f : Nat) : (s.log a b c d e f).ingested = s.ingested := by unfold State.log State.logInj; dsimp only; split <;> rfl
@[simp] theorem State.log_shareBin (s : State) (a b c d e f : Nat) : (s.log a b c d e f).shareBin = s.shareBin := by unfold State.log State.logInj; dsimp only; split <;> rfl
@[simp] theorem State.log_shareAcc (s : State) (a b c d e f : Nat) : (s.log a b c d e f).shareAcc = s.shareAcc := by unfold State.log State.logInj; dsimp only; split <;> rfl
@[simp] theorem State.log_shareGrid (s : State) (a b c d e f : Nat) : (s.log a b c d e f).shareGrid = s.shareGrid := by unfold State.log State.logInj; dsimp only; split <;> rfl
@[simp] theorem State.log_collectErr (s : State) (a b c d e f : Nat) : (s.log a b c d e f).collectErr = s.collectErr := by unfold State.log State.logInj; dsimp only; split <;> rfl
@[simp] theorem State.log_feQ (s : State) (a b c d e f : Nat) : (s.log a b c d e f).feQ = s.feQ := by unfold State.log State.logInj; dsimp only; split <;> rfl
@[simp] theorem State.log_schedQ (s : State) (a b c d e f : Nat) : (s.log a b c d e f).schedQ = s.schedQ := by unfold State.log State.logInj; dsimp only; split <;> rfl
@[simp] theorem State.log_fwdQ (s : State) (a b c d e f : Nat) : (s.log a b c d e f).fwdQ = s.fwdQ := by unfold State.log State.logInj; dsimp only; split <;> rfl
@[simp] theorem State.log_walkQ (s : State) (a b c d e f : Nat) : (s.log a b c d e f).walkQ = s.walkQ := by unfold State.log State.logInj; dsimp only; split <;> rfl
@[simp] theorem State.log_collRot (s : State) (a b c d e f : Nat) : (s.log a b c d e f).collRot = s.collRot := by unfold State.log State.logInj; dsimp only; split <;> rfl
@[simp] theorem State.log_walkRot (s : State) (a b c d e f : Nat) : (s.log a b c d e f).walkRot = s.walkRot := by unfold State.log State.logInj; dsimp only; split <;> rfl
@[simp] theorem State.log_completions (s : State) (a b c d e f : Nat) : (s.log a b c d e f).completions = s.completions := by unfold State.log State.logInj; dsimp only; split <;> rfl
@[simp] theorem State.log_ports (s : State) (a b c d e f : Nat) : (s.log a b c d e f).ports = s.ports := by unfold State.log State.logInj; dsimp only; split <;> rfl
@[simp] theorem State.log_ownWrites (s : State) (a b c d e f : Nat) : (s.log a b c d e f).ownWrites = s.ownWrites := by unfold State.log State.logInj; dsimp only; split <;> rfl
@[simp] theorem State.log_taken (s : State) (a b c d e f : Nat) : (s.log a b c d e f).taken = s.taken := by unfold State.log State.logInj; dsimp only; split <;> rfl
@[simp] theorem State.log_dir (s : State) (a b c d e f : Nat) : (s.log a b c d e f).dir = s.dir := by unfold State.log State.logInj; dsimp only; split <;> rfl
@[simp] theorem State.log_depart (s : State) (a b c d e f : Nat) : (s.log a b c d e f).depart = s.depart := by unfold State.log State.logInj; dsimp only; split <;> rfl
@[simp] theorem State.log_ringPend (s : State) (a b c d e f : Nat) : (s.log a b c d e f).ringPend = s.ringPend := by unfold State.log State.logInj; dsimp only; split <;> rfl
@[simp] theorem State.log_txns (s : State) (a b c d e f : Nat) : (s.log a b c d e f).txns = s.txns := by unfold State.log State.logInj; dsimp only; split <;> rfl
@[simp] theorem State.log_txnBuf (s : State) (a b c d e f : Nat) : (s.log a b c d e f).txnBuf = s.txnBuf := by unfold State.log State.logInj; dsimp only; split <;> rfl
@[simp] theorem State.log_scans (s : State) (a b c d e f : Nat) : (s.log a b c d e f).scans = s.scans := by unfold State.log State.logInj; dsimp only; split <;> rfl
@[simp] theorem State.log_keys (s : State) (a b c d e f : Nat) : (s.log a b c d e f).keys = s.keys := by unfold State.log State.logInj; dsimp only; split <;> rfl
@[simp] theorem State.log_keyCmd (s : State) (a b c d e f : Nat) : (s.log a b c d e f).keyCmd = s.keyCmd := by unfold State.log State.logInj; dsimp only; split <;> rfl
@[simp] theorem State.log_keyResult (s : State) (a b c d e f : Nat) : (s.log a b c d e f).keyResult = s.keyResult := by unfold State.log State.logInj; dsimp only; split <;> rfl
@[simp] theorem State.log_keyBuf (s : State) (a b c d e f : Nat) : (s.log a b c d e f).keyBuf = s.keyBuf := by unfold State.log State.logInj; dsimp only; split <;> rfl
@[simp] theorem State.log_nvm (s : State) (a b c d e f : Nat) : (s.log a b c d e f).nvm = s.nvm := by unfold State.log State.logInj; dsimp only; split <;> rfl
@[simp] theorem State.log_staged (s : State) (a b c d e f : Nat) : (s.log a b c d e f).staged = s.staged := by unfold State.log State.logInj; dsimp only; split <;> rfl
@[simp] theorem State.log_chainLong (s : State) (a b c d e f : Nat) : (s.log a b c d e f).chainLong = s.chainLong := by unfold State.log State.logInj; dsimp only; split <;> rfl
@[simp] theorem State.log_chainHeld (s : State) (a b c d e f : Nat) : (s.log a b c d e f).chainHeld = s.chainHeld := by unfold State.log State.logInj; dsimp only; split <;> rfl
@[simp] theorem State.log_lost (s : State) (a b c d e f : Nat) : (s.log a b c d e f).lost = s.lost := by unfold State.log State.logInj; dsimp only; split <;> rfl
@[simp] theorem State.log_watch (s : State) (a b c d e f : Nat) : (s.log a b c d e f).watch = s.watch := by unfold State.log State.logInj; dsimp only; split <;> rfl
@[simp] theorem State.log_beats (s : State) (a b c d e f : Nat) : (s.log a b c d e f).beats = s.beats := by unfold State.log State.logInj; dsimp only; split <;> rfl
@[simp] theorem State.log_fwdWait (s : State) (a b c d e f : Nat) : (s.log a b c d e f).fwdWait = s.fwdWait := by unfold State.log State.logInj; dsimp only; split <;> rfl
@[simp] theorem State.log_tlb (s : State) (a b c d e f : Nat) : (s.log a b c d e f).tlb = s.tlb := by unfold State.log State.logInj; dsimp only; split <;> rfl
@[simp] theorem State.log_invalidates (s : State) (a b c d e f : Nat) : (s.log a b c d e f).invalidates = s.invalidates := by unfold State.log State.logInj; dsimp only; split <;> rfl
@[simp] theorem State.log_ghosts (s : State) (a b c d e f : Nat) : (s.log a b c d e f).ghosts = s.ghosts := by unfold State.log State.logInj; dsimp only; split <;> rfl

end Sys2Proof.Machine
end

