-- ==== Sys2Proof/Laws/Effects.lean ====
section
/-! SUPPORT. Laws/Effects.lean: what the shared operations of the units leave, one lemma each. -/
namespace Sys2Proof.Machine

/-- Interrupt messages that go out leave the scan channels. -/
theorem settleMsgs_scans (s : State) : s.settleMsgs.scans = s.scans := by
  unfold State.settleMsgs
  rw [foldS_keep State.scans _ _ (fun s m => by simp [State.sendMessage, State.emit])]

/-- Interrupt messages that go out leave the contexts. -/
theorem settleMsgs_ctxs (s : State) : s.settleMsgs.ctxs = s.ctxs := by
  unfold State.settleMsgs
  rw [foldS_keep State.ctxs _ _ (fun s m => by simp [State.sendMessage, State.emit])]

/-- An interrupt message leaves the scan channels. -/
theorem interrupt_scans (s : State) (a : Nat) : (s.interrupt a).scans = s.scans := by
  simp only [State.interrupt]; split
  · rw [settleMsgs_scans]
  · rfl

/-- An interrupt message leaves the contexts. -/
theorem interrupt_ctxs (s : State) (a : Nat) : (s.interrupt a).ctxs = s.ctxs := by
  simp only [State.interrupt]; split
  · rw [settleMsgs_ctxs]
  · rfl

/-- A write of a spine line touches the integrity registers alone. -/
theorem writeSpine_same (s : State) (line : Nat) : ∃ i, s.writeSpine line = { s with integ := i } := by
  simp only [State.writeSpine, State.clearMark]
  split
  · exact ⟨_, rfl⟩
  · exact ⟨_, rfl⟩

/-- A context just put in place. -/
theorem ctx_setCtx (s : State) (c : Nat) (x : Context) : (s.setCtx c x).ctx c = x := by simp [State.setCtx, State.ctx]

/-- A context put in place twice. -/
theorem setCtx_setCtx (s : State) (c : Nat) (x y : Context) : (s.setCtx c x).setCtx c y = s.setCtx c y := by simp [State.setCtx, mset_mset]

/-- A window just written. -/
theorem win_mset (x : Context) (w : Nat) (v : Window) : ({ x with wins := mset x.wins w v } : Context).win w = v := by simp [Context.win]

/-- A host write acts when the device is READY. -/
theorem host_ready {s : State} (h : s.dev.stage = .ready) (act : State → State) : s.hostWrite act = (act s).settleAll := by
  simp only [State.hostWrite, h]

/-- Nothing settles in a calm state. -/
theorem calm_settle (u : State) (h : u.calm) : u.settleAll = u := by
  obtain ⟨h1, h2, h3, h4⟩ := h
  have g : u.givesUp = false := by simp [State.givesUp, h2, h4]
  have k : u.settleUnlock = u := by simp [State.settleUnlock, h3]
  simp only [State.settleAll, g]
  rw [if_neg (by simp), k]
  simp [State.settleReset, h4]

/-- The fill path takes the candidate with the least key. -/
theorem fillIssue_eq (s u : State) (c : Cohort) (h : s.settlePreloads = u) (h1 : u.retryWaiting = none) (h2 : u.crownDue = none)
    (h3 : leastBy u.candKey u.candidates = some (.cohort c)) :
   s.fillStep = (if u.candClass (.cohort c) = 3 && u.fillWaits then u else u.issueOrWait (u.cohortFill c)) := by
  subst h
  simp only [State.fillStep, h1, h2, h3]

/-- A fill that lapses leaves the placement slots. -/
theorem lapse_slots (s : State) (id : CohortId) : (s.lapse id).slots = s.slots := rfl

/-- Reading slots in which no error is found changes nothing. -/
theorem readSlot_none (s : State) (h : ∀ p, s.spineMark p = none) (l : List (Nat × Query)) : foldS l s (fun s e => s.readSlot e.1 none) = s := by
  induction l with
  | nil => rfl
  | cons a t ih =>
    have : s.readSlot a.1 none = s := by simp only [State.readSlot, State.spineRead, State.spineFinds, h]
    show foldS t (s.readSlot a.1 none) _ = s
    rw [this]; exact ih

/-- A change of a cohort leaves the sheaves. -/
theorem modCohort_sheaves (s : State) (id : CohortId) (f) : (s.modCohort id f).sheaves = s.sheaves := rfl

/-- A query that leaves its cohort leaves the sheaves. -/
theorem leaveMod_sheaves (s : State) (p : Nat) (f : Query → Query) : ((s.leaveCohort p).modQuery p f).sheaves = s.sheaves := by
  have h1 : (s.leaveCohort p).sheaves = s.sheaves := by simp only [State.leaveCohort]; split <;> rfl
  simp only [State.modQuery]; split
  · exact h1
  · exact h1

/-- The lanes of a released sheaf take the members in order. -/
theorem fm_slots (ms : List (Nat × Query)) : ((List.range ms.length).filterMap (fun j => (ms[j]?).map (fun e => newLane j e.1 e.2))).map (·.slot) = ms.map (·.1) ∧
    ((List.range ms.length).filterMap (fun j => (ms[j]?).map (fun e => newLane j e.1 e.2))).map (·.n) = List.range ms.length := by
  rw [fm_mapIdx]
  constructor
  · apply List.ext_getElem <;> simp [newLane]
  · apply List.ext_getElem <;> simp [newLane]

/-- What an adaptation leaves. -/
structure AdaptSame (s t : State) : Prop where
  pool : t.pool = s.pool
  ctxs : t.ctxs = s.ctxs
  out : t.out = s.out
  cohorts : t.cohorts = s.cohorts
  intervals : t.sched.intervals = s.sched.intervals
  pend : t.sched.pend = s.sched.pend
  tInit : t.sched.tInit = s.sched.tInit

/-- A state agrees with itself. -/
theorem AdaptSame.refl (s : State) : AdaptSame s s := ⟨rfl, rfl, rfl, rfl, rfl, rfl, rfl⟩

/-- Adapting FILL_T leaves the queries and the contexts. -/
theorem adaptT_same (s : State) : AdaptSame s s.adaptT := by
  simp only [State.adaptT]
  repeat' split
  all_goals exact ⟨rfl, rfl, rfl, rfl, rfl, rfl, rfl⟩

/-- Adapting the leaf prefetch depth leaves the queries and the contexts. -/
theorem adaptD_same (s : State) : AdaptSame s s.adaptD := by
  simp only [State.adaptD]
  repeat' split
  all_goals exact ⟨rfl, rfl, rfl, rfl, rfl, rfl, rfl⟩

/-- It leaves the scheduler registers too. -/
theorem adaptD_fillT (s : State) : s.adaptD.sched = s.sched := by
  simp only [State.adaptD]
  repeat' split
  all_goals rfl

/-- Looking for a squall leaves the queries and the contexts. -/
theorem squall_facts (s : State) : s.squallCheck.pool = s.pool ∧ s.squallCheck.ctxs = s.ctxs ∧ s.squallCheck.out = s.out ∧ s.squallCheck.cohorts = s.cohorts ∧
   s.squallCheck.sched.intervals = s.sched.intervals ∧ s.squallCheck.sched.params = s.sched.params ∧ s.squallCheck.sched.fillT = s.sched.fillT := by
  simp only [State.squallCheck]
  repeat' split
  all_goals exact ⟨rfl, rfl, rfl, rfl, rfl, rfl, rfl⟩

/-- With MODE 1 no exception goes to the ring for its status alone. -/
theorem ite_excRoute (d : Rec64) (status : Nat) (h : deMode d = 1) : excRoute d false status = false := by
  simp [excRoute, h]

/-- A handle for a delivery port goes to the end of its queue. -/
theorem toPort_ports (s : State) (c : Nat) (a : DWord) (i : PortItem) : (s.toPort c a i).ports = mset s.ports (s.deliveryPort a)
    (mgetD s.ports (s.deliveryPort a) [] ++ [{ cls := c, esc := (hqRoom (mgetD s.ports (s.deliveryPort a) []) c).getD true, item := i }]) := by
  simp only [State.toPort]; split <;> rfl

/-- It leaves the completions. -/
theorem toPort_completions (s : State) (c : Nat) (a : DWord) (i : PortItem) : (s.toPort c a i).completions = s.completions := by
  simp only [State.toPort]; split <;> rfl

/-- Giving a line up changes no state of a line. -/
theorem find_owned (a b : DWord) (m : FMap BufLine) : (mmap m (fun _ l => if l.addr == b then { l with owned := false } else l)).findSome?
    (fun e => match e.2.state with | .open t => if e.2.addr == lineOf a then some t else none | _ => none) =
    m.findSome? (fun e => match e.2.state with | .open t => if e.2.addr == lineOf a then some t else none | _ => none) := by
  simp only [mmap, List.findSome?_map]
  congr 1
  funext e
  simp only [Function.comp]
  by_cases h : (e.2.addr == b) = true
  · simp [h]
  · simp [h]

/-- A line enters the directory. -/
theorem enter_ok (s : State) (a : RLine) (data : Line) (u : LineUser) (p : Bool) (h : s.dirAt a = none) :
   s.enterDir a data u p = ({ s with dir := s.dir ++ [{ addr := a, state := .exclusive, user := u, pinned := p, used := 0, data := data, written := 0 }] } : State).useLine a := by
  simp only [State.enterDir, h]; rfl

/-- A packet that the instance takes acts. -/
theorem onPacket_ok {s : State} {hdr : Rec64} {t f : Nat} (h : s.hears hdr t f) (act : State → State) : s.onPacket hdr t f act = act (s.heardFrom (pSrc hdr)) := by
  simp only [State.onPacket, h.1, h.2]; rfl

/-- An instance that takes no packets takes none. -/
theorem onPacket_off {s : State} {hdr : Rec64} {t f : Nat} (h : s.takesPackets = false) (act : State → State) : s.onPacket hdr t f act = s := by
  simp only [State.onPacket, h]; rfl

/-- A bad packet is counted and dropped. -/
theorem onPacket_bad {s : State} {hdr : Rec64} {t f : Nat} (h : s.takesPackets = true) (h2 : s.packetBad hdr t f = true) (act : State → State) : s.onPacket hdr t f act = s.fwdBad hdr := by
  simp only [State.onPacket, h, h2]; rfl

/-- A forwarded query takes a pool slot. -/
theorem take_fwd (u : State) (hdr : Rec64) (q : QueryImage) (b : Binding) (p : Nat) (du cu : List Nat) (ext : FMap Unit256)
    (h8 : mget (u.ctx (pCtx hdr)).walks (walkIndex q.record) = some (some b)) (h9 : b.bkind = 1 ∨ b.stock = qMode q.record)
    (h10 : u.mayTakeSlot q.cls (pCtx hdr) = true) (h11 : mfree u.pool 524288 = some p)
    (h12 : allocUnits u.ext q.data (collUnitCount q.record) = some (du, cu, ext)) :
    let c := pCtx hdr
    let id : CohortId := { ctx := c, scene := pScene hdr, tag := u.boughTag c (pScene hdr) (pArg0 hdr) (u.ctx c).epoch, bough := pArg0 hdr }
    let x : Query :=
      { ctx := c, record := q.record, cls := q.cls, spawned := q.spawned, place := .parked none u.now, cohort := id,
        binding := b, epoch := (u.ctx c).epoch, dataUnits := du, collUnits := cu, ws := q.ws, admitted := u.nextId, gen := u.nextId,
        origin := some (packetOrigin hdr), fwd := { recs := [], emits := 0, expect := none } }
    u.takeForwarded hdr q = some ((((({ u with nextId := u.nextId + 1 } : State).occupy p x ext).syncColl x q.ws).park p id q.ws.clines).count q.cls 1) := by
  intro c id x
  have hb : ({ u with nextId := u.nextId + 1 } : State).bindingFor c q.record = (b, false) := by
    unfold State.bindingFor
    extract_lets n
    rw [show mget (({ u with nextId := u.nextId + 1 } : State).ctx c).walks n = some (some b) from h8]
    rcases h9 with h | h <;> simp [h]
  have hb' : ({ u with nextId := u.nextId + 1 } : State).bindingFor (pCtx hdr) q.record = (b, false) := hb
  simp only [State.takeForwarded, h10, h11, h12, State.takeId, hb', State.countDefault, Bool.not_true, Bool.false_eq_true, if_false]
  rfl

/-- A counter leaves the forwarded queries. -/
theorem fwd_count (u : State) (k n : Nat) (hdr : Rec64) : (u.count k n).forwarded hdr = u.forwarded hdr := by
  simp only [State.forwarded, State.count]

/-- A query in the pool is changed. -/
theorem modQuery_some {s : State} {p : Nat} {q : Query} (h : mget s.pool p = some q) (f : Query → Query) : s.modQuery p f = { s with pool := mset s.pool p (f q) } := by
  simp only [State.modQuery, h]

/-- A forwarded query is in the pool. -/
theorem forwarded_get {u : State} {hdr : Rec64} {p : Nat} {q : Query} (h : u.forwarded hdr = some (p, q)) : mget u.pool p = some q := by
  unfold State.forwarded at h
  extract_lets p' at h
  split at h
  · next q' hq =>
    split at h
    · split at h
      · have := Option.some.inj h
        rw [Prod.mk.injEq] at this; rw [← this.1, ← this.2]; exact hq
      · cases h
    · cases h
  · cases h

/-- A failure of the fabric before the fourth is a retry. -/
theorem once_lt {s : State} {n : Nat} (h : n < 3) (keep : State → Nat → State) (settle : State → State) : s.failOnce n keep settle = keep (s.count 59 1) (n + 1) := by
  simp only [State.failOnce, if_pos h]

/-- The fourth failure settles it. -/
theorem once_ge {s : State} {n : Nat} (h : 3 ≤ n) (keep : State → Nat → State) (settle : State → State) : s.failOnce n keep settle = settle s := by
  simp only [State.failOnce, if_neg (Nat.not_lt.mpr h)]

/-- A frame is taken when no long command runs. -/
theorem frame_ok {s : State} {f : Frame} {k : Nat} (h1 : s.clocked = true) (h2 : s.chainLong = none) (h3 : frOp f = k) : s.onFrame k f = s.frame f := by
  simp only [State.onFrame, h3, if_true, State.takeFrame, h1, h2]; rfl

/-- OP is 4 bits. -/
theorem op_lt (f : Frame) : frOp f < 16 := (BitVec.extractLsb' 0 4 f).isLt

/-- A frame with a reserved OP. -/
theorem reserved_ok {s : State} {f : Frame} (h1 : s.clocked = true) (h2 : s.chainLong = none) (h3 : frOp f = 0 ∨ 9 < frOp f) :
    exec (.chainReservedOp f) s = .next (if !s.acts f then s.repeatFrame f else if s.dev.stage != .ready then s.outcome f 2 else s.outcome f 4) := by
  have e : exec (.chainReservedOp f) s = .next (s.frame f) := by
    simp only [exec, execChainReservedOp, if_pos h3, State.takeFrame, h1, h2]; rfl
  rw [e]
  have hl := op_lt f
  generalize hk : frOp f = k at h3 hl
  congr 1
  interval_cases k <;> first | omega | (simp only [State.frame, hk]; rfl)

/-- DATA leaves BCAST. -/
theorem bcast_data (f : Frame) (v : DWord) : frBcast (frWithData f v) = frBcast f := by
  simp [frBcast, frWithData, setFld, BitVec.getLsbD_shiftLeft]

/-- The STATUS of an answer. -/
theorem answer_status (f : Frame) (b : Bool) (o : Nat) (ho : o < 16) : frStatus (frAnswer f b o) = (if frStatus f = 0 ∨ (b = true ∧ o ≠ 1) then o else frStatus f) := by
  unfold frAnswer
  by_cases h : frStatus f = 0 ∨ (b = true ∧ o ≠ 1)
  · rw [if_pos (by simpa [csOK] using h), if_pos h]
    have : BitVec.extractLsb' 24 4 ((f &&& ~~~ ((0xF : Frame) <<< 24)) ||| (BitVec.ofNat 128 o <<< 24)) = BitVec.ofNat 4 o := by
      apply BitVec.eq_of_getLsbD_eq
      intro i hi
      simp only [BitVec.getLsbD_extractLsb', BitVec.getLsbD_or, BitVec.getLsbD_and, BitVec.getLsbD_not, BitVec.getLsbD_shiftLeft, BitVec.getLsbD_ofNat]
      interval_cases i <;> simp <;> decide
    show (BitVec.extractLsb' 24 4 _).toNat = o
    rw [this]; simp; omega
  · rw [if_neg (by simpa [csOK] using h), if_neg h]

/-- The other bits of an answer. -/
theorem answer_bits (f : Frame) (b : Bool) (o i : Nat) (ho : o < 16) (h : i < 24 ∨ 28 ≤ i) : (frAnswer f b o).getLsbD i = f.getLsbD i := by
  unfold frAnswer
  split
  · have key : ∀ x k : Nat, x < 16 → 4 ≤ k → Nat.testBit x k = false := fun x k hx hk =>
      Nat.testBit_lt_two_pow (lt_of_lt_of_le (show x < 2 ^ 4 from hx) (Nat.pow_le_pow_right (by decide) hk))
    by_cases hi : i < 128
    · have h1 : ((0xF : Frame) <<< 24).getLsbD i = false := by
        rw [BitVec.getLsbD_shiftLeft]
        rcases h with h | h
        · simp [h]
        · have : ((0xF : Frame)).getLsbD (i - 24) = false := by
            show Nat.testBit 15 (i - 24) = false
            exact key _ _ (by decide) (by omega)
          rw [this, Bool.and_false]
      have h2 : ((BitVec.ofNat 128 o) <<< 24).getLsbD i = false := by
        rw [BitVec.getLsbD_shiftLeft]
        rcases h with h | h
        · simp [h]
        · rw [BitVec.getLsbD_ofNat, key o _ ho (by omega), Bool.and_false, Bool.and_false]
      rw [BitVec.getLsbD_or, BitVec.getLsbD_and, h2, BitVec.getLsbD_not, h1]
      simp [hi]
    · rw [BitVec.getLsbD_of_ge _ _ (by omega), BitVec.getLsbD_of_ge _ _ (by omega)]
  · rfl

/-- The grove that a frame names. -/
theorem noG {s : State} {f : Frame} (h : frBcast f = false) (h2 : frAddr f ≤ 15) (h3 : (s.grove (frAddr f)).state ≠ .inactive) : s.noGrove f = false := by
  simp only [State.noGrove, h]
  have : ¬ (15 < frAddr f) := by omega
  simp [this, h3]

/-- A frame that names no grove. -/
theorem noG2 {s : State} {f : Frame} (h : frBcast f = true ∨ 15 < frAddr f) : s.noGrove f = true := by
  simp only [State.noGrove]; rcases h with h | h <;> simp [h]

/-- A grove after a change of it. -/
theorem grove_mod (s : State) (g : Nat) (f : Grove → Grove) (h : (s.groves[g]?).isSome = true) : (s.modGrove g f).grove g = f (s.grove g) := by
  obtain ⟨x, hx⟩ := Option.isSome_iff_exists.mp h
  simp only [State.grove, State.modGrove, nth, List.getD, List.getElem?_modify, hx]; simp

/-- A bit as a field. -/
theorem bit1 (v : Word) : fbit v 31 1 = if v.getLsbD 31 then 1 else 0 := by
  simp only [fbit]
  have : v.extractLsb' 31 1 = BitVec.ofBool (v.getLsbD 31) := by
    apply BitVec.eq_of_getLsbD_eq
    intro i hi
    have : i = 0 := by omega
    subst this; simp
  rw [this]; cases v.getLsbD 31 <;> rfl

/-- Two states agree on what a tick leaves. -/
def TickSame (s t : State) : Prop := t.dev = s.dev ∧ t.ctxs = s.ctxs ∧ t.pending = s.pending ∧ t.pool = s.pool ∧ t.streams = s.streams ∧ t.banks = s.banks ∧
  t.leafQ = s.leafQ

/-- A state agrees with itself. -/
theorem TickSame.rfl' (s : State) : TickSame s s := ⟨rfl, rfl, rfl, rfl, rfl, rfl, rfl⟩

/-- What two changes leave, both together leave. -/
theorem TickSame.tr {s t u : State} (h : TickSame s t) (k : TickSame t u) : TickSame s u :=
  ⟨k.1.trans h.1, k.2.1.trans h.2.1, k.2.2.1.trans h.2.2.1, k.2.2.2.1.trans h.2.2.2.1, k.2.2.2.2.1.trans h.2.2.2.2.1, k.2.2.2.2.2.1.trans h.2.2.2.2.2.1,
   k.2.2.2.2.2.2.trans h.2.2.2.2.2.2⟩

/-- A count. -/
theorem same_tally (s : State) (k n : Nat) : TickSame s (s.tally k n) := by unfold State.tally; split <;> exact ⟨rfl, rfl, rfl, rfl, rfl, rfl, rfl⟩

/-- A fold. -/
theorem same_foldS {α : Type} (l : List α) (f : State → α → State) (h : ∀ s a, TickSame s (f s a)) (s : State) : TickSame s (foldS l s f) := by
  induction l generalizing s with
  | nil => exact TickSame.rfl' s
  | cons a l ih => exact (h s a).tr (ih _)

/-- A translation noted. -/
theorem same_touch (s : State) (asid : Nat) (a : DWord) : TickSame s (s.touch asid a) := by
  unfold State.touch; dsimp only; split <;> exact ⟨rfl, rfl, rfl, rfl, rfl, rfl, rfl⟩

/-- A delivery port takes a handle. -/
theorem same_port (s : State) (p : Nat) : TickSame s (s.portTake p) := by
  unfold State.portTake
  split
  · exact TickSame.rfl' s
  · rename_i h t _
    dsimp only
    generalize hs : ({ s with ports := if t.isEmpty then merase s.ports p else mset s.ports p t } : State) = u
    have hu : TickSame s u := by subst hs; exact ⟨rfl, rfl, rfl, rfl, rfl, rfl, rfl⟩
    split
    · exact hu.tr ((same_touch u _ _).tr ⟨rfl, rfl, rfl, rfl, rfl, rfl, rfl⟩)
    · exact hu.tr ((same_touch u _ _).tr ⟨rfl, rfl, rfl, rfl, rfl, rfl, rfl⟩)

/-- The counts of idle cores. -/
theorem same_idle (s : State) (n m : Nat) : TickSame s (s.tallyIdle n m) := by
  unfold State.tallyIdle
  refine TickSame.tr ?_ (same_tally _ _ _)
  refine TickSame.tr ?_ (same_tally _ _ _)
  exact ⟨rfl, rfl, rfl, rfl, rfl, rfl, rfl⟩

/-- The counters of cycles. -/
theorem same_cycle (s : State) : TickSame s s.countCycle :=
  (((((((same_idle s _ _).tr (same_tally _ _ _)).tr (same_tally _ _ _)).tr (same_tally _ _ _)).tr (same_tally _ _ _)).tr (same_tally _ _ _)).tr
    (same_tally _ _ _)).tr (same_tally _ _ _)

/-- The invalidations that are acknowledged. -/
theorem same_settle (s : State) : TickSame s s.settleInvalidates := by
  unfold State.settleInvalidates
  dsimp only
  refine TickSame.tr (t := { s with invalidates := s.invalidates.filter (fun e => s.accessesOpen e.1) }) ⟨rfl, rfl, rfl, rfl, rfl, rfl, rfl⟩ ?_
  exact same_foldS _ (fun s (e : Nat × DWord) => s.emit (.invalidateAck e.1 e.2)) (fun _ _ => ⟨rfl, rfl, rfl, rfl, rfl, rfl, rfl⟩) _

/-- The countdowns and the watches leave the rest. -/
theorem down_parts (u : State) : u.countDown.ageWatch.dev = u.dev ∧ u.countDown.ageWatch.pending = u.pending ∧
      u.countDown.ageWatch.pool = u.pool ∧ u.countDown.ageWatch.streams = u.streams ∧
      u.countDown.ageWatch.banks = u.banks ∧ u.countDown.ageWatch.ctxs = u.countDown.ctxs ∧ u.countDown.ageWatch.leafQ = u.leafQ :=
  ⟨rfl, rfl, rfl, rfl, rfl, rfl, rfl⟩

/-- Where no leaf handle waits the leaf caches take none. -/
theorem drain_none (s : State) (h : ∀ g < 16, mgetD s.leafQ g [] = []) : s.drainLeaves = s := by
  have one : ∀ n (u : State) g, mgetD u.leafQ g [] = [] → iter (fun s => match mgetD s.leafQ g [] with
      | [] => s
      | e :: rest => match s.actLeaf g e.item with
        | none => s
        | some s => ({ s with leafQ := if rest.isEmpty then merase s.leafQ g else mset s.leafQ g rest } : State).retryLeaf g) n u = u := by
    intro n u g hg
    induction n with
    | zero => rfl
    | succ n ih => rw [iter, hg]; exact ih
  have all : ∀ l : List Nat, (∀ g ∈ l, mgetD s.leafQ g [] = []) → foldS l s State.drainLeaf = s := by
    intro l
    induction l with
    | nil => intro _; rfl
    | cons g t ih =>
      intro hl
      rw [foldS, List.foldl_cons, show s.drainLeaf g = s from one _ s g (hl g List.mem_cons_self)]
      exact ih (fun g hg => hl g (List.mem_cons_of_mem _ hg))
  exact all _ (fun g hg => h g (List.mem_range.mp hg))

/-- Countdowns none of which has come to 0 are not settled. -/
theorem settleCountdowns_none (s : State) (h : ∀ e ∈ s.ctxs, e.2.cdDue = false) : s.settleCountdowns = s := by
  rw [State.settleCountdowns, List.filter_eq_nil_iff.mpr (fun e he => by simp [h e he])]; rfl

/-- A loop whose steps all leave the state leaves it. -/
theorem foldS_same {α : Type} (l : List α) (s : State) (f : State → α → State) (h : ∀ a ∈ l, f s a = s) : foldS l s f = s := by
  unfold foldS
  induction l with
  | nil => rfl
  | cons a t ih => rw [List.foldl_cons, h a List.mem_cons_self]; exact ih (fun b hb => h b (List.mem_cons_of_mem _ hb))

/-- Limits none of which has been reached are not settled. -/
theorem settleLimits_none (s : State) (h : ∀ e ∈ s.ctxs, e.2.cdDue = false) (hg : ∀ g < 16, doFrostDrainTimeout g s = s)
    (hb : ∀ e ∈ s.beats, doHeartbeatSend e.1 s = s) (hw : ∀ e ∈ s.watch, doWatchdogExpire e.1 s = s) : s.settleLimits = s := by
  have keys : ∀ (m : FMap Nat) (f : Nat → State), (∀ e ∈ m, f e.1 = s) → ∀ a ∈ m.map (·.1), f a = s := by
    intro m f hm a ha
    obtain ⟨e, he, rfl⟩ := List.mem_map.mp ha
    exact hm e he
  unfold State.settleLimits
  rw [settleCountdowns_none s h, foldS_same _ s _ (fun g hg' => hg g (List.mem_range.mp hg'))]
  dsimp only
  rw [foldS_same _ s (fun s o => doHeartbeatSend o s) (keys s.beats (fun o => doHeartbeatSend o s) hb)]
  exact foldS_same _ s (fun s d => doWatchdogExpire d s) (keys s.watch (fun d => doWatchdogExpire d s) hw)

/-- The countdowns that run fall by 1. -/
theorem down_ctxs (u : State) : u.countDown.ctxs = mmap u.ctxs (fun _ x => if x.cdMode == .idle then x else { x with cdVal := x.cdVal - 1 }) := rfl

/-- A field as a number. -/
theorem fldv_eq (r : Rec32) (k : Nat) : fldv r k 64 = BitVec.ofNat 64 (fld r k 64) := by simp [fld]

/-- Reading ERRLOG_REC. -/
theorem regRead_log (s : State) (k : Nat) (h : s.dev.stage = .ready) (hk : k < 4) : s.regRead (0x4C20 + 8 * k) = fldv s.logHead (8 * k) 64 := by
  have e : s.regRead (0x4C20 + 8 * k) = s.integReg (0x4C20 + 8 * k) := by
    unfold State.regRead
    rw [if_neg (by omega), if_neg (by simp [h]), if_neg (by omega), if_neg (by omega), if_neg (by omega), if_neg (by omega), if_pos (by omega)]
  rw [e]
  have : k = 0 ∨ k = 1 ∨ k = 2 ∨ k = 3 := by omega
  rcases this with rfl | rfl | rfl | rfl <;> rfl

end Sys2Proof.Machine
end

