-- ==== Sys2Proof/WellFormed.lean ====
section
/-! DEFINITION. WellFormed.lean: the commands that their senders can form. A well-formed command names identities within the
ranges that the manual gives them, and carries lists of the lengths it gives. Nothing else is asked of one: what a rule says of
a register number, an index or a size out of range is the meaning's own (R3 to R5). -/
namespace Sys2Proof

/-- The numbers of R190 have the widths of their fields (R12, R33, R78, R394). -/
def CohortId.wf (i : CohortId) : Bool :=
  decide (i.ctx < 4096) && decide (i.scene < 65536) && decide (i.tag < 2 ^ 32) && decide (i.bough < 2 ^ 32)
/-- The numbers of R316. -/
def BlockId.wf (i : BlockId) : Bool :=
  decide (i.ctx < 4096) && decide (i.scene < 65536) && decide (i.tag < 2 ^ 32) && decide (i.index < 2 ^ 32)
/-- An image has at most 65,536 code words (R232). -/
def OpenRead.wf (r : OpenRead) : Bool := match r.code with | some l => decide (l.length ≤ 65536) | none => true
/-- What a failed transfer serves is well-formed. -/
def FabricItem.wf : FabricItem → Bool
  | .fill id _ => id.wf
  | .leafFill _ id _ => id.wf
  | .run _ _ _ | .scan _ _ | .tile _ _ _ | .through _ | .table _ _ | .delivery _ | .strandRead _ _ => true
/-- What a parity error is found in is well-formed. -/
def CtrlFault.wf : CtrlFault → Bool
  | .cohort id | .otherFill id => id.wf
  | .slotMap _ _ | .lane _ _ _ | .strand _ | .stream _ | .otherQuery _ | .dirEntry _ _ | .departEntry _ _
  | .placementHandle _ _ | .leafHandle _ _ => true

/-- A well-formed command. -/
def Instr.wf : Instr → Bool
  | .ingestWrite _ _ _ data => !data.isEmpty
  | .cohortAgeLimit id => id.wf
  | .fillVictimTimeout id => id.wf
  | .trailerReturn id _ => id.wf
  | .fillLineReturn id _ _ => id.wf
  | .decryptDone id => id.wf
  | .boughTestable _ _ errs => decide (errs.map (·.1)).Nodup
  | .sheafRelease id _ errs => id.wf && decide (errs.map (·.1)).Nodup
  | .testAnswer _ _ errs units parity =>
    decide (errs.map (fun e => (e.1, e.2.1))).Nodup && decide (units.map (·.1)).Nodup && decide parity.Nodup
  | .testbMerge _ _ units segs blocks => decide (units.map (·.1)).Nodup && decide segs.Nodup && blocks.all BlockId.wf
  | .leafFillInstall _ id lines => id.wf && decide (1 ≤ lines.length) && decide (lines.length ≤ 16)
  | .leafResult _ _ residue parity => decide residue.Nodup && parity.all BlockId.wf
  | .stagedTileInstall _ _ lines => !lines.isEmpty
  | .scanChunkArrive _ data => !data.isEmpty
  | .openComplete _ rd => rd.wf
  | .fabricRetry item => item.wf
  | .schedSweep err => match err with | some x => x.wf | none => true
  | .queryPacket _ q => decide (q.data.length ≤ 255)
  | .resultPacket _ recs => decide (1 ≤ recs.length) && decide (recs.length ≤ 64)
  | .emitPacket _ emissions => decide (1 ≤ emissions.length) && decide (emissions.length ≤ 508)
  | .bringupReady katFailed => decide katFailed.Nodup
  | .repairComplete _ uncopied _ => decide uncopied.Nodup
  | .cohortEntryRebuilt id => id.wf
  | .sceneDescriptorRead _ _ _ shard => match shard with | some x => decide (x.entries.length ≤ 2 ^ 24) | none => true
  | .walkEntryRead _ _ _ img => match img with | some x => decide (x.code.length ≤ 65536) | none => true
  | .commandBytesPerformed _ _ | .admitRecord _ _ | .spawnAdmit | .fillIssue | .placementCapture _
  | .victimSlotFreed _ _ | .intervalEnd | .spillCohort | .spillAcknowledged _ _ | .freshRunClose _ _ | .reloadRun _ _
  | .testn _ _ _ | .testb _ _ _ | .leaf _ _ _ | .order _ _ _ | .child _ _ _ | .push _ _ _ | .pop _ _ _
  | .descend _ _ _ | .trail _ _ _ | .yield _ _ _ | .yieldTree _ _ _ | .fwd _ _ _ | .hit _ _ _ | .collectEntry _ _ _
  | .collectSum _ _ _ | .collectSumv _ _ _ | .collectClear _ _ _ | .emit _ _ _ | .spawn _ _ _ | .walkEnd _ _ _
  | .strandEnd _ _ | .nop _ | .iop _ _ | .iopi _ _ | .movi _ _ | .movih _ _ | .cmp _ _ | .br _ _ | .brt _ _ | .brf _ _
  | .call _ _ | .ret _ _ | .retH _ | .fop _ _ _ | .fcmp _ _ _ | .cvt _ _ _ | .sel _ _ _ | .plog _ _ _ | .movs _ _ _
  | .illegalInstruction _ | .walkLong _ _ _ | .ld _ _ | .loadDataReturn _ _ _ | .st _ _ | .amo _ _ | .rdc _ _
  | .waitc _ _ | .waitcT _ _ | .waitcMet _ | .strmArm _ _ | .strmRearm _ _ | .strmStart _ _ | .strmStop _ _
  | .strmCancel _ _ | .strmStat _ _ | .streamTileIssue _ | .tileComplete _ _ | .transferRetire _ | .streamRateUpdate
  | .preloadEntry _ _ | .preloadTimeout _ | .stallBreak _ | .stallDataReadback _ | .crcscan _ _ | .scanWait _ _
  | .scanSuspend _ _ | .scanStat _ _ | .xbegin _ _ | .xwriteNode _ _ | .xwriteLeaf _ _ | .xwriteReadDone _ _
  | .xcommit _ _ | .commitPoint _ _ | .xabort _ _ | .xstat _ _ | .xwtpend _ _ | .xwtwait _ _ | .writeThroughDue _
  | .writeThroughAck _ | .fence _ _ | .fenceDone _ | .barrier _ _ | .launch _ _ | .nvstore _ _ | .nvmStoreDone _
  | .collectorTakeHead _ | .excConsumedRead _ _ _ | .binAgeFlush _ _ _ _ | .binRingReread _ _ _ _ | .accumWindowClose _ _ _
  | .writeAcknowledged _ | .snoopShared _ _ | .snoopOwn _ _ | .snoopInval _ _ | .ringGrant _ _ _ | .evictAck _ _
  | .countdownZero _ | .ctxCdSet _ _ | .ctxOpen _ | .ctxClose _ | .closingDone _ | .ctxKill _ | .killingDone _
  | .translationFault _ _ | .asidKill _ | .translationInvalidate _ _ | .scrubRead _ _ | .spineScrub _ | .txnScrub _
  | .dirScrub _ | .katInjection _ _ | .handoff _ | .nack _ | .heartbeat _ | .heartbeatSend _ | .watchdogExpire _
  | .arriveSend _ | .arrive _ | .release _ | .barrierTimeout _ | .chainEnum _ | .chainAssign _ | .chainIdent _
  | .chainPeek _ | .chainPoke _ | .chainReset _ | .chainStore _ | .chainFrost _ | .chainThaw _ | .chainReservedOp _
  | .powerOnReset _ _ | .pllLock | .stagedNvmLoad | .porstFall | .powerRemoved | .pwrCmdOff | .offReady
  | .groveCmdFrost _ | .groveCmdThaw _ | .groveDrainComplete _ | .frostDrainTimeout _ | .thawComplete _
  | .repairMapWrite _ _ | .seqPatchApply | .dbgUnlock | .dbgEraseDone _ | .keyLoad _ | .keyUnwrap _ | .keyClear _
  | .keyCmdDone | .keyBufWrite _ _ | .nvmDataRead | .nvmDataWrite _ | .schedParamWrite _ _ | .leafStageLinesWrite _
  | .leafPfDepthWrite _ | .collectSharesWrite _ | .collectFlush _ | .integCtlWrite _ | .injCtlWrite _
  | .errlogHeadWrite _ | .pendingClear _ | .lostClear _ | .traceEnWrite _ | .baseRegisterWrite _ _
  | .registerWrite _ _ _ | .fillUrgent _ | .seqPatchDone | .streamImageRead _ _ | .scanBlockRead _ _
  | .deliveryEntryFetch _ _ _ _ | .cutRunRead _ _ _ _ => true

end Sys2Proof
end

