-- ==== Sys2Proof/Tests/Slice0.lean ====
section
/-! SUPPORT. Tests/Slice0.lean: for every statement with hypotheses, small states that meet them (test_hyps_<statement>, one for each
clause and at the ends of its ranges); for every check of WellFormed.lean, a command that it refuses; and one step of a command of
each family, with results taken from the spec's rules or from the standards they name. -/
namespace Sys2Proof.Tests
open Sys2Proof.Machine
set_option Elab.async false

/-! ### Small states -/

/-- A READY device with every grove in RUN. -/
def rdy : State :=
  { State.reset with dev := { Dev.reset with stage := .ready, groveEn := 0xFFFF }, groves := List.replicate 16 { Grove.reset with state := .run } }
/-- The same with one open context, number 5. -/
def ctxAt (x : Context) : State := { rdy with ctxs := [(5, x)] }
/-- An open context. -/
def open0 : Context := { Context.reset with state := .opened }
/-- A READY strand of 8 words at PC 6, with x1 = 3 and x2 = 7. -/
def t0 : Strand := { Strand.reset with state := .ready, words := 8, pc := 6, x := [0, 3, 7] ++ List.replicate 29 0 }
/-- Context 5 open, with a strand. -/
def strandAt (t : Strand) : State := ctxAt { open0 with strand := t }
/-- Fields d = 3, a = 1, b = 2 and the last immediate inside an image of 8 words. -/
def f0 : Fields := { d := 3, a := 1, b := 2, minor := 0, imm := 7 }
/-- The same with another MINOR. -/
def fm (m : BitVec 8) : Fields := { f0 with minor := m }
/-- Fields that name predicates p3, p1 and p2. -/
def fp (m : BitVec 8) : Fields := { d := 35, a := 33, b := 34, minor := m, imm := 7 }
/-- Fields with a predicate destination and lane sources. -/
def fc (m : BitVec 8) : Fields := { f0 with d := 35, minor := m }
/-- The scene descriptor, record and cohort of the tests: all zeros is a RAY record of context 0. -/
def coh : CohortId := { ctx := 5, scene := 0, tag := 0, bough := 0 }
/-- The binding of a stock walk. -/
def bnd : Binding := stockBinding 1 0
/-- The binding of an image of 8 words. -/
def img : Binding := { bkind := 1, stock := 0, image := 0, code := [], words := some 8, start := 0, entry := 0, hLeaf := 0xFFFF, hHit := 0xFFFF, hEnd := 0xFFFF }
/-- A query of context 5 in a lane of core 0. -/
def qry : Query :=
  { ctx := 5, record := 0, cls := 0, spawned := false, place := .running 0 0 0, cohort := coh, binding := img, epoch := 0, dataUnits := [],
    collUnits := [], ws := freshWalk 0 0 0, admitted := 0, gen := 0, origin := none, fwd := { recs := [], emits := 0, expect := none } }
/-- A lane at PC 6. -/
def lan : Lane :=
  { n := 0, slot := 0, pc := 6, v := List.replicate 24 1, p := 3, clist := [], held := none, cbuf := [], ws := freshWalk 0 0 0, icount := 0,
    hook := none, noTest := [], served := false, long := false }
/-- A sheaf of one lane. -/
def shf : Sheaf := { cohort := coh, cls := 0, binding := img, octetSlot := some 0, lanes := [lan], wait := .ready, held := false, lat := 0 }
/-- A sheaf on core 0 with its query in pool slot 0. -/
def sheafAt (x : Sheaf) : State := { ctxAt open0 with sheaves := [(0, x)], pool := [(0, qry)] }

/-- A valid scene of one bough of BOX8 nodes. -/
def scn : Rec64 := mkRec 512 [(0, 8, 1), (1, 8, 1), (2, 8, 1), (4, 8, 1), (40, 32, 1), (44, 32, 0x3F800000)]
/-- The query of the tests when it is a RAY. -/
def rayq : Query := { qry with record := 1 }
/-- A sheaf on core 0 whose query walks the valid scene, in a slot with one node line of no children. -/
def walkAt (x : Sheaf) : State :=
  { ctxAt { open0 with scenes := [(0, { desc := scn, shard := none })] } with
    sheaves := [(0, x)], pool := [(0, rayq)], slots := [(0, { SlotRec.reset with occ := some coh, lines := [1], testable := true })] }

/-- A context descriptor: 8 streams from 0, 2 transactions, 1 channel, 64 slots, 4 delivery entries, 1 scene; ASID 9. -/
def dsc : Unit256 := mkRec 2048 [(6, 16, 1), (8, 32, 64), (12, 32, 4), (16, 8, 1), (17, 8, 2), (18, 8, 1), (26, 16, 4), (30, 16, 8), (32, 32, 9), (36, 8, 9), (80, 32, 4096)]
/-- An open context with the descriptor, the valid scene and a strand. -/
def ctx1 (t : Strand) : Context := { open0 with desc := dsc, strand := t, scenes := [(0, { desc := scn, shard := none })] }
/-- A stream image of a KIND: lead 2, four elements to a tile, four tiles. -/
def simg (kind elog : Nat) : Line :=
  mkRec 1024 [(0, 8, 1), (1, 8, kind), (3, 8, 2), (4, 8, elog), (16, 64, 4096), (24, 64, 128), (64, 32, 4), (68, 32, 4), (72, 32, 1), (76, 32, 1), (80, 32, 1)]
/-- A RUNNING stream of context 5. -/
def strm (kind elog : Nat) : Stream := { Stream.reset with state := .running, owner := 5, image := simg kind elog, base := 4096 }
/-- Context 5 with a strand and stream 3. -/
def streamAt (t : Strand) (x : Stream) : State := { ctxAt (ctx1 t) with streams := [(3, x)] }
/-- A transfer that is not waiting. -/
def xfr (w : XferWhat) (fin : Bool) : Xfer := { n := 7, what := w, ctx := 5, cls := 0, waiting := false, since := 0, fin := fin, todo := [], out := 0, fails := [], bad := [] }

/-- A RAY record of MODE 1: direction (1, 0, 0), TMAX 1. -/
def rec0 : Rec64 := mkRec 512 [(0, 16, 0x111), (6, 8, 0xFF), (28, 32, 0x3F800000), (44, 32, 0x3F800000)]
/-- A window that holds the bytes of records. -/
def winOf (bs : List Byte) : Window := { Window.reset with bytes := (List.range bs.length).map (fun i => (i, nth bs i 0)) }

/-- An open transaction of context 5. -/
def txn0 : Txn := { ctx := 5, scene := 0, order := 0, aborted := none, committing := false }
/-- A buffer line that transaction 3 holds. -/
def bln : BufLine := { state := .open 3, ctx := 5, scene := 0, leaf := false, trailer := false, name := 0, addr := 0, version := 0, data := 0, ue := false, owned := true }
/-- A strand with x1 = 0 and x3 = 3. -/
def t3 : Strand := { t0 with x := [0, 0, 7, 3] ++ List.replicate 28 0 }

/-- The query parked on its bough. -/
def parked : Query := { rayq with place := .parked none 0 }
/-- The cohort of the tests, with one member. -/
def coh0 : Cohort :=
  { id := coh, members := [0], useCount := 0, endUse := 0, clines := 0, forced := true, aged := false, urgent := false, dropped := false,
    lastRelease := 0, rebuilding := false }
/-- Context 5 with a cohort of one parked query of a class. -/
def cohAt (k : Nat) : State :=
  { ctxAt (ctx1 t0) with cohorts := [coh0], pool := [(0, { parked with cls := k })] }
/-- A fill of the cohort. -/
def fil (st : FillStage) : Fill := { Fill.fresh coh 0 st 0 none 0 with targets := [0] }
/-- Grove 0 alone, with octet 0 alone, in RUN. -/
def oneOctet (s : State) (r : SlotRec) : State :=
  { s with
    groves := { Grove.reset with state := .run, retired := 0xFFE } :: List.replicate 15 Grove.reset
    slots := (List.range 64).map (fun k => (k, { r with occ := some { coh with bough := 64 + k } })) }

/-- A run of a record that can be read again. -/
def ofr : OvfRec :=
  { record := rec0, cls := 0, spawned := false, data := [], ws := some (freshWalk rec0 0 0), binding := some bnd, epoch := 0, admitted := 0, origin := none, checked := true }
def run0 (w : Bool) : Run :=
  { rseq := 4, state := .live, cls := 0, fresh := false, scene := 0, bough := 0, tag := 0, start := 0, lines := runLines [ofr], recs := [ofr], written := w,
    rereads := 0, stall := none }
/-- Context 5 with a run at the head of its area. -/
def ovfAt (w : Bool) : State :=
  ctxAt { ctx1 t0 with ovf := { Ovf.reset with runs := [run0 w], tail := runLines [ofr], nextRseq := 5, count := 1 } }

/-- A completion that waits for some writes. -/
def cpl (left : Nat) (fin : Then) : Completion := { n := 4, ctx := 5, cls := 0, left := left, fin := fin, fails := 0, chain := none }

/-- A valid RECORD entry to memory with four slots of one record. -/
def dRec : Rec64 := mkRec 512 [(0, 8, 1), (1, 8, 1), (8, 64, 8192), (16, 32, 4), (56, 8, 4)]
/-- A BIN entry with an age. -/
def dBin : Rec64 := mkRec 512 [(0, 8, 1), (1, 8, 2), (16, 32, 4), (20, 32, 9), (56, 8, 4)]
/-- Delivery entry 0 as it has been read. -/
def dlv (d : Rec64) : Deliv := { Deliv.reset with raw := some d, valid := true }
/-- Context 5 with delivery entry 0. -/
def delivAt (x : Deliv) : State := ctxAt { ctx1 t0 with delivs := [(0, x)] }
/-- A chain of one record for that entry. -/
def chn (exc : Bool) : CItem := .chain 5 0 none 0 1 [7] exc true 3 0 0 false false
/-- An entry of a handle queue of class 0. -/
def prt : HEntry PortItem := { cls := 0, esc := false, item := .write 0 0 [] 0 }
/-- A delivery port without room. -/
def fullPorts : FMap (List (HEntry PortItem)) := (List.range 16).map (fun p => (p, { prt with esc := true } :: List.replicate 252 prt))

/-- The line of the tests: line 256 of address space 9. -/
def l256 : RLine := { asid := 9, addr := 256 }
/-- A line that the engine holds. -/
def dln (u : LineUser) (pin : Bool) : DirEntry := { addr := l256, state := .exclusive, user := u, pinned := pin, used := 0, data := 9, written := 0 }
/-- A line on its way out. -/
def dep : Departing := { addr := l256, data := 9, dirty := true, dropped := false, wt := none }
/-- An outstanding ring request. -/
def rng (u : RingUse) (up : Bool) : RingPend := { addr := l256, upgrade := up, use := u, waiting := false, crossed := false }

/-- A READY device with its staged image loaded, and a store of sector 30 in progress. -/
def nvmAt (p : Nat) (loaded : Bool) (b : Option Store) : State :=
  { rdy with dev := { rdy.dev with nvmPtr := p, stageLoaded := loaded, nvmBusy := b } }
/-- A store. -/
def sto (w : StoreBy) : Store := { who := w, sector := 30, started := true }

/-- Instance 3 of a fabric, READY in RUN. -/
def inst (s : State) : State := { s with dev := { s.dev with addressed := true, instId := 3, pwrState := 1 } }

/-- A packet header to instance 3 from instance 7, for context 5. -/
def hdr (t n : Nat) (more : List (Nat × Nat × Nat)) : Rec64 :=
  mkRec 512 ([(0, 8, t), (1, 8, 1), (2, 8, n), (8, 32, 7), (12, 32, 3), (16, 32, 7), (20, 16, 5)] ++ more)
/-- A QUERY packet's image. -/
def qim : QueryImage := { record := rec0, cls := 0, spawned := false, ws := freshWalk rec0 0 0, data := [] }

/-- A frame: OP, BCAST, TARGET, STATUS, ADDR, DATA. -/
def frm (op b t st a d : Nat) : Frame := BitVec.ofNat 128 (op + 16 * b + 32 * t + 2 ^ 24 * st + 2 ^ 32 * a + 2 ^ 64 * d)

/-- The walk cores' handle queue of grove 0 without room. -/
def jam (s : State) : State :=
  { s with walkQ := [(0, (List.range 256).map (fun n => { cls := 0, esc := n == 0, item := .chain 5 0 none 0 1 [7] false true 3 0 0 false false }))] }
/-- A packet of bank 0 that waits in octet 0, from another sheaf. -/
def pkt : Packet :=
  { sheaf := 1, lane := 0, bank := 0, cls := 0, arrived := 0, slot := 0, node := 0, block := none, reads := 1, dims := 0, fp8 := false, segs := [], served := false }
/-- A VECTOR query of 16 elements with one extension unit, 3. -/
def vecq : Query := { qry with record := mkRec 512 [(0, 8, 3), (9, 8, 1), (16, 16, 16), (40, 32, 0xFFFFFFFF)], dataUnits := [3] }

theorem crc_more (r x : Word) (n : Nat) (h : crc32cRun r (List.replicate 32 0) = x) :
    crc32cRun r (List.replicate (n + 32) 0) = crc32cRun x (List.replicate n 0) := by
  rw [Nat.add_comm, ← List.replicate_append_replicate, ← h]; exact List.foldl_append ..

/-! ### Hypotheses of the statements -/

/-! ### What the hypotheses of each statement are met by -/

theorem test_hyps_EmptyQueueTick : State.reset.pending = [] ∧ State.reset.dev.stage = .held ∧ rdy.pending = [] ∧ rdy.dev.stage = .ready ∧
    (State.reset.modDev (fun d => { d with stage := .off })).dev.stage = .off ∧
    (State.reset.modDev (fun d => { d with stage := .pll })).dev.stage = .pll ∧
    (State.reset.modDev (fun d => { d with stage := .bringup })).dev.stage = .bringup ∧
    (∀ g < 16, mgetD rdy.settleLimits.leafQ g [] = [] ∧ (rdy.grove g).state ≠ .drain) ∧ rdy.watch = [] ∧ rdy.beats = [] ∧ (∀ e ∈ (ctxAt open0).ctxs, (e.2.cdMode = .idle ∨ e.2.cdVal ≠ 0)) ∧
    (ctxAt { open0 with cdMode := .deadline }).ctxs = [(5, { open0 with cdMode := .deadline })] := by decide +kernel
theorem test_hyps_LegalKept : Legal State.reset ∧ step State.reset = .next State.reset := ⟨State.reset_legal, rfl⟩
theorem test_hyps_QueueKept : exec (.nop (.strand 5)) rdy = .next rdy ∧ step { rdy with pending := [.nop (.strand 5)] } = .next rdy := ⟨rfl, rfl⟩
theorem test_hyps_StepRunsFront : ({ rdy with pending := [.nop (.strand 5)] } : State).pending = .nop (.strand 5) :: [] := rfl

theorem test_hyps_StrandComputes :
    (strandAt { t0 with pc := 7 }).strandMay 5 [] false ∧ (strandAt { t0 with pc := 7 }).strandMay 5 [1, 2, 3] false ∧
    (strandAt t0).strandMay 5 [1, 3] true ∧ (strandAt t0).strandMay 5 [3] true ∧ (strandAt t0).strandMay 5 [] true ∧
    (strandAt t0).strandMay 5 [1] true ∧ (strandAt t0).strandMay 5 [1] false ∧ isX f0.d = true ∧ isX f0.a = true ∧ isX f0.b = true ∧
    isX 31 = true ∧ iop 0x12 (3 : DWord) 7 = some 3 ∧ iop 0x12 (3 : DWord) (f0.imm.signExtend 64) = some 3 ∧
    cmpHolds 5 (3 : DWord) 7 = some true ∧ f0.minor.toNat = 0 ∧ (fm 1).minor.toNat = 1 ∧ (fm 2).minor.toNat = 2 ∧ (fm 3).minor.toNat = 3 ∧ f0.imm.toNat < ((strandAt t0).ctx 5).strand.words ∧
    (((strandAt t0).ctx 5).strand.reg f0.a.toNat).toNat < ((strandAt t0).ctx 5).strand.words := by
  simp only [State.strandMay]; decide +kernel

theorem test_hyps_LaneComputes :
    (sheafAt shf).sheafMay 0 0 shf true ∧ (sheafAt { shf with lanes := [{ lan with pc := 7 }] }).sheafMay 0 0 { shf with lanes := [{ lan with pc := 7 }] } false ∧
    isVDst shf.handler f0.d = true ∧ isV f0.a = true ∧ isV f0.b = true ∧ (fm 0x12).minor.toNat ≤ 0x12 ∧ isPDst (fc 5).d = true ∧
    (fc 5).minor.toNat ≤ 5 ∧ fopUnary (fm 9).minor.toNat = fopUnary 9 ∧ (fm 9).minor.toNat ≤ 9 ∧ (fm 7).minor.toNat < 8 ∧ f0.minor.toNat = 0 ∧ (fm 1).minor.toNat = 1 ∧ (fm 2).minor.toNat = 2 ∧ (fm 3).minor.toNat = 3 ∧
    isPDst (fp 5).d = true ∧ isP (fp 5).a = true ∧ isP (fp 5).b = true ∧ (fp 5).minor.toNat ≤ 5 ∧
    beyond shf.words f0.imm.toNat = false ∧ shf.group ≠ [] ∧ (∀ l ∈ shf.group, beyond shf.words (l.reg f0.a.toNat).toNat = false) := by
  simp only [State.sheafMay]; decide +kernel

theorem test_hyps_SpecialRegisters :
    (sheafAt shf).sheafMay 0 0 shf false ∧ (fm 0x2D).minor.toNat < 64 ∧ specialReadable (fm 0x2D).minor.toNat = true ∧
    128 ≤ (fm 0x8F).minor.toNat ∧ (fm 0x8F).minor.toNat < 192 ∧ specialWritable ((fm 0x8F).minor.toNat - 128) = true ∧
    isVDst shf.handler f0.d = true ∧ isV f0.a = true ∧ (sheafAt shf).laneQuery lan = some qry := by
  simp only [State.sheafMay]; decide +kernel

theorem test_hyps_WorkStack :
    (sheafAt shf).sheafMay 0 0 shf false ∧ shf.walkOnly = true ∧ isV f0.a = true ∧ (fm 3).minor.toNat < 4 ∧ isVDst shf.handler f0.d = true ∧
    childMinorOk (fm 0x80).minor = true ∧ (fm 1).minor.toNat < 2 ∧ isPDst (fp 0).d = true ∧ isV f0.d = true ∧ (fm 5).minor.toNat ≤ 5 ∧
    trailOperands 5 (fm 5) = true ∧ (freshWalk 0 0 0).stack.length ≤ 12 ∧
    (pushList qry true (freshWalk 0 0 0) (List.replicate 12 (childEntry qry (freshWalk 0 0 0) { slot := 0, ref := 0, clines := 0, key := 0, exit := 0, score := 0, cn := 0 }))).stack.length = 12 := by
  simp only [State.sheafMay]; decide +kernel

theorem test_hyps_SheafTests :
    (sheafAt shf).sheafMay 0 0 shf false ∧ shf.walkOnly = true ∧ isV f0.d = true ∧ isV f0.a = true ∧
    mget (sheafAt { shf with wait := .testn [0] f0, octetSlot := none }).sheaves (sheafKey 0 0) = some { shf with wait := .testn [0] f0, octetSlot := none } ∧
    mget (sheafAt { shf with wait := .testn [0] f0 }).sheaves (sheafKey 0 0) = some { shf with wait := .testn [0] f0 } ∧
    (sheafAt shf).laneQuery lan = some qry ∧ (sheafAt shf).cutCovers qry = false ∧ shf.octetSlot = some 0 ∧ ({ shf with octetSlot := none } : Sheaf).octetSlot = none ∧
    ((sheafAt shf).octet 0).hasRoom ((sheafAt shf).testPackets 0 shf) = true ∧ ((sheafAt shf).octet 0).hasRoom ((sheafAt shf).vecPackets 0 shf) = true := by
  simp only [State.sheafMay]; decide +kernel
theorem test_hyps_SheafTests_held :
    let s := walkAt shf
    let busy := { s with octets := [(0, { Octet.reset with queue := List.replicate 32 pkt })] }
    (s.testPackets 0 shf).length = 1 ∧ (busy.octet 0).hasRoom (busy.testPackets 0 shf) = false ∧ busy.sheafMay 0 0 shf false := by
  simp only [State.sheafMay]; decide +kernel
theorem test_hyps_SheafTests_answer :
    let s := walkAt { shf with wait := .testn [0] f0 }
    mget s.sheaves 0 = some { shf with wait := .testn [0] f0 } ∧ s.laneQuery lan = some rayq ∧ s.cutCovers rayq = false ∧
    (s.readUnits none (segmentLines (s.testSegments shf rayq lan))).2 = false ∧
    (s.readTested shf (s.laneScene rayq lan) rayq.record lan []).2 = false ∧
    (s.readTested shf (s.laneScene rayq lan) rayq.record lan [(0, 0, .uncorrectable)]).2 = true ∧
    (let u := (s.readTested shf (s.laneScene rayq lan) rayq.record lan []).1
     (match u.bankAnswer shf rayq lan (lan.reg 1) with | .ok [] => true | _ => false) = true) ∧
    firstBreach lan.ws.node lan.ws.bough (s.slot 0).lines.length (sBoughs (s.laneScene rayq lan)) (sSharded (s.laneScene rayq lan)) [] = none ∧
    (s.readUnits (some .uncorrectable) (segmentLines [(3, 0)])).2 = true := by
  decide +kernel

/-- A lane that holds a reference of a type. -/
def holding (t : RefType) : Lane :=
  { lan with held := some { type := t, ref := 0, clines := 1, key := 0, exit := 0, score := 0, cn := 0, slot := 0, bough := 0, scene := 0, ilevel := 0, start := 0 } }
/-- A candidate. -/
def cand : Candidate := { hit := { value := 0, prim := 0, inst := 0, aux0 := 0, aux1 := 0, backface := false, suspect := false }, haze := 0 }
/-- A leaf fill of one line. -/
def lfl : LeafFill := { grove := 0, id := { ctx := 5, scene := 0, tag := 0, index := 0 }, count := 1, attempt := 0, prefetch := false, haze := false, cls := 0, forcedBad := false, queued := false }
/-- A leaf line whose LCRC holds. -/
def leafLine : Line := mkRec 1024 [(4, 32, 136799451)]
theorem leafLine_crc : leafCrcOk [leafLine] = true := by
  have e : (([leafLine].flatMap (fun l => bytesOf l 128)).take 4 ++ [0, 0, 0, 0] ++ ([leafLine].flatMap (fun l => bytesOf l 128)).drop 8 : List Byte)
      = List.replicate (96 + 32) 0 := by decide +kernel
  unfold leafCrcOk
  dsimp only
  rw [e]
  unfold crc32c
  rw [crc_more _ 1970194773 96 (by decide +kernel), crc_more 1970194773 4231468184 64 (by decide +kernel),
    crc_more 4231468184 2920151892 32 (by decide +kernel)]
  decide +kernel

/-- A TRI_RAW leaf line of one triangle that every query sees. -/
def visLine : Line := mkRec 1024 [(0, 8, 0x42), (1, 8, 1), (2, 8, 1), (3, 8, 0xFF), (68, 16, 0xFFFF)]
/-- The lines of a VEC leaf block of one row. -/
def vecLines : List Line := [mkRec 1024 [(0, 8, 0x45), (1, 8, 1), (2, 8, 2)], 0]
/-- A block in a leaf cache. -/
def lblk (ls : List Line) : LeafBlock :=
  { id := lfl.id, lines := ls, suspect := false, prefetched := false, looked := false, lastUse := 0, staged := none }
/-- A sheaf whose lane holds a LEAF reference, in a grove whose leaf cache holds its block. -/
def leafAt (x : Sheaf) (l : List Line) : State :=
  let s := walkAt x
  s.modGrove 0 (fun g => { g with leafCache := [lblk l] })
/-- A VECTOR scene of VEC blocks: INT8 rows of 32 elements. -/
def vscn : Rec64 := mkRec 512 [(0, 8, 2), (1, 8, 1), (2, 8, 1), (4, 8, 1), (8, 16, 32), (40, 32, 1), (44, 32, 0x3F800000)]

theorem test_hyps_LeafResults :
    (let x := { shf with wait := .testb [0] f0, octetSlot := none }
     mget (walkAt x).sheaves 0 = some x ∧ (∀ l ∈ [0].filterMap x.lane, (walkAt x).scores l = false)) ∧
    (let x := { shf with wait := .leaf [0] f0 }
     let s := walkAt x
     mget s.sheaves 0 = some x ∧ (∀ l ∈ [0].filterMap x.lane, s.lookHeld 0 l = s) ∧ s.laneQuery lan = some rayq ∧
     (match s.leafLane 0 x rayq f0 lan with | .done _ _ b => decide (b = 0) | _ => false) = true ∧ s.cutCovers rayq = false ∧ x.binding.bkind ≠ 3 ∧
     s.choosePipe 0 none = some 0 ∧ s.residueBad 0 0 [1] = none) ∧
    (let s := { walkAt shf with leafFills := [lfl], xfers := [xfr (.leaf 0 lfl.id) false] }
     s.leafFillOf 0 lfl.id = some lfl ∧ lfl.count = [leafLine].length ∧ s.hasSlot (.leaf 0 lfl.id) = true ∧
     (s.linesBack (.leaf 0 lfl.id)).bound 5 0 = some scn ∧ sKeyed scn = false ∧ (s.linesBack (.leaf 0 lfl.id)).txnBuf = []) ∧ leafCrcOk [leafLine] = true ∧
    (let s := { walkAt shf with leafFills := [{ lfl with queued := true }] }
     s.leafFills.find? (fun y => y.grove == 0 && y.id == lfl.id && y.queued) = some { lfl with queued := true } ∧
     demandUsed (s.grove 0).leafCache + 1 ≤ s.demandLines) :=
  ⟨by decide +kernel, by decide +kernel, by decide +kernel, leafLine_crc, by decide +kernel⟩
/-- A lane whose LEAF reference has been looked up. -/
def looked : Lane := { holding .leaf with served := true, v := List.replicate 24 0 }
/-- A RAY query that sees every leaf. -/
def seeq : Query := { rayq with record := mkRec 512 [(0, 8, 1), (6, 8, 0xFF)] }
/-- A leaf call on a block that its query sees. -/
theorem test_hyps_LeafResults_leaf :
    (leafAt { shf with wait := .leaf [0] f0, lanes := [looked] } [visLine]).lookHeld 0 looked =
      leafAt { shf with wait := .leaf [0] f0, lanes := [looked] } [visLine] ∧
    (match (leafAt shf [visLine]).leafLane 0 shf seeq f0 looked with | .done _ _ b => decide (b ≠ 0) | _ => false) = true := by decide +kernel
/-- A lane on a VEC block. -/
def vecAt : State :=
  { leafAt { shf with lanes := [holding .leaf] } vecLines with
    ctxs := [(5, { open0 with scenes := [(0, { desc := vscn, shard := none })] })], pool := [(0, vecq)] }
/-- TESTB on a VEC block. -/
theorem test_hyps_LeafResults_vec :
    vecAt.laneQuery (holding .leaf) = some vecq ∧ vecAt.cutCovers vecq = false ∧ vecAt.retired 0 = false ∧ vecAt.scores (holding .leaf) = true ∧
    (vecAt.readUnits none (segmentLines (dataSegments vecq.dataUnits (qDims vecq.record)))).2 = false ∧
    vecAt.laneLook 0 vecq (holding .leaf) 0 0 2 = .here vecLines false ∧ vecAt.bound 5 0 = some vscn ∧
    leafFmtBad (leafPermitted (sFmt vscn)) vscn 2 vecLines = false ∧ lfFmt vecLines = 0x45 ∧ leafFieldBad vecLines (sEtype vscn) (sDims vscn) = false := by
  decide +kernel

theorem test_hyps_HitsAndHooks :
    (sheafAt shf).sheafMay 0 0 shf false ∧ shf.walkOnly = true ∧ isPDst (fp 1).d = true ∧ isV f0.a = true ∧ (fm 1).minor.toNat < 2 ∧
    shf.binding.bkind ≠ 3 ∧ lan.cbuf[0]? = none ∧ ({ lan with cbuf := [cand] } : Lane).cbuf[0]? = some cand ∧ qMode 0x100 = 1 ∧
    lan.ws.best = none ∧
    (let b : Binding := { img with bkind := 3, hHit := 4 }
     b.bkind = 3 ∧ b.hHit ≠ 0xFFFF ∧ (recordHit 0x100 false lan.ws cand.hit).2 = true ∧
     (recordHit 0x200 false { lan.ws with best := some cand.hit } cand.hit).2 = false) ∧
    img.hHit = 0xFFFF ∧
    (let x := { shf with lanes := [{ lan with hook := some (.leaf 3 0), p := 3 }] }
     x.group.filter Lane.returnsEnd = [] ∧
     (let y := { shf with lanes := [{ lan with hook := some (.fin 3 0), p := 3 }] }
      (jam (sheafAt y)).sheafMay 0 0 y false ∧ y.handler = true ∧ (jam (sheafAt y)).endRoom 0 (y.group.filter Lane.returnsEnd) = false)) ∧
    (let x := { shf with lanes := [{ lan with hook := some (.leaf 3 0), p := 1 }] }
     (sheafAt x).sheafMay 0 0 x false ∧ x.handler = true ∧ (sheafAt x).endRoom 0 (x.group.filter Lane.returnsEnd) = true ∧
     ({ lan with hook := some (.leaf 3 0), p := 1 } : Lane).pred 1 = false) := by
  simp only [State.sheafMay]; decide +kernel

theorem test_hyps_LeavingASheaf :
    (let x := { shf with lanes := [holding .bough] }
     (walkAt x).sheafMay 0 0 x false ∧ x.walkOnly = true ∧ x.group.all Lane.yields = true) ∧
    (let x := { shf with lanes := [holding .remote] }
     (walkAt x).sheafMay 0 0 x false ∧ x.group.all Lane.holdsRemote = true) ∧
    (let s := { walkAt shf with pool := [(0, { rayq with record := 4 })] }
     s.sheafMay 0 0 shf false ∧ shf.group.all s.isForest = true ∧ s.mayEnd 0 shf.binding (shf.group.filter s.treeEnds) = true) ∧
    f0.minor.toNat = 0 ∧ (fm 1).minor.toNat = 1 ∧
    (walkAt shf).endRoom 0 shf.group = true ∧ (jam (walkAt shf)).endRoom 0 shf.group = false ∧ (jam (walkAt shf)).sheafMay 0 0 shf false ∧ shf.binding.bkind ≠ 3 ∧ (walkAt shf).laneQuery lan = some rayq ∧
    (holding .bough).held.isSome = true ∧ mget (walkAt shf).pool 0 = some rayq ∧ mget (walkAt shf).sheaves 0 = some shf := by
  simp only [State.sheafMay]; decide +kernel

theorem test_hyps_Collecting :
    f0.minor.toNat = 0 ∧ (fm 1).minor.toNat = 1 ∧ (fm 2).minor.toNat = 2 ∧ (fm 3).minor.toNat = 3 ∧
    (walkAt shf).sheafMay 0 0 shf false ∧ shf.walkOnly = true ∧ ({ f0 with a := 20 } : Fields).a.toNat ≤ 20 ∧ isV f0.a = true ∧ isV f0.b = true ∧
    (v32 0x3F800000).finite = true ∧ (v32 (sumAdd 0x3F800000 0x3F800000)).finite = true ∧ (v32 0x7F800000).finite = false ∧
    (walkAt shf).laneQuery lan = some rayq := by
  simp only [State.sheafMay]; decide +kernel

theorem test_hyps_EmitAndSpawn :
    (walkAt shf).sheafMay 0 0 shf false ∧ shf.walkOnly = true ∧ ({ f0 with a := 16 } : Fields).a.toNat ≤ 16 ∧
    (walkAt shf).walkRoom 0 shf.cls ((walkAt shf).emitItems 5 shf.cls 16 shf.group).length = true ∧
    (∀ l ∈ shf.group, (walkAt shf).laneQuery l = some rayq) ∧ rayq.origin = none ∧ isPDst (fp 0).d = true ∧ ({ f0 with a := 8 } : Fields).a.toNat ≤ 8 ∧
    (jam (walkAt shf)).walkRoom 0 shf.cls 1 = false ∧ (jam (walkAt shf)).sheafMay 0 0 shf false ∧
    (let s := ctxAt { open0 with desc := mkRec 2048 [(8, 32, 64), (12, 32, 4), (16, 8, 1)] }
     qDepth rayq.record < dSpawnDepth (s.ctx 5).desc ∧ (mgetD s.spawnBufs 0 []).length < 64 ∧ s.spawnedHeld 5 < dSpawnPool (s.ctx 5).desc ∧
     s.mayTakeSlot (min 3 (s.classOf 5 (spawnRecord rayq lan 8) 0)) 5 = true) ∧
    dSpawnDepth ((walkAt shf).ctx 5).desc ≤ qDepth rayq.record ∧
    (let s := ctxAt { ctx1 t0 with desc := mkRec 2048 [(8, 32, 64), (16, 8, 1)] }
     qDepth rayq.record < dSpawnDepth (s.ctx 5).desc ∧ dSpawnPool (s.ctx 5).desc ≤ s.spawnedHeld 5 ∧
     s.ovfTakesFresh 5 0 (s.freshRec 0 (spawnRecord rayq lan 8) true []) = false) := by
  simp only [State.sheafMay]; decide +kernel

theorem test_hyps_IllegalAndEnds :
    (strandAt { t0 with pc := 7 }).strandMay 5 [] false ∧ (fm 1).minor.toNat = 1 ∧ (sheafAt shf).issuing 0 0 = some shf ∧ shf.handler = false ∧
    (let l := { lan with icount := 1048576 }
     let x := { shf with lanes := [l] }
     mget (walkAt x).sheaves 0 = some x ∧ x.lane 0 = some l ∧ 1048576 ≤ l.icount ∧ l.long = false ∧ (walkAt x).laneQuery l = some rayq) := by
  simp only [State.strandMay]; decide +kernel

theorem test_hyps_StrandMemory :
    (strandAt t0).strandMay 5 [1, 3] true ∧ (strandAt t0).strandMay 5 [1, 2] true ∧ (strandAt t0).strandMay 5 [1, 2, 3] false ∧
    isX f0.d = true ∧ isX f0.a = true ∧ isX f0.b = true ∧ (fm 31).minor.toNat < 32 ∧ (fm 0x1B).minor.getLsbD 2 = false ∧
    (fm 0xF9).minor.toNat % 16 ≤ 9 ∧ 2 ≤ (fm 0xE9).minor.toNat / 16 % 4 ∧ (t0.reg 0).toNat % 2 ^ 3 = 0 ∧
    t0.mustWait (.load 8 false false) 0 = [] ∧ t0.mustWait (.store [0] false false) 0 = [] ∧
    ({ t0 with stores := [4] } : Strand).mustWait (.store [0] true false) 0 ≠ [] ∧
    (let x : LoadRec := { n := 4, rd := 3, size := 4, sx := true, atomic := false, acq := false }
     ([x].find? (fun y => y.n == 4)) = some x ∧ t0.held.any (fun h => h.n == 4) = false) := by
  simp only [State.strandMay]; decide +kernel

theorem test_hyps_ReceiveCounters :
    (strandAt t0).strandMay 5 [1, 3] false ∧ (strandAt t0).strandMay 5 [1, 2, 3] false ∧ isX f0.d = true ∧ isX f0.a = true ∧ isX f0.b = true ∧
    f0.minor.toNat = 0 ∧ (fm 1).minor.toNat = 1 ∧ (fm 2).minor.toNat = 2 ∧
    (let t := { t0 with x := [0, 16] ++ List.replicate 30 1 }
     (strandAt t).strandMay 5 [1, 2, 3] false ∧ 15 < (t.reg 1).toNat) ∧
    (let t := { t0 with x := [0, 15] ++ List.replicate 30 1 }
     (strandAt t).strandMay 5 [1, 2, 3] false ∧ (t.reg 1).toNat ≤ 15 ∧ t.reg 3 ≠ 0 ∧ ((strandAt t).ctx 5).cdMode ≠ .deadline ∧
     (ctxAt { open0 with strand := t, cdMode := .deadline }).strandMay 5 [1, 2, 3] false ∧
     ((ctxAt { open0 with strand := t, cdMode := .deadline }).ctx 5).cdMode = .deadline) ∧ t0.reg 3 = 0 ∧
    (let t := { t0 with state := .waiting (.waitc 3 15 0 false) }
     ((strandAt t).ctx 5).strand.state = .waiting (.waitc 3 15 0 false) ∧ reached (mgetD ((strandAt t).ctx 5).recv 15 0) 0 = true) ∧
    ((strandAt { t0 with state := .waiting (.waitc 3 15 0 true) }).ctx 5).strand.state = .waiting (.waitc 3 15 0 true) := by
  simp only [State.strandMay]; decide +kernel

theorem test_hyps_FencesAndLaunch :
    (strandAt t0).strandMay 5 [] false ∧ (fm 7).minor.toNat < 8 ∧ (fm 7).minor.toNat % 4 ≠ 0 ∧
    (let t := { t0 with state := .waiting (.fence 3 true) }
     ((strandAt t).ctx 5).strand.state = .waiting (.fence 3 true) ∧ t.loads = [] ∧ t.stores = []) ∧
    (strandAt t0).strandMay 5 [1, 3] false ∧ isX f0.d = true ∧ isX f0.a = true ∧ ({ t0 with stores := [4] } : Strand).quiet = false ∧ t0.quiet = true ∧
    63 < (({ t0 with x := [0, 64] ++ List.replicate 30 0 } : Strand).reg 1).toNat ∧
    (({ t0 with x := [0, 63] ++ List.replicate 30 0 } : Strand).reg 1).toNat ≤ 63 := by
  simp only [State.strandMay]; decide +kernel

theorem test_hyps_StreamCommands :
    (let s := streamAt t0 Stream.reset
     s.strandMay 5 [1, 3] false ∧ s.strandMay 5 [1, 2, 3] false ∧ (s.ctx 5).strand.quiet = true ∧ s.ownsStream 5 3 = true ∧
     s.ownsStream 5 8 = false ∧ (s.stream 3).state = .idle) ∧ isX f0.d = true ∧ isX f0.a = true ∧ isX f0.b = true ∧
    (fm 0).minor.toNat = 0 ∧ (fm 1).minor.toNat = 1 ∧ (fm 2).minor.toNat = 2 ∧ (fm 3).minor.toNat = 3 ∧ (fm 4).minor.toNat = 4 ∧ (fm 5).minor.toNat = 5 ∧
    (let s := streamAt t0 (strm 2 5)
     s.ownsStream 5 3 = true ∧ (s.stream 3).state = .running ∧ smKind (s.stream 3).image ≠ 1 ∧ (s.stream 3).state ≠ .idle ∧
     (s.stream 3).issuedAll = false ∧ (s.stream 3).pend = none ∧ (s.stream 3).inflight.length < 4294967296) ∧
    (streamAt t0 { strm 2 5 with state := .armed }).ownsStream 5 3 = true ∧ ({ strm 2 5 with state := .armed } : Stream).state = .armed ∧
    ({ strm 2 5 with pend := some 8192 } : Stream).pend ≠ none ∧
    (let x := { strm 2 5 with nextTile := 4 }
     x.state ≠ .idle ∧ (x.issuedAll && x.again.isEmpty && x.inflight.isEmpty) = true) ∧
    ((strm 2 5).issuedAll && (strm 2 5).again.isEmpty && (strm 2 5).inflight.isEmpty) = false ∧
    (let x := { strm 1 7 with heldStarts := 1 }
     x.state = .running ∧ smKind x.image = 1 ∧ x.fullHalves = [] ∧ x.heldStarts < 2 ∧ 2 ≤ ({ x with heldStarts := 2 } : Stream).heldStarts) ∧
    ({ strm 1 7 with nextTile := 2, completed := [0, 1], installed := [(0, [0]), (1, [0])] } : Stream).fullHalves = [0] ∧
    (let s := (streamAt { t0 with state := .waiting (.armImage 3 3 4096) } Stream.reset).readBack 5
     (s.ctx 5).strand.state = .waiting (.armImage 3 3 4096) ∧ imageBad 0 = true ∧ imageBad (simg 2 5) = false ∧ smKind (simg 2 5) ≠ 1 ∧
     imageBad (simg 1 7) = false ∧ smKind (simg 1 7) = 1 ∧ s.sceneUnread 5 (smScene (simg 1 7)) = false ∧ s.stageBad 5 (simg 1 7) = true ∧
     smKind (setFld (simg 1 7) 8 16 1) = 1 ∧ imageBad (setFld (simg 1 7) 8 16 1) = false ∧ s.stageBad 5 (setFld (simg 1 7) 8 16 1) = false) := by
  simp only [State.strandMay]; decide +kernel

theorem test_hyps_StreamTransfers :
    (strm 1 7).issues = true ∧ (strm 1 7).again = [] ∧ ({ strm 1 7 with again := [0] } : Stream).issues = true ∧
    ({ strm 1 7 with state := .armed } : Stream).issues = false ∧
    (strm 1 7).mayIssue = true ∧ (strm 3 3).mayIssue = true ∧ ({ strm 1 7 with nextTile := 4 } : Stream).mayIssue = false ∧
    (let s := { streamAt t0 (strm 1 7) with xfers := [xfr (.tile 3 0) false] }
     (s.stream 3).state ≠ .idle ∧ smKind (s.stream 3).image = 1 ∧ s.hasSlot (.tile 3 0) = true ∧
     (s.linesBack (.tile 3 0)).bound (s.stream 3).owner (smScene (s.stream 3).image) = some scn ∧ sKeyed scn = false ∧
     (let u := { s with ctxs := [(5, { ctx1 t0 with scenes := [] })] }
      u.hasSlot (.tile 3 0) = true ∧ (u.linesBack (.tile 3 0)).bound 5 (smScene (u.stream 3).image) = none)) ∧
    (let s := streamAt t0 { strm 3 3 with nextTile := 1, plDone := 4, undone := [0] }
     s.tileDone 3 0 = true ∧ smKind (s.stream 3).image = 3) ∧ (streamAt t0 (strm 3 3)).tileDone 3 0 = false ∧
    (let s := { streamAt t0 (strm 1 7) with xfers := [xfr (.tile 3 0) true] }
     s.xfers.find? (fun y => y.n == 7 && y.fin && !y.waiting) = some (xfr (.tile 3 0) true) ∧
     ((s.dropXfer 7).drainStreams.stream 3).state ≠ .idle ∧
     s.xfers.find? (fun y => y.n == 8 && y.fin && !y.waiting) = none) := by decide +kernel

theorem test_hyps_PreloadAndStalls :
    (let s := { streamAt t0 { strm 3 3 with nextTile := 1, outstanding := [0] } with xfers := [xfr (.tile 3 0) false] }
     (s.stream 3).state ≠ .idle ∧ smKind (s.stream 3).image = 3 ∧ (s.stream 3).cancelling = false ∧ (s.stream 3).plWait = none ∧
     (s.stream 3).outstanding.contains ((s.stream 3).plDone / smCount (s.stream 3).image 0) = true ∧
     s.hasSlot (.tile 3 ((s.stream 3).plDone / smCount (s.stream 3).image 0)) = true ∧
     s.sceneUnread 5 (fld (0 : DWord) 0 16) = false ∧ ((s.stream 3).plDone + 1) % smCount (s.stream 3).image 0 ≠ 0 ∧
     s.entryBad 5 (fld (0x100000000 : DWord) 0 16) (fld (0x100000000 : DWord) 4 32) = true ∧
     s.entryBad 5 (fld (0 : DWord) 0 16) (fld (0 : DWord) 4 32) = false ∧
     (s.resident (s.preloadFill 3 0).id || s.underFill (s.preloadFill 3 0).id) = false ∧
     (let u := { s with slots := [(0, { SlotRec.reset with occ := some (s.preloadFill 3 0).id, testable := true })] }
      (u.resident (u.preloadFill 3 0).id || u.underFill (u.preloadFill 3 0).id) = true)) ∧
    (let s := { streamAt t0 (strm 3 3) with ctxs := [(5, { ctx1 t0 with scenes := [(0, { desc := setFld scn 40 32 4, shard := none })] })] }
     s.isCrownBough (s.preloadFill 3 0x300000000).id = false ∧ s.entryBad 5 (fld (0x300000000 : DWord) 0 16) (fld (0x300000000 : DWord) 4 32) = false) ∧
    ((streamAt t0 { strm 3 3 with plWait := some (0, 0) }).stream 3).plWait = some (0, 0) ∧
    (let w := { xfr (.tile 3 1) false with n := 8, waiting := true }
     let s := { streamAt t0 (strm 3 3) with xfers := [xfr (.tile 4 0) false, w, { xfr (.tile 4 1) false with n := 9, waiting := true }, { xfr (.tile 3 0) false with n := 10 }], streams := [(3, strm 1 7), (4, strm 1 7)] }
     s.waitCycle 3 (s.streams.length + 1) 3 ≠ none ∧ (s.breakStream 3).isSome = true ∧ (s.breakStream 4).isSome = true) ∧
    (streamAt t0 (strm 1 7)).waitCycle 3 2 3 = none ∧
    (let r : Run := { rseq := 0, state := .pad, cls := 0, fresh := false, scene := 0, bough := 0, tag := 0, start := 0, lines := 1, recs := [], written := true, rereads := 0, stall := some (3, [0]) }
     let s := { streamAt t0 { strm 2 5 with spilled := [1] } with ctxs := [(5, { ctx1 t0 with ovf := { Ovf.reset with runs := [r] } })] }
     s.stallRun 3 = some (r, [0]) ∧ (s.stream 3).spilled ≠ [] ∧ s.blockedOn 3 = none ∧
     (s.requestOnce (.run 5 0) 5 (smClass (s.stream 3).image)).hasSlot (.run 5 0) = true ∧
     (let u := { s with xfers := [{ xfr (.run 5 0) false with waiting := true }] }
      u.stallRun 3 = some (r, [0]) ∧ u.blockedOn 3 = none ∧ (u.requestOnce (.run 5 0) 5 (smClass (u.stream 3).image)).hasSlot (.run 5 0) = false)) := by decide +kernel

theorem test_hyps_Scans :
    (let s := ctxAt (ctx1 t0)
     s.strandMay 5 [1, 3] false ∧ (s.ctx 5).strand.quiet = true ∧ s.holdsScan 5 3 = false) ∧
    isX f0.d = true ∧ isX f0.a = true ∧ (fm 0).minor.toNat = 0 ∧ (fm 1).minor.toNat = 1 ∧ (fm 2).minor.toNat = 2 ∧ (fm 3).minor.toNat = 3 ∧
    ({ t0 with stores := [4] } : Strand).quiet = false ∧
    (let x : Scan := { Scan.reset with held := true, ctx := 5, remain := 8, next := 4096 }
     let s := { ctxAt (ctx1 t0) with scans := [(3, x)], xfers := [xfr (.scan 3) false] }
     s.holdsScan 5 3 = true ∧ x.finished = false ∧ (s.scan 3).held = true ∧ s.hasSlot (.scan 3) = true ∧
     (s.readBack 5).freeScan 5 = none ∧ (s.scan 3).failed = false) ∧
    (let x : Scan := { Scan.reset with held := true, ctx := 5, finished := true }
     let s := { ctxAt (ctx1 t0) with scans := [(3, x)] }
     s.holdsScan 5 3 = true ∧ (s.scan 3).finished = true ∧ s.completions.all (fun y => y.fin != .blockWrite 3) = true) ∧
    (let s := (ctxAt (ctx1 { t0 with state := .waiting (.scanBlk 3 4096) })).readBack 5
     (s.ctx 5).strand.state = .waiting (.scanBlk 3 4096) ∧ s.freeScan 5 = some 0) ∧
    blockBad 0 = true ∧ blockBad (mkRec 512 [(0, 8, 1), (16, 64, 4096)]) = false ∧ pbRemain (mkRec 512 [(0, 8, 1), (16, 64, 4096)]) ≠ 0 ∧
    (let x : Scan := { Scan.reset with cmp := true, expect := 1 }
     (x.cmp && scanResult x.poly x.running != x.expect) = true) ∧
    (let x : Scan := Scan.reset
     (x.cmp && scanResult x.poly x.running != x.expect) = false ∧ x.notify = false) := by
  simp only [State.strandMay]; decide +kernel

theorem test_hyps_Transactions :
    (let s := ctxAt (ctx1 t3)
     s.strandMay 5 [1, 3] false ∧ s.strandMay 5 [3] false ∧ s.sceneUnread 5 0 = false ∧ s.bound 5 0 ≠ none ∧
     (s.txns.filter (fun e => e.2.ctx == 5)).length < dMaxTxn (s.ctx 5).desc ∧ mfree s.txns 64 = some 0 ∧ s.txnOf 5 3 = none ∧ s.wtPending 5 = 0) ∧
    isX f0.d = true ∧ isX f0.a = true ∧ (fm 0).minor.toNat = 0 ∧ (fm 4).minor.toNat = 4 ∧ (fm 5).minor.toNat = 5 ∧ (fm 6).minor.toNat = 6 ∧ (fm 7).minor.toNat = 7 ∧
    (let s := ctxAt (ctx1 t0)
     s.sceneUnread 5 3 = false ∧ s.bound 5 3 = none) ∧
    (let s := { ctxAt (ctx1 t3) with txns := [(0, txn0), (3, txn0)] }
     s.bound 5 0 ≠ none ∧ dMaxTxn (s.ctx 5).desc ≤ (s.txns.filter (fun e => e.2.ctx == 5)).length ∧ s.txnOf 5 3 = some txn0 ∧ txn0.aborted = none) ∧
    (let s := { ctxAt (ctx1 t3) with txns := (List.range 64).map (fun n => (n, { txn0 with ctx := 6 })) }
     s.bound 5 0 ≠ none ∧ (s.txns.filter (fun e => e.2.ctx == 5)).length < dMaxTxn (s.ctx 5).desc ∧ mfree s.txns 64 = none) ∧
    (let s := { ctxAt (ctx1 t3) with txns := [(3, { txn0 with aborted := some 3 })] }
     s.txnOf 5 3 = some { txn0 with aborted := some 3 }) ∧
    (let s := { ctxAt (ctx1 t3) with txnBuf := [(0, { bln with state := .committed })] }
     s.wtPending 5 ≠ 0) := by
  simp only [State.strandMay]; decide +kernel

theorem test_hyps_TransactionWrites :
    (let s := ctxAt (ctx1 t3)
     s.strandMay 5 [1, 2, 3] false ∧ (s.ctx 5).strand.quiet = true ∧ s.txnOf 5 3 = none) ∧ isX f0.d = true ∧ isX f0.a = true ∧ isX f0.b = true ∧
    (fm 1).minor.toNat = 1 ∧ (fm 2).minor.toNat = 2 ∧
    ({ ctxAt (ctx1 t3) with txns := [(3, { txn0 with aborted := some 3 })] } : State).txnOf 5 3 = some { txn0 with aborted := some 3 } ∧
    (let s := { ctxAt (ctx1 t3) with txns := [(3, txn0)] }
     s.txnOf 5 3 = some txn0 ∧ xwriteAddr ((s.bound 5 0).getD 0) false 64 = none ∧ xwriteAddr ((s.bound 5 0).getD 0) false 0 = some 0 ∧
     xwriteAddr ((s.bound 5 0).getD 0) true 0 ≠ none ∧ s.conflicts 5 3 0 = false ∧ s.ownLineAt 3 0 = none) ∧
    (let s := { ctxAt (ctx1 t3) with txns := [(3, txn0)], txnBuf := [(0, { bln with state := .open 2 })] }
     s.conflicts 5 3 0 = true) ∧
    (let s := ({ ctxAt (ctx1 { t3 with state := .waiting (.xwrite 3 3 false 0 7) }) with
        txns := [(3, txn0)], txnBuf := [(0, bln)], xfers := [xfr (.line 5 7) false] } : State).readBack 5
     s.conflicts 5 3 0 = false ∧ s.ownLineAt 3 0 = some (0, bln) ∧ (s.ctx 5).strand.state = .waiting (.xwrite 3 3 false 0 7) ∧
     s.hasSlot (.line 5 7) = true ∧ s.txnOf 5 3 = some txn0 ∧
     xwriteAddr ((s.bound 5 0).getD 0) false 0 = some 0 ∧ bln.owned = true ∧ s.injSramArmed 2 none = none) := by
  simp only [State.strandMay]; decide +kernel

theorem test_hyps_CommitLines :
    (let s := { ctxAt (ctx1 t3) with txns := [(3, txn0)] }
     s.strandMay 5 [3] false ∧ isX f0.d = true ∧ (fm 3).minor.toNat = 3 ∧ s.txnOf 5 3 = some txn0 ∧ txn0.aborted = none) ∧
    (let s := ({ ctxAt (ctx1 { t3 with state := .waiting (.xcommit 3 3) }) with txns := [(3, txn0)] } : State).readBack 5
     (s.ctx 5).strand.state = .waiting (.xcommit 3 3) ∧ s.txnOf 5 3 = some txn0 ∧ s.epochHeld 5 = false ∧ (∀ e ∈ s.openLines 3, e.2.owned = true) ∧
     s.editedBoughs 3 = []) ∧
    (let s := ({ ctxAt (ctx1 { t3 with state := .waiting (.xcommit 3 3) }) with
        txns := [(3, txn0)], txnBuf := [(0, { bln with state := .committed, version := 0x80000002 })] } : State).readBack 5
     s.txnOf 5 3 = some txn0 ∧ s.epochHeld 5 = true) ∧
    (let s := ({ ctxAt (ctx1 { t3 with state := .waiting (.xcommit 3 3) }) with txns := [(3, txn0)], txnBuf := [(0, bln)] } : State).readBack 5
     s.epochHeld 5 = false ∧ (∀ e ∈ s.openLines 3, e.2.owned = true) ∧ s.editedBoughs 3 = [0] ∧ (s.newTrailerLine 3 5 0 scn [] 0 = none) ∧
     bln.state = .open 3 ∧ bln.trailer = false) := by
  simp only [State.strandMay]; decide +kernel
/-- A COMMITTED line of context 5, its memory line in the directory, and the context under ASID 9. -/
def wtAt (e : List DirEntry) : State :=
  { ctxAt (ctx1 t3) with txnBuf := [(0, { bln with state := .committed })], dir := e, xfers := [xfr (.through 0) false] }
/-- Line 0 of address space 9. -/
def l0 : RLine := { asid := 9, addr := 0 }
theorem test_hyps_CommitLines_through :
    (let l := { bln with state := .committed }
     let e : DirEntry := { addr := l0, state := .modified, user := .transaction, pinned := false, used := 0, data := 0, written := 0 }
     let s := wtAt [e]
     mget s.txnBuf 0 = some l ∧ s.wtDue l = true ∧ s.bufRLine l = l0 ∧ s.dirAt l0 = some e ∧ e.state ≠ .ownedShared ∧ s.mayWrite 0 = true ∧
     s.xferOf (.through 0) = some (xfr (.through 0) false) ∧
     ({ s with depart := List.replicate 512 dep } : State).mayWrite 0 = false ∧
     (let e := { e with state := .ownedShared }
      (wtAt [e]).dirAt l0 = some e ∧ e.state = .ownedShared ∧ (wtAt [e]).ringAsked l0 = false ∧
      ({ wtAt [e] with ringPend := [{ rng .coll true with addr := l0 }] } : State).ringAsked l0 = true) ∧
     (wtAt []).dirAt l0 = none ∧ (wtAt []).ringAsked l0 = false ∧ l.owned = true) ∧
    mget ([(0, { bln with state := .writing })] : FMap BufLine) 0 = some { bln with state := .writing } := by decide +kernel

theorem test_hyps_Ingest :
    State.reset.dev.stage ≠ .ready ∧ (ctxAt (ctx1 t0)).dev.stage = .ready ∧ (rdy.ctx 5).state ≠ .opened ∧ ((ctxAt (ctx1 t0)).ctx 5).state = .opened ∧
    (ctxAt (ctx1 t0)).winKind 5 15 = 0 ∧ (ctxAt (ctx1 t0)).winKind 5 0 = 1 ∧ (ctxAt (ctx1 t0)).winKind 5 1 = 2 ∧ (ctxAt (ctx1 t0)).stalls 5 = false ∧
    (let s := { ctxAt { ctx1 t0 with desc := setFld (setFld dsc 8 32 0) 80 32 0, wins := [(0, winOf (bytesOf rec0 64))], walks := [(0, none)] } with
                sched := Sched.reset }
     s.winKind 5 0 ≠ 0 ∧ s.stalls 5 = true) ∧
    (let x := { ctx1 t0 with wins := [(1, { Window.reset with cmdPend := [4] })] }
     ((ctxAt x).ctx 5).win 1 = { Window.reset with cmdPend := [4] } ∧ ((ctxAt x).ctx 5).win 0 = Window.reset) ∧
    ([1, 2, 3] : List Byte).length ≤ 65536 ∧ ([1, 2, 3] : List Byte)[2]? = some 3 ∧
    (∀ i, i < ([1, 2, 3] : List Byte).length → (65534 + i) % 65536 ≠ 1 % 65536) ∧ ([1, 2, 3] : List Byte) ≠ [] ∧ 65533 + 3 ≤ 65536 ∧
    (ctxAt (ctx1 t0)).ghosts = [] ∧ ({ rdy with ghosts := [(9, cmdGhost 5 1)] } : State).ghosts.any (fun g => g.2 == cmdGhost 5 1) = true := by decide +kernel

/-- Context 5 with a record at the head of window 0. -/
def admAt (x : Context) (r : Rec64) : State := ctxAt { x with wins := [(0, winOf (bytesOf r 64))] }

theorem test_hyps_Admission :
    (let s := admAt { ctx1 t0 with walks := [(0, none), (walkIndex rec0, none)] } rec0
     s.spawnReady = false ∧ s.sched.spawnLast = false ∧ s.ingestReady = true ∧
     (s.ctx 5).admits = true ∧ s.winKind 5 0 = 1 ∧ ((s.ctx 5).win 0).head = some (rec0, []) ∧ withDepth rec0 0 = rec0 ∧
     (match s.verdict 5 rec0 false [] with | .pass => true | _ => false) = true ∧ (s.admitPassed 5 0 rec0 false [] .frontEnd).isSome = true) ∧
    (let s := admAt { ctx1 t0 with desc := setFld (setFld dsc 8 32 0) 80 32 0, walks := [(walkIndex rec0, none)] } rec0
     (match s.verdict 5 rec0 false [] with | .pass => true | _ => false) = true ∧ (s.admitPassed 5 0 rec0 false [] .frontEnd).isNone = true) ∧
    (let s := admAt { ctx1 t0 with desc := setFld dsc 8 32 0, walks := [(walkIndex rec0, none)] } rec0
     s.mayTakeSlot 0 5 = false ∧ (s.admitPassed 5 0 rec0 false [] .frontEnd).isSome = true) ∧
    (let r := setFld rec0 0 8 0x01
     let s := admAt (ctx1 t0) r
     ((s.ctx 5).win 0).head = some (r, []) ∧ (match s.verdict 5 r false [] with | .refused _ => true | _ => false) = true) ∧
    (let r := setFld rec0 6 8 0
     let s := admAt (ctx1 t0) r
     ((s.ctx 5).win 0).head = some (r, []) ∧ (match s.verdict 5 r false [] with | .miss => true | _ => false) = true) ∧
    (let s := admAt { ctx1 t0 with scenes := [] } rec0
     (match s.verdict 5 rec0 false [] with | .needScene 0 => true | _ => false) = true ∧ (s.ctx 5).blocked = false) ∧
    ((ctxAt (ctx1 t0)).ctx 5).win 0 = Window.reset ∧ Window.reset.head = none ∧
    (let s := { ctxAt { ctx1 t0 with walks := [(walkIndex rec0, none)] } with spawnBufs := [(3, [{ ctx := 5, record := rec0 }])] }
     s.spawnReady = true ∧ s.ingestReady = false ∧
     (s.spawnOrder.findSome? s.admitSpawned).isSome = true ∧ mgetD s.spawnBufs 4 [] = [] ∧ mgetD s.spawnBufs 3 [] = [{ ctx := 5, record := rec0 }] ∧
     (match s.verdict 5 rec0 true [] with | .pass => true | _ => false) = true ∧
     (s.admitPassed 5 (s.classOf 5 rec0 0) rec0 true [] .frontEnd).isSome = true) := by decide +kernel

theorem test_hyps_FillsStart :
    (cohAt 0).settlePreloads = cohAt 0 ∧
    (let s := cohAt 0
     s.retryWaiting = none ∧ s.crownDue = none ∧ leastBy s.candKey s.candidates = some (.cohort coh0) ∧ s.candClass (.cohort coh0) ≠ 3 ∧
     s.chooseSlot = some 0 ∧ s.cohort coh = some coh0 ∧ s.fillable coh0 = true ∧ s.cohortClass coh0 < 3) ∧
    (let s := oneOctet (cohAt 0) { SlotRec.reset with testable := true }
     s.settlePreloads = s ∧ s.retryWaiting = none ∧ s.crownDue = none ∧ leastBy s.candKey s.candidates = some (.cohort coh0) ∧ s.candClass (.cohort coh0) ≠ 3 ∧
     s.chooseSlot = none ∧ s.victim false none = some 0) ∧
    (let s := oneOctet (cohAt 0) { SlotRec.reset with testable := false }
     s.settlePreloads = s ∧ s.retryWaiting = none ∧ s.crownDue = none ∧ leastBy s.candKey s.candidates = some (.cohort coh0) ∧ s.candClass (.cohort coh0) ≠ 3 ∧
     s.chooseSlot = none ∧ s.victim false none = none) ∧
    (let s := { cohAt 3 with fills := [{ fil .xferWait with id := { coh with bough := 9 } }], xfers := [{ xfr (.fill { coh with bough := 9 }) false with waiting := true }] }
     s.settlePreloads = s ∧ s.retryWaiting = none ∧ s.crownDue = none ∧ leastBy s.candKey s.candidates = some (.cohort coh0) ∧ s.candClass (.cohort coh0) = 3 ∧ s.fillWaits = true) ∧
    (let c := { coh0 with id := { coh with bough := 3 }, forced := false }
     let s := { ctxAt { ctx1 t0 with scenes := [(0, { desc := setFld scn 40 32 4, shard := none })] } with
                cohorts := [c], pool := [(0, { parked with cohort := c.id })], sched := { Sched.reset with params := Sched.reset.params.set 10 1 } }
     s.settlePreloads = s ∧ s.retryWaiting = none ∧ s.crownDue = none ∧ leastBy s.candKey s.candidates = none ∧ s.fillWaits = false ∧
     s.idleChoice = some c ∧ ({ s with cohorts := [] } : State).idleChoice = none) ∧
    (fil (.victim 0 false)).preload = none ∧
    (let s := { cohAt 0 with fills := [fil (.victim 0 false)] }
     s.fillOf coh = some (fil (.victim 0 false)) ∧ (s.tryFill (fil (.victim 0 false)) true).2 = true) ∧
    (let s := { oneOctet (cohAt 0) SlotRec.reset with fills := [fil (.victim 0 false)] }
     s.fillOf coh = some (fil (.victim 0 false)) ∧ s.chooseSlot = none ∧ s.victim true ((fil (.victim 0 false)).preload.map (fun _ => s.sched.fillT)) = none) ∧
    ({ ctxAt { open0 with cdMode := .deadline, cdVal := 1 } with cohorts := [] } : State).urgentNow 5 = true := by decide +kernel

/-- The trailer line of bough 0 with one node line of zeros. -/
def trl : Line := mkRec 1024 [(0, 32, 1813598793), (4, 8, 1), (5, 8, 1), (6, 8, 1)]
theorem bough_crc : boughCheckOk scn 0 [0] (trailerOf trl 0) = true := by
  have e : ([0] : List Line).flatMap (fun l => bytesOf l 128) = List.replicate (96 + 32) 0 := by decide +kernel
  unfold boughCheckOk
  rw [e, crc_more _ 1970194773 96 (by decide +kernel), crc_more 1970194773 4231468184 64 (by decide +kernel),
    crc_more 4231468184 2920151892 32 (by decide +kernel)]
  decide +kernel

theorem test_hyps_FillLines :
    (let s := { cohAt 0 with fills := [fil .trailer] }
     s.fillOf coh = some (fil .trailer) ∧ s.bound coh.ctx coh.scene = some scn ∧ (fil .trailer).complete = false) ∧
    (let f := { fil .lines with count := some 64 }
     ({ cohAt 0 with fills := [f] } : State).fillOf coh = some f ∧ f.stage = .lines ∧ mget f.got 64 = none ∧ 63 < f.count.getD 0) ∧
    (let f := { fil .lines with count := some 1, got := [(0, 0), (64, trl)] }
     let s := { cohAt 0 with fills := [f] }
     s.fillOf coh = some f ∧ f.complete = true ∧ f.lines = [0] ∧ mgetD f.got 64 0 = trl ∧ f.forcedBad = false ∧ f.attempt = 0 ∧ sKeyed scn = false ∧
     boughCheckOk scn 0 f.lines (trailerOf 0 0) = false) ∧
    (let id : CohortId := { coh with bough := 1 }
     let d := setFld scn 40 32 2
     let f := { fil .lines with id := id, count := some 1, got := [(0, 0), (64, 0)] }
     let s := { ctxAt { open0 with scenes := [(0, { desc := d, shard := none })] } with cohorts := [{ coh0 with id := id, clines := 1 }], fills := [f] }
     s.fillOf id = some f ∧ s.bound 5 0 = some d ∧ f.complete = true ∧ boughCheckOk d 1 f.lines (trailerOf 0 1) = false ∧
     trailerFirst d id (((s.cohort id).map (·.clines)).getD 0) = false) ∧
    (let d := setFld scn 2 8 9
     let f := { fil .lines with count := some 1, got := [(0, 0), (64, 0)], attempt := 1 }
     f.complete = true ∧ boughCheckOk d 0 f.lines (trailerOf (mgetD f.got 64 0) 0) = false ∧ f.attempt = 1 ∧ sDrop d = true ∧
     ({ ctxAt { open0 with scenes := [(0, { desc := d, shard := none })] } with fills := [f] } : State).bound 5 0 = some d) ∧
    (let k : KeySlot := { k1 := 1, k2 := 2, salt := 3 }
     let s := { ctxAt { open0 with desc := setFld dsc 3 8 8 } with fills := [fil .decrypt], keys := [(0, k)] }
     s.fillOf coh = some (fil .decrypt) ∧ s.keyOf 5 = some k) ∧
    boughCheckOk scn 0 [0] (trailerOf trl 0) = true :=
  ⟨by decide +kernel, by decide +kernel, by decide +kernel, by decide +kernel, by decide +kernel, by decide +kernel, bough_crc⟩

theorem test_hyps_BoughSlots :
    (let h : HEntry CohortId := { cls := 0, esc := false, item := coh }
     let s := { cohAt 0 with fills := [fil .handle], hq := [(0, [h])], slots := [(0, { SlotRec.reset with next := some coh })] }
     mgetD s.hq 0 [] = [h] ∧ s.fillOf coh = some (fil .handle) ∧ s.bound 5 0 = some scn ∧
     (fil .handle).targets.find? (fun t => groveOfSlot t == 0 && !(fil .handle).placed.contains t) = some 0 ∧ (s.slot 0).occ = none) ∧
    (({ rdy with slots := [(0, { SlotRec.reset with occ := some coh })] } : State).slot 0).occ ≠ none ∧
    (let r := { SlotRec.reset with occ := some coh }
     (({ rdy with slots := [(slotKey 191 63, r)] } : State).slot (slotKey 191 63)).occ ≠ none ∧ r.testable = false ∧ r.leaving = false) ∧
    (let s := { rdy with slots := [(0, { SlotRec.reset with occ := some coh, lines := [0] })] }
     (s.readLines 0 (fun _ => none) [0]) = (s, false) ∧ (s.readLines 0 (fun _ => some .correctable) [0]).2 = false ∧
     (s.readLines 0 (fun _ => some .uncorrectable) [0]).2 = true) ∧
    (let r := { SlotRec.reset with occ := some coh, leaving := true, testable := true }
     (({ rdy with slots := [(0, r)] } : State).slot 0).leaving = true ∧ ({ rdy with slots := [(0, r)] } : State).slotBusy 0 = false ∧
     ({ sheafAt shf with slots := [(0, r)] } : State).slotBusy 0 = true) := by decide +kernel

/-- The cohort resident and testable in slot 0. -/
def resAt : State := { cohAt 0 with slots := [(0, { SlotRec.reset with occ := some coh, lines := [1], testable := true })] }

theorem test_hyps_SheafRelease :
    (resAt.cohort coh = some coh0 ∧ (∀ p, resAt.spineMark p = none)) ∧
    (resAt.nextSheaf coh0 0 = some [(0, parked)] ∧ groupClass [(0, parked)] = 0 ∧ resAt.chooseCore 0 = some 0 ∧ (resAt.freeSheafSlots 0).head? = some 0 ∧
     resAt.fullWaits 0 0 = false ∧ resAt.releaseOf coh0 0 = some ([(0, parked)], 0) ∧ (cohAt 0).releaseOf coh0 0 = none) ∧
    (let s := { resAt with pool := [(0, { parked with cls := 2 }), (1, { parked with cohort := { coh with bough := 1 } })],
                           cohorts := [coh0, { coh0 with id := { coh with bough := 1 }, members := [1] }],
                           slots := [(0, { SlotRec.reset with occ := some coh, lines := [1], testable := true }),
                                     (1, { SlotRec.reset with occ := some { coh with bough := 1 }, lines := [1], testable := true })] }
     s.nextSheaf coh0 0 = some [(0, { parked with cls := 2 })] ∧ groupClass [(0, { parked with cls := 2 })] = 2 ∧ s.displayWaits 0 = true ∧ s.chooseCore 0 = some 0) := by
  refine ⟨⟨by decide +kernel, fun p => ?_⟩, by decide +kernel, by decide +kernel⟩
  unfold State.spineMark; rfl

theorem test_hyps_IntervalEnd :
    ({ rdy with sched := { Sched.reset with tInit := true } } : State).sched.tInit = true ∧ rdy.sched.tInit = false ∧ rdy.param 9 = 1 ∧
    6291456 < ({ rdy with sched := { Sched.reset with ivFillLines := 1572865 } } : State).sched.ivFillLines * 4 ∧
    ({ rdy with sched := { Sched.reset with params := Sched.reset.params.set 9 0 } } : State).param 9 ≠ 1 := by decide +kernel

theorem test_hyps_Overflow :
    rdy.sched.squall = false ∧
    (let s := { cohAt 0 with sched := { Sched.reset with squall := true } }
     s.sched.squall = true ∧ s.spillChoice = some (coh0, 0)) ∧
    (let s := ovfAt false
     let u := { s with xfers := [xfr (.run 5 4) false] }
     (s.ctx 5).ovf.runs.find? (fun y => y.rseq == 4) = some (run0 false) ∧ u.hasSlot (.run 5 4) = true ∧ (s.ctx 5).cut = none ∧
     mget (s.ctx 5).ovf.fresh 0 = none) ∧
    (let x := { ctx1 t0 with ovf := { Ovf.reset with fresh := [(3, { since := 0, recs := [ofr] })] } }
     mget ((ctxAt x).ctx 5).ovf.fresh 3 = some { since := 0, recs := [ofr] }) ∧
    (let s := ovfAt true
     let u := (s.exposeHead 5).requestOnce (.run 5 4) 5 0
     s.cutReads = false ∧ s.reloadChoice = some (5, run0 true) ∧ u.hasSlot (.run 5 4) = true ∧ (run0 true).rereads = 0 ∧ s.unreadOf 5 (run0 true) = none ∧
     runLost .intact .intact = none ∧ runLost (.damaged 0) (.damaged 65535) = some 65535 ∧
     (State.reloadAll 5 (run0 true) (run0 true).recs ((u.readRun 5 (run0 true) .intact).dropRun 5 4)).isSome = true ∧
     (let v := { s with xfers := [{ xfr (.run 5 4) false with waiting := true }] }
      ((v.exposeHead 5).requestOnce (.run 5 4) 5 0).hasSlot (.run 5 4) = false)) ∧
    (let o := { Ovf.reset with tail := 4095 }
     o.tail < 4096 ∧ runLines [ofr] ≤ 4096 ∧ 4096 < o.tail + runLines [ofr] ∧ Ovf.reset.tail + runLines [ofr] ≤ 4096) := by decide +kernel

theorem test_hyps_CollectorHeads :
    (let s := { delivAt (dlv dRec) with schedQ := [chn false] }
     s.collRead none (s.allHeads.head?.map (fun x => .item x.1 x.2.1)) = s ∧ s.allHeads = [] ++ (1, 0, chn false) :: [] ∧ (s.accept (chn false)).2 = true) ∧
    rdy.allHeads = [] ∧
    (mget ((delivAt (dlv dRec)).ctx 5).delivs 0 = some (dlv dRec) ∧ (dlv dRec).raw = some dRec ∧ (dlv dRec).valid = true ∧
     (delivAt (dlv dRec)).heldBack (chn false) = false ∧ deMode dRec = 1 ∧ deTarget dRec = 0 ∧
     (let ws := pieces 128 8192 (recBytes [7])
      let ls := (ws.filter (fun w => w.2.length == 128 || !decide (deSlotLog dRec < 2))).map (·.1)
      (delivAt (dlv dRec)).portsRoom 0 ls = true ∧
      (delivAt (dlv dRec)).portsRoom 0 (ws.map (·.1)) = true ∧ ({ delivAt (dlv dRec) with ports := fullPorts } : State).portsRoom 0 (ws.map (·.1)) = false) ∧
     decide ((delivAt (dlv dRec)).binUsed + 32 * min 1 (2 ^ deSlotLog dRec) ≤ 65536 * (delivAt (dlv dRec)).shareBin) = true ∧
     decide ((delivAt (dlv dRec)).binUsed + 32 * min 1 (2 ^ deSlotLog dRec) ≤ 65536 * ({ delivAt (dlv dRec) with shareBin := 0 } : State).shareBin) = false) ∧
    (let em : CItem := .emits 5 0 0 [(0, 0, 0, 7)] [9]
     let i : CItem := .chain 5 0 (some 9) 0 1 [7] false true 3 0 0 false false
     ({ delivAt (dlv dRec) with walkQ := [(0, [{ cls := 0, esc := false, item := em }])] } : State).heldBack i = true) ∧
    (mget ((delivAt { dlv dRec with valid := false }).ctx 5).delivs 0 = some { dlv dRec with valid := false }) := by decide +kernel

/-- A tile of one entry. -/
def til : Tile := { entries := [{ tag := 0, user0 := 0, rows := [], cls := 0, late := false, suspect := false }], since := 0, partialFlush := false, tseq := 0, ueMask := 0 }
/-- Entry 0 with one key. -/
def keyAt (k : BinKey) : State := delivAt { dlv dBin with keys := [(2, k)] }

/-- A chain of one record that waits for the exception ring. -/
def exw : ExcWait := { n := 4, cls := 0, rest := [7] }
theorem test_hyps_CollectorEnds :
    (let s := (delivAt { dlv dRec with excN := 16, excWait := [exw] }).readBack 5
     (s.deliv 5 0).raw = some dRec ∧ (s.deliv 5 0).excWait = exw :: [] ∧ exw.rest = 7 :: [] ∧ (s.deliv 5 0).excRoom dRec = false ∧
     ((s.modDeliv 5 0 (fun x => { x with excConsumed := 16 })).deliv 5 0).excRoom dRec = true ∧
     ((s.modDeliv 5 0 (fun x => { x with excConsumed := 0 })).deliv 5 0).excRoom dRec = false ∧
     ((s.addCompletion 5 0 1 (.counter (deExcCnt dRec) 0 (deChip dRec))).2.deliv 5 0).excWait ≠ []) ∧
    (((delivAt (dlv dRec)).readBack 5).deliv 5 0).excWait = [] ∧
    (let s := (delivAt Deliv.reset).readBack 5
     mget (s.ctx 5).delivs 0 = some Deliv.reset ∧ Deliv.reset.raw = none) ∧
    (let s := (keyAt { BinKey.reset with waiting := [til] }).readBack 5
     (s.deliv 5 0).raw = some dBin ∧ (s.binKey 5 0 2).keyEntry = none ∧ (s.binKey 5 0 2).waiting ≠ []) ∧
    (let s := keyAt { BinKey.reset with openTile := some til, keyEntry := some 1 }
     (s.deliv 5 0).raw = some dBin ∧ deAge dBin ≠ 0 ∧ (s.binKey 5 0 2).openTile ≠ none ∧
     s.collRead none (some (.tile 5 0 2 (s.binKey 5 0 2).waiting.length)) = s ∧ (s.binKey 5 0 2).openTile = some til ∧ (s.binKey 5 0 2).keyEntry ≠ none) ∧
    deAge dRec = 0 ∧
    (let s := (keyAt { BinKey.reset with keyEntry := some 1, full := true, waiting := [til] }).readBack 5
     (s.deliv 5 0).raw = some dBin ∧ (s.binKey 5 0 2).keyEntry = some 1 ∧ (s.binKey 5 0 2).full = true) ∧
    (let s := (keyAt { BinKey.reset with keyEntry := some 1 }).readBack 5
     (s.binKey 5 0 2).keyEntry = some 1 ∧ (s.binKey 5 0 2).full = false) ∧
    ((delivAt { dlv dRec with window := none }).deliv 5 0).window = none ∧
    (let s := delivAt { dlv dRec with window := some { since := 0, ups := [] } }
     (s.deliv 5 0).raw = some dRec ∧ (s.deliv 5 0).window ≠ none ∧ s.collRead none (some (.update 5 0 0)) = s ∧
     (s.deliv 5 0).window = some { since := 0, ups := [] }) := by decide +kernel

theorem test_hyps_WriteAcknowledgements :
    (∀ x ∈ [cpl 2 .nothing, cpl 1 .nothing, cpl 1 .store, cpl 0 .nothing, cpl 1 (.counter 0 3 false), cpl 0 (.counter 64 1 true), cpl 1 (.element 3 0 5)],
      ({ ctxAt open0 with completions := [x] } : State).completions.find? (fun y => y.n == 4) = some x ∧ (1 < x.left ∨ x.left ≤ 1)) ∧
    rdy.completions.any (fun y => y.n == 4) = false ∧ (cpl 1 (.element 3 0 5)).fin = .element 3 0 5 ∧
    (∀ k j p, (cpl 1 .store).fin ≠ .element k j p) ∧ ((ctxAt open0).completed (cpl 1 .store)).msgs = [] ∧
    (let s := (ctxAt open0).completed (cpl 1 (.counter 64 1 true))
     let same : HEntry PortItem → Bool := fun e => (match e.item with
       | .atomic asid b .add 1 _ _ (some c) t => asid == s.asid 5 && b == 64 && c == true && t == s.now
       | _ => false)
     (mgetD s.ports (s.deliveryPort 64) []).any same = true ∧ (mgetD rdy.ports (rdy.deliveryPort 64) []).any same = false) := by
  refine ⟨by decide +kernel, by decide +kernel, rfl, ?_, by decide +kernel, by decide +kernel⟩
  intro k j p h; exact nomatch h

/-- A transaction buffer line of memory line 256. -/
def b256 : BufLine := { bln with addr := 256 }
theorem test_hyps_Coherence :
    (∀ e ∈ [dln .departing false, dln .transaction false, dln .transaction true, dln .collector false],
      let s := { ctxAt (ctx1 t0) with dir := [e] }
      s.depart.find? (fun d => d.addr == l256) = none ∧ s.unsettled l256 = false ∧ s.dirAt l256 = some e ∧ (∀ w ∈ s.ownWrites, w.addr ≠ l256)) ∧
    lineOf 300 = 256 ∧ (ctxAt (ctx1 t0)).dirAt l256 = none ∧ (ctxAt (ctx1 t0)).unsettled l256 = false ∧
    ({ ctxAt (ctx1 t0) with ringPend := [rng .coll true], dir := [{ dln .collector false with state := .ownedShared }] } : State).unsettled l256 = true ∧
    (let s := { ctxAt (ctx1 t0) with dir := [dln .transaction true], txns := [(3, txn0)], txnBuf := [(0, b256)] }
     let gone : State := ({ s with dir := s.dir.filter (fun x => x.addr != l256) } : State).count 39 1
     s.dirAt l256 = some (dln .transaction true) ∧ s.openOwner l256 = some 3 ∧ (∀ w ∈ (gone.abortTxn 3 3).ownWrites, w.addr ≠ l256)) ∧
    (let s := { rdy with depart := [dep] }
     s.depart.find? (fun d => d.addr == l256) = some dep ∧ s.depart.any (fun d => d.addr == l256) = true ∧
     rdy.depart.any (fun d => d.addr == l256) = false) ∧
    rdy.ringPend.find? (fun r => r.addr == l256 && !r.waiting) = none ∧
    (∀ r ∈ [rng .coll false, rng (.txn 0) false],
      let s := { ctxAt (ctx1 t0) with ringPend := [r], txnBuf := [(0, { b256 with owned := false })] }
      s.ringPend.find? (fun r => r.addr == l256 && !r.waiting) = some r ∧ s.dirAt r.addr = none ∧
      mget s.txnBuf 0 = some { b256 with owned := false } ∧ s.bufRLine { b256 with owned := false } = r.addr) ∧
    (let l := { b256 with owned := false, state := .committed }
     let s := { ctxAt (ctx1 t0) with ringPend := [rng (.writeThrough 0) false], txnBuf := [(0, l)] }
     s.ringPend.find? (fun r => r.addr == l256 && !r.waiting) = some (rng (.writeThrough 0) false) ∧ s.dirAt l256 = none ∧
     mget s.txnBuf 0 = some l ∧ s.bufRLine l = l256 ∧ l.state = .committed) ∧
    (let s := { rdy with ringPend := [rng .coll true], dir := [{ dln .collector false with state := .ownedShared }] }
     s.ringPend.find? (fun r => r.addr == l256 && !r.waiting) = some (rng .coll true) ∧ (rng .coll true).upgrade = true) := by decide +kernel
theorem test_hyps_calm : ({ rdy with dev := { rdy.dev with pwrState := 0 } } : State).calm := by simp only [State.calm]; decide +kernel

/-- What OPEN reads of a context without an image: its descriptor alone is refused with code 7. -/
def opn : OpenRead := { desc := none, header := none, code := none }
/-- A descriptor that passes every check, an image of one word, and its code. -/
def dscOk : Unit256 := mkRec 2048 [(0, 8, 1), (1, 8, 1), (2, 8, 1), (6, 16, 1), (8, 32, 64), (12, 32, 4), (26, 16, 4), (30, 16, 8), (56, 64, 4096), (80, 32, 4096)]
def imgOk : Rec64 := mkRec 512 [(0, 8, 1), (1, 8, 1), (4, 32, 1), (16, 32, 1214729159)]
def opnOk : OpenRead := { desc := some dscOk, header := some imgOk, code := some [0] }

theorem test_hyps_ContextOpen :
    rdy.dev.stage = .ready ∧ (rdy.ctx 5).state = .closed ∧ rdy.openBarred = false ∧ ((ctxAt open0).ctx 5).state ≠ .closed ∧
    ({ rdy with dev := { rdy.dev with stage := .bringup } } : State).dev.stage = .bringup ∧
    (let s := ctxAt { Context.reset with state := .opening }
     (s.ctx 5).state = .opening ∧ s.openCodeOf 5 opn ≠ 0 ∧ s.openCodeOf 5 opnOk = 0 ∧ opnOk.desc = some dscOk ∧ opnOk.header = some imgOk ∧
     (s.ctx 5).killAsids.contains (dAsid dscOk) = false ∧ (s.ctx 5).pendKill = false ∧
     (s.ctx 5).pendClose = false ∧ s.dev.unlock ≠ .killing) := by decide +kernel

theorem test_hyps_ContextEnd :
    (∀ x ∈ [CtxState.opened, .opening, .closed, .killing, .closing], ((ctxAt { open0 with state := x }).ctx 5).state = x ∧
      (ctxAt { open0 with state := x }).dev.stage = .ready) ∧
    (let s := ctxAt { open0 with state := .killing }
     (∀ e ∈ s.pool, e.2.ctx ≠ 5) ∧ (∀ e ∈ s.sheaves, e.2.cohort.ctx ≠ 5) ∧ (∀ x ∈ s.xfers, x.ctx ≠ 5) ∧ (∀ e ∈ s.txnBuf, e.2.ctx ≠ 5)) ∧
    (let s := ctxAt { open0 with state := .closing }
     s.hasQueries 5 = false ∧ s.itemsWait 5 = false ∧ (s.closeFlush 5).collectorIdle 5 = true ∧
     ((s.closeFlush 5).endDeliveries 5).streamsOf 5 = [] ∧ ((s.closeFlush 5).endDeliveries 5).collectorIdle 5 = true ∧
     (∀ e ∈ ((s.closeFlush 5).endDeliveries 5).txnBuf, e.2.ctx ≠ 5)) ∧
    (let s := { ctxAt { open0 with state := .closing } with completions := [cpl 1 (.counter 0 3 false)] }
     (s.ctx 5).state = .closing ∧ s.hasQueries 5 = false ∧ s.itemsWait 5 = false ∧ (s.closeFlush 5).collectorIdle 5 = false) := by decide +kernel

/-- A strand that waits in WAITC.T. -/
def wct : Strand := { t0 with state := .waiting (.waitc 3 0 9 true) }
theorem test_hyps_Countdowns :
    (∀ m ∈ [CdMode.deadline, .idle], ((ctxAt { open0 with cdMode := m }).ctx 5).cdMode = m ∧ m ≠ .timer) ∧
    ((ctxAt { open0 with cdMode := .deadline }).ctx 5).cdVal = 0 ∧ ((ctxAt { open0 with cdMode := .deadline, cdVal := 3 }).ctx 5).cdVal ≠ 0 ∧
    (let s := ctxAt { open0 with cdMode := .timer, cdVal := 0, strand := wct }
     (s.ctx 5).cdMode = .timer ∧ (s.ctx 5).cdVal = 0 ∧ (s.ctx 5).strand.state = .waiting (.waitc 3 0 9 true) ∧ (s.ctx 5).state = .opened ∧ s.dev.stage = .ready) ∧
    (rdy.ctx 5).state ≠ .opened := by decide +kernel

theorem test_hyps_TablesAndTranslation :
    (∀ x ∈ [CtxState.opened, .opening], ((ctxAt { open0 with state := x }).ctx 5).state = x) ∧
    (ctxAt { open0 with desc := dsc }).accessesOpen 9 = false ∧
    ({ ctxAt { open0 with desc := dsc } with completions := [cpl 1 .nothing] } : State).accessesOpen 9 = true ∧
    (let s := (ctxAt { open0 with desc := dsc }).readBack 5
     (s.ctx 5).state = .opened ∧ mget (s.ctx 5).scenes 0 = none ∧ 0 < dScenes (s.ctx 5).desc ∧
     mget (((ctxAt (ctx1 t0)).readBack 5).ctx 5).scenes 0 = some { desc := scn, shard := none }) ∧
    (let s := (ctxAt open0).readBack 5
     entryImage 0 0 = none ∧ mget ((s.readEntryImage 5 0 0 none).ctx 5).walks 0 = none ∧ mget (s.ctx 5).walks 0 = none ∧
     (((ctxAt { open0 with strand := { t0 with state := .waiting (.launch 3 0) } }).readBack 5).ctx 5).strand.state = .waiting (.launch 3 0) ∧
     entryImage 0 (mkRec 256 [(0, 8, 1), (8, 64, 4096)]) ≠ none) ∧
    ((ctxAt (ctx1 t0)).ctx 5).cutRun = none ∧
    (let s := { ctxAt { ctx1 t0 with cut := some 1, ovf := { Ovf.reset with runs := [run0 true], tail := runLines [ofr], nextRseq := 5, count := 1 } } with
        xfers := [xfr (.run 5 4) false] }
     (s.ctx 5).cutRun = some (run0 true) ∧ (run0 true).rseq = 4 ∧ s.hasSlot (.run 5 4) = true ∧ (run0 true).rereads = 0 ∧
     ({ s with xfers := [] } : State).hasSlot (.run 5 4) = false) ∧
    runLost .intact .intact = none ∧ runLost (.damaged 1) (.damaged 3) = some 3 := by decide +kernel
theorem test_hyps_launch : ∀ rd, ((ctxAt (ctx1 t0)).ctx 5).strand.state ≠ .waiting (.launch rd 0) := by
  intro rd h; revert h; show StrandState.ready ≠ _; exact fun h => nomatch h

theorem test_hyps_NvmWindow :
    (∀ p ∈ [0, 8, 4095, 62 * 4096, 63 * 4096 + 4088, 30 * 4096, 61 * 4096 + 4088],
      (nvmAt p true none).staged? (p / 4096) = true ∧ (nvmAt p true none).dev.nvmPtr = p ∧ (nvmAt p true none).dev.nvmBusy.any (fun st => st.sector == p / 4096) = false) ∧
    (nvmAt (30 * 4096) true (some (sto .chain))).dev.nvmBusy.any (fun st => st.sector == 30) = true ∧
    (nvmAt (30 * 4096) false none).staged? 30 = false ∧ (nvmAt 0 false none).dev.stageLoaded = false ∧
    ({ rdy with dev := { rdy.dev with stage := .bringup } } : State).dev.stage = .bringup ∧ Memory.wf [] = true ∧ Memory.wf rdy.staged = true := by decide +kernel
theorem test_hyps_nvm : Memory.wf rdy.nvm = true := by decide +kernel

theorem test_hyps_NvmStores : ∀ n ∈ [64, 0, 62, 63, 1, 61],
    (({ t0 with x := [0, BitVec.ofNat 64 n, 7] ++ List.replicate 29 0 } : Strand).reg 1).toNat = n := by decide +kernel
theorem test_hyps_nvstore_idle : (strandAt t0).nvmWorking = false ∧ ((strandAt t0).ctx 5).strand.quiet = true := by decide +kernel
theorem test_hyps_nvstore_enabled :
    dNvmStore ((ctxAt { open0 with desc := setFld 0 3 8 16 }).ctx 5).desc = true ∧ dNvmStore ((ctxAt open0).ctx 5).desc = false := by decide +kernel
theorem test_hyps_nvm_working :
    ({ strandAt t0 with dev := { rdy.dev with nvmBusy := some (sto .chain) } } : State).nvmWorking = true ∧ isX 3 = true ∧ isX 1 = true := by decide +kernel
theorem test_hyps_nvm_done :
    (let s := { strandAt { t0 with state := .waiting (.nvstore 3 30) } with dev := { rdy.dev with nvmBusy := some (sto (.strand 5)) } }
     s.dev.nvmBusy = some (sto (.strand 5)) ∧ (sto (.strand 5)).started = true ∧ (s.ctx 5).strand.state = .waiting (.nvstore 3 30)) ∧
    16 ≤ (List.replicate 16 (0 : Byte)).length := by decide +kernel
theorem test_hyps_nvstore : (strandAt t0).strandMay 5 [1, 3] false := by simp only [State.strandMay]; decide +kernel

/-- Context 5 with a scene that is SHARDED, and the walk that the record names. -/
def shardAt : State :=
  inst (ctxAt { ctx1 t0 with
    scenes := [(0, { desc := setFld scn 2 8 16 ||| scn, shard := some { desc := mkRec 512 [(0, 8, 1), (4, 32, 1)], entries := [7] } })]
    walks := [(0, some (stockBinding 1 0))] })

theorem test_hyps_Packets_heard :
    rdy.takesPackets = false ∧ (inst rdy).takesPackets = true ∧
    (∀ t ∈ [4, 5, 6, 7, 8], (inst rdy).packetBad (hdr t 2 []) t 1 = true ∧ (inst rdy).packetBad (hdr t 1 []) t 1 = false) ∧
    mget ({ rdy with watch := [(7, 9)] } : State).watch 7 = some 9 ∧ mget rdy.watch 7 = none ∧
    (∀ n ∈ [262143, 262144], let u : State := { rdy with beats := [(7, n)], pool := [(0, { qry with origin := some { inst := 7, token := 0, hops := 0 } })] }
     u.holdsFor 7 = true ∧ mgetD u.beats 7 0 = n) ∧ rdy.holdsFor 7 = false ∧
    (∀ n ∈ [1048575, 1048576], mgetD ({ rdy with watch := [(7, n)] } : State).watch 7 0 = n) ∧
    (inst rdy).packetBad (hdr 1 3 []) 1 (3 + 4 * (qim.data.length + collUnitCount qim.record)) = false ∧
    pArg1 (hdr 1 3 []) % 256 = qim.data.length ∧ pArg1 (hdr 1 3 []) / 256 % 256 = collUnitCount qim.record ∧
    ((inst rdy).ctx 5).state ≠ .opened := by decide +kernel
theorem test_hyps_Packets_query :
    let u := shardAt
    (u.ctx 5).state = .opened ∧ u.sceneUnread 5 0 = false ∧ (u.bound 5 0).map sSharded = some true ∧
    mget (u.ctx 5).walks (walkIndex qim.record) = some (some (stockBinding 1 0)) ∧ (stockBinding 1 0).stock = qMode qim.record ∧
    u.mayTakeSlot qim.cls 5 = true ∧ mfree u.pool 524288 = some 0 ∧ allocUnits u.ext qim.data (collUnitCount qim.record) = some ([], [], []) ∧
    (inst (ctxAt (ctx1 t0))).sceneUnread 5 0 = false ∧ ((inst (ctxAt (ctx1 t0))).bound 5 0).map sSharded ≠ some true := by decide +kernel
theorem test_hyps_Packets_ident : let h := setFld (hdr 1 3 []) 4 32 identWord.toNat
    pIdent h = identWord ∧ pType h = 1 ∧ pVer h = 1 ∧ pFlits h = 3 ∧ pDst h = 3 ∧ pCtx h = 5 ∧ pScene h = 0 ∧ pArg0 h = 0 ∧ pArg1 h = 0 := by
  have ne : ∀ o w, 8 * o + w ≤ 512 → (o * 8 + w ≤ 32 ∨ 64 ≤ o * 8) →
      fld (setFld (hdr 1 3 []) 4 32 identWord.toNat) o w = fld (hdr 1 3 []) o w :=
    fun o w h1 h2 => fld_setFld_ne _ 4 32 _ o w (by omega) (by omega)
  refine ⟨BitVec.eq_of_toNat_eq ((fld_setFld (hdr 1 3 []) 4 32 identWord.toNat (by decide)).trans (Nat.mod_eq_of_lt identWord.isLt)), ?_⟩
  refine ⟨(ne 0 8 (by decide) (by decide)).trans ?_, (ne 1 8 (by decide) (by decide)).trans ?_, (ne 2 8 (by decide) (by decide)).trans ?_,
    (ne 12 17 (by decide) (by decide)).trans ?_, (ne 20 16 (by decide) (by decide)).trans ?_, (ne 22 16 (by decide) (by decide)).trans ?_,
    (ne 32 32 (by decide) (by decide)).trans ?_, (ne 36 32 (by decide) (by decide)).trans ?_⟩ <;> decide +kernel

/-- A query of this instance that instance 7 works on; GEN 1 in its token. -/
def fwq : Query := { rayq with place := .forwarded 7, gen := 1 }
/-- The origin of that query, with a chain that lacks its emissions or has all. -/
def origAt (rx : FwdRx) : State := inst { ctxAt (ctx1 t0) with pool := [(0, { fwq with fwd := rx })], watch := [(7, 4)] }
/-- A header that names it. -/
def hdq (t n : Nat) (more : List (Nat × Nat × Nat)) : Rec64 := hdr t n ([(24, 64, 2 ^ 19)] ++ more)
/-- A result record whose chain has one record. -/
def res1 : Rec32 := mkRec 256 [(8, 16, 1)]
theorem test_hyps_Packets_origin :
    let none0 : FwdRx := { recs := [], emits := 0, expect := none }
    (inst rdy).forwarded (hdq 4 1 []) = none ∧ (origAt none0).forwarded (hdq 4 1 []) = some (0, { fwq with fwd := none0 }) ∧
    (origAt none0).packetBad (hdq 2 2 []) 2 (recFlits [res1].length) = false ∧
    (origAt none0).packetBad (hdq 3 2 [(32, 32, 1)]) 3 (recFlits [res1].length) = false ∧ [res1].length = pArg0 (hdq 3 2 [(32, 32, 1)]) ∧
    ({ recs := mset [] 0 res1, emits := 0, expect := some 0 } : FwdRx).chain = some [res1] ∧
    ({ recs := mset [] 0 res1, emits := 0, expect := some 2 } : FwdRx).chain = none ∧
    ({ none0 with emits := none0.emits + 1 } : FwdRx).chain = none ∧
    (∀ k ∈ [1, 2, 3, 4], (origAt none0).packetBad (hdq 5 1 [(32, 32, k)]) 5 1 = false ∧ pArg0 (hdq 5 1 [(32, 32, k)]) = k) ∧
    (origAt none0).packetBad (hdq 4 1 [(32, 32, 9)]) 4 1 = false ∧ mget (origAt none0).watch 9 = none ∧ mget (origAt none0).watch 7 = some 4 ∧
    (let full : State := { rdy with lost := (List.range 1024).map (fun i => (i, { inst := 7, ctx := some i })) }
     full.lost.any (fun e => e.2 == { inst := 8, ctx := none }) = false ∧ mfree full.lost 1024 = none ∧
     full.lost.any (fun e => e.2 == { inst := 7, ctx := some 5 }) = true ∧ mfree rdy.lost 1024 = some 0) := by decide +kernel

/-- Context 5 in a barrier of pass 0, on an instance of a tree. -/
def barAt (id n : Nat) (b : Barrier) (recv : FMap DWord) : State :=
  { rdy with
    dev := { rdy.dev with addressed := true, instId := id, pwrState := 1, barN := n, barTimeout := 9 }
    ctxs := [(5, { open0 with strand := { t0 with state := .waiting (.barrier 3 0) }, barrier := some b, recv := recv })] }
theorem test_hyps_PassBarrier :
    let b : Barrier := { pass := 0, sent := false, lost := false }
    (rdy.ctx 5).barrier = none ∧
    (∀ i ∈ [0, 1], let s := barAt i 2 b [(14, 64)]
      (s.ctx 5).barrier = some b ∧ s.noneForwarded 5 = true ∧ s.lost = [] ∧ (∀ a ∈ (s.ctx 5).arrivals, a.2.2 = false) ∧ s.dev.instId = i ∧
      reached (mgetD (s.ctx 5).recv 14 0) (BitVec.ofNat 64 (64 * s.children.length * (b.pass + 1))) = true ∧
      reached (mgetD (s.ctx 5).recv 15 0) (BitVec.ofNat 64 (64 * (b.pass + 1))) = false) ∧
    (barAt 0 2 b []).children = [1] ∧ (barAt 1 2 b []).children = [] ∧
    (let s := barAt 1 2 { b with sent := true } []
     (s.ctx 5).barrier = some { b with sent := true } ∧ s.dev.barTimeout ≠ 0 ∧ (s.ctx 5).strand.state = .waiting (.barrier 3 0) ∧
     s.takesBarrier (hdr 8 1 []) = true ∧ s.packetBad (setFld (hdr 8 1 []) 12 32 1) 8 1 = false ∧ s.packetBad (setFld (hdr 7 1 []) 12 32 1) 7 1 = false ∧
     reached (mgetD (s.ctx 5).recv 15 0 + 64) (BitVec.ofNat 64 (64 * 1)) = true) ∧
    ({ barAt 1 2 b [] with pool := [(0, fwq)] } : State).noneForwarded 5 = false ∧ rdy.dev.barTimeout = 0 ∧
    rdy.takesBarrier (hdr 8 1 []) = false ∧ (inst rdy).packetBad (hdr 7 1 []) 7 1 = false := by decide +kernel
theorem test_hyps_barrier : (strandAt t0).strandMay 5 [1, 3] false := by simp only [State.strandMay]; decide +kernel

/-- A transfer at work, a line of which the fabric has failed so often. -/
def worn (w : XferWhat) (n : Nat) : Xfer := { xfr w false with fails := [(0, n)] }
theorem test_hyps_FabricFailures : ∀ k ∈ [0, 2, 3],
    (let f : Fill := { fil .lines with count := some 1, fails := [(0, k), (64, k)] }
     let s : State := { cohAt 0 with fills := [f] }
     s.fillOf coh = some f ∧ s.bound 5 0 = some scn ∧ f.stage = .lines ∧ mget f.got 0 = none ∧ mget f.got 64 = none ∧ mgetD f.fails 64 0 = k ∧ 0 < f.count.getD 0) ∧
    (let f : LeafFill := { grove := 0, id := { ctx := 5, scene := 0, tag := 0, index := 0 }, count := 1, attempt := 0, prefetch := false, haze := false,
                           cls := 0, forcedBad := false, queued := false }
     let s : State := { ctxAt (ctx1 t0) with leafFills := [f], xfers := [worn (.leaf 0 f.id) k] }
     s.leafFillOf 0 f.id = some f ∧ s.bound 5 0 = some scn ∧ s.atWork (.leaf 0 f.id) = some (worn (.leaf 0 f.id) k) ∧ f.queued = false ∧
     mgetD (worn (.leaf 0 f.id) k).fails 0 0 = k) := by decide +kernel
theorem test_hyps_FabricFailures_lines : ∀ k ∈ [0, 2, 3],
    (∀ w ∈ [true, false], let r : Run := run0 w
     let s : State := { ctxAt { ctx1 t0 with ovf := { Ovf.reset with runs := [r], tail := runLines [ofr], nextRseq := 5, count := 1 } } with
       xfers := [worn (.run 5 4) k] }
     (s.ctx 5).ovf.runs.find? (fun r => r.rseq == 4) = some r ∧ s.atWork (.run 5 4) = some (worn (.run 5 4) k) ∧ 0 < r.lines ∧ r.written = w ∧
     r.state = .live ∧ r.rereads = 0 ∧ ({ r with rereads := 1 } : Run).rereads ≠ 0) ∧
    (let s : State := { ctxAt (ctx1 t0) with scans := [(2, { (rdy.scan 2) with held := true, remain := 8 })], xfers := [worn (.scan 2) k] }
     s.atWork (.scan 2) = some (worn (.scan 2) k) ∧ (s.scan 2).held = true ∧ (s.scan 2).finished = false ∧
     (linesOf (s.scan 2).next (min 4096 (s.scan 2).remain))[0]? = some 0) := by decide +kernel
theorem test_hyps_FabricFailures_more : ∀ k ∈ [0, 2, 3],
    (∀ j ∈ [1, 3], let s : State := { streamAt t0 (strm j (if j = 1 then 7 else 3)) with xfers := [worn (.tile 3 0) k] }
     s.atWork (.tile 3 0) = some (worn (.tile 3 0) k) ∧ smKind (s.stream 3).image = j ∧
     (tileLineAddrs (s.stream 3).image ((s.stream 3).arming 0).2 (0 - ((s.stream 3).arming 0).1))[0]? = some 4096) ∧
    (let l : BufLine := { bln with state := .writing }
     let s : State := { ctxAt (ctx1 t0) with txnBuf := [(0, l)], xfers := [worn (.through 0) k] }
     s.atWork (.through 0) = some (worn (.through 0) k) ∧ mget s.txnBuf 0 = some l ∧ l.state = .writing) := by decide +kernel
theorem test_hyps_FabricFailures_reads : ∀ k ∈ [0, 2, 3],
    (let s : State := { ctxAt { open0 with readFails := [(64, k)] } with out := [.read 0 9 64 (.sceneDesc 5 1)] }
     (s.ctx 5).state ≠ .closed ∧ s.out.any (fun o => match o with | .read _ _ b w => b == 64 && w.tableOf 5 | _ => false) = true ∧
     mgetD (s.ctx 5).readFails 64 0 = k) ∧
    (let s : State := { ctxAt open0 with completions := [{ cpl 1 .nothing with fails := k }], out := [.deliver 1 9 256 [] 4] }
     s.completions.find? (fun y => y.n == 4) = some { cpl 1 .nothing with fails := k } ∧ s.sentAt 4 = some (1, 256)) ∧
    (let s := ctxAt { ctx1 { t0 with state := .waiting (.launch 3 0), fails := [(4096, k)] } with desc := dsc }
     (s.strandReads 5).contains (lineOf (nth (s.strandReads 5) 0 0)) = true ∧ (s.strandReads 5).contains (lineOf 65536) = false) ∧
    ((strandAt t0).strandReads 5).contains (lineOf 0) = false := by decide +kernel

/-- READY with INTEG_CTL. -/
def integAt (ctl : BitVec 8) : State := { rdy with integ := { rdy.integ with ctl := ctl } }
theorem test_hyps_Scrubs :
    (integAt 0).integOn 1 = false ∧ (integAt 255).integOn 1 = true ∧ (integAt 255).bankRuns 3 = true ∧
    (integAt 255).bankFinds 3 511 none = none ∧ (integAt 255).bankFinds 3 0 (some .correctable) = some false ∧
    (integAt 255).bankFinds 3 0 (some .uncorrectable) = some true ∧ (integAt 255).slotAtLine 3 0 = none ∧
    ({ integAt 255 with slots := [(0, { SlotRec.reset with occ := some coh, lines := [1, 2, 3, 4] })] } : State).slotAtLine 3 0 = some 0 ∧
    ({ integAt 255 with banks := [(3, { (rdy.bank 3) with scrub := 511 })] } : State).bank 3 = { (rdy.bank 3) with scrub := 511 } ∧
    (integAt 255).integOn 5 = true ∧ (integAt 255).katInj 3 = false ∧ State.reset.bankRuns 3 = false ∧
    (let s : State := { integAt 255 with integ := { (integAt 255).integ with spineScrub := 524288 }, pool := [(0, { rayq with dataUnits := [0] })] }
     s.pool.find? (fun e => (e.2.dataUnits ++ e.2.collUnits).contains ((524288 - 524288) / 2)) = some (0, { rayq with dataUnits := [0] }) ∧ s.integ.spineScrub = 524288) ∧
    (integAt 255).integOn 2 = true ∧ (integAt 255).integ.spineScrub < 524288 ∧ (integAt 255).integOn 0 = true ∧
    (integAt 255).integOn 3 = true ∧ (integAt 255).sramMark 2 0 (integAt 255).integ.txnScrub = none ∧ (integAt 255).integOn 4 = true ∧
    ((mget (integAt 255).txnBuf 0).map (·.ue)).getD false = false := by decide +kernel
theorem test_hyps_Scrubs_spine : (integAt 255).spineMark (integAt 255).integ.spineScrub = none := by unfold State.spineMark; rfl

theorem test_hyps_ControlParity :
    State.reset.dev.stage ≠ .ready ∧ (integAt 0).integOn 7 = false ∧ ctrlEcc (.cohort coh) = false ∧ ctrlEcc (.leafHandle 0 0) = true ∧
    (integAt 255).integOn 7 = true ∧
    (integAt 255).integ.injArmed = false ∧
    (let i : Integ := { (integAt 255).integ with injArmed := true, injKind := 4, injUnit := ctrlStruct (.cohort coh) }
     (i.injArmed && i.injKind == 4 && i.injUnit == ctrlStruct (.cohort coh)) = true) ∧
    (∀ r ∈ [true, false], let s : State := { cohAt 0 with cohorts := [{ coh0 with rebuilding := r }], integ := (integAt 255).integ }
      s.cohort coh = some { coh0 with rebuilding := r }) ∧
    (let s : State := { sheafAt shf with integ := (integAt 255).integ }
     mget s.sheaves (sheafKey 0 0) = some shf ∧ shf.lane 0 = some lan ∧ s.laneQuery lan = some qry ∧ mget s.pool 0 = some qry ∧ s.dev.stage = .ready) ∧
    ((ctxAt open0).ctx 5).state = .opened ∧ ((streamAt t0 (strm 1 4)).stream 3).state ≠ .idle ∧
    ({ cohAt 0 with fills := [fil .lines] } : State).fillOf coh = some (fil .lines) ∧
    (({ rdy with dir := [dln .collector false] } : State).dirAt { asid := 9, addr := lineOf 300 }).isSome = true ∧
    ({ rdy with depart := [dep] } : State).depart.any (fun d => d.addr == { asid := 9, addr := lineOf 300 }) = true ∧
    (mgetD ({ rdy with hq := [(0, [{ cls := 0, esc := false, item := coh }])] } : State).hq 0 [])[0]? = some { cls := 0, esc := false, item := coh } ∧
    (({ rdy with leafQ := [(0, [{ cls := 0, esc := false, item := .block { ctx := 5, scene := 0, tag := 0, index := 0 } [0] false }])] } : State).loseLeafHandle 0 0).isSome = true := by
  decide +kernel

/-! ### A valid sector: the CRC of many zero bytes -/

/-- The CRC-32C register as a number, over so many zero bits; the match makes each step's value a literal. -/
def zbits : Nat → Nat → Nat
  | 0, r => r
  | _ + 1, 0 => 0
  | n + 1, r + 1 => zbits n (if (r + 1) % 2 = 1 then ((r + 1) / 2) ^^^ 0x82F63B78 else (r + 1) / 2)
theorem zbits_bit (n : Nat) (r : Word) : zbits (n + 1) r.toNat = zbits n (crc32cBit r).toNat := by
  have e : (crc32cBit r).toNat = if r.toNat % 2 = 1 then (r.toNat / 2) ^^^ 0x82F63B78 else r.toNat / 2 := by
    unfold crc32cBit
    rw [BitVec.getLsbD, Nat.testBit_zero]
    by_cases h : r.toNat % 2 = 1 <;> simp [h, Nat.shiftRight_succ]
  rw [e]
  have z : ∀ n, zbits n 0 = 0 := fun n => by cases n <;> rfl
  cases hr : r.toNat with
  | zero => rw [zbits]; exact (z n).symm
  | succ k => rfl
theorem zbits_bytes (n : Nat) : ∀ r : Word, (crc32cRun r (List.replicate n 0)).toNat = zbits (8 * n) r.toNat := by
  induction n with
  | zero => intro r; rfl
  | succ n ih =>
    intro r
    have x : r ^^^ (0 : Byte).setWidth 32 = r := by simp
    rw [List.replicate_succ]
    show (crc32cRun (crc32cByte r 0) _).toNat = _
    rw [ih, Nat.mul_succ, crc32cByte, x, ← zbits_bit, ← zbits_bit, ← zbits_bit, ← zbits_bit, ← zbits_bit, ← zbits_bit, ← zbits_bit, ← zbits_bit]
theorem zrun : crc32cRun 0xFFFFFFFF (List.replicate 4080 0) = BitVec.ofNat 32 (zbits 32640 0xFFFFFFFF) :=
  BitVec.eq_of_toNat_eq ((zbits_bytes 4080 0xFFFFFFFF).trans (by decide +kernel))
theorem zval : zbits 32640 0xFFFFFFFF = 2209523504 := by decide +kernel
/-- A sector of zeros after its header is valid under the CRC of its first 12 bytes. -/
theorem sec_valid (m : List Host.Cell) (n : Nat) (h : (sectorBytes m n).drop 16 = List.replicate 4080 0)
    (h0 : (nth (sectorBytes m n) 0 0).toNat = 1) (h1 : (nth (sectorBytes m n) 1 0).toNat = n)
    (hc : secWord (sectorBytes m n) 12 = crc32cRun 2209523504 ((sectorBytes m n).take 12) ^^^ 0xFFFFFFFF) : secValid n (sectorBytes m n) = true := by
  have e : secCrc (sectorBytes m n) = crc32cRun 2209523504 ((sectorBytes m n).take 12) ^^^ 0xFFFFFFFF := by
    rw [secCrc, crc32c, h]
    show List.foldl crc32cByte _ _ ^^^ _ = _
    rw [List.foldl_append]
    show crc32cRun (crc32cRun _ _) _ ^^^ _ = _
    rw [zrun, zval]; rfl
  rw [secValid, e, hc, h0, h1]; simp
/-- A valid copy of the sequencer patch in sectors 5 to 8. -/
def patchCells : List Host.Cell :=
  [5, 6, 7, 8].flatMap (fun n => (4096 * n, 1) :: cellsOf (4096 * n + 1) (BitVec.ofNat 8 n :: List.replicate 10 0 ++
    bytesOf (crc32cRun 2209523504 (1 :: BitVec.ofNat 8 n :: List.replicate 10 0) ^^^ 0xFFFFFFFF) 4))
theorem takeBytes_zero : ∀ (n a : Nat) (m : List Host.Cell), (∀ e ∈ m, a + n ≤ e.1) → takeBytes n a m = List.replicate n 0
  | 0, _, _, _ => rfl
  | n + 1, a, [], _ => by
    rw [takeBytes, takeBytes_zero n (a + 1) [] (fun _ h => absurd h (List.not_mem_nil)), List.replicate_succ]
  | n + 1, a, (k, v) :: t, h => by
    have hk := h (k, v) (List.mem_cons_self ..)
    simp only at hk
    rw [takeBytes, if_neg (by omega), takeBytes_zero n (a + 1) _ (fun e he => by have := h e he; omega), List.replicate_succ]
theorem takeBytes_drop : ∀ (k n a : Nat) (m : List Host.Cell), (∀ e ∈ m, a ≤ e.1) → (m.map (·.1)).Pairwise (· < ·) →
    (takeBytes (n + k) a m).drop k = takeBytes n (a + k) (m.dropWhile (fun e => decide (e.1 < a + k)))
  | 0, n, a, m, h, _ => by
    have : m.dropWhile (fun e => decide (e.1 < a + 0)) = m := by
      cases m with
      | nil => rfl
      | cons x t => rw [List.dropWhile_cons_of_neg]; have := h x (List.mem_cons_self ..); simp; omega
    rw [this]; rfl
  | k + 1, n, a, [], _, hp => by
    rw [← Nat.add_assoc, takeBytes, List.drop_succ_cons, takeBytes_drop k n (a + 1) [] (fun _ h => absurd h (List.not_mem_nil)) hp]
    simp [Nat.add_comm, Nat.add_left_comm]
  | k + 1, n, a, (j, v) :: t, h, hp => by
    simp only [List.map_cons, List.pairwise_cons, List.mem_map, forall_exists_index, and_imp, forall_apply_eq_imp_iff₂] at hp
    have hj := h (j, v) (List.mem_cons_self ..)
    simp only at hj
    have e : a + (k + 1) = a + 1 + k := by omega
    rw [← Nat.add_assoc, takeBytes, e]
    split
    · rw [List.drop_succ_cons, takeBytes_drop k n (a + 1) t (fun e he => by have := hp.1 e he; omega) hp.2,
        List.dropWhile_cons_of_pos]
      simp; omega
    · rw [List.drop_succ_cons, takeBytes_drop k n (a + 1) _ (fun e he => ?_) (by simpa [List.pairwise_cons] using hp)]
      rcases List.mem_cons.mp he with rfl | he
      · simp only; omega
      · have := hp.1 e he; omega
theorem drop_zero (m : List Host.Cell) (n : Nat)
    (h1 : ∀ e ∈ m.dropWhile (fun e => decide (e.1 < 4096 * n)), 4096 * n ≤ e.1)
    (h2 : ((m.dropWhile (fun e => decide (e.1 < 4096 * n))).map (·.1)).Pairwise (· < ·))
    (h3 : ∀ e ∈ (m.dropWhile (fun e => decide (e.1 < 4096 * n))).dropWhile (fun e => decide (e.1 < 4096 * n + 16)), 4096 * n + 16 + 4080 ≤ e.1) :
    (sectorBytes m n).drop 16 = List.replicate 4080 0 :=
  (takeBytes_drop 16 4080 _ _ h1 h2).trans (takeBytes_zero 4080 _ _ h3)
theorem patch_drop : ∀ n ∈ [5, 6, 7, 8], (sectorBytes patchCells n).drop 16 = List.replicate 4080 0 := by
  intro n hn
  simp only [List.mem_cons, List.not_mem_nil, or_false] at hn
  rcases hn with rfl | rfl | rfl | rfl <;> exact drop_zero _ _ (by decide +kernel) (by decide +kernel) (by decide +kernel)
theorem patch_head : ∀ n ∈ [5, 6, 7, 8], (nth (sectorBytes patchCells n) 0 0).toNat = 1 ∧ (nth (sectorBytes patchCells n) 1 0).toNat = n := by
  decide +kernel
theorem patch_crc : ∀ n ∈ [5, 6, 7, 8],
    secWord (sectorBytes patchCells n) 12 = crc32cRun 2209523504 ((sectorBytes patchCells n).take 12) ^^^ 0xFFFFFFFF := by decide +kernel
theorem patch_valid (n : Nat) (h : n ∈ [5, 6, 7, 8]) : secValid n (sectorBytes patchCells n) = true :=
  sec_valid _ _ (patch_drop n h) (patch_head n h).1 (patch_head n h).2 (patch_crc n h)
theorem pair_valid (m : List Host.Cell) (a b k : Nat) (h : ∀ i < k, secValid (a + i) (sectorBytes m (a + i)) = true) :
    (pairCopy m a b k).isSome = true := by
  have e : ((List.range k).map (fun i => (a + i, sectorBytes m (a + i)))).all (fun e => secValid e.1 e.2) = true := by
    simp only [List.all_map, List.all_eq_true, List.mem_range]
    exact h
  unfold pairCopy
  simp only [e]
  split <;> simp_all
theorem test_hyps_seqPatch : (pairCopy patchCells 5 9 4).isSome = true :=
  pair_valid _ 5 9 4 (fun i hi => patch_valid (5 + i) (by simp only [List.mem_cons, List.not_mem_nil]; omega))

theorem test_hyps_ChainCommands :
    (∀ op ∈ List.range 16, frOp (frm op 0 3 0 0 0) = op ∧ (inst rdy).acts (frm op 0 3 0 0 0) = true ∧ (inst rdy).acts (frm op 1 9 0 0 0) = true ∧
      (inst rdy).acts (frm op 0 4 0 0 0) = false) ∧
    State.reset.clocked = false ∧ (inst rdy).clocked = true ∧ (inst rdy).chainLong = none ∧ (inst rdy).dev.stage = .ready ∧ rdy.dev.addressed = false ∧
    frBcast (frm 4 1 0 0 0 0) = true ∧ frBcast (frm 4 0 0 0 0 0) = false ∧ frStatus (frm 2 0 0 0 0 0) = 0 ∧ frStatus (frm 2 0 0 1 0 0) ≠ 0 ∧
    (frData (frm 2 0 0 0 0 (2 ^ 17 - 1))).toNat < 2 ^ 17 ∧ 2 ^ 17 ≤ (frData (frm 2 0 0 0 0 (2 ^ 17))).toNat ∧
    frAddr (frm 4 0 3 0 0x6008 0) = 0x6008 ∧ frAddr (frm 4 0 3 0 9 0) % 8 ≠ 0 ∧
    (let u : State := { inst rdy with dev := { (inst rdy).dev with nvmPtr := 122880, stageLoaded := false } }
     u.ptrLoaded = false ∧ (inst rdy).ptrLoaded = true) ∧
    ({ inst rdy with dev := { (inst rdy).dev with stage := .bringup } } : State).clocked = true := by decide +kernel
theorem test_hyps_ChainCommands_long :
    (let u : State := { inst rdy with chainLong := some (.store 30) }
     u.clocked = true ∧ u.chainLong ≠ none ∧ u.chainHeld = none ∧ u.longDone = true) ∧
    (let u : State := { inst rdy with chainLong := some .reset, chainHeld := some 4 } ; u.chainHeld ≠ none ∧ u.longDone = false) ∧
    (let u : State := { inst rdy with chainLong := some (.store 30), chainHeld := some 4 } ; u.longDone = true ∧ u.chainHeld = some 4) := by decide +kernel
theorem test_hyps_ChainCommands_groves :
    (∀ n ∈ [0, 15, 16, 62, 63, 64], frAddr (frm 7 0 3 0 n 0) = n) ∧ (inst rdy).dev.svcEn = false ∧ (inst rdy).nvmWorking = false ∧
    ({ inst rdy with dev := { (inst rdy).dev with svcEn := true } } : State).dev.svcEn = true ∧
    ({ inst rdy with dev := { (inst rdy).dev with nvmBusy := some (sto .chain) } } : State).nvmWorking = true ∧
    (((inst rdy).frost 0).grove 0).state = .drain ∧
    (∀ n ∈ [1048575, 1048576], let u := ((inst rdy).frost 0).modDev (fun d => { d with fab := n })
     u.now = n ∧ (u.grove 0).drainSince + u.dev.frostDrainMax.toNat = 1048576) ∧ ((inst rdy).groves[0]?).isSome = true ∧
    (let u : State := { inst rdy with groves := { Grove.reset with state := .run } :: List.replicate 15 { Grove.reset with state := .frost } }
     (u.grove 0).state = .run ∧ u.otherRuns 0 = false ∧ (u.groves[0]?).isSome = true ∧ (u.grove 1).state = .frost ∧ (u.groves[1]?).isSome = true) ∧
    (State.reset.grove 0).state = .inactive := by decide +kernel
theorem test_hyps_ChainCommands_reset : let s : State := { inst rdy with chainLong := some .reset }
    s.dev.stage = .ready ∧ s.chainLong = some .reset ∧ s.dev.unlock ≠ .killing ∧ (∀ e ∈ s.ctxs, e.2.state = .closed) ∧ s.dir = [] ∧ s.depart = [] ∧
    s.ringPend = [] ∧ s.dev.nvmBusy = none := by decide +kernel

/-- Reset in some stage. -/
def stageAt (st : PowerStage) : State := { State.reset with dev := { Dev.reset with stage := st } }
theorem test_hyps_PowerStages :
    (∀ st ∈ [PowerStage.off, .held, .pll, .bringup, .ready], (stageAt st).dev.stage = st ∧ (stageAt st).dev.nvmBusy = none) ∧
    (sto .chain).started = true ∧
    pairCopy State.reset.nvm 1 2 1 = none ∧ pairCopy State.reset.nvm 3 4 1 = none ∧
    rdy.dev.pwrState ≠ 2 ∧ rdy.allClosed = true ∧ rdy.nvmWorking = false ∧ (ctxAt open0).allClosed = false ∧
    ({ rdy with dev := { rdy.dev with nvmBusy := some (sto .chain) } } : State).nvmWorking = true ∧
    rdy.noLines = true ∧ ({ rdy with dir := [dln .collector false] } : State).noLines = false := by decide +kernel
theorem test_hyps_nvm_reset : Memory.wf State.reset.nvm = true := by decide +kernel

theorem test_hyps_GroveService :
    (∀ st ∈ [GroveState.run, .drain, .frost, .inactive],
      ({ rdy with groves := { Grove.reset with state := st } :: List.replicate 15 Grove.reset } : State).grove 0 = { Grove.reset with state := st }) ∧
    rdy.otherRuns 0 = true ∧ ({ rdy with groves := { Grove.reset with state := .run } :: List.replicate 15 Grove.reset } : State).otherRuns 0 = false ∧
    rdy.groveIdle 0 = true ∧ (sheafAt shf).groveIdle 0 = false ∧
    (let u : State := { rdy with groves := { Grove.reset with state := .frost, thawing := true } :: List.replicate 15 Grove.reset }
     (u.grove 0).thawing = true ∧ (u.grove 0).repair = none) ∧
    (let u : State := { rdy with groves := { Grove.reset with state := .frost, thawing := true, repair := some { bank := 1, phys := 96 } } :: List.replicate 15 Grove.reset }
     (u.grove 0).thawing = true ∧ (u.grove 0).repair ≠ none) := by decide +kernel

theorem test_hyps_Repairs :
    (let x : Grove := { Grove.reset with state := .frost, repairSel := 3 }
     x.selected = some 24 ∧ x.repair = none ∧ x.spareBad.getLsbD 0 = false ∧ x.spareUsed.getLsbD 0 = false ∧ x.spareBad.getLsbD 3 = false ∧ x.spareUsed.getLsbD 3 = false) ∧
    ({ Grove.reset with repairSel := 12 } : Grove).selected = none ∧ (rdy.grove 0).state = .run ∧ (State.reset.grove 0).state = .inactive ∧ (rdy.grove 0).repair = none ∧
    (let u : State := { rdy with groves := { Grove.reset with state := .frost, repair := some { bank := 3, phys := 96 } } :: List.replicate 15 Grove.reset }
     (u.grove 0).repair = some { bank := 3, phys := 96 } ∧ u.integ.injArmed = false ∧ (u.groves[0]?).isSome = true) ∧
    rdy.dev.seqPatchStatus ≠ 1 ∧ ({ rdy with dev := { rdy.dev with seqPatchStatus := 1 } } : State).dev.seqPatchStatus = 1 ∧
    pairCopy rdy.staged 5 9 4 = none := by decide +kernel
theorem test_hyps_Repairs_injected :
    let r : Repair := { bank := 3, phys := 96 }
    let u : State := { rdy with groves := { Grove.reset with state := .frost, repair := some r } :: List.replicate 15 Grove.reset }
    let arm : State := { u with integ := { u.integ with injArmed := true, injKind := 3, injUnit := 96 } }
    let w : State → List (Fin 512) → State := fun s ls =>
      (s.loseLines 0 (ls.map Fin.val ++ s.markedLines (nth (s.grove 0).repairMap 3 0))).modGrove 0 (fun x => { x with repair := none })
    (arm.grove 0).repair = some r ∧ (w u [0, 511]).katInj 96 = false ∧ (w arm [0, 511]).katInj 96 = true ∧ (w arm []).katInj 96 = true := by
  decide +kernel

theorem test_hyps_KeySlots :
    (∀ cmd ∈ [KeyCmd.load 9, .unwrap 9], ({ rdy with keyCmd := some cmd } : State).keyCmd = some cmd ∧ ({ rdy with keyCmd := some cmd } : State).keyCmd ≠ none) ∧
    rdy.keyCmd = none ∧ rdy.dev.eraseBusy = false ∧ rdy.keyNamed 9 = false ∧
    (ctxAt { open0 with desc := mkRec 2048 [(3, 8, 8), (4, 16, 9)] }).keyNamed 9 = true ∧
    ({ rdy with dev := { rdy.dev with eraseBusy := true } } : State).dev.eraseBusy = true ∧
    (rdy.keyMaterial (.load 9)).map (fun x => x.k1 == x.k2) = some true ∧
    (({ rdy with keyBuf := 1 :: List.replicate 9 0 } : State).keyMaterial (.load 9)).map (fun x => x.k1 == x.k2) = some false ∧
    secValid 63 (sectorBytes rdy.nvm 63) = false := by decide +kernel
theorem test_hyps_KeySlots_unwrap : rdy.keyMaterial (.unwrap 9) = none := by
  simp only [State.keyMaterial]; rw [if_neg (by decide +kernel)]

theorem test_hyps_DebugUnlock :
    rdy.dev.unlock = .idle ∧ (inst rdy).dev.pwrState = 1 ∧ rdy.keyed = [] ∧ rdy.nvmWorking = false ∧
    (ctxAt { open0 with desc := setFld 0 3 8 8 }).keyed = [5] ∧
    (foldS rdy.keyed rdy (fun u c => u.kill c 3 noUnit 0 0)).keyed = [] ∧
    (∀ u ∈ [Unlock.idle, .killing, .erasing], ({ rdy with dev := { rdy.dev with unlock := u, eraseBusy := true } } : State).dev.unlock = u) ∧
    ({ rdy with keys := [(9, { k1 := 1, k2 := 2, salt := 3 })] } : State).keys ≠ [] ∧ rdy.keys = [] := by decide +kernel

theorem test_hyps_RegisterCommands :
    (∀ n ∈ List.range 17, ∀ v ∈ [nth rdy.sched.pend n 0], paramRange n (v % 2 ^ paramBits n) = true ∧ paramsAgree (rdy.sched.pend.set n v) = true) ∧
    paramRange 9 0 = true ∧ paramRange 10 0 = false ∧ paramsAgree (rdy.sched.pend.set 0 524288) = false ∧
    (∀ n ∈ [0, 8192, 8193], fbit (BitVec.ofNat 32 n) 0 14 = n) ∧ (∀ n ∈ [0, 64, 65], fbit (BitVec.ofNat 32 n) 0 7 = n) ∧
    (∀ e ∈ rdy.streams, smKind e.2.image = 1 → e.2.state = .idle) ∧ (∃ e ∈ (streamAt t0 (strm 1 4)).streams, smKind e.2.image = 1 ∧ e.2.state ≠ .idle) ∧
    rdy.binUsed = 0 ∧ rdy.chainsInTransit = false ∧ rdy.accUsed = 0 ∧ rdy.gridUsed = 0 ∧
    (let u : State := { rdy with completions := [{ cpl 1 .nothing with chain := some (0, [7]) }] } ; u.binUsed = 32 ∧ u.chainsInTransit = true) ∧
    ((delivAt (dlv dBin)).ctx 5).state = .opened ∧ ((delivAt (dlv dBin)).deliv 5 0).raw ≠ none ∧ ((delivAt (dlv dBin)).deliv 5 0).valid = true ∧
    ((delivAt Deliv.reset).deliv 5 0).raw = none := by decide +kernel
theorem test_hyps_RegisterCommands_integrity :
    rdy.integ.injArmed = false ∧ ({ rdy with integ := { rdy.integ with injArmed := true } } : State).integ.injArmed = true ∧
    (∀ k ∈ [1, 2], ∀ m ∈ [1, 2], let v : Word := BitVec.ofNat 32 (k + 16 * m + 2 ^ 31); fbit v 0 4 = k ∧ fbit v 4 2 = m) ∧
    5 < fbit (6 : Word) 0 4 ∧ fbit (0x80000000 : Word) 0 4 = 0 ∧ fbit (0x80000000 : Word) 31 1 = 1 ∧ fbit (0x06400003 : Word) 0 4 = 3 ∧
    1600 ≤ fbit (0x06400003 : Word) 16 11 ∧
    ((0 : Word) - rdy.integ.head).toNat ≤ rdy.integ.held ∧ rdy.integ.held < ((1 : Word) - rdy.integ.head).toNat ∧
    (∀ g : Fin 4, (rdy.integ.intPend &&& 15).getLsbD g = true → rdy.logHas g = false) ∧
    (let u : State := { rdy with integ := { rdy.integ with intPend := 2, tail := 1, recs := [(0, mkRec 256 [(6, 8, 1)])] } }
     u.integ.intPend &&& 15 = BitVec.ofNat 4 (2 ^ 1) ∧ u.logHas 1 = true) ∧
    (0x80000000 : Word).getLsbD 31 = true ∧ (7 : Word).getLsbD 31 = false ∧ rdy.dev.debugOpen = false ∧
    ({ rdy with dev := { rdy.dev with debugOpen := true } } : State).dev.debugOpen = true ∧ rdy.allClosed = true ∧
    (ctxAt open0).allClosed = false := by decide +kernel

theorem test_hyps_RegisterAccess :
    (∀ st ∈ [PowerStage.off, .held, .pll, .bringup, .ready], (stageAt st).dev.stage = st) ∧
    (accessOf 4 8 0).isNone = true ∧ ((accessOf 0x804 4 9).map (·.1)) = some 0x800 ∧
    (nvmAt (30 * 4096) false none).ptrLoaded = false := by decide +kernel
theorem test_hyps_RegisterAccess_calm : (inst rdy).calm ∧
    ∃ t, exec (.leafPfDepthWrite 9) (inst rdy) = .next t ∧ t.calm := by
  refine ⟨by simp only [State.calm]; decide +kernel, _, rfl, ?_⟩
  simp only [State.calm]; decide +kernel

theorem test_hyps_DivisionResults :
    (∀ m ∈ [0x0F, 0x10, 0x11, 0x12], (fm m).minor = m) ∧ isX 3 = true ∧ isX 1 = true ∧ isX 2 = true ∧
    isVDst shf.handler 3 = true ∧ isV 1 = true ∧ isV 2 = true ∧ (7 : BitVec 32) ≠ 0 ∧ ¬ ((7 : BitVec 32) = BitVec.intMin 32 ∧ (2 : BitVec 32) = -1#32) := by decide +kernel
theorem test_hyps_DivisionResults_strand : (strandAt t0).strandMay 5 [1, 2, 3] false := by simp only [State.strandMay]; decide +kernel
theorem test_hyps_DivisionResults_sheaf : (sheafAt shf).sheafMay 0 0 shf false := by simp only [State.sheafMay]; decide +kernel

theorem test_hyps_ErrorLog :
    rdy.integ.tail - rdy.integ.head ≠ 256 ∧ ({ rdy with integ := { rdy.integ with tail := 256 } } : State).integ.tail - rdy.integ.head = 256 ∧
    rdy.integ.head = rdy.integ.tail ∧ ({ rdy with integ := { rdy.integ with tail := 1 } } : State).integ.head ≠ 1 ∧
    ((0 : Word) - rdy.integ.head ≤ rdy.integ.tail - rdy.integ.head) ∧ ¬ ((1 : Word) - rdy.integ.head ≤ rdy.integ.tail - rdy.integ.head) := by decide +kernel

theorem test_hyps_IllegalForms :
    (rdy.ctx 5).state ≠ .opened ∧ ((ctxAt open0).ctx 5).strand.state ≠ .ready ∧
    (let l : LoadRec := { n := 4, rd := 1, size := 8, sx := false, atomic := false, acq := false }
     ((strandAt { t0 with loads := [l] }).ctx 5).strand.awaits 1 = true) ∧
    rdy.issuing 0 0 = none ∧ ((strandAt t0).ctx 5).state = .opened ∧ ((strandAt t0).ctx 5).strand.state = .ready ∧ t0.loads = [] ∧
    (∀ p ∈ [7, 8], ((strandAt { t0 with pc := p }).ctx 5).strand.words ≤ p + 1) ∧
    (sheafAt shf).issuing 0 0 = some shf ∧
    (∀ p ∈ [7, 8], (sheafAt { shf with lanes := [{ lan with pc := p }] }).issuing 0 0 = some { shf with lanes := [{ lan with pc := p }] } ∧
      pcBad (some 8) p (p == 7) = true) ∧
    shf.group ≠ [] ∧ beyond shf.words 8 = true ∧ isVDst shf.handler 33 = false ∧ isPDst 3 = false ∧ isV 33 = false ∧
    (let h : Sheaf := { shf with lanes := [{ lan with hook := some (.leaf 3 0) }] }
     (sheafAt h).issuing 0 0 = some h ∧ h.handler = true) ∧
    (∀ p ∈ List.range 8, ∃ m ∈ [(0 : BitVec 8), 1], (fm m).minor.toNat ≠ p) ∧ 0x12 < (fm 0x13).minor.toNat ∧ 5 < (fm 6).minor.toNat ∧
    32 ≤ (fm 32).minor.toNat ∧ 32 ≤ ({ f0 with d := 32 } : Fields).d.toNat ∧ 32 ≤ ({ f0 with a := 32 } : Fields).a.toNat ∧
    9 < (fm 0x2A).minor.toNat % 16 ∧ (fm 0x10).minor.toNat / 16 % 4 < 2 ∧
    (((strandAt t0).ctx 5).strand.reg (fm 0x30).a.toNat).toNat % 2 ^ ((fm 0x30).minor.toNat / 16 % 4) ≠ 0 ∧
    shf.group.all Lane.yields = false ∧ shf.group.all Lane.holdsRemote = false ∧ shf.group.all (sheafAt shf).isForest = false := by decide +kernel

/-! ### Ill-formed commands: one for each check of WellFormed.lean -/

/-- A cohort that breaks the range of one number. -/
def badIds : List CohortId := [{ coh with ctx := 4096 }, { coh with scene := 65536 }, { coh with tag := 2 ^ 32 }, { coh with bough := 2 ^ 32 }]
/-- The same of a leaf block. -/
def badBlocks : List BlockId :=
  [{ ctx := 4096, scene := 0, tag := 0, index := 0 }, { ctx := 0, scene := 65536, tag := 0, index := 0 },
   { ctx := 0, scene := 0, tag := 2 ^ 32, index := 0 }, { ctx := 0, scene := 0, tag := 0, index := 2 ^ 32 }]
theorem test_wf_cohorts : ∀ id ∈ badIds,
    (Instr.cohortAgeLimit id).wf = false ∧ (Instr.fillVictimTimeout id).wf = false ∧ (Instr.trailerReturn id 0).wf = false ∧
    (Instr.fillLineReturn id 0 0).wf = false ∧ (Instr.decryptDone id).wf = false ∧ (Instr.sheafRelease id 0 []).wf = false ∧
    (Instr.cohortEntryRebuilt id).wf = false ∧ (Instr.fabricRetry (.fill id 64)).wf = false ∧ (Instr.schedSweep (some (.cohort id))).wf = false ∧
    (Instr.schedSweep (some (.otherFill id))).wf = false := by decide +kernel
theorem test_wf_blocks : ∀ id ∈ badBlocks,
    (Instr.leafFillInstall 0 id [0]).wf = false ∧ (Instr.fabricRetry (.leafFill 0 id 0)).wf = false ∧
    (Instr.leafResult 0 0 [] [id]).wf = false ∧ (Instr.testbMerge 0 0 [] [] [id]).wf = false := by decide +kernel
theorem test_wf_lists :
    (Instr.ingestWrite 0 0 0 []).wf = false ∧ (Instr.ingestWrite 0 0 65535 [1, 2]).wf = true ∧
    (Instr.testAnswer 0 0 [(1, 2, .correctable), (1, 2, .uncorrectable)] [] []).wf = false ∧
    (Instr.testAnswer 0 0 [(1, 2, .correctable), (1, 3, .uncorrectable)] [] []).wf = true ∧
    (Instr.testAnswer 0 0 [] [(5, .correctable), (5, .correctable)] []).wf = false ∧ (Instr.testAnswer 0 0 [] [] [7, 7]).wf = false ∧
    (Instr.testbMerge 0 0 [(5, .correctable), (5, .correctable)] [] []).wf = false ∧ (Instr.testbMerge 0 0 [] [7, 7] []).wf = false ∧
    (Instr.sheafRelease coh 0 [(5, .correctable), (5, .uncorrectable)]).wf = false ∧
    (Instr.boughTestable 0 0 [(5, .correctable), (5, .uncorrectable)]).wf = false ∧
    (Instr.leafFillInstall 0 { ctx := 0, scene := 0, tag := 0, index := 0 } []).wf = false ∧
    (Instr.leafFillInstall 0 { ctx := 0, scene := 0, tag := 0, index := 0 } (List.replicate 17 0)).wf = false ∧
    (Instr.leafResult 0 0 [1, 1] []).wf = false ∧ (Instr.stagedTileInstall 0 0 []).wf = false ∧ (Instr.scanChunkArrive 0 []).wf = false ∧
    (Instr.resultPacket 0 []).wf = false ∧ (Instr.resultPacket 0 (List.replicate 65 0)).wf = false ∧ (Instr.emitPacket 0 []).wf = false ∧
    (Instr.emitPacket 0 (List.replicate 509 0)).wf = false ∧ (Instr.queryPacket 0 { qim with data := List.replicate 256 0 }).wf = false ∧
    (Instr.bringupReady [1, 1]).wf = false ∧ (Instr.repairComplete 0 [1, 1] true).wf = false := by decide +kernel
theorem test_wf_images (l : List Word) (h : 65536 < l.length) :
    (Instr.openComplete 0 { desc := none, header := none, code := some l }).wf = false ∧
    (∀ x : ImageRead, (Instr.walkEntryRead 0 0 0 (some { x with code := l })).wf = false) ∧
    (2 ^ 24 < l.length → (Instr.sceneDescriptorRead 0 0 0 (some { desc := 0, entries := l })).wf = false) :=
  ⟨decide_eq_false (Nat.not_le.mpr h), fun _ => decide_eq_false (Nat.not_le.mpr h), fun g => decide_eq_false (Nat.not_le.mpr g)⟩
theorem test_wf_image_length : 65536 < (List.replicate 65537 (0 : Word)).length ∧ 2 ^ 24 < (List.replicate (2 ^ 24 + 1) (0 : Word)).length := by
  rw [List.length_replicate, List.length_replicate]; decide

/-! ### Computations with results known from outside the model -/

-- the check value of CRC-32C, over the digits 1 to 9 in ASCII
theorem test_crc32c : crc32c [0x31, 0x32, 0x33, 0x34, 0x35, 0x36, 0x37, 0x38, 0x39] = 0xE3069283 := by decide +kernel
-- FIPS 197: entries of the S-box, and its example of a product
theorem test_sbox : sbox 0x00 = 0x63 ∧ sbox 0x53 = 0xED ∧ invSbox 0xED = 0x53 ∧ gmul 0x57 0x83 = 0xC1 := by decide +kernel

/-! ### The opcode map: the words of the worked example after R295, and others with the majors and the fields of R256 and R259 -/

theorem test_words :
    commandOf .walk (.sheaf 2 3) 0x40100000 0 = .testn 2 3 { d := 1, a := 0, b := 0, minor := 0, imm := 0 } ∧
    commandOf .walk (.sheaf 2 3) 0x48000000 0 = .order 2 3 { d := 0, a := 0, b := 0, minor := 0, imm := 0 } ∧
    commandOf .walk (.sheaf 2 3) 0x50000000 0 = .push 2 3 { d := 0, a := 0, b := 0, minor := 0, imm := 0 } ∧
    commandOf .walk (.sheaf 2 3) 0x5C200000 0 = .descend 2 3 { d := 2, a := 0, b := 0, minor := 0, imm := 0 } ∧
    commandOf .walk (.sheaf 2 3) 0x12108500 0 = .cmp (.sheaf 2 3) { d := 33, a := 2, b := 5, minor := 0, imm := 0 } ∧
    commandOf .walk (.sheaf 2 3) 0x14084001 0xA = .brt (.sheaf 2 3) { d := 0, a := 33, b := 0, minor := 1, imm := 0xA } := by decide +kernel
-- R252, R258, R259: a kind that does not permit a major, and a minor that selects nothing, are illegal
theorem test_words_illegal :
    commandOf .handler (.sheaf 2 3) 0x40100000 0 = .illegalInstruction (.sheaf 2 3) ∧
    commandOf .sequencer (.strand 5) 0x40100000 0 = .illegalInstruction (.strand 5) ∧
    commandOf .sequencer (.strand 5) 0x8C000003 0 = .illegalInstruction (.strand 5) ∧
    commandOf .sequencer (.strand 5) 0x8C100001 0 = .waitc 5 { d := 1, a := 0, b := 0, minor := 1, imm := 0 } ∧
    commandOf .walk (.sheaf 2 3) 0x18000001 0 = .illegalInstruction (.sheaf 2 3) ∧
    commandOf .handler (.sheaf 2 3) 0x18000001 0 = .retH (.sheaf 2 3) ∧ commandOf .walk (.sheaf 2 3) 0 0 = .illegalInstruction (.sheaf 2 3) := by
  decide +kernel

/-! ### One step of a command of each family -/

/-- The state that a command leads to. -/
def after (i : Instr) (s : State) : State := match exec i s with | .next t => t | _ => State.reset
/-- Context 5 with a strand of two given registers. -/
def regsAt (a b : DWord) : State := strandAt { t0 with x := [0, a, b] ++ List.replicate 29 0 }

-- R263, R304: ADD is modulo 2^64; x0 reads 0 and a write to it is discarded
theorem test_add_wraps : (((after (.iop (.strand 5) (fm 0)) (regsAt (BitVec.allOnes 64) 2)).ctx 5).strand.reg 3) = 1 := by decide +kernel
theorem test_x0 : (((after (.iop (.strand 5) { f0 with d := 0 }) (regsAt 1 2)).ctx 5).strand.reg 0) = 0 ∧
    (((after (.iop (.strand 5) { f0 with d := 0 }) (regsAt 1 2)).ctx 5).strand.pc) = 7 := by decide +kernel
-- R264
theorem test_div_zero : (((after (.iop (.strand 5) (fm 0x0F)) (regsAt 9 0)).ctx 5).strand.reg 3) = BitVec.allOnes 64 ∧
    (((after (.iop (.strand 5) (fm 0x12)) (regsAt 9 0)).ctx 5).strand.reg 3) = 9 := by decide +kernel
-- R262: the destination may be a source
theorem test_source_is_destination :
    (((after (.iop (.strand 5) { f0 with d := 1 }) (regsAt 3 7)).ctx 5).strand.reg 1) = 10 := by decide +kernel
-- R273
theorem test_branch : (((after (.br (.strand 5) f0) (strandAt t0)).ctx 5).strand.pc) = 7 ∧
    ((after (.br (.strand 5) { f0 with imm := 8 }) (strandAt t0)).ctx 5).state = .killing := by decide +kernel
-- R252, R253
theorem test_illegal : ((after (.illegalInstruction (.strand 5)) (strandAt t0)).ctx 5).state = .killing ∧
    ((after (.illegalInstruction (.strand 5)) (strandAt t0)).ctx 5).strand.state = .halted := by decide +kernel
-- R266: 1.0 + 1.0 in a lane
theorem test_fop_add : (match mget (after (.fop 0 0 (fm 0)) (sheafAt { shf with lanes := [{ lan with v := List.replicate 24 0x3F800000 }] })).sheaves 0 with
    | some x => (x.lanes.map (fun l => (l.reg 3, l.pc))) | none => []) = [(0x40000000, 7)] := by decide +kernel
-- R444, R445
theorem test_close : ((after (.ctxClose 5) (strandAt t0)).ctx 5).state = .closing ∧ ((after (.ctxKill 5) (strandAt t0)).ctx 5).killCause = 3 := by
  decide +kernel
-- R467: ENUM takes the address away and adds 1 to DATA, ASSIGN gives it
theorem test_enum : (after (.chainEnum (frm 1 1 0 0 0 41)) (inst rdy)).dev.addressed = false ∧
    (after (.chainEnum (frm 1 1 0 0 0 41)) (inst rdy)).out = [.frame (frm 1 1 0 1 0 42)] := by decide +kernel
theorem test_assign : (after (.chainAssign (frm 2 0 0 0 0 77)) rdy).dev.instId = 77 ∧
    (after (.chainAssign (frm 2 0 0 0 0 77)) rdy).out = [.frame (frm 2 0 0 1 0 77)] := by decide +kernel
-- R319, R358
theorem test_pf_depth : (after (.leafPfDepthWrite 64) rdy).leafPfD = 64 ∧ (after (.leafPfDepthWrite 65) rdy).stageParamErr = true := by decide +kernel
theorem test_shares : (after (.collectSharesWrite (BitVec.ofNat 32 (100 + 512 * 100 + 2 ^ 18 * 57))) rdy).collectErr = true ∧
    (after (.collectSharesWrite (BitVec.ofNat 32 (100 + 512 * 100 + 2 ^ 18 * 56))) rdy).shareGrid = 56 := by decide +kernel
-- R494, R499
theorem test_power : (after (.powerOnReset 1 false) State.reset).dev.stage = .pll ∧ (after .pllLock (after (.powerOnReset 1 false) State.reset)).dev.stage = .bringup := by
  decide +kernel
-- R512
theorem test_frost : ((after (.groveCmdFrost 3) rdy).grove 3).state = .drain ∧ ((after (.groveCmdThaw 3) (after (.groveCmdFrost 3) rdy)).grove 3).state = .run := by
  decide +kernel
-- R382
theorem test_snoop : (after (.snoopShared 300 9) rdy).out = [.snoopAnswer (rdy.ringStop 256) 256 none] ∧
    (after (.snoopShared 300 9) { rdy with dir := [dln .collector false] }).out = [.snoopAnswer (rdy.ringStop 256) 256 (some 9)] ∧
    (after (.snoopShared 300 8) { rdy with dir := [dln .collector false] }).out = [.snoopAnswer (rdy.ringStop 256) 256 none] ∧
    (after (.snoopShared 300 9) State.reset).out = [] := by decide +kernel
-- R546
theorem test_nvm_window : (after (.nvmDataWrite 0x55) (nvmAt (30 * 4096 + 4088) true none)).dev.nvmPtr = 30 * 4096 ∧
    memRead (after (.nvmDataWrite 0x55) (nvmAt (30 * 4096 + 4088) true none)).staged (30 * 4096 + 4088) = 0x55 := by decide +kernel
-- R476, R542: a packet for another instance is discarded and counted in FWD_BAD
theorem test_packet_bad : mgetD (after (.handoff (setFld (hdr 4 1 []) 12 32 4)) (inst rdy)).devCnt 68 0 = 1 := by decide +kernel
-- R485
theorem test_lost_clear : (after (.lostClear 0) { rdy with lost := [(0, { inst := 7, ctx := none })] }).lost = [] := by decide +kernel
-- a step takes the front of the queue; without one a clock cycle passes
theorem test_empty_step : (match step rdy with | .next t => t.dev.fab | _ => 0) = rdy.dev.fab + 1 ∧
    (match step { rdy with pending := [.lostClear 0, .pllLock] } with | .next t => t.pending | _ => []) = [.pllLock] := by decide +kernel

end Sys2Proof.Tests
end

section
/-! PROOFS. The statements of 01_architecture: leaf results (O11), the release of sheaves (O32), EMIT and SPAWN (O15), admission (O28)
and bough slots (O31), each after the facts about the operations that it rests on. -/
namespace Sys2Proof.Machine

/-! ### Lists -/

/-- A loop over nothing. -/
theorem foldS_nil {α : Type} (s : State) (f : State → α → State) : foldS [] s f = s := rfl

/-- Keys are ordered strictly. -/
theorem lexLt_asymm (a b : List Nat) (h : lexLt a b = true) : lexLt b a = false := by
  induction a generalizing b with
  | nil => cases h
  | cons x s ih =>
    cases b with
    | nil => cases h
    | cons y t =>
      simp only [lexLt, Bool.or_eq_true, decide_eq_true_eq, Bool.and_eq_true, beq_iff_eq] at h
      rcases h with h | ⟨rfl, h⟩
      · simp [lexLt]; omega
      · simp [lexLt, ih t h]

/-- Of keys of one length, a third one lies after the lesser of two or before the greater. -/
theorem lexLt_cotrans (a b c : List Nat) (hab : a.length = b.length) (hbc : b.length = c.length) (h : lexLt a c = true) :
    lexLt a b = true ∨ lexLt b c = true := by
  induction a generalizing b c with
  | nil => cases h
  | cons x s ih =>
    match b, c, hab, hbc with
    | y :: t, z :: u, hab, hbc =>
      have rest := ih t u (by simpa using hab) (by simpa using hbc)
      simp only [lexLt, Bool.or_eq_true, decide_eq_true_eq, Bool.and_eq_true, beq_iff_eq] at h ⊢
      rcases Nat.lt_trichotomy x y with hxy | rfl | hxy
      · exact .inl (.inl hxy)
      · rcases h with h | ⟨rfl, h⟩
        · exact .inr (.inl h)
        · exact (rest h).imp (fun k => .inr ⟨rfl, k⟩) (fun k => .inr ⟨rfl, k⟩)
      · refine .inr (.inl ?_); rcases h with h | ⟨rfl, -⟩ <;> omega

/-- The least of a list is one of its elements. -/
theorem leastBy_mem {α : Type} {key : α → List Nat} {l : List α} {x : α} (h : leastBy key l = some x) : x ∈ l := by
  induction l generalizing x with
  | nil => cases h
  | cons a t ih =>
    simp only [leastBy] at h
    split at h
    · cases h; exact List.mem_cons_self
    · next y hy =>
      split at h <;> cases h
      · exact List.mem_cons_of_mem _ (ih hy)
      · exact List.mem_cons_self

/-- Only an empty list has no least element. -/
theorem leastBy_eq_none {α : Type} {key : α → List Nat} {l : List α} (h : leastBy key l = none) : l = [] := by
  cases l with
  | nil => rfl
  | cons a t =>
    simp only [leastBy] at h
    split at h
    · cases h
    · split at h <;> cases h

/-- No element of a list has a key before that of the least one. -/
theorem leastBy_min {α : Type} {key : α → List Nat} {n : Nat} (hk : ∀ x, (key x).length = n) {l : List α} {x : α}
    (h : leastBy key l = some x) : ∀ y ∈ l, lexLt (key y) (key x) = false := by
  have irrefl : ∀ y, lexLt (key y) (key y) = false := fun y => by
    by_contra hy
    rw [Bool.not_eq_false] at hy
    rw [lexLt_asymm _ _ hy] at hy; cases hy
  induction l generalizing x with
  | nil => cases h
  | cons a t ih =>
    simp only [leastBy] at h
    split at h
    · next hn =>
      cases h
      rw [leastBy_eq_none hn]
      simpa using irrefl a
    · next y hy =>
      split at h <;> cases h
      · next hlt =>
        intro z hz
        rcases List.mem_cons.mp hz with rfl | hz
        · exact lexLt_asymm _ _ hlt
        · exact ih hy z hz
      · next hle =>
        intro z hz
        rcases List.mem_cons.mp hz with rfl | hz
        · exact irrefl _
        · by_contra hlt
          rw [Bool.not_eq_false] at hlt
          rcases lexLt_cotrans _ (key y) _ (by rw [hk, hk]) (by rw [hk, hk]) hlt with k | k
          · rw [ih hy z hz] at k; cases k
          · exact hle k

/-- The first places of a list hold its elements. -/
theorem mem_firsts {α : Type} [BEq α] [LawfulBEq α] (l : List α) (x : α) : x ∈ firsts l ↔ x ∈ l := by
  induction l with
  | nil => simp [firsts]
  | cons a t ih =>
    by_cases h : x = a <;> simp [firsts, ih, h]

/-! ### Leaf pipes -/

/-- The pipe that takes a leaf test is enabled. -/
theorem choosePipe_enabled {s : State} {g p : Nat} (h : s.choosePipe g none = some p) : (s.grove g).pipeEn.getLsbD p = true := by
  obtain ⟨-, hen⟩ := List.mem_filter.mp (leastBy_mem h)
  exact (Bool.and_eq_true_iff.mp hen).1

/-- While an enabled pipe is free, the pipe that takes a leaf test is free and has no higher number. -/
theorem choosePipe_least {s : State} {g p r : Nat} (h : s.choosePipe g none = some p) (hr : r < 24)
    (hen : (s.grove g).pipeEn.getLsbD r = true) (hfree : mgetD (s.grove g).pipeFree r 0 ≤ s.coreNow) :
    mgetD (s.grove g).pipeFree p 0 ≤ s.coreNow ∧ p ≤ r := by
  have hmin := leastBy_min (n := 2) (fun _ => rfl) h r (by simp [hr, hen])
  simp only [lexLt, Nat.sub_eq_zero_of_le hfree, Bool.or_false, Bool.or_eq_false_iff, decide_eq_false_iff_not,
    Bool.and_eq_false_imp, beq_iff_eq, Bool.and_false] at hmin
  omega

/-! ### TESTB_MERGE -/

/-- A group whose lanes have looked their blocks up, and have them all, merges. -/
theorem testbMerge_ready {s : State} {core sh : Nat} {x : Sheaf} {f : Fields} {grp : List Nat} {units : List (LaneNo × EccError)}
    {segs : List LaneNo} (hx : mget s.sheaves (sheafKey core sh) = some x) (hw : x.wait = .testb grp f)
    (hl : ∀ l ∈ grp.filterMap x.lane, s.scores l = true → s.lookHeld (sheafKey core sh) l = s ∧ s.heldReady (core / 8) l = true) :
    doTestbMerge core sh units segs [] s = ((foldS (grp.filterMap x.lane)
      ((s.modSheaf (sheafKey core sh) (fun x => { x with wait := .ready })).servePackets (sheafKey core sh) x segs)
      (fun t l => t.mergeLane (sheafKey core sh) x f units l)).syncGroup (sheafKey core sh) grp).drainLeaf (core / 8) := by
  have looked : foldS ((grp.filterMap x.lane).filter s.scores) s (fun s l => s.lookHeld (sheafKey core sh) l) = s :=
    foldS_same _ _ _ (fun l h => (hl l (List.mem_of_mem_filter h) (List.mem_filter.mp h).2).1)
  have ready : (grp.filterMap x.lane).all (fun l => !s.scores l || s.heldReady (core / 8) l) = true := by
    rw [List.all_eq_true]
    intro l h
    cases hs : s.scores l with
    | false => rfl
    | true => exact (hl l h hs).2
  unfold doTestbMerge
  simp only [hx, hw, foldS_nil, looked, ready, if_true]

/-- A lane that scores a VEC block whose format and fields pass merges its rows, within BUDGET, and goes on (R281). -/
theorem scoreLane_vec {s : State} {key : Nat} {x : Sheaf} {f : Fields} {l : Lane} {q : Query} {e : ChildEntry} {ls : List Line}
    {sus : Bool} (hlook : s.laneLook (key / 48 / 8) q l e.scene (refIndex e.ref) e.clines = .here ls sus)
    (hfmt : leafFmtBad (leafPermitted (sFmt ((s.bound q.ctx e.scene).getD 0))) ((s.bound q.ctx e.scene).getD 0) e.clines ls = false)
    (hvec : lfFmt ls = 0x45)
    (hfld : leafFieldBad ls (sEtype ((s.bound q.ctx e.scene).getD 0)) (sDims ((s.bound q.ctx e.scene).getD 0)) = false) :
    let n := if qBudget q.record = 0 then lfCount ls else min (lfCount ls) (qBudget q.record - l.ws.rows)
    s.scoreLane key x f l q e = s.modLane key l.n (fun y => { y with
      noTest := [], served := false, v := y.v.set f.d.toNat (BitVec.ofNat 32 n), pc := y.pc + 1
      ws := mergeRows q.record y.ws (vecRows q.record (s.vectorOf q) ls n (sus || s.boughSuspect x)) }) := by
  unfold State.scoreLane
  simp only [hlook, hfmt, hvec, hfld]
  rfl

/-- TESTB of a lane that scores a block: its vector reads without an uncorrectable error. -/
theorem mergeLane_score {s u : State} {key : Nat} {x : Sheaf} {f : Fields} {units : List (LaneNo × EccError)} {l : Lane} {q : Query}
    {e : ChildEntry} (hq : s.laneQuery l = some q) (hcut : s.cutCovers q = false)
    (hret : ∀ k, x.octetSlot = some k → s.retired (k / 64) = false) (he : l.held = some e) (hsc : s.scores l = true)
    (hu : s.readUnits (laneError units l.n) (segmentLines (dataSegments q.dataUnits (qDims q.record))) = (u, false)) :
    s.mergeLane key x f units l = u.scoreLane key x f l q e := by
  unfold State.mergeLane
  simp only [hq, hcut, hsc, he, if_true, hu]
  cases hx : x.octetSlot with
  | none => rfl
  | some k => simp only [hret k hx]; rfl

/-! ### LEAF_RESULT -/

/-- A finished leaf call waits only for an enabled pipe of the grove. -/
theorem leafBlocked_done {s : State} {g : Nat} {m : Lane} {t b : Nat} (h : b = 0 ∨ s.choosePipe g none ≠ none) :
    s.leafBlocked g (.done m t b) = false := by
  rcases h with rfl | h
  · rfl
  · simp [State.leafBlocked, some_of h]

/-- A group all of whose leaf calls are done completes. -/
theorem leafResult_ready {s : State} {core sh : Nat} {x : Sheaf} {f : Fields} {grp : List Nat} {residue : List (Fin 24)}
    (hx : mget s.sheaves (sheafKey core sh) = some x) (hw : x.wait = .leaf grp f)
    (hl : ∀ l ∈ grp.filterMap x.lane, s.lookHeld (sheafKey core sh) l = s ∧ ∃ q m t b, s.laneQuery l = some q ∧
      s.leafLane (core / 8) x q f l = .done m t b ∧ (b = 0 ∨ s.choosePipe (core / 8) none ≠ none)) :
    ∃ lat, doLeafResult core sh residue [] s = ((s.modSheaf (sheafKey core sh) (fun x => { x with wait := .ready, lat := lat })).leafApplyAll
      (sheafKey core sh) x f residue (grp.filterMap x.lane)).drainLeaf (core / 8) := by
  have looked : foldS (grp.filterMap x.lane) s (fun s l => s.lookHeld (sheafKey core sh) l) = s :=
    foldS_same _ _ _ (fun l h => (hl l h).1)
  have free : (((grp.filterMap x.lane).filterMap (fun l => (s.laneQuery l).map (fun q => (l, q, s.leafLane (core / 8) x q f l)))).filter
      (fun e => !s.cutCovers e.2.1)).any (fun e => s.leafBlocked (core / 8) e.2.2) = false := by
    refine any_false _ _ (fun e he => ?_)
    obtain ⟨l, hmem, hsome⟩ := List.mem_filterMap.mp (List.mem_of_mem_filter he)
    obtain ⟨-, q, m, t, b, hq, hdone, hpipe⟩ := hl l hmem
    rw [hq] at hsome
    cases hsome
    show s.leafBlocked (core / 8) (s.leafLane (core / 8) x q f l) = false
    rw [hdone]
    exact leafBlocked_done hpipe
  unfold doLeafResult
  simp only [hx, hw, foldS_nil, looked, free]
  exact ⟨_, rfl⟩

/-- Outside BKIND 3 no lane enters H_LEAF. -/
theorem afterLeaf_stock {b : Binding} (h : b.bkind ≠ 3) (l : Lane) (pc i : Nat) :
    l.afterLeaf b pc i = { l with hook := none, pc := pc } := by
  have off : hookOn b b.hLeaf = false := by simp [hookOn, h]
  unfold Lane.afterLeaf
  simp only [off]
  split <;> rfl

/-- A test whose residue check passes occupies the pipe that takes it. -/
theorem runPipe_good {s : State} {g p busy : Nat} {residue : List (Fin 24)} (hp : s.choosePipe g none = some p)
    (hr : s.residueBad g p residue = none) : s.runPipe g busy residue = (s.occupyPipe g p busy, residue) := by
  have same : (s.occupyPipe g p busy).residueBad g p residue = none := hr
  unfold State.runPipe
  simp only [hp, same]

/-- A leaf call that is done under a stock walk leaves its lane at the next instruction. -/
theorem leafApply_done {s : State} {key : Nat} {x : Sheaf} {f : Fields} {residue : List (Fin 24)} {l m : Lane} {q : Query} {t b : Nat}
    (hq : s.laneQuery l = some q) (hcut : s.cutCovers q = false) (hdone : s.leafLane (key / 48 / 8) x q f l = .done m t b)
    (hb : x.binding.bkind ≠ 3) :
    let r := if b = 0 then (s, residue) else s.runPipe (key / 48 / 8) b residue
    s.leafApply key x f residue l = (r.1.modLane key l.n (fun _ => { m with noTest := [], served := false, hook := none, pc := l.pc + 1 }), r.2) := by
  unfold State.leafApply
  simp only [hq, hcut, hdone, afterLeaf_stock hb]
  rfl

/-! ### Leaf fills -/

/-- With an empty transaction buffer a fill sees the lines of memory. -/
theorem bufLine_empty {s : State} (h : s.txnBuf = []) (c sc v : Nat) (leaf trailer : Bool) (name : Nat) :
    s.bufLine c sc v leaf trailer name = none := by
  simp [State.bufLine, h]

/-- So do the lines of a leaf fill. -/
theorem leafOverlay_empty {s : State} (h : s.txnBuf = []) (f : LeafFill) (lines : List Line) (hn : f.count = lines.length) :
    s.leafOverlay f lines = lines := by
  unfold State.leafOverlay State.overlay
  simp only [bufLine_empty h, hn]
  exact List.ext_getElem (by simp) (fun i _ _ => by simp [nth, *])

/-- No buffer version of them has an error. -/
theorem leafVersions_empty {s : State} (h : s.txnBuf = []) (f : LeafFill) : s.leafVersions f = (s, false) := by
  unfold State.leafVersions
  exact fold_fix _ _ _ (fun i _ => by simp [bufLine_empty h, State.readVersion])

/-- A block of a scene that is not KEYED goes to the leaf handle queue as it arrived. -/
theorem leafUse_plain {s : State} {g : Nat} {f : LeafFill} {d : Rec64} {lines : List Line} {sus : Bool} (hk : sKeyed d = false) :
    s.leafUse g f d lines sus = ({ s with leafFills := s.leafFills.map (fun (y : LeafFill) =>
      if y.grove == g && y.id == f.id then { y with queued := true } else y) } : State).handLeaf g f.cls (.block f.id lines sus) := by
  unfold State.leafUse
  cases s.keyOf f.id.ctx with
  | none => rfl
  | some k => simp only [hk]; rfl

/-- A leaf block of a scene that is not KEYED whose lines pass their check at the first fetch goes to the leaf handle queue. -/
theorem leafArrived_good {s : State} {g : Nat} {f : LeafFill} {lines : List Line} {d : Rec64} (hd : s.bound f.id.ctx f.id.scene = some d)
    (hk : sKeyed d = false) (ht : s.txnBuf = []) (hn : f.count = lines.length) (ha : f.attempt = 0) (hf : f.forcedBad = false)
    (hc : leafCrcOk lines = true) :
    s.leafArrived g f lines = ({ s with leafFills := s.leafFills.map (fun (y : LeafFill) =>
      if y.grove == g && y.id == f.id then { y with queued := true } else y) } : State).handLeaf g f.cls (.block f.id lines false) := by
  have keyed : s.keyless f.id.ctx d = false := by simp [State.keyless, hk]
  unfold State.leafArrived
  simp only [hd, leafOverlay_empty ht f lines hn, leafVersions_empty ht f, hc, hf, ha, Nat.zero_ne_one, if_false, keyed]
  exact leafUse_plain hk

/-- Where lines already fit nothing is evicted. -/
theorem makeRoom_fits {s : State} {g n : Nat} (h : demandUsed (s.grove g).leafCache + n ≤ s.demandLines) : s.makeRoom g n = s := by
  unfold State.makeRoom
  generalize (s.grove g).leafCache.length = k
  induction k with
  | zero => rfl
  | succ k ih => simp only [iter, h, if_true, ih]

/-- A handle of a block that fits puts it into the demand part. -/
theorem actLeaf_block_fits {s : State} {g : Nat} {id : BlockId} {ls : List Line} {sus : Bool} {f : LeafFill}
    (hf : s.leafFills.find? (fun y => y.grove == g && y.id == id && y.queued) = some f)
    (h : demandUsed (s.grove g).leafCache + ls.length ≤ s.demandLines) :
    s.actLeaf g (.block id ls sus) = some (({ s with leafFills := s.leafFills.filter (fun y => !(y.grove == g && y.id == id)) } : State).installBlock
      g id ls sus f.prefetch) := by
  unfold State.actLeaf
  simp only [hf, makeRoom_fits h, Nat.not_lt.mpr h, if_false]

/-- Settles O11: TESTB_MERGE and LEAF_RESULT of a group that waits for nothing more, one lane of each, the choice of a pipe, and the way
of a leaf block from its fill into the demand part. -/
theorem leafResults : Obligations.LeafResults := by
  refine ⟨?_, ?_, ?_, ?_, ?_, ?_, ?_⟩
  · intro s core sh x f grp units segs key hx hw hl
    exact congrArg Host.Outcome.next (testbMerge_ready hx hw hl)
  · intro s u key x f units l q e ls sus hq hcut hret he hsc hu hlook d hfmt hvec hfld n
    rw [mergeLane_score hq hcut hret he hsc hu]
    exact scoreLane_vec hlook hfmt hvec hfld
  · intro s core sh x f grp residue key hx hw hl
    obtain ⟨lat, h⟩ := leafResult_ready (residue := residue) hx hw hl
    exact ⟨lat, congrArg Host.Outcome.next h⟩
  · intro s key x f residue l m q t b hq hcut hdone hb put
    have applied := leafApply_done (residue := residue) hq hcut hdone hb
    refine ⟨fun h0 => ?_, fun p h0 hp hr => ?_⟩
    · rw [applied, if_pos h0]
    · rw [applied, if_neg h0, runPipe_good hp hr]
  · intro s g p hp
    exact ⟨choosePipe_enabled hp, fun r hr hen hfree => choosePipe_least hp hr hen hfree⟩
  · intro s g id lines fl d hfl hid hn ha hf hqd hslot u hd hk ht hc
    subst hid
    have arrived := leafArrived_good (g := g) hd hk ht hn ha hf hc
    simp only [exec, execLeafFillInstall, doLeafFillInstall, hfl, hqd, hslot]
    exact congrArg Host.Outcome.next arrived
  · intro s g id ls sus fl hf h
    exact actLeaf_block_fits hf h

/-! ### The release of sheaves -/

/-- A sheaf that members may form has a lane and at most 32 (R211). -/
theorem sheafGroups_size {ms l : List (Nat × Query)} (h : l ∈ sheafGroups ms) : l ≠ [] ∧ l.length ≤ 32 := by
  simp only [sheafGroups, List.mem_map, mem_firsts] at h
  obtain ⟨b, ⟨e, he, rfl⟩, rfl⟩ := h
  have hmem : e ∈ ms.filter (fun x => x.2.binding == e.2.binding) := by simp [he]
  refine ⟨fun hnil => ?_, by simp⟩
  rcases List.take_eq_nil_iff.mp hnil with h | h
  · cases h
  · rw [h] at hmem; cases hmem

/-- So has the next sheaf of a cohort. -/
theorem nextSheaf_size {s : State} {c : Cohort} {g : Nat} {ms : List (Nat × Query)} (h : s.nextSheaf c g = some ms) :
    ms ≠ [] ∧ ms.length ≤ 32 := by
  have hmem := leastBy_mem h
  unfold State.formable at hmem
  split at hmem
  · exact sheafGroups_size (List.mem_of_mem_filter hmem)
  · cases hmem

/-- A sheaf of some members has to wait for one that R212 or R215 prefers. -/
def State.sheafBarred (s : State) (g : Nat) (ms : List (Nat × Query)) : Bool :=
  (decide (2 ≤ groupClass ms) && s.displayWaits g) || (ms.length != 32 && s.fullWaits g (groupClass ms))

/-- When a sheaf is barred: for a DISPLAY one (R215), or for a full one while it is not full itself (R212). -/
theorem sheafBarred_iff {s : State} {g : Nat} {ms : List (Nat × Query)} : s.sheafBarred g ms = true ↔
    (2 ≤ groupClass ms ∧ s.displayWaits g = true) ∨ (ms.length ≠ 32 ∧ s.fullWaits g (groupClass ms) = true) := by
  simp [State.sheafBarred]

/-- The next sheaf of a cohort goes to the walk core chosen, unless it is barred. -/
theorem releaseOf_next {s : State} {c : Cohort} {g w : Nat} {ms : List (Nat × Query)} (hn : s.nextSheaf c g = some ms)
    (hc : s.chooseCore g = some w) : s.releaseOf c g = if s.sheafBarred g ms then none else some (ms, w) := by
  unfold State.releaseOf
  rw [hn, hc]
  rfl

/-- What is released is the next sheaf. -/
theorem nextSheaf_of_releaseOf {s : State} {c : Cohort} {g w : Nat} {ms : List (Nat × Query)} (h : s.releaseOf c g = some (ms, w)) :
    s.nextSheaf c g = some ms := by
  unfold State.releaseOf at h
  split at h
  · next hn _ =>
    dsimp only at h
    split at h
    · cases h
    · cases h; exact hn
  · cases h

/-- A query that leaves its cohort for a sheaf leaves the contexts, the placement slots and the outputs. -/
theorem leaveMod_keeps (s : State) (p : Nat) (f : Query → Query) :
    ((s.leaveCohort p).modQuery p f).ctxs = s.ctxs ∧ ((s.leaveCohort p).modQuery p f).slots = s.slots ∧
    ((s.leaveCohort p).modQuery p f).out = s.out := by
  have leave : (s.leaveCohort p).ctxs = s.ctxs ∧ (s.leaveCohort p).slots = s.slots ∧ (s.leaveCohort p).out = s.out := by
    unfold State.leaveCohort
    split <;> exact ⟨rfl, rfl, rfl⟩
  unfold State.modQuery
  split <;> exact leave

/-- The sheaf that a cohort releases stands alone in the first free slot of its walk core, with one lane for each member. -/
theorem releaseSheaf_spec {s : State} {c : Cohort} {g w i : Nat} {ms : List (Nat × Query)} (h : s.releaseOf c g = some (ms, w))
    (hi : (s.freeSheafSlots w).head? = some i) :
    ∃ x, (s.releaseSheaf c g).sheaves = mset s.sheaves (sheafKey w i) x ∧
      x.cohort = c.id ∧ x.cls = groupClass ms ∧ x.wait = .ready ∧
      x.lanes = (List.range ms.length).filterMap (fun j => (ms[j]?).map (fun e => newLane j e.1 e.2)) ∧
      (s.releaseSheaf c g).ctxs = s.ctxs ∧ (s.releaseSheaf c g).slots = s.slots ∧ (s.releaseSheaf c g).out = s.out := by
  obtain ⟨hne, -⟩ := nextSheaf_size (nextSheaf_of_releaseOf h)
  obtain ⟨⟨p, q⟩, t, rfl⟩ := List.exists_cons_of_ne_nil hne
  unfold State.releaseSheaf
  rw [h]
  dsimp only
  rw [hi]
  refine ⟨_, congrArg (fun m => mset m (sheafKey w i) _) ?_, rfl, rfl, rfl, rfl, ?_, ?_, ?_⟩
  · exact foldS_keep State.sheaves _ _ (fun s (l : Lane) => leaveMod_sheaves s l.slot _) s
  · exact foldS_keep State.ctxs _ _ (fun s (l : Lane) => (leaveMod_keeps s l.slot _).1) s
  · exact foldS_keep State.slots _ _ (fun s (l : Lane) => (leaveMod_keeps s l.slot _).2.1) s
  · exact foldS_keep State.out _ _ (fun s (l : Lane) => (leaveMod_keeps s l.slot _).2.2) s

/-- Settles O32: the sheaf that is released, and what its release leaves, are `releaseSheaf_spec`; what holds one back is `sheafBarred_iff`. -/
theorem sheafRelease : Obligations.SheafRelease := by
  refine ⟨?_, ?_, ?_, ?_⟩
  · intro s id g c ms w errs hc hr
    simp only [exec, execSheafRelease, doSheafRelease, hc, hr] <;> rfl
  · intro s id g c ms w i hc hr hi hm
    obtain ⟨x, hsh, hid, hcls, hwait, hlanes, hctxs, hslots, hout⟩ := releaseSheaf_spec hr hi
    obtain ⟨hslot, hn⟩ := fm_slots ms
    obtain ⟨-, hlen⟩ := nextSheaf_size (nextSheaf_of_releaseOf hr)
    have hcount : x.lanes.length = ms.length := by rw [hlanes, ← List.length_map (f := (·.n)), hn, List.length_range]
    refine ⟨s.releaseSheaf c g, x, ?_, ?_, hid, hcls, hwait, ?_, ?_, ?_, ?_, hctxs, hslots, hout⟩
    · simp [exec, execSheafRelease, doSheafRelease, hc, hr, readSlot_none s hm]
    · rw [hsh, mget_mset_self]
    · rw [hlanes, hslot]
    · rw [hcount, hlanes, hn]
    · rw [hcount]; exact hlen
    · intro k hk
      rw [hsh, mget_mset_ne _ _ hk]
  · intro s id g errs h
    simp only [exec, execSheafRelease, doSheafRelease]
    cases hc : s.cohort id with
    | none => rfl
    | some c => simp only [h c hc]
  · intro s c g w ms hn hw
    rw [releaseOf_next hn hw]
    constructor
    · intro display full
      refine if_neg (fun barred => ?_)
      rcases sheafBarred_iff.mp barred with ⟨hcls, hd⟩ | ⟨hlen, hf⟩
      · rw [display hcls] at hd; cases hd
      · rw [full hlen] at hf; cases hf
    · exact fun barred => if_pos (sheafBarred_iff.mpr barred)

/-! ### EMIT and SPAWN -/

/-- An item on its way to the collector leaves the pool. -/
theorem toSource_pool (s : State) (src : Source) (cls : Nat) (i : CItem) : (s.toSource src cls i).pool = s.pool := by
  have put : (s.putItem src cls i).pool = s.pool := by
    cases src with
    | walk g => unfold State.putItem; dsimp only; split <;> rfl
    | frontEnd | scheduler | forward => rfl
  obtain ⟨n, h⟩ := writeSpine_same (s.putItem src cls i) collLine
  rw [State.toSource, h]
  exact put

/-- A lane whose query is not a forwarded one sends no EMIT packet (R480). -/
theorem emitAway_local {s : State} {l : Lane} (h : ∀ q, s.laneQuery l = some q → q.origin = none) (key a : Nat) :
    s.emitAway key a l = s := by
  unfold State.emitAway
  cases hq : s.laneQuery l with
  | none => rfl
  | some q => simp only [h q hq]

/-- EMIT without room for its items is held (R359). -/
theorem emit_full {s : State} {core sh : Nat} {x : Sheaf} {f : Fields} (hs : s.sheafMay core sh x false) (hw : x.walkOnly = true)
    (ha : f.a.toNat ≤ 16) (hr : s.walkRoom (core / 8) x.cls (s.emitItems x.cohort.ctx x.cls f.a.toNat x.group).length = false) :
    doEmit core sh f s = s.modSheaf (sheafKey core sh) (fun y => { y with held := true }) := by
  unfold doEmit
  rw [issue_ok hs (by simp [hw, ha])]
  simp only [hr]
  rfl

/-- EMIT with room hands its items to the walk cores' queue, and each lane goes on (R292). -/
theorem emit_room {s : State} {core sh : Nat} {x : Sheaf} {f : Fields} (hs : s.sheafMay core sh x false) (hw : x.walkOnly = true)
    (ha : f.a.toNat ≤ 16) (hr : s.walkRoom (core / 8) x.cls (s.emitItems x.cohort.ctx x.cls f.a.toNat x.group).length = true)
    (ho : ∀ l ∈ x.group, ∀ q, s.laneQuery l = some q → q.origin = none) :
    doEmit core sh f s = foldS (s.emitItems x.cohort.ctx x.cls f.a.toNat x.group)
      (s.putSheaf core sh { x.mapLanes x.groupNs (fun l => l.next 1) with lat := 1, held := false })
      (fun t i => t.toSource (.walk (core / 8)) x.cls i) := by
  unfold doEmit
  rw [issue_ok hs (by simp [hw, ha])]
  simp only [hr]
  refine foldS_same _ _ _ (fun l hl => emitAway_local (fun q hq => ho l hl q ?_) _ _)
  have pool := foldS_keep State.pool (s.emitItems x.cohort.ctx x.cls f.a.toNat x.group) _
    (fun t i => toSource_pool t (.walk (core / 8)) x.cls i)
    (s.putSheaf core sh { x.mapLanes x.groupNs (fun l => l.advance false) with lat := 1, held := false })
  exact (congrArg (mget · l.slot) pool).symm.trans hq

/-- SPAWN runs the lanes of its group in order, and each goes on (R293). -/
theorem spawn_group {s : State} {core sh : Nat} {x : Sheaf} {f : Fields} (hs : s.sheafMay core sh x false) (hd : isPDst f.d = true)
    (ha : f.a.toNat ≤ 8) :
    doSpawn core sh f s = (s.spawnLanes core (sheafKey core sh) (f.d.toNat - 32) f.a.toNat x.group).modSheaf (sheafKey core sh)
      (fun y => { y.mapLanes x.groupNs (fun l => l.next 1) with lat := 2 }) := by
  unfold doSpawn
  rw [issue_ok hs (by simp [hd, ha])]
  rfl

/-- SPAWN of a query as deep as its context allows drops the record (R251). -/
theorem spawnLane_deep {s : State} {q : Query} (core : Nat) (l : Lane) (a : Nat) (h : dSpawnDepth (s.ctx q.ctx).desc ≤ qDepth q.record) :
    s.spawnLane core q l a = (s.countC q.ctx 8 1, false) := by
  unfold State.spawnLane
  exact if_pos h

/-- The spawn buffer of the core, the context's share or the pool has no room for the record of a lane (R251). -/
def State.spawnFull (s : State) (core : Nat) (q : Query) (l : Lane) (a : Nat) : Bool :=
  decide (64 ≤ (mgetD s.spawnBufs core []).length) || decide (dSpawnPool (s.ctx q.ctx).desc ≤ s.spawnedHeld q.ctx) ||
  !s.mayTakeSlot (min 3 (s.classOf q.ctx (spawnRecord q l a) 0)) q.ctx

/-- Which of the three has no room. -/
theorem spawnFull_iff {s : State} {core : Nat} {q : Query} {l : Lane} {a : Nat} : s.spawnFull core q l a = true ↔
    64 ≤ (mgetD s.spawnBufs core []).length ∨ dSpawnPool (s.ctx q.ctx).desc ≤ s.spawnedHeld q.ctx ∨
    s.mayTakeSlot (min 3 (s.classOf q.ctx (spawnRecord q l a) 0)) q.ctx = false := by
  simp [State.spawnFull, or_assoc]

/-- A record that all three have room for enters the spawn buffer, and is counted SPAWNED. -/
theorem spawnLane_buffer {s : State} {core : Nat} {q : Query} {l : Lane} {a : Nat}
    (hd : qDepth q.record < dSpawnDepth (s.ctx q.ctx).desc) (hr : ¬ s.spawnFull core q l a = true) :
    let b : List SpawnRec := mgetD s.spawnBufs core []
    s.spawnLane core q l a =
      (({ s with spawnBufs := mset s.spawnBufs core (b ++ [{ ctx := q.ctx, record := spawnRecord q l a }]) } : State).countC q.ctx 6 1, true) :=
  (if_neg (Nat.not_le.mpr hd)).trans (if_neg hr)

/-- Any other record is dropped when the overflow area has no room for it. -/
theorem spawnLane_dropped {s : State} {core : Nat} {q : Query} {l : Lane} {a : Nat}
    (hd : qDepth q.record < dSpawnDepth (s.ctx q.ctx).desc) (hf : s.spawnFull core q l a = true)
    (ho : s.ovfTakesFresh q.ctx (min 3 (s.classOf q.ctx (spawnRecord q l a) 0))
      (s.freshRec (min 3 (s.classOf q.ctx (spawnRecord q l a) 0)) (spawnRecord q l a) true []) = false) :
    s.spawnLane core q l a = (s.countC q.ctx 1 1, false) :=
  (if_neg (Nat.not_le.mpr hd)).trans ((if_pos hf).trans (if_pos (by rw [ho]; rfl)))

/-- One that passes its checks is written to an overflow area that has room. -/
theorem spawnLane_overflow {s : State} {core : Nat} {q : Query} {l : Lane} {a : Nat}
    (hd : qDepth q.record < dSpawnDepth (s.ctx q.ctx).desc) (hf : s.spawnFull core q l a = true)
    (ho : s.ovfTakesFresh q.ctx (min 3 (s.classOf q.ctx (spawnRecord q l a) 0))
      (s.freshRec (min 3 (s.classOf q.ctx (spawnRecord q l a) 0)) (spawnRecord q l a) true []) = true)
    (hv : s.verdict q.ctx (spawnRecord q l a) true [] = .pass) :
    s.spawnLane core q l a = ((s.countC q.ctx 7 1).writeDirect q.ctx (min 3 (s.classOf q.ctx (spawnRecord q l a) 0))
      (s.freshRec (min 3 (s.classOf q.ctx (spawnRecord q l a) 0)) (spawnRecord q l a) true []), true) := by
  refine (if_neg (Nat.not_le.mpr hd)).trans ((if_pos hf).trans ((if_neg (by rw [ho]; decide)).trans ?_))
  rw [hv]

/-- Settles O15, by the room that the walk queue has for EMIT, and by the depth and the room that the record of a SPAWN meets. -/
theorem emitAndSpawn : Obligations.EmitAndSpawn := by
  refine ⟨?_, ?_, ?_⟩
  · intro s core sh x f hs hw ha items
    exact ⟨fun full => congrArg Host.Outcome.next (emit_full hs hw ha full),
      fun room ho => congrArg Host.Outcome.next (emit_room hs hw ha room ho)⟩
  · intro s core sh x f hs hd ha
    exact congrArg Host.Outcome.next (spawn_group hs hd ha)
  · intro s core q l a b cls
    refine ⟨spawnLane_deep core l a, fun hd => ⟨fun hb hp hm => ?_, fun full => ?_⟩⟩
    · refine spawnLane_buffer hd (fun full => ?_)
      rcases spawnFull_iff.mp full with h | h | h
      · exact absurd hb (Nat.not_lt.mpr h)
      · exact absurd hp (Nat.not_lt.mpr h)
      · exact absurd (hm.symm.trans h) (by decide)
    · have hf := spawnFull_iff.mpr full
      exact ⟨fun ho => spawnLane_dropped hd hf ho, fun ho hv => spawnLane_overflow hd hf ho hv⟩

/-! ### Admission -/

/-- A read for a context goes out on the fabric port of its address, under the context's address space. -/
theorem readFor_out (s : State) (c : Nat) (a : DWord) (what : ReadKind) :
    (s.readFor c a what).out = .read (s.fabricPort a) (s.asid c) a what :: s.out :=
  congrArg (_ :: ·) (s.touch_out (s.asid c) a)

/-- It changes no context. -/
theorem readFor_ctx (s : State) (c : Nat) (a : DWord) (what : ReadKind) (k : Nat) : (s.readFor c a what).ctx k = s.ctx k :=
  congrArg (mgetD · k Context.reset) (s.touch_ctxs (s.asid c) a)

/-- The context after a change of it. -/
theorem ctx_modCtx (s : State) (c : Nat) (f : Context → Context) : (s.modCtx c f).ctx c = f (s.ctx c) := ctx_setCtx s c _

/-- A scene descriptor is asked for once: the context then waits for it, and memory reads the scene table (R77). -/
theorem askScene_asks {s : State} {c : Nat} (h : Nat) (hb : (s.ctx c).blocked = false) :
    ((s.askScene c h).ctx c).blocked = true ∧
    (s.askScene c h).out = .read (s.fabricPort (addr64 (dSceneTable (s.ctx c).desc) (64 * h))) (s.asid c)
      (addr64 (dSceneTable (s.ctx c).desc) (64 * h)) (.sceneDesc c h) :: s.out := by
  have asked : s.askScene c h = (s.modCtx c (fun x => { x with blocked := true })).readFor c
      (addr64 (dSceneTable (s.ctx c).desc) (64 * h)) (.sceneDesc c h) := by
    unfold State.askScene
    simp only [hb]
    rfl
  rw [asked, readFor_ctx, ctx_modCtx, readFor_out]
  refine ⟨rfl, ?_⟩
  unfold State.asid
  rw [ctx_modCtx]
  rfl

/-- What the admission stage does with a complete record of a QUERY window, as its checks find (R58). -/
def State.admitHead (s : State) (c w : Nat) (r : Rec64) (ext : List Byte) : State :=
  match s.verdict c r false ext with
  | .needScene h => s.askScene c h
  | .needWalk k => s.askWalk c k
  | .refused j => ((s.parsed c w (64 + extBytes r)).toFrontEnd
      (refusedItem c (min 3 (s.classOf c r 0)) (dDelivs (s.ctx c).desc) r false j)).noteAdmission false
  | .miss => ((s.parsed c w (64 + extBytes r)).toFrontEnd (missItem c (s.classOf c r 0) r false)).noteAdmission false
  | .pass => match s.admitPassed c (s.classOf c r 0) r false (dataUnitsOf r ext) .frontEnd with
    | some u => (u.parsed c w (64 + extBytes r)).noteAdmission false
    | none => s

/-- ADMIT_RECORD takes the record at the head of a QUERY window, with DEPTH 0, when it is the window's turn (R29). -/
theorem admitRecord_turn {s : State} {c w : Nat} {r0 : Rec64} {ext : List Byte} (ha : (s.ctx c).admits = true) (hk : s.winKind c w = 1)
    (hh : ((s.ctx c).win w).head = some (r0, ext)) (ht : s.sched.spawnLast = true ∨ s.spawnReady = false) :
    doAdmitRecord c w s = s.admitHead c w (withDepth r0 0) ext := by
  have turn : (!s.sched.spawnLast && s.spawnReady) = false := by
    rcases ht with h | h <;> simp [h]
  unfold doAdmitRecord
  simp only [ha, hk, hh, turn]
  rfl

/-- Without a complete record in the window nothing happens (R33). -/
theorem admitRecord_incomplete {s : State} {c w : Nat} (hh : ((s.ctx c).win w).head = none) : doAdmitRecord c w s = s := by
  unfold doAdmitRecord
  simp only [hh, ite_self]

/-- SPAWN_ADMIT when it is the spawned records' turn (R29, R251). -/
theorem spawnAdmit_turn {s : State} (h : s.sched.spawnLast = false ∨ s.ingestReady = false) :
    doSpawnAdmit s = (s.spawnOrder.findSome? s.admitSpawned).getD s := by
  unfold doSpawnAdmit
  rcases h with h | h <;> simp [h]

/-- A spawned record that passes leaves its buffer once the pool or the overflow area has taken it. -/
theorem admitSpawned_pass {s u : State} {core : Nat} {b : SpawnRec} {rest : List SpawnRec} (hb : mgetD s.spawnBufs core [] = b :: rest)
    (hv : s.verdict b.ctx b.record true [] = .pass)
    (hp : s.admitPassed b.ctx (s.classOf b.ctx b.record 0) b.record true [] .frontEnd = some u) :
    s.admitSpawned core = some (u.spawnTaken core rest) := by
  unfold State.admitSpawned
  simp only [hb, hv, hp, Option.map_some]

/-- A record that may not have a pool slot goes to the overflow area. -/
theorem admitPassed_overflow {s u : State} {c cls : Nat} {r : Rec64} {spawned : Bool} {data : List Unit256} {src : Source}
    (hm : s.mayTakeSlot cls c = false) (h : s.admitPassed c cls r spawned data src = some u) :
    u = (s.writeDirect c cls (s.freshRec cls r spawned data)).count 4 1 := by
  have full : s.enterPool c cls r spawned data src = none := by simp [State.enterPool, hm]
  unfold State.admitPassed at h
  rw [full] at h
  dsimp only at h
  split at h
  · exact (Option.some.inj h).symm
  · cases h

/-- Settles O28, by the cases of the verdict on the record whose turn it is. -/
theorem admission : Obligations.Admission := by
  refine ⟨?_, fun s c w hh => congrArg Host.Outcome.next (admitRecord_incomplete hh), ?_, ?_, ?_,
    fun s u core b rest hb hv hp => admitSpawned_pass hb hv hp, fun s u c cls r spawned data src hm h => admitPassed_overflow hm h⟩
  · intro s c w r0 ext ha hk hh r n cls
    refine ⟨fun hl hs => ?_, fun ht => ?_⟩
    · simp [exec, execAdmitRecord, doAdmitRecord, hl, hs]
    · have turn : exec (.admitRecord c w) s = .next (s.admitHead c w r ext) := congrArg Host.Outcome.next (admitRecord_turn ha hk hh ht)
      rw [turn]
      refine ⟨fun j hv => ?_, fun hv => ?_, fun u hv hp => ?_, fun hv hp => ?_, fun k hv => ?_,
        fun h hv => ⟨?_, fun hb => ?_, fun hb => askScene_asks h hb⟩⟩
      · rw [State.admitHead, hv]
      · rw [State.admitHead, hv]
      · rw [State.admitHead, hv]; dsimp only; rw [hp]
      · rw [State.admitHead, hv]; dsimp only; rw [hp]
      · rw [State.admitHead, hv]
      · rw [State.admitHead, hv]
      · unfold State.askScene; simp only [hb, if_true]
  · intro s u ht hu
    have turn : exec .spawnAdmit s = .next _ := congrArg Host.Outcome.next (spawnAdmit_turn ht)
    rw [turn, hu]
    rfl
  · intro s h
    refine congrArg Host.Outcome.next ?_
    unfold doSpawnAdmit
    rcases h with ⟨hl, hi⟩ | hn
    · simp [hl, hi]
    · simp [hn]
  · intro s core hb
    unfold State.admitSpawned
    simp only [hb]

/-! ### Bough slots -/

/-- The bough at the head of a placement queue, whose fill is done, goes into its reserved slot once that is empty. -/
theorem placementCapture_head {s : State} {g k : Nat} {h : HEntry CohortId} {rest : List (HEntry CohortId)} {f : Fill} {d : Rec64}
    (hq : mgetD s.hq g [] = h :: rest) (hf : s.fillOf h.item = some f) (hd : s.bound h.item.ctx h.item.scene = some d)
    (hst : f.stage = .handle) (hk : f.targets.find? (fun t => groveOfSlot t == g && !f.placed.contains t) = some k) :
    doPlacementCapture g s = if (s.slot k).occ.isSome then s
      else (((({ s with hq := mset s.hq g rest } : State).retryHeld g).ensureEntry h.item 0).1).placeBough k h.item f d := by
  unfold doPlacementCapture
  simp only [hq, hf, hd, hst, beq_self_eq_true, if_true, hk]

/-- The placement check of a bough that is placed and not yet testable: testable, or invalidated. -/
theorem boughTestable_check {s : State} {o sl : Nat} {errs : List (Fin 64 × EccError)} (ho : (s.slot (slotKey o sl)).occ ≠ none)
    (ht : (s.slot (slotKey o sl)).testable = false) (hl : (s.slot (slotKey o sl)).leaving = false) :
    let res := s.readLines (slotKey o sl) (fun n => (errs.find? (fun e => e.1.val == n)).map (·.2))
      (List.range (s.slot (slotKey o sl)).lines.length)
    doBoughTestable o sl errs s = if res.2 then res.1.invalidate (slotKey o sl)
      else res.1.modSlot (slotKey o sl) (fun r => { r with testable := true }) := by
  unfold doBoughTestable
  simp only [some_of ho, ht, hl]
  generalize s.readLines _ _ _ = res
  obtain ⟨u, bad⟩ := res
  cases bad <;> rfl

/-- A slot that is vacated keeps its reservation and nothing else; without one it is not listed. -/
theorem vacate_slots (s : State) (k : Nat) : (s.vacate k).slots =
    if (s.slot k).next = none then merase s.slots k else mset s.slots k { SlotRec.reset with next := (s.slot k).next } := by
  have kept : (s.vacate k).slots = (s.setSlot k { SlotRec.reset with next := (s.slot k).next }).slots := by
    unfold State.vacate
    dsimp only
    split <;> rfl
  have bare : { SlotRec.reset with next := (s.slot k).next } = SlotRec.reset ↔ (s.slot k).next = none :=
    ⟨fun h => congrArg SlotRec.next h, fun h => by rw [h]; rfl⟩
  rw [kept]
  simp only [State.setSlot, bare]

/-- Settles O31: the placement queue's head, the placement check, and a slot that is vacated. -/
theorem boughSlots : Obligations.BoughSlots := by
  refine ⟨?_, ?_, ?_, vacate_slots⟩
  · intro s g h rest f d k hq hf hd hst hk
    have captured := placementCapture_head hq hf hd hst hk
    refine ⟨fun ho => congrArg Host.Outcome.next ?_, fun ho => congrArg Host.Outcome.next ?_⟩
    · rw [captured, if_pos (some_of ho)]
    · rw [captured, if_neg (by simp [ho])]
  · intro s o sl ho ht hl errs k res
    have checked : doBoughTestable o sl errs s = if res.2 then res.1.invalidate k
      else res.1.modSlot k (fun r => { r with testable := true }) := boughTestable_check ho ht hl
    refine ⟨fun good => congrArg Host.Outcome.next ?_, fun good => congrArg Host.Outcome.next ?_, fun bad => congrArg Host.Outcome.next ?_⟩
    · rw [checked, good]; rfl
    · rw [checked, good]; rfl
    · rw [checked, bad]; rfl
  · intro s o sl hl
    refine ⟨fun busy => ?_, fun idle => ?_⟩
    · simp [exec, execVictimSlotFreed, doVictimSlotFreed, busy]
    · simp [exec, execVictimSlotFreed, doVictimSlotFreed, hl, idle]

end Sys2Proof.Machine
end

section
/-! PROOFS. The statements of 03_scene_formats: the lines of a fill (O30), and tables, translation and the runs of a cut (O42), each
after the facts about the operations that it rests on. -/
namespace Sys2Proof.Machine

/-! ### The lines of a fill -/

/-- The node lines that a trailer line names for a bough, 1 to 64 (R84; assumption 26). -/
def trailerLines (l : Line) (b : Nat) : Nat := max 1 (min 64 (fld (trailerOf l b) 4 8))

/-- At least one line is asked for. -/
theorem one_le_trailerLines (l : Line) (b : Nat) : 1 ≤ trailerLines l b := Nat.le_max_left _ _

/-- A bough has no more than 64. -/
theorem trailerLines_le (l : Line) (b : Nat) : trailerLines l b ≤ 64 :=
  Nat.max_le.mpr ⟨by decide, Nat.min_le_left _ _⟩

/-- A trailer that returns fixes how many node lines the transfer asks for, before it is checked (R84). -/
theorem trailerReturn_asks {s : State} {id : CohortId} {f : Fill} {d : Rec64} (line : Line) (hf : s.fillOf id = some f)
    (hd : s.bound id.ctx id.scene = some d) (hst : f.stage = .trailer) :
    let u := s.takeLine id 64 line
    let n := trailerLines (((u.fillOf id).map (fun f => mgetD f.got 64 0)).getD 0) id.bough
    let v := (u.modFill id (fun x => { x with stage := .lines, count := some n })).lineBack (.fill id)
    doTrailerReturn id line s = match v.xferOf (.fill id) with
      | some x => (v.giveWork x.n (nodeWork d id n)).pumpLines
      | none => v := by
  unfold doTrailerReturn trailerLines
  simp only [hf, hd, hst, beq_self_eq_true, if_true]
  cases (s.takeLine id 64 line).fillOf id <;> rfl

/-- A line that the fill still waits for is taken, and the fill is checked (R525). -/
theorem fillLineReturn_awaited {s : State} {id : CohortId} {n : Nat} {f : Fill} (line : Line) (hf : s.fillOf id = some f)
    (hst : f.stage = .lines) (hn : mget f.got n = none) (ha : n = 64 ∨ n < f.count.getD 0) :
    doFillLineReturn id n line s = ((s.takeLine id n line).lineBack (.fill id)).checkFill id := by
  have awaited : (n == 64 || decide (n < f.count.getD 0)) = true := by simpa using ha
  unfold doFillLineReturn
  simp only [hf, hst, hn, awaited]
  rfl

/-- Decryption changes the node lines of the fill, and not its trailer; the bough is then ready for placement (R124). -/
theorem decryptDone_enters {s : State} {id : CohortId} {f : Fill} {k : KeySlot} (hf : s.fillOf id = some f) (hk : s.keyOf id.ctx = some k)
    (hst : f.stage = .decrypt) :
    doDecryptDone id s = (s.modFill id (fun x => { x with
      got := mmap x.got (fun n l => if n < 64 then decryptNode k id.bough n l else l) })).enterHandles id := by
  unfold doDecryptDone
  simp only [hf, hk, hst]
  rfl

/-! ### The check of a fill -/

/-- A bough of a scene that is not KEYED needs no key, and goes to its placement queue. -/
theorem useBough_plain {s : State} {f : Fill} {d : Rec64} (hk : sKeyed d = false) : s.useBough f d = s.enterHandles f.id := by
  simp [State.useBough, State.keyless, hk]

section
variable {s : State} {id : CohortId} {f : Fill} {d : Rec64} (hf : s.fillOf id = some f) (hd : s.bound id.ctx id.scene = some d)
include hf hd

/-- A fill is not checked before its last line has returned. -/
theorem checkFill_incomplete (hc : f.complete = false) : s.checkFill id = s := by
  simp [State.checkFill, hf, hd, hc]

/-- A bough whose first reading meets R85 is used. -/
theorem checkFill_good (hc : f.complete = true) (ok : boughCheckOk d id.bough f.lines (trailerOf (mgetD f.got 64 0) id.bough) = true)
    (hb : f.forcedBad = false) (ha : f.attempt = 0) : s.checkFill id = s.useBough f d := by
  simp only [State.checkFill, hf, hd, hc, ok, hb, ha]
  rfl

/-- A bough that fails its first check gives its transfer back and is fetched again, its trailer after its lines unless it must come
first (R419). -/
theorem checkFill_again (hc : f.complete = true) (bad : boughCheckOk d id.bough f.lines (trailerOf (mgetD f.got 64 0) id.bough) = false)
    (ha : f.attempt = 0) (ht : trailerFirst d id (((s.cohort id).map (·.clines)).getD 0) = false) :
    s.checkFill id = ((s.finishXfer (.fill id)).modFill id (fun x => { x with
      attempt := 1, got := [], forcedBad := false, fails := [], stage := .xferWait })).request (.fill id) id.ctx f.cls := by
  simp only [State.checkFill, hf, hd, hc, bad, ha, ht]
  rfl

/-- A bough that fails its second check is counted FILL_CHECK_FAIL, and under DROP it is not placed (R421). -/
theorem checkFill_drops (hc : f.complete = true) (bad : boughCheckOk d id.bough f.lines (trailerOf (mgetD f.got 64 0) id.bough) = false)
    (ha : f.attempt = 1) (hp : sDrop d = true) : s.checkFill id = (s.count 62 1).dropBough f := by
  simp only [State.checkFill, hf, hd, hc, bad, ha, hp]
  rfl

end

/-- Settles O30: what each line that returns does, and the branches of the check. -/
theorem fillLines : Obligations.FillLines := by
  refine ⟨?_, ?_, ?_, ?_⟩
  · intro s id f d line hf hd hst u tl n
    exact ⟨congrArg Host.Outcome.next (trailerReturn_asks line hf hd hst), one_le_trailerLines tl id.bough, trailerLines_le tl id.bough⟩
  · intro s id n f line hf hst hn ha
    exact congrArg Host.Outcome.next (fillLineReturn_awaited line hf hst hn ha)
  · intro s id f d hf hd
    exact ⟨checkFill_incomplete hf hd,
      fun hc ok hb ha hk => (checkFill_good hf hd hc ok hb ha).trans (useBough_plain hk),
      checkFill_again hf hd, checkFill_drops hf hd⟩
  · intro s id f k hf hk hst
    exact congrArg Host.Outcome.next (decryptDone_enters hf hk hst)

/-! ### Translation -/

/-- A fault of translation kills a context that is open, with the PC of its strand (R456). -/
theorem translationFault_kills {s : State} {c : Nat} (a : DWord) (ho : (s.ctx c).state = .opened) :
    doTranslationFault c a s = s.kill c 2 noUnit (s.ctx c).strand.pc a := by
  simp only [doTranslationFault, ho]

/-- It ends the open of a context that is being opened, with code 7; its counters and its last cause stay. -/
theorem translationFault_endsOpen {s : State} {c : Nat} (a : DWord) (ho : (s.ctx c).state = .opening) :
    doTranslationFault c a s = s.setCtx c { Context.reset with
      openCode := 7, cnt := (s.ctx c).cnt, endCause := (s.ctx c).endCause } := by
  simp only [doTranslationFault, ho, State.modCtx]

/-- The cached translation of a page under an address space is dropped. -/
def State.dropPage (s : State) (asid : Nat) (page : DWord) : State :=
  { s with tlb := s.tlb.filter (fun e => !(e.1 == asid && e.2 == page.toNat / 4096)) }

/-- Which accesses are open does not depend on what translations are cached. -/
theorem accessesOpen_dropPage (s : State) (asid : Nat) (page : DWord) (b : Nat) :
    (s.dropPage asid page).accessesOpen b = s.accessesOpen b := rfl

/-- An invalidation is acknowledged at once when no access under its address space is open (R458). -/
theorem translationInvalidate_acks {s : State} {asid : Nat} (page : DWord) (h : s.accessesOpen asid = false) :
    doTranslationInvalidate asid page s = (s.dropPage asid page).emit (.invalidateAck asid page) :=
  if_neg (Bool.eq_false_iff.mp ((accessesOpen_dropPage s asid page asid).trans h))

/-- It waits while one is open. -/
theorem translationInvalidate_waits {s : State} {asid : Nat} (page : DWord) (h : s.accessesOpen asid = true) :
    doTranslationInvalidate asid page s = { s.dropPage asid page with invalidates := s.invalidates ++ [(asid, page)] } :=
  if_pos ((accessesOpen_dropPage s asid page asid).trans h)

/-! ### Scene descriptors and walk table entries -/

/-- The first reading of a scene descriptor is kept, and its shard map is read (R77). -/
theorem sceneDescriptorRead_first {s : State} {c h : Nat} (d : Rec64) (sh : Option ShardRead) (ho : (s.ctx c).state = .opened)
    (hn : mget (s.ctx c).scenes h = none) (hs : h < dScenes (s.ctx c).desc) :
    doSceneDescriptorRead c h d sh s = (s.modCtx c (fun x => { x with
      scenes := mset x.scenes h { desc := d, shard := sh }, blocked := false })).readShard c h d sh := by
  simp [doSceneDescriptorRead, ho, hn, hs]

/-- A later reading changes nothing. -/
theorem sceneDescriptorRead_later {s : State} {c h : Nat} {x : SceneRead} (d : Rec64) (sh : Option ShardRead)
    (hx : mget (s.ctx c).scenes h = some x) : doSceneDescriptorRead c h d sh s = s := by
  simp [doSceneDescriptorRead, hx]

/-- A walk table entry is kept as it is checked, and its context waits for it no longer (R235). -/
def State.keepEntry (s : State) (c n : Nat) (entry : Rec32) (img : Option ImageRead) : State :=
  s.modCtx c (fun x => { x with walks := mset x.walks n (bindEntry n entry img).2, blocked := false })

/-- The register in which the LAUNCH that a strand waits in wants the code of entry n. -/
def Strand.launches (t : Strand) (n : Nat) : Option Nat :=
  match t.state with
  | .waiting (.launch rd m) => if m = n then some rd else none
  | _ => none

/-- No LAUNCH waits for the entry. -/
theorem launches_none {t : Strand} {n : Nat} (h : ∀ rd, t.state ≠ .waiting (.launch rd n)) : t.launches n = none := by
  unfold Strand.launches
  split
  · next rd m e => exact if_neg (fun same => h rd (by rw [e, same]))
  · rfl

/-- A LAUNCH waits for it. -/
theorem launches_some {t : Strand} {n rd : Nat} (h : t.state = .waiting (.launch rd n)) : t.launches n = some rd := by
  simp [Strand.launches, h]

/-- The code of an entry goes to the LAUNCH that waits for it, if one does. -/
def State.tellLaunch (s : State) (c code : Nat) : Option Nat → State
  | some rd => s.wake c rd (BitVec.ofNat 64 code)
  | none => s

section
variable {s : State} {c n : Nat} {entry : Rec32} {img : Option ImageRead} (ho : (s.ctx c).state = .opened)
include ho

/-- An entry is taken when it has not been read before, or when a LAUNCH has asked for it. -/
theorem walkEntryRead_kept (hw : mget (s.ctx c).walks n = none ∨ ((s.ctx c).strand.launches n).isSome = true)
    (hi : entryImage n entry = none ∨ img ≠ none) :
    doWalkEntryRead c n entry img s = ((s.readEntryImage c n entry img).keepEntry c n entry img).tellLaunch c
      (bindEntry n entry img).1 ((s.ctx c).strand.launches n) := by
  have wanted : (((s.ctx c).strand.launches n).isNone && (mget (s.ctx c).walks n).isSome) = false := by
    rcases hw with h | h
    · rw [h]; exact Bool.and_false _
    · rw [Option.isNone_eq_false_iff.mpr h]; rfl
  refine (if_neg ?_).trans ?_
  · rw [ho, Bool.not_eq_true]
    exact wanted
  · split
    · next a ha => simp [ha] at hi
    · rfl

/-- An image that an entry needs and that could not be read kills the context (R456). -/
theorem walkEntryRead_kills {a : DWord} (hw : mget (s.ctx c).walks n = none) (ha : entryImage n entry = some a) (hi : img = none) :
    doWalkEntryRead c n entry img s = (s.readEntryImage c n entry img).kill c 2 noUnit (s.ctx c).strand.pc a := by
  refine (if_neg ?_).trans ?_
  · simp [ho, hw]
  · rw [ha, hi]

end

/-- The strand whose LAUNCH asked for an entry goes on with its code (R235). -/
theorem keepEntry_woken (s : State) (c n : Nat) (entry : Rec32) (img : Option ImageRead) (rd : Nat) (v : DWord) :
    (s.keepEntry c n entry img).wake c rd v = s.modCtx c (fun x => { x with
      walks := mset x.walks n (bindEntry n entry img).2
      blocked := false
      strand := { x.strand.set rd v with state := .ready, fails := [] } }) := by
  rw [wake_eq, State.strandWoken, State.withStrand, State.keepEntry, ctx_modCtx]
  exact setCtx_setCtx s c _ _

/-! ### The runs of a cut -/

/-- Without a run that the cut covers nothing is read. -/
theorem cutRunRead_none {s : State} {c : Nat} (rseq : Nat) (a b : RunRead) (h : (s.ctx c).cutRun = none) : doCutRunRead c rseq a b s = s := by
  simp only [doCutRunRead, h]

section
variable {s : State} {c : Nat} {r : Run} (hr : (s.ctx c).cutRun = some r)
include hr

/-- The cut reads its runs in their order, each under a transfer that holds a slot. -/
theorem cutRunRead_other {rseq : Nat} (a b : RunRead) (h : r.rseq ≠ rseq ∨ s.hasSlot (.run c rseq) = false) :
    doCutRunRead c rseq a b s = s := by
  have other : (decide (r.rseq ≠ rseq) || !s.hasSlot (.run c rseq)) = true := by simpa using h
  unfold doCutRunRead
  simp only [hr]
  exact if_pos other

variable {a b : RunRead} (hs : s.hasSlot (.run c r.rseq) = true)
include hs

/-- A run that neither of its readings gave is lost (R224). -/
theorem cutRunRead_lost {n : Nat} (hl : (if r.rereads = 0 then runLost a b else runLost a a) = some n) :
    doCutRunRead c r.rseq a b s = ((s.readRun c r a).loseRun c r.rseq n).settleCut c := by
  simp [doCutRunRead, hr, hs, hl]

/-- Each record of any other run ends LATE, and the run is marked done (R227, R229). -/
theorem cutRunRead_ends (hl : (if r.rereads = 0 then runLost a b else runLost a a) = none) :
    let u := s.readRun c r a
    doCutRunRead c r.rseq a b s = (foldS r.recs
      (((u.dropRun c r.rseq).writeTracked c [(addr64 (u.areaLine c r.start) 1, [2])]).countC c 3 r.recs.length)
      (fun t y => t.lateRec c y)).settleCut c := by
  simp [doCutRunRead, hr, hs, hl]

end

/-- Settles O42: the cases of a fault and of an invalidation, the readings of tables that are kept, and the run that the cut reads
next. -/
theorem tablesAndTranslation : Obligations.TablesAndTranslation := by
  refine ⟨fun s c a ho => ?_, fun s c a ho => ?_, ?_, fun s asid page => ?_, ?_, ?_, fun s c rseq a b hn => ?_, ?_⟩
  · exact congrArg (fun t : State => Host.Outcome.next t.settleAll) (translationFault_kills a ho)
  · exact congrArg (fun t : State => Host.Outcome.next t.settleAll) (translationFault_endsOpen a ho)
  · rintro s u asid rfl
    rfl
  · refine ⟨_, rfl, ?_⟩
    cases h : s.accessesOpen asid.toNat
    · rw [translationInvalidate_acks page h]
      exact ⟨rfl, fun _ => ⟨rfl, rfl⟩, nofun⟩
    · rw [translationInvalidate_waits page h]
      exact ⟨rfl, nofun, fun _ => ⟨rfl, rfl⟩⟩
  · rintro s u c h d sh rfl ho
    exact ⟨fun hn hs => congrArg Host.Outcome.next (sceneDescriptorRead_first d sh ho hn hs),
      fun x hx => congrArg Host.Outcome.next (sceneDescriptorRead_later d sh hx)⟩
  · rintro s u v c n entry img rfl ho rfl
    refine ⟨fun hn hl hi => congrArg Host.Outcome.next ?_, fun rd hl hi => congrArg Host.Outcome.next ?_,
      fun a hn ha hi => congrArg Host.Outcome.next (walkEntryRead_kills ho hn ha hi)⟩
    · rw [walkEntryRead_kept ho (.inl hn) hi, launches_none hl]
      rfl
    · have asked := launches_some hl
      rw [walkEntryRead_kept ho (.inr (by rw [asked]; rfl)) hi, asked]
      exact keepEntry_woken ..
  · exact congrArg Host.Outcome.next (cutRunRead_none rseq a b hn)
  · intro s u c rseq a b r hr
    refine ⟨fun h => congrArg Host.Outcome.next (cutRunRead_other hr a b h), ?_⟩
    rintro rfl hs rfl lost
    exact ⟨fun n hl => congrArg Host.Outcome.next (cutRunRead_lost hr hs hl), fun hl => congrArg Host.Outcome.next (cutRunRead_ends hr hs hl)⟩

end Sys2Proof.Machine
end

section
/-! PROOFS. The statements of 05_canopy_node_banks: the scrubs and the known-answer injections (O48), and the repairs of banks with the
sequencer patch (O53), each after the facts about the operations that it rests on. -/
namespace Sys2Proof.Machine

/-! ### Reads of bank lines -/

/-- A read with no error to find leaves the state as it is. -/
theorem bankRead_clean {s : State} {b line : Nat} {e : Option EccError} (h : s.bankFinds b line e = none) :
    s.bankRead b line e = (s, false) := by
  simp only [State.bankRead, h]

/-- A corrected error goes from its line and counts against the bank (R178). -/
theorem bankRead_corrected {s : State} {b line : Nat} {e : Option EccError} (h : s.bankFinds b line e = some false) :
    s.bankRead b line e =
      ((s.clearMark 0 b line).bankCorrected (e.isNone && (s.sramMark 0 b line).isSome) b, false) := by
  simp only [State.bankRead, h]

/-- An uncorrectable error goes from its line, which cannot be used (R179). -/
theorem bankRead_uncorrected {s : State} {b line : Nat} {e : Option EccError} (h : s.bankFinds b line e = some true) :
    s.bankRead b line e =
      ((s.clearMark 0 b line).bankUncorrected (e.isNone && (s.sramMark 0 b line).isSome) b line, true) := by
  simp only [State.bankRead, h]

/-- Only an uncorrectable error makes a line unusable. -/
theorem bankRead_usable {s : State} {b line : Nat} {e : Option EccError} (h : s.bankFinds b line e ≠ some true) :
    (s.bankRead b line e).2 = false := by
  rcases hf : s.bankFinds b line e with _ | _ | _
  · rw [bankRead_clean hf]
  · rw [bankRead_corrected hf]
  · exact absurd hf h

/-! ### The scrub of a bank -/

/-- The scrub of a bank goes on to the line after the one that it read; a new pass starts with no corrected error counted (R178). -/
def State.scrubPast (s : State) (b line : Nat) : State :=
  s.modBank b (fun x => if line = 511 then { x with scrub := 0, ce := 0 } else { x with scrub := line + 1 })

/-- Without its bit of INTEG_CTL, or in a grove whose banks do not run, no bank is scrubbed. -/
theorem scrubRead_off {s : State} {b : Nat} (e : Option EccError) (h : s.integOn 1 = false ∨ s.bankRuns b = false) :
    doScrubRead b e s = s :=
  if_pos (by rcases h with h | h <;> simp [h])

section
variable {s : State} {b : Nat} {e : Option EccError} (hon : s.integOn 1 = true) (hr : s.bankRuns b = true)
include hon hr

/-- A line that can be used is read and left, whether a bough lies there or not. -/
theorem scrubRead_usable (h : s.bankFinds b (s.bank b).scrub e ≠ some true) :
    doScrubRead b e s = (s.bankRead b (s.bank b).scrub e).1.scrubPast b (s.bank b).scrub := by
  have usable := bankRead_usable h
  unfold doScrubRead
  simp only [hon, hr]
  cases s.slotAtLine b (s.bank b).scrub with
  | none => simp [h, State.scrubPast]
  | some k =>
    generalize s.bankRead b (s.bank b).scrub e = res at usable ⊢
    obtain ⟨u, bad⟩ := res
    cases usable
    rfl

/-- The slot of a placed bough with a line that cannot be used is invalidated (R179). -/
theorem scrubRead_placed {k : Nat} (h : s.bankFinds b (s.bank b).scrub e = some true) (hk : s.slotAtLine b (s.bank b).scrub = some k) :
    doScrubRead b e s = ((s.bankRead b (s.bank b).scrub e).1.invalidate k).scrubPast b (s.bank b).scrub := by
  unfold doScrubRead
  simp only [hon, hr, hk, bankRead_uncorrected h]
  rfl

/-- Outside every placed bough a line that cannot be used is counted, and nothing more (R180). -/
theorem scrubRead_empty (h : s.bankFinds b (s.bank b).scrub e = some true) (hk : s.slotAtLine b (s.bank b).scrub = none) :
    doScrubRead b e s = ((s.clearMark 0 b (s.bank b).scrub).count 48 1).scrubPast b (s.bank b).scrub := by
  unfold doScrubRead
  simp only [hon, hr, hk, h]
  rfl

end

/-! ### Known-answer injections -/

/-- The bank goes on to its next pattern (R182). -/
def State.nextPattern (s : State) (b : Nat) : State := s.modBank b (fun x => { x with kat := (x.kat + 1) % 16 })

/-- Without its bit of INTEG_CTL, or in a grove whose banks do not run, nothing is injected. -/
theorem katInjection_off {s : State} {b : Nat} (pass : Bool) (h : s.integOn 5 = false ∨ s.bankRuns b = false) :
    doKatInjection b pass s = s :=
  if_pos (by rcases h with h | h <;> simp [h])

section
variable {s : State} {b : Nat} (hon : s.integOn 5 = true) (hr : s.bankRuns b = true) (hi : s.katInj b = false)
include hon hr hi

/-- A right answer leaves the bank in service. -/
theorem katInjection_passes : doKatInjection b true s = s.nextPattern b := by
  unfold doKatInjection
  simp only [hon, hr, hi]
  rfl

/-- A wrong answer is logged with its pattern and fails the bank (R183). -/
theorem katInjection_fails : doKatInjection b false s =
    (((((s.nextPattern b).count 49 1).log 3 1 noUnit ((s.nextPattern b).bankUnit b) b (((s.bank b).kat + 4) % 16)).interrupt 1).failBank b) := by
  unfold doKatInjection
  simp only [hon, hr, hi]
  rfl

end

/-! ### The scrub of the spine -/

/-- A line without an error to find is read and left. -/
theorem spineRead_clean {s : State} {line : Nat} (h : s.spineMark line = none) : s.spineRead line none = (s, false) := by
  simp only [State.spineRead, State.spineFinds, h]

/-- A correctable error of the surroundings goes from its line and is counted (R188). -/
theorem spineRead_corrected {s : State} {line : Nat} (hc : s.integOn 0 = true) :
    s.spineRead line (some .correctable) = ((s.clearMark 1 0 line).count 51 1, false) := by
  simp only [State.spineRead, State.spineFinds, hc, Bool.not_true]

/-- An uncorrectable error of the surroundings is counted and logged, and the line cannot be used (R188). -/
theorem spineRead_uncorrected (s : State) (line : Nat) :
    s.spineRead line (some .uncorrectable) =
      ((((s.clearMark 1 0 line).count 52 1).log 5 1 noUnit noUnit noUnit line).interrupt 1, true) := rfl

/-- A pool slot that cannot be used ends the query in it (R426). -/
theorem spineUncorrected_pool (s : State) (inj : Bool) {line : Nat} (h : line < 524288) :
    s.spineUncorrected inj line = s.failQuery line errPOOL_UE .scheduler :=
  if_pos h

/-- A line of an extension unit that cannot be used ends the query that owns the unit (R426). -/
theorem spineUncorrected_unit {s : State} (inj : Bool) {line : Nat} {q : Nat × Query} (hlo : 524288 ≤ line) (hhi : line < collLine)
    (hq : s.pool.find? (fun e => (e.2.dataUnits ++ e.2.collUnits).contains ((line - 524288) / 2)) = some q) :
    s.spineUncorrected inj line = s.failQuery q.1 errEXT_UE .scheduler := by
  unfold State.spineUncorrected
  rw [if_neg (Nat.not_lt.mpr hlo), if_pos hhi, hq]

/-- The scrub of the spine goes on to the next of its 917,504 lines (R187). -/
def State.spinePast (s : State) : State := { s with integ := { s.integ with spineScrub := (s.integ.spineScrub + 1) % 917504 } }

/-- Without its bit of INTEG_CTL the spine is not scrubbed. -/
theorem spineScrub_off {s : State} (e : Option EccError) (h : s.integOn 2 = false) : doSpineScrub e s = s :=
  if_pos (by simp [h])

section
variable {s : State} {e : Option EccError} (hst : s.dev.stage = .ready) (hon : s.integOn 2 = true)
include hst hon

/-- A line that can be used is read and left. -/
theorem spineScrub_usable {u : State} (h : s.spinePast.spineRead s.integ.spineScrub e = (u, false)) : doSpineScrub e s = u := by
  rw [State.spinePast] at h
  unfold doSpineScrub
  simp only [hst, hon, h]
  rfl

/-- A line that cannot be used brings its damage. -/
theorem spineScrub_unusable {u : State} (h : s.spinePast.spineRead s.integ.spineScrub e = (u, true)) :
    doSpineScrub e s = u.spineUncorrected e.isNone s.integ.spineScrub := by
  rw [State.spinePast] at h
  unfold doSpineScrub
  simp only [hst, hon, h]
  rfl

end

/-! ### The scrub of the transaction buffer -/

/-- A buffer line that is not known to be lost and holds no injected error is read and left. -/
theorem readBuf_clean {s : State} {n : Nat} (hm : s.sramMark 2 0 n = none) (hk : ((mget s.txnBuf n).map (·.ue)).getD false = false) :
    s.readBuf n none = s.clearMark 2 0 n := by
  simp [State.readBuf, hm, hk]

/-- A correctable error of such a line is corrected and counted (R424). -/
theorem readBuf_corrected {s : State} {n : Nat} (hm : s.sramMark 2 0 n = none) (hk : ((mget s.txnBuf n).map (·.ue)).getD false = false)
    (hc : s.integOn 0 = true) : s.readBuf n (some .correctable) = (s.clearMark 2 0 n).count 53 1 := by
  have on : (s.clearMark 2 0 n).integOn 0 = true := hc
  simp [State.readBuf, hm, hk, on]

/-- An uncorrectable error of a buffer line marks it, and is counted and logged (R427). -/
theorem readBuf_uncorrected (s : State) (n : Nat) : s.readBuf n (some .uncorrectable) = (s.clearMark 2 0 n).bufUncorrected false n := by
  simp [State.readBuf]

/-- The scrub of the transaction buffer goes on to the next of its 32,768 lines. -/
def State.txnPast (s : State) : State := { s with integ := { s.integ with txnScrub := (s.integ.txnScrub + 1) % 32768 } }

/-- Without its bit of INTEG_CTL the transaction buffer is not scrubbed. -/
theorem txnScrub_off {s : State} (e : Option EccError) (h : s.integOn 3 = false) : doTxnScrub e s = s :=
  if_pos (by simp [h])

/-- The scrub of the transaction buffer reads its next line. -/
theorem txnScrub_reads {s : State} (e : Option EccError) (hst : s.dev.stage = .ready) (hon : s.integOn 3 = true) :
    doTxnScrub e s = s.txnPast.readBuf s.integ.txnScrub e :=
  if_neg (by simp [hst, hon])

/-! ### The scrub of the directory -/

/-- The scrub of the directory goes on to the next of its 4,096 sets. -/
def State.dirPast (s : State) : State := { s with integ := { s.integ with dirScrub := (s.integ.dirScrub + 1) % 4096 } }

/-- Without its bit of INTEG_CTL the directory is not scrubbed. -/
theorem dirScrub_off {s : State} (e : Option EccError) (h : s.integOn 4 = false) : doDirScrub e s = s :=
  if_pos (by simp [h])

section
variable {s : State} (hst : s.dev.stage = .ready) (hon : s.integOn 4 = true)
include hst hon

/-- A set without an uncorrectable error is left. -/
theorem dirScrub_usable {e : Option EccError} (h : e = none ∨ e = some .correctable ∧ s.integOn 0 = true) :
    doDirScrub e s = s.dirPast := by
  refine (if_neg (by simp [hst, hon])).trans (if_neg ?_)
  have kept : s.dirPast.integOn 0 = s.integOn 0 := rfl
  rw [State.dirPast] at kept
  rcases h with rfl | ⟨rfl, hc⟩
  · simp
  · simp [kept, hc]

/-- An uncorrectable error is counted and logged, and one line of the set is lost (R428). -/
theorem dirScrub_loses {v : State} (hv : (s.dirPast.count 58 1).report 9 1 noUnit noUnit noUnit 6 = v) :
    doDirScrub (some .uncorrectable) s = ({ v with freeCtr := v.freeCtr + 1 } : State).loseDirLine s.integ.dirScrub
      (Config.freeWord v.freeCtr).toNat := by
  subst hv
  exact (if_neg (by simp [hst, hon])).trans (if_pos rfl)

end

/-- Settles O48, scrub by scrub, each by what its read finds. -/
theorem scrubs : Obligations.Scrubs := by
  refine ⟨fun s b e h => congrArg Host.Outcome.next (scrubRead_off e h), ?_, ?_,
    fun s b pass h => congrArg Host.Outcome.next (katInjection_off pass h), ?_, ?_, ?_, fun s e => ⟨?_, ?_, ?_⟩⟩
  · intro s b e hon hr on
    refine ⟨fun h => congrArg Host.Outcome.next ?_, fun h => congrArg Host.Outcome.next ?_,
      fun k h hk => congrArg Host.Outcome.next ?_, fun h hk => congrArg Host.Outcome.next (scrubRead_empty hon hr h hk)⟩
    · rw [scrubRead_usable hon hr (by simp [h]), bankRead_clean h]; rfl
    · rw [scrubRead_usable hon hr (by simp [h]), bankRead_corrected h]; rfl
    · rw [scrubRead_placed hon hr h hk, bankRead_uncorrected h]; rfl
  · rintro s b pass hon hr hi u
    exact ⟨by rintro rfl; exact congrArg Host.Outcome.next (katInjection_passes hon hr hi),
      by rintro rfl; exact congrArg Host.Outcome.next (katInjection_fails hon hr hi)⟩
  · intro s hst hon hm n u
    have lost := spineScrub_unusable hst hon (spineRead_uncorrected s.spinePast n)
    refine ⟨congrArg Host.Outcome.next (spineScrub_usable hst hon (spineRead_clean hm)),
      fun hc => congrArg Host.Outcome.next (spineScrub_usable hst hon (spineRead_corrected hc)),
      fun hp => congrArg Host.Outcome.next (lost.trans (spineUncorrected_pool _ false hp)),
      fun q hlo hhi hq => congrArg Host.Outcome.next (lost.trans (spineUncorrected_unit false hlo hhi hq))⟩
  · intro s hst hon hm n u
    have reads : ∀ e, exec (.txnScrub e) s = .next (s.txnPast.readBuf n e) := fun e => congrArg Host.Outcome.next (txnScrub_reads e hst hon)
    exact ⟨fun hk => (reads none).trans (congrArg Host.Outcome.next (readBuf_clean hm hk)),
      fun hk hc => (reads _).trans (congrArg Host.Outcome.next (readBuf_corrected hm hk hc)),
      (reads _).trans (congrArg Host.Outcome.next (readBuf_uncorrected _ n))⟩
  · intro s hst hon u
    exact ⟨congrArg Host.Outcome.next (dirScrub_usable hst hon (.inl rfl)),
      fun hc => congrArg Host.Outcome.next (dirScrub_usable hst hon (.inr ⟨rfl, hc⟩)),
      fun v hv => congrArg Host.Outcome.next (dirScrub_loses hst hon hv)⟩
  · exact fun h => congrArg Host.Outcome.next (spineScrub_off e h)
  · exact fun h => congrArg Host.Outcome.next (txnScrub_off e h)
  · exact fun h => congrArg Host.Outcome.next (dirScrub_off e h)

/-! ### REPAIR_MAP -/

/-- A write that names a free usable spare starts the repair of the selected logical bank of a grove in FROST (R536). -/
theorem repairWrite_starts {s : State} {g b phys : Nat} (hb : (s.grove g).selected = some b) (hst : (s.grove g).state = .frost)
    (hr : (s.grove g).repair = none) (hlo : 96 ≤ phys) (hhi : phys < 100) (hbad : (s.grove g).spareBad.getLsbD (phys - 96) = false)
    (hused : (s.grove g).spareUsed.getLsbD (phys - 96) = false) :
    s.repairWrite g phys = s.modGrove g (fun x => { x with repair := some { bank := b, phys := phys } }) := by
  unfold State.repairWrite
  simp only [hb]
  exact if_pos (by simp [hst, hr, hlo, hhi, hbad, hused])

/-- Any other write to an active grove sets REPAIR_ERR (R536): no bank is selected, the grove is not in FROST, a repair is in progress,
or what is named is no spare, an unusable one or one in use. -/
theorem repairWrite_errs {s : State} {g phys : Nat} (hst : (s.grove g).state ≠ .inactive)
    (h : ((s.grove g).selected = none ∨ (s.grove g).state ≠ .frost ∨ (s.grove g).repair ≠ none ∨ phys < 96 ∨ 100 ≤ phys) ∨
      (s.grove g).spareBad.getLsbD (phys - 96) = true ∨ (s.grove g).spareUsed.getLsbD (phys - 96) = true) :
    s.repairWrite g phys = s.modGrove g (fun x => { x with repairErr := true }) := by
  have active : ¬((s.grove g).state == .inactive) = true := by simpa using hst
  unfold State.repairWrite
  cases hb : (s.grove g).selected with
  | none => simp only [hb]; exact if_neg active
  | some b =>
    simp only [hb]
    refine (if_neg ?_).trans (if_neg active)
    simp only [Bool.and_eq_true, beq_iff_eq, decide_eq_true_eq, Bool.not_eq_true', Option.isNone_iff_eq_none]
    rintro ⟨⟨⟨⟨frost, idle⟩, hlo⟩, hhi⟩, usable, free⟩
    rcases h with (h | h | h | h | h) | h | h
    · cases h.symm.trans hb
    · exact h frost
    · exact h idle
    · omega
    · omega
    · cases h.symm.trans usable
    · cases h.symm.trans free

/-- An inactive grove takes no write. -/
theorem repairWrite_inactive {s : State} {g : Nat} (phys : Nat) (h : (s.grove g).state = .inactive) : s.repairWrite g phys = s := by
  unfold State.repairWrite
  cases hb : (s.grove g).selected <;> simp [hb, h]

/-! ### The end of a repair -/

/-- Four injections are made into the spare (R515). -/
def State.fourPatterns (s : State) (b : Nat) : State := s.modBank b (fun y => { y with kat := (y.kat + 4) % 16 })

/-- The spare serves the logical bank; a failed spare that served it before is marked unusable. -/
def State.mapSpare (s : State) (g : Nat) (r : Repair) : State :=
  s.modGrove g (fun x => { x with
    repairMap := x.repairMap.set r.bank r.phys
    spareUsed := sparesOf (x.repairMap.set r.bank r.phys)
    spareBad := if 96 ≤ nth x.repairMap r.bank 0 ∧ (s.bank (100 * g + nth x.repairMap r.bank 0)).failed
      then x.spareBad ||| BitVec.ofNat 4 (2 ^ (nth x.repairMap r.bank 0 - 96)) else x.spareBad })

/-- The spare answers a pattern wrongly: this is counted and logged, the spare fails and REPAIR_ERR is set. -/
def State.spareFails (s : State) (g b : Nat) (inj : Bool) (pat : Nat) : State :=
  ((((s.count 49 1).logInj inj 3 1 noUnit (s.bankUnit b) b pat).interrupt 1).failBank b).modGrove g (fun x => { x with repairErr := true })

/-- The slots with a line that could not be copied are lost, and the repair is over (R186). -/
def State.repairCopied (s : State) (g : Nat) (ls : List (Fin 512)) (r : Repair) : State :=
  (s.loseLines (12 * g + r.bank / 8) (ls.map Fin.val ++ s.markedLines (100 * g + nth (s.grove g).repairMap r.bank 0))).modGrove g
    (fun x => { x with repair := none })

section
variable {s w : State} {g : Nat} {ls : List (Fin 512)} {r : Repair} (hr : (s.grove g).repair = some r) (hw : w = s.repairCopied g ls r)
include hr hw

/-- A repair whose injections pass maps the spare. -/
theorem repairComplete_maps (hi : w.katInj (100 * g + r.phys) = false) :
    doRepairComplete g ls true s = (w.fourPatterns (100 * g + r.phys)).mapSpare g r := by
  subst hw
  rw [State.repairCopied] at hi ⊢
  unfold doRepairComplete
  simp only [hr, hi]
  rfl

/-- One whose injections fail makes the spare FAILED; a free value names the pattern. -/
theorem repairComplete_fails (hi : w.katInj (100 * g + r.phys) = false) :
    let u := w.fourPatterns (100 * g + r.phys)
    doRepairComplete g ls false s = ({ u with freeCtr := u.freeCtr + 1 } : State).spareFails g (100 * g + r.phys) false
      (((w.bank (100 * g + r.phys)).kat + 4 + (Config.freeWord u.freeCtr).toNat % 4) % 16) := by
  subst hw
  rw [State.repairCopied] at hi ⊢
  unfold doRepairComplete
  simp only [hr, hi]
  rfl

/-- An answer armed to be wrong meets the first pattern, whatever the injections gave (R432). -/
theorem repairComplete_injected (pass : Bool) (hi : w.katInj (100 * g + r.phys) = true) :
    doRepairComplete g ls pass s = (w.fourPatterns (100 * g + r.phys)).disarm.spareFails g (100 * g + r.phys) true
      (((w.bank (100 * g + r.phys)).kat + 4) % 16) := by
  subst hw
  rw [State.repairCopied] at hi ⊢
  unfold doRepairComplete
  simp only [hr, hi, Bool.not_true, Bool.and_false]
  rfl

end

/-- Without a repair in progress nothing completes. -/
theorem repairComplete_none {s : State} {g : Nat} (ls : List (Fin 512)) (pass : Bool) (h : (s.grove g).repair = none) :
    doRepairComplete g ls pass s = s := by
  simp only [doRepairComplete, h]

/-! ### The sequencer patch -/

/-- While a patch is being applied the command is not taken up again (R516). -/
theorem patchApply_busy {s : State} (h : s.dev.seqPatchStatus = 1) : s.patchApply = s := if_pos h

/-- A staged pair with a valid copy is applied. -/
theorem patchApply_valid {s : State} (h : s.dev.seqPatchStatus ≠ 1) (hp : (pairCopy s.staged 5 9 4).isSome = true) :
    s.patchApply = s.modDev (fun d => { d with seqPatchStatus := 1, seqPatchCores := 0 }) :=
  (if_neg h).trans (if_pos hp)

/-- Without a valid copy the command fails. -/
theorem patchApply_invalid {s : State} (h : s.dev.seqPatchStatus ≠ 1) (hp : pairCopy s.staged 5 9 4 = none) :
    s.patchApply = s.modDev (fun d => { d with seqPatchStatus := 3, seqPatchCores := 0 }) :=
  (if_neg h).trans (if_neg (by simp [hp]))

/-- Settles O53, by the cases of the write, of the injections into the spare, and of the staged pair. -/
theorem repairs : Obligations.Repairs := by
  refine ⟨?_, fun s g ls pass h => congrArg Host.Outcome.next (repairComplete_none ls pass h), ?_, ?_,
    fun s => ⟨fun h => congrArg Host.Outcome.next (if_pos h), fun h => congrArg Host.Outcome.next (if_neg h)⟩⟩
  · intro s g phys hready x put
    have write : exec (.repairMapWrite g phys) s = .next (s.repairWrite g phys.toNat).settleAll :=
      congrArg Host.Outcome.next (host_ready hready _)
    rw [write]
    refine ⟨fun b hb hst hr hlo hhi hbad hused => ?_, fun hst h => ?_, fun hst => ?_⟩
    · rw [repairWrite_starts hb hst hr hlo hhi hbad hused]
    · rw [repairWrite_errs hst (.inl h)]
    · rw [repairWrite_inactive _ hst]
  · intro s w g ls r hr hw b u failed
    exact ⟨fun hi => congrArg Host.Outcome.next (repairComplete_maps hr hw hi),
      fun hi => ⟨_, Nat.mod_lt _ (by decide), congrArg Host.Outcome.next (repairComplete_fails hr hw hi)⟩,
      fun pass hi => congrArg Host.Outcome.next (repairComplete_injected hr hw pass hi)⟩
  · intro s hready
    have apply : exec .seqPatchApply s = .next s.patchApply.settleAll := congrArg Host.Outcome.next (host_ready hready _)
    rw [apply]
    refine ⟨fun h => ?_, fun h hp => ?_, fun h hp => ?_⟩
    · rw [patchApply_busy h]
    · rw [patchApply_valid h hp]; rfl
    · rw [patchApply_invalid h hp]; rfl

end Sys2Proof.Machine
end

section
/-! PROOFS. The statements of 06_cohort_scheduling: the rules that every step keeps (O4), countdowns (O41), ingest (O27), the start of
fills (O29), the end of an interval (O33), overflow (O34), the registers that commands write (O56) and transfers that fail (O47), each
after the facts about the operations that it rests on. -/
namespace Sys2Proof.Machine

/-! ### What every command keeps -/

/-- What a command that answers a state keeps, its answer keeps. -/
theorem Keeps.of_next {s t u : State} (h : (.next u : Host.Outcome State Fault Refusal) = .next t) (k : Keeps s u) : Keeps s t :=
  Host.Outcome.next.inj h ▸ k

/-- A change that leaves the kernel, and what settles after it, keep the rules. -/
theorem Keeps.settled {s t : State} (h : t.kernel = s.kernel) : Keeps s t.settleAll :=
  (Keeps.of_kernel h).trans (State.settleAll_keeps t)

/-- So does a host write of a register outside the kernel. -/
theorem State.hostWrite_outside {s : State} {act : State → State} (h : (act s).kernel = s.kernel) : Keeps s (s.hostWrite act) :=
  State.hostWrite_keeps s act (Keeps.of_kernel h)

/-- Every command leaves the queue and keeps a legal state legal. The cases are those that may write the kernel: the interval's end,
NVM, power, the maintenance chain, groves, debug and keys, and the registers of the kernel; what settles after a command may erase
the keys or reset the block. Every other command leaves the kernel. -/
theorem exec_keeps {i : Instr} {s t : State} (h : exec i s = .next t) : Keeps s t := by
  cases i
  all_goals refine Keeps.of_next h ?_
  case intervalEnd => exact doIntervalEnd_keeps s
  case nvmStoreDone => exact doNvmStoreDone_keeps s _
  case stagedNvmLoad => exact doStagedNvmLoad_keeps s
  case nvmDataRead => exact doNvmDataRead_keeps s
  case nvmDataWrite =>
    exact State.hostWrite_keeps s _ (Keeps.ite (State.nvmPut_keeps s _ _) (Keeps.of_kernel (State.emit_kernel s _)))
  case powerOnReset => exact doPowerOnReset_keeps s _ _
  case bringupReady => exact doBringupReady_keeps s _
  case porstFall => exact doPorstFall_keeps s
  case powerRemoved => exact doPowerRemoved_keeps s
  case chainEnum | chainAssign | chainIdent | chainPeek | chainPoke | chainReset | chainStore | chainFrost | chainThaw =>
    exact State.onFrame_keeps s _ _
  case chainReservedOp => exact Keeps.ite (State.takeFrame_keeps s _) (Keeps.refl s)
  case groveCmdFrost => exact doGroveCmdFrost_keeps s _
  case groveCmdThaw => exact doGroveCmdThaw_keeps s _
  case groveDrainComplete => exact doGroveDrainComplete_keeps s _
  case frostDrainTimeout => exact doFrostDrainTimeout_keeps s _
  case thawComplete => exact doThawComplete_keeps s _
  case dbgUnlock => exact doDbgUnlock_keeps s
  case dbgEraseDone => exact doDbgEraseDone_keeps s _
  case keyLoad | keyUnwrap => exact State.hostWrite_keeps s _ (State.keyStart_keeps s _ _)
  case keyClear => exact State.hostWrite_keeps s _ (State.keyClear_keeps s _)
  case keyBufWrite => exact State.hostWrite_keeps s _ (State.keyPut_keeps s _ _)
  case keyCmdDone => exact doKeyCmdDone_keeps s
  case schedParamWrite => exact State.hostWrite_keeps s _ (State.paramPut_keeps s _ _)
  case leafStageLinesWrite => exact State.hostWrite_keeps s _ (State.stageLinesPut_keeps s _)
  case leafPfDepthWrite => exact State.hostWrite_keeps s _ (State.pfDepthPut_keeps s _)
  case collectSharesWrite => exact State.hostWrite_keeps s _ (State.sharesPut_keeps s _)
  case registerWrite => exact (doRegisterWrite_keeps s _ _ _).trans (State.settleChain_keeps _)
  case snoopOwn | snoopInval | ringGrant | evictAck | openComplete | closingDone | killingDone | translationFault =>
    exact Keeps.settled (by simp)
  case integCtlWrite => exact State.hostWrite_outside rfl
  case ctxCdSet | ctxOpen | ctxClose | ctxKill | pwrCmdOff | repairMapWrite | seqPatchApply | collectFlush | injCtlWrite |
      errlogHeadWrite | pendingClear | lostClear | traceEnWrite | baseRegisterWrite =>
    exact State.hostWrite_outside (by simp)
  all_goals exact Keeps.of_kernel (by simp)

/-- The queue is no part of what is legal. -/
theorem Legal.withPending {s : State} (h : Legal s) (q : List Instr) : Legal { s with pending := q } :=
  { h with }

/-- Settles O4: a cycle of the clock keeps what is legal, and so does the command at the front of the queue. -/
theorem legalKept : Obligations.LegalKept := by
  intro s t hs h
  unfold step at h
  split at h
  · exact (Keeps.of_next h (State.tick_keeps s)).legal hs
  · next rest _ => exact (exec_keeps h).legal (hs.withPending rest)

/-! ### Countdowns -/

/-- Two changes of a context are one. -/
theorem modCtx_modCtx (s : State) (c : Nat) (f g : Context → Context) : (s.modCtx c f).modCtx c g = s.modCtx c (fun x => g (f x)) := by
  rw [State.modCtx, ctx_modCtx, State.modCtx, setCtx_setCtx]; rfl

/-- What a deadline that runs out leaves: an idle countdown, and the cut of the context's DISPLAY queries. -/
def State.deadlineOut (s : State) (c : Nat) : State :=
  ((s.modCtx c (fun x => { x with cdMode := .idle, cdVal := 0 })).clearUrgent c).cutContext c

/-- A deadline that has run out makes its cut (R226). -/
theorem countdownZero_deadline {s : State} {c : Nat} (hm : (s.ctx c).cdMode = .deadline) (hv : (s.ctx c).cdVal = 0) :
    doCountdownZero c s = s.deadlineOut c := by
  have due : (s.ctx c).cdDue = true := by simp [Context.cdDue, hm, hv]
  simp only [doCountdownZero, due, if_true, State.countdownZero, hm, State.deadlineOut]

/-- A countdown that is idle, or has not come to 0, does nothing. -/
theorem countdownZero_early {s : State} {c : Nat} (h : (s.ctx c).cdMode = .idle ∨ (s.ctx c).cdVal ≠ 0) : doCountdownZero c s = s := by
  have due : (s.ctx c).cdDue = false := by
    rcases h with h | h <;> simp [Context.cdDue, h]
  simp [doCountdownZero, due]

/-- The end of a WAITC.T leaves its code. -/
theorem endTimed_wakes {s : State} {c rd k : Nat} {n : DWord} (h : (s.ctx c).strand.state = .waiting (.waitc rd k n true)) (code : DWord) :
    s.endTimed c code = s.modCtx c (fun x => { x with strand := { x.strand.set rd code with state := .ready, fails := [] } }) := by
  simp only [State.endTimed, h]; rfl

/-- A WAITC.T that has run out returns 0 if its condition holds in the same cycle and 1 if not (R454). -/
theorem countdownZero_timer {s : State} {c rd k : Nat} {n : DWord} (hm : (s.ctx c).cdMode = .timer) (hv : (s.ctx c).cdVal = 0)
    (hw : (s.ctx c).strand.state = .waiting (.waitc rd k n true)) :
    doCountdownZero c s = s.modCtx c (fun x => { x with
      cdMode := .idle
      cdVal := 0
      strand := { (s.ctx c).strand.set rd (if reached (mgetD (s.ctx c).recv k 0) n then 0 else 1) with state := .ready, fails := [] } }) := by
  have due : (s.ctx c).cdDue = true := by simp [Context.cdDue, hm, hv]
  have wait : ((s.modCtx c (fun x => { x with cdMode := .idle, cdVal := 0 })).ctx c).strand.state = .waiting (.waitc rd k n true) := by
    rw [ctx_modCtx]; exact hw
  simp only [doCountdownZero, due, if_true, State.countdownZero, hm, wait]
  rw [endTimed_wakes wait, modCtx_modCtx, ctx_modCtx]
  rfl

/-- A deadline that has come to 0 makes its cut before a write of the countdown (R454). -/
theorem doCtxCdSet_cut {s u : State} {c : Nat} (v : Word) (ho : (s.ctx c).state = .opened)
    (hu : u = if (s.ctx c).cdMode = .deadline ∧ (s.ctx c).cdVal = 0 then s.deadlineOut c else s) :
    doCtxCdSet c v s = if v = 0 then
        (if (u.ctx c).cdMode == .deadline then (u.modCtx c (fun x => { x with cdMode := .idle, cdVal := 0 })).clearUrgent c else u)
      else ((if (u.ctx c).cdMode == .timer then u.endTimed c 2 else u).modCtx c (fun x =>
        { x with cdMode := .deadline, cdVal := v.toNat })).clearUrgent c := by
  have first : (if (s.ctx c).cdMode == .deadline then doCountdownZero c s else s) = u := by
    rw [hu]
    by_cases hm : (s.ctx c).cdMode = .deadline
    · by_cases hv : (s.ctx c).cdVal = 0
      · rw [if_pos (by simp [hm]), if_pos ⟨hm, hv⟩, countdownZero_deadline hm hv]
      · rw [if_pos (by simp [hm]), if_neg (fun h => hv h.2), countdownZero_early (.inr hv)]
    · rw [if_neg (by simpa using hm), if_neg (fun h => hm h.1)]
  unfold doCtxCdSet
  rw [if_neg (by simp [ho])]
  simp only [first]

/-- Settles O41: the countdown by its mode and its value, and a write of it by what the cut leaves. -/
theorem countdowns : Obligations.Countdowns := by
  refine ⟨fun s c hm hv => congrArg Host.Outcome.next (countdownZero_deadline hm hv),
    fun s c rd k n hm hv hw => congrArg Host.Outcome.next (countdownZero_timer hm hv hw),
    fun s c h => congrArg Host.Outcome.next (countdownZero_early h), fun s c v hready => ?_⟩
  have write : exec (.ctxCdSet c v) s = .next (doCtxCdSet c v s).settleAll := congrArg Host.Outcome.next (host_ready hready _)
  rw [write]
  refine ⟨fun ho => ?_, fun u ho hu => ⟨fun hv hm => ?_, fun hv hm => ?_, fun hv hm => ?_⟩, fun rd k n ho hv hm hw => ?_⟩
  · rw [doCtxCdSet, if_pos (by simpa using ho)]
  · rw [doCtxCdSet_cut v ho hu, if_neg hv, if_neg (by simpa using hm)]
  · rw [doCtxCdSet_cut v ho hu, if_pos hv, if_pos (by simp [hm])]
  · rw [doCtxCdSet_cut v ho hu, if_pos hv, if_neg (by simpa using hm)]
  · have none_due : s = if (s.ctx c).cdMode = .deadline ∧ (s.ctx c).cdVal = 0 then s.deadlineOut c else s :=
      (if_neg (by simp [hm])).symm
    rw [doCtxCdSet_cut v ho none_due, if_neg hv, if_pos (by simp [hm]), endTimed_wakes hw, modCtx_modCtx]
    rfl

/-! ### Ingest -/

/-- Bytes that lie in one block of n bytes are one piece. -/
theorem pieces_within {n : Nat} {a : DWord} {bs : List Byte} (hb : bs ≠ []) (h : a.toNat % n + bs.length ≤ n) :
    pieces n a bs = [(a, bs)] := by
  have whole : min bs.length (n - a.toNat % n) = bs.length := Nat.min_eq_left (by omega)
  obtain ⟨b, t, rfl⟩ := List.exists_cons_of_ne_nil hb
  unfold pieces
  rw [pieces.go, whole, if_neg (by simp)]
  dsimp only
  rw [List.take_length, List.drop_length]
  rfl

/-- Before READY an ingest write is retried (R500). -/
theorem ingestWrite_early {s : State} (h : s.dev.stage ≠ .ready) (a : DWord) (data : List Byte) : doIngestWrite a data s = s.emit .retry :=
  if_pos (by simpa using h)

/-- READY, each piece of it goes to the window that it lies in (R447). -/
theorem ingestWrite_ready {s : State} (h : s.dev.stage = .ready) (a : DWord) (data : List Byte) :
    doIngestWrite a data s = foldS (pieces 65536 (a - s.dev.ingestBase) data) s (fun u p =>
      if p.1.toNat < 4294967296 then u.windowWrite (p.1.toNat / 1048576) (p.1.toNat / 65536 % 16) (p.1.toNat % 65536)
        (addr64 u.dev.ingestBase p.1.toNat) p.2 else u) :=
  if_neg (by simp [h])

/-- The bytes of a window of a context lie at INGEST_BASE + 2^20 n + 2^16 w (R447). -/
theorem ingestWrite_window {s : State} (h : s.dev.stage = .ready) {c w off : Nat} {data : List Byte} (hc : c < 4096) (hw : w < 16)
    (hd : data ≠ []) (hfit : off + data.length ≤ 65536) :
    let a := addr64 s.dev.ingestBase (1048576 * c + 65536 * w + off)
    doIngestWrite a data s = s.windowWrite c w off a data := by
  have hlen : 0 < data.length := List.length_pos_iff.mpr hd
  generalize hn : 1048576 * c + 65536 * w + off = n
  have hlt : n < 4294967296 := by omega
  have hoff : addr64 s.dev.ingestBase n - s.dev.ingestBase = BitVec.ofNat 64 n := by
    rw [addr64, BitVec.add_comm, BitVec.add_sub_cancel]
  have hnat : (BitVec.ofNat 64 n).toNat = n := by
    rw [BitVec.toNat_ofNat]; exact Nat.mod_eq_of_lt (by omega)
  have hmod : n % 65536 = off := by omega
  have hwin : n / 65536 % 16 = w := by omega
  have hctx : n / 1048576 = c := by omega
  have one : pieces 65536 (BitVec.ofNat 64 n) data = [(BitVec.ofNat 64 n, data)] := pieces_within hd (by rw [hnat, hmod]; exact hfit)
  dsimp only
  rw [ingestWrite_ready h, hoff, one, foldS, List.foldl_cons, List.foldl_nil]
  dsimp only
  rw [hnat, if_pos hlt, hctx, hwin, hmod]

/-- Bytes for an OFF window, or for a context that is not OPEN, are discarded (R448). -/
theorem windowWrite_discards {s : State} {c w : Nat} (h : (s.ctx c).state ≠ .opened ∨ s.winKind c w = 0) (off : Nat) (a : DWord)
    (data : List Byte) : s.windowWrite c w off a data = (s.noteIngest a data).countC c 9 1 :=
  if_pos (by simpa using h)

/-- While the context may not take more they are retried (R196). -/
theorem windowWrite_stalls {s : State} {c w : Nat} (ho : (s.ctx c).state = .opened) (hk : s.winKind c w ≠ 0) (hs : s.stalls c = true)
    (off : Nat) (a : DWord) (data : List Byte) : s.windowWrite c w off a data = (s.emit .retry).countC c 0 1 := by
  simp [State.windowWrite, ho, hk, hs]

/-- A QUERY window takes them and counts them (R375, R447). -/
theorem windowWrite_takes {s : State} {c w : Nat} (ho : (s.ctx c).state = .opened) (hk : s.winKind c w ≠ 0) (hs : s.stalls c = false)
    (h2 : s.winKind c w ≠ 2) (off : Nat) (a : DWord) (data : List Byte) :
    s.windowWrite c w off a data = (s.noteIngest a data).setCtx c { s.ctx c with
      wins := mset (s.ctx c).wins w (((s.ctx c).win w).put off data)
      recv := mset (s.ctx c).recv w ((s.ctx c).received w + BitVec.ofNat 64 data.length) } := by
  have putting : s.windowWrite c w off a data = ((s.noteIngest a data).modWin c w (fun y => y.put off data)).receive c w data.length := by
    simp [State.windowWrite, ho, hk, hs, h2]
  rw [putting, State.receive, State.modWin, modCtx_modCtx]
  rfl

/-- A COMMAND window sends them on to memory (R451). -/
theorem windowWrite_sends {s : State} {c w : Nat} (ho : (s.ctx c).state = .opened) (hs : s.stalls c = false) (h2 : s.winKind c w = 2)
    (off : Nat) (a : DWord) (data : List Byte) :
    s.windowWrite c w off a data = ((s.noteIngest a data).writeFor c (addr64 (dCmdBase (s.ctx c).desc) (65536 * w + off)) data).modWin c w
      (fun y => { y with cmdPend := y.cmdPend ++ [data.length] }) := by
  simp [State.windowWrite, ho, hs, h2]

/-- A write for a context leaves the contexts. -/
theorem writeFor_ctx (s : State) (c : Nat) (a : DWord) (bs : List Byte) (k : Nat) : (s.writeFor c a bs).ctx k = s.ctx k :=
  congrArg (fun m => mgetD m k Context.reset) (State.touch_ctxs s (s.asid c) a)

/-- It goes out by the fabric port of its address. -/
theorem writeFor_out (s : State) (c : Nat) (a : DWord) (bs : List Byte) :
    (s.writeFor c a bs).out = .write (s.fabricPort a) (s.asid c) a bs :: s.out :=
  congrArg (Output.write (s.fabricPort a) (s.asid c) a bs :: ·) (State.touch_out s (s.asid c) a)

/-- The oldest write of a COMMAND window has been performed in memory: its bytes count as received (R451). -/
theorem commandBytes_counts {s : State} {c w n : Nat} {l : List Nat} (hg : s.ghosts = []) (h : ((s.ctx c).win w).cmdPend = n :: l) :
    doCommandBytesPerformed c w s = s.setCtx c { s.ctx c with
      wins := mset (s.ctx c).wins w { (s.ctx c).win w with cmdPend := l }
      recv := mset (s.ctx c).recv w ((s.ctx c).received w + BitVec.ofNat 64 n) } := by
  have counting : doCommandBytesPerformed c w s = (s.modWin c w (fun y => { y with cmdPend := l })).receive c w n := by
    simp [doCommandBytesPerformed, hg, h]
  rw [counting, State.receive, State.modWin, modCtx_modCtx]
  rfl

/-- Without one nothing is performed. -/
theorem commandBytes_none {s : State} {c w : Nat} (hg : s.ghosts = []) (h : ((s.ctx c).win w).cmdPend = []) :
    doCommandBytesPerformed c w s = s := by
  simp [doCommandBytesPerformed, hg, h]

/-- Settles O27: a write by the windows that its bytes lie in and by what each of them does, and the ring by `fold_put`. -/
theorem ingest : Obligations.Ingest := by
  refine ⟨⟨?_, ?_, ?_, ?_, ?_⟩, ?_⟩
  · intro s hi n lo data addr
    exact ⟨fun h => congrArg Host.Outcome.next (ingestWrite_early h _ _), fun h => congrArg Host.Outcome.next (ingestWrite_ready h _ _)⟩
  · intro s c w off data h hd hfit a hi n lo ha
    have write : exec (.ingestWrite hi n lo data) s = .next (doIngestWrite a data s) :=
      congrArg (fun x => Host.Outcome.next (doIngestWrite x data s)) ha
    rw [write, ingestWrite_window h c.isLt w.isLt hd hfit]
  · intro s c w off a data u
    refine ⟨fun h => windowWrite_discards h off a data, fun ho hk hs => windowWrite_stalls ho hk hs off a data,
      fun ho hk hs => ⟨fun h2 => windowWrite_takes ho hk hs h2 off a data, fun h2 => ?_⟩, rfl, rfl⟩
    dsimp only
    rw [windowWrite_sends ho hs h2, State.modWin, ctx_modCtx, writeFor_ctx]
    exact ⟨writeFor_out _ _ _ _, by rw [win_mset]; rfl, rfl⟩
  · intro s c w hg
    exact ⟨fun n l h => congrArg Host.Outcome.next (commandBytes_counts hg h),
      fun h => congrArg Host.Outcome.next (commandBytes_none hg h)⟩
  · intro s c w h
    exact congrArg Host.Outcome.next (if_pos h)
  · intro w off data hlen
    refine ⟨fun i b hb => ?_, fun p hp => (fold_put off data w.bytes data.length p hlen).2 hp⟩
    obtain ⟨hi, rfl⟩ := List.getElem?_eq_some_iff.mp hb
    refine ((fold_put off data w.bytes data.length 0 hlen).1 i hi).trans ?_
    simp [nth, hi]

/-! ### Fills and victims -/

/-- A fill goes into a free slot (R205). -/
theorem tryFill_free {s : State} {k : Nat} (h : s.chooseSlot = some k) (f : Fill) (any : Bool) :
    s.tryFill f any = (s.issueFill f [k], true) := by
  simp only [State.tryFill, h]

/-- Without a free slot it goes into a victim's, which is left (R206). -/
theorem tryFill_victim {s : State} {f : Fill} {any : Bool} {k : Nat} (h : s.chooseSlot = none)
    (hv : s.victim any (f.preload.map (fun _ => s.sched.fillT)) = some k) : s.tryFill f any = ((s.leaveSlot k).issueFill f [k], true) := by
  simp only [State.tryFill, h, hv]

/-- Without either nothing is issued. -/
theorem tryFill_none {s : State} {f : Fill} {any : Bool} (h : s.chooseSlot = none)
    (hv : s.victim any (f.preload.map (fun _ => s.sched.fillT)) = none) : s.tryFill f any = (s, false) := by
  simp only [State.tryFill, h, hv]

/-- A fill that has been issued does not wait. -/
theorem issueOrWait_of_tried {s u : State} {f : Fill} (h : s.tryFill f false = (u, true)) : s.issueOrWait f = u := by
  simp only [State.issueOrWait, h]

/-- One that could not be waits before issue (R206). -/
theorem issueOrWait_waits {s : State} {f : Fill} (h : s.tryFill f false = (s, false)) :
    s.issueOrWait f = { s with fills := s.fills ++ [{ f with stage := .victim s.now false }] } := by
  simp only [State.issueOrWait, h]

/-- With no candidate and nothing that waits for a transfer slot, the idle rule's choice is issued and counted (R203). -/
theorem fillStep_idle {s u : State} {c : Cohort} (hu : s.settlePreloads = u) (hw : u.retryWaiting = none) (hc : u.crownDue = none)
    (hl : leastBy u.candKey u.candidates = none) (hf : u.fillWaits = false) (hi : u.idleChoice = some c) :
    s.fillStep = (u.issueOrWait (u.cohortFill c)).count 7 1 := by
  subst hu
  simp only [State.fillStep, hw, hc, hl, hf, hi, Bool.false_eq_true, if_false]

/-- Where the idle rule chooses none, none is issued. -/
theorem fillStep_none {s u : State} (hu : s.settlePreloads = u) (hw : u.retryWaiting = none) (hc : u.crownDue = none)
    (hl : leastBy u.candKey u.candidates = none) (hf : u.fillWaits = false) (hi : u.idleChoice = none) : s.fillStep = u := by
  subst hu
  simp only [State.fillStep, hw, hc, hl, hf, hi, Bool.false_eq_true, if_false]

/-- What R206 asks of a victim: it holds a testable bough, neither a crown bough nor reserved nor pinned, in a grove in RUN and an
octet that is not retired, with no parked member unless that has been dropped, and of a use count below a bound. -/
def State.mayEvict (s : State) (any : Bool) (below : Option Nat) (e : Nat × SlotRec) : Prop :=
  e ∈ s.slots ∧ e.2.takeable = true ∧ e.2.pinned = false ∧ (any = false → s.slotMembers e.2 = false) ∧
    (s.grove (groveOfSlot e.1)).state = .run ∧ s.retired (e.1 / 64) = false ∧ ∀ t, below = some t → s.slotUse e.2 < t

/-- The victims are chosen among the slots that R206 allows, by the least key. -/
theorem victim_eq (s : State) (any : Bool) (below : Option Nat) : ∃ l, (∀ e, e ∈ l ↔ s.mayEvict any below e) ∧
    s.victim any below = (leastBy s.victimKey l).map (·.1) := by
  refine ⟨_, fun e => ?_, rfl⟩
  rw [List.mem_filter]
  unfold State.mayEvict
  cases below <;> simp [and_assoc, Bool.or_eq_true, or_iff_not_imp_left]

/-- The victim is a slot that R206 allows, and none of these has a bough of lower use count. -/
theorem victim_spec {s : State} {any : Bool} {below : Option Nat} {k : Nat} (h : s.victim any below = some k) :
    ∃ r, s.mayEvict any below (k, r) ∧ ∀ e, s.mayEvict any below e → s.slotUse r ≤ s.slotUse e.2 := by
  obtain ⟨l, hl, hv⟩ := victim_eq s any below
  rw [hv, Option.map_eq_some_iff] at h
  obtain ⟨⟨k, r⟩, hmin, rfl⟩ := h
  obtain ⟨hmem, hle⟩ := leastBy_spec s.victimKey (fun _ => rfl) l (k, r) hmin
  exact ⟨r, (hl _).mp hmem, fun e he => hle e ((hl e).mpr he)⟩

/-- Settles O29: FILL_ISSUE by what comes first, a fill by the slot it finds, and the victim by `victim_spec`. -/
theorem fillsStart : Obligations.FillsStart := by
  refine ⟨⟨?_, ?_, ?_, ?_, ?_⟩, fun s any below k h => victim_spec h⟩
  · intro s u hw hc
    refine ⟨fun c hl => ?_, fun hl hf => ?_⟩
    · have issue : exec .fillIssue s = .next (if u.candClass (.cohort c) = 3 && u.fillWaits then u else u.issueOrWait (u.cohortFill c)) :=
        congrArg Host.Outcome.next (fillIssue_eq s u c rfl hw hc hl)
      intro f
      refine ⟨fun h3 hf => ?_, fun h3 => ?_⟩
      · rw [issue, if_pos (by simp [h3, hf])]
      · rw [issue, if_neg (by simp [h3])]
        exact ⟨fun k hk => by rw [issueOrWait_of_tried (tryFill_free hk f false)],
          fun k hk hv => by rw [issueOrWait_of_tried (tryFill_victim (f := f) hk hv)],
          fun hk hv => by rw [issueOrWait_waits (tryFill_none (f := f) hk hv)]⟩
    · exact ⟨fun hi => congrArg Host.Outcome.next (fillStep_none rfl hw hc hl hf hi),
        fun c hi => congrArg Host.Outcome.next (fillStep_idle rfl hw hc hl hf hi)⟩
  · intro s f k hp
    simp only [State.issueFill, hp]
    rfl
  · intro s id f since hf hs
    refine ⟨fun u hu => congrArg Host.Outcome.next ?_, fun hk hv => congrArg Host.Outcome.next ?_⟩
    · simp only [doFillVictimTimeout, hf, hs, hu]
    · simp only [doFillVictimTimeout, hf, hs, tryFill_none hk hv]
  · intro s id c hc
    refine congrArg Host.Outcome.next ?_
    simp only [doCohortAgeLimit, hc, Bool.and_eq_true, decide_eq_true_eq]
  · intro s c
    rfl

/-! ### The end of an adaptation interval -/

/-- What two adaptations leave, both together leave. -/
theorem AdaptSame.trans {s t u : State} (h : AdaptSame s t) (k : AdaptSame t u) : AdaptSame s u where
  pool := k.pool.trans h.pool
  ctxs := k.ctxs.trans h.ctxs
  out := k.out.trans h.out
  cohorts := k.cohorts.trans h.cohorts
  intervals := k.intervals.trans h.intervals
  pend := k.pend.trans h.pend
  tInit := k.tInit.trans h.tInit

/-- Suspending DRIZZLE leaves the queries and the contexts. -/
theorem suspendDrizzle_same (s : State) : AdaptSame s s.suspendDrizzle := ⟨rfl, rfl, rfl, rfl, rfl, rfl, rfl⟩

/-- So does the choice of the pins. -/
theorem repin_same (s : State) : AdaptSame s s.repin := ⟨rfl, rfl, rfl, rfl, rfl, rfl, rfl⟩

/-- T stays where it does not adapt. -/
theorem adaptT_off {s : State} (h : s.param 9 ≠ 1) : s.adaptT = s := if_pos h

/-- T doubles, up to FILL_T_MAX, when fills took more than three quarters of the lines (R204). -/
theorem adaptT_doubles {s : State} (h : s.param 9 = 1) (hl : 6291456 < s.sched.ivFillLines * 4) :
    s.adaptT.sched.fillT = if s.sched.fillT < s.param 8 then s.sched.fillT * 2 else s.sched.fillT := by
  have hl' : 2097152 * 3 < s.sched.ivFillLines * 4 := hl
  unfold State.adaptT
  dsimp only
  rw [if_neg (not_not_intro h), if_pos hl']
  split <;> rfl

/-- An adaptation of T, of the prefetch depth, of DRIZZLE and of the pins leaves the queries, the contexts and the cohorts. -/
theorem adapt_same (s : State) : AdaptSame s s.adaptT.adaptD.suspendDrizzle.repin :=
  (((adaptT_same s).trans (adaptD_same _)).trans (suspendDrizzle_same _)).trans (repin_same _)

/-- Of these the first alone changes T. -/
theorem adapt_fillT (s : State) : s.adaptT.adaptD.suspendDrizzle.repin.sched.fillT = s.adaptT.sched.fillT :=
  congrArg Sched.fillT (adaptD_fillT s.adaptT)

/-- The parameters that take effect change of all this T alone, where FILL_T_INIT has been written (R192, R193). -/
theorem applyParams_facts (s : State) : s.applyParams.pool = s.pool ∧ s.applyParams.ctxs = s.ctxs ∧ s.applyParams.out = s.out ∧
    s.applyParams.cohorts = s.cohorts ∧ s.applyParams.sched.intervals = s.sched.intervals ∧ s.applyParams.sched.params = s.sched.pend ∧
    s.applyParams.sched.fillT = if s.sched.tInit then nth s.sched.pend 6 0 else s.sched.fillT :=
  squall_facts _

/-- Settles O33: what the adaptations leave is `adapt_same`, and the parameters that take effect set T after them. -/
theorem intervalEnd : Obligations.IntervalEnd := by
  intro s
  have same := adapt_same s
  have hT := adapt_fillT s
  refine ⟨doIntervalEnd s, rfl, ?_⟩
  unfold doIntervalEnd
  generalize s.adaptT.adaptD.suspendDrizzle.repin = a at same hT ⊢
  obtain ⟨hpool, hctxs, hout, hcohorts, hiv, hparams, hfill⟩ := applyParams_facts a.halveUse
  have kept : s.sched.tInit = false → a.halveUse.applyParams.sched.fillT = s.adaptT.sched.fillT := fun h =>
    hfill.trans ((if_neg (by simp [State.halveUse, same.tInit, h])).trans hT)
  refine ⟨congrArg (· + 1) (hiv.trans same.intervals), hparams.trans same.pend, rfl, rfl, rfl, rfl, rfl, ?_, hpool.trans same.pool,
    hctxs.trans same.ctxs, hout.trans same.out, fun h => ?_, fun h h9 => ?_, fun h h9 hl => ?_⟩
  · rw [← same.cohorts]; exact hcohorts
  · refine hfill.trans ((if_pos (same.tInit.trans h)).trans ?_)
    exact congrArg (fun p => nth p 6 0) same.pend
  · exact (kept h).trans (congrArg (fun u => u.sched.fillT) (adaptT_off h9))
  · exact (kept h).trans (adaptT_doubles h9 hl)

/-! ### Spills, fresh runs and reloads -/

/-- While no cut has begun, it covers no run. -/
theorem coversRun_uncut {x : Context} (h : x.cut = none) (r : Run) : x.coversRun r = false := by
  have none_covered : r.recs.any (fun y => x.covers r.cls y.admitted) = false := any_false _ _ (fun y _ => by simp [Context.covers, h])
  rw [Context.coversRun, none_covered, Bool.and_false]

/-- Without a squall nothing is spilled (R218). -/
theorem spillCohort_calm {s : State} (h : s.sched.squall = false) : doSpillCohort s = s := by
  simp [doSpillCohort, h]

/-- During a squall the run that R218 chooses is spilled. -/
theorem spillCohort_spills {s : State} {c : Cohort} {cls : Nat} (h : s.sched.squall = true) (hc : s.spillChoice = some (c, cls)) :
    doSpillCohort s = s.spillMembers c.id (s.membersOfClass c cls) cls := by
  simp only [doSpillCohort, h, hc, if_true]

/-- The writes of a run are acknowledged: its members' slots are free, and its transfer ends (R219). -/
theorem spillAcknowledged_frees {s : State} {c rseq : Nat} {r : Run} (hr : (s.ctx c).ovf.runs.find? (fun y => y.rseq == rseq) = some r)
    (hw : r.written = false) (hs : s.hasSlot (.run c rseq) = true) (hcut : (s.ctx c).cut = none) :
    let u := (s.linesBack (.run c rseq)).modOvf c (fun o => { o with
      runs := o.runs.map (fun y => if y.rseq == rseq then { y with written := true } else y) })
    doSpillAcknowledged c rseq s = (foldS (u.pool.filter (fun e => e.2.ctx == c && e.2.place == .spilling rseq)) u
      (fun v e => v.releaseSlot e.1)).finishXfer (.run c rseq) := by
  simp only [doSpillAcknowledged, hr, hw, hs, coversRun_uncut hcut]
  rfl

/-- An open fresh run closes and is written at the tail of its area (R225). -/
theorem closeFresh_writes {s : State} {c cls : Nat} {f : FreshRun} (h : mget (s.ctx c).ovf.fresh cls = some f) :
    let o := { (s.ctx c).ovf with fresh := merase (s.ctx c).ovf.fresh cls }
    s.closeFresh c cls = s.addRuns c o.nextRseq
      (o.place (dOvfLines (s.ctx c).desc) cls true 0xFFFF 0xFFFFFFFF 0 f.recs true).2 (fun _ => true) := by
  simp only [State.closeFresh, h]

/-- Without an open fresh run nothing closes. -/
theorem closeFresh_none {s : State} {c cls : Nat} (h : mget (s.ctx c).ovf.fresh cls = none) : s.closeFresh c cls = s := by
  simp only [State.closeFresh, h]

/-- A reload waits for the squall's end and for deadline cuts, and for a run that R223 chooses. -/
theorem reloadRun_waits {s : State} (a b : RunRead) (h : s.sched.squall = true ∨ s.cutReads = true ∨ s.reloadChoice = none) :
    doReloadRun a b s = s := by
  unfold doReloadRun
  rcases h with h | h | h
  · simp [h]
  · simp [h]
  · simp only [h, ite_self]

section
variable {s : State} {c : Nat} {run : Run} (hsq : s.sched.squall = false) (hcut : s.cutReads = false)
  (hch : s.reloadChoice = some (c, run))
include hsq hcut hch

/-- The run that R223 chooses asks for a transfer, and waits for a slot of it (R306). -/
theorem reloadRun_asks (a b : RunRead) (hs : ((s.exposeHead c).requestOnce (.run c run.rseq) c run.cls).hasSlot (.run c run.rseq) = false) :
    doReloadRun a b s = (s.exposeHead c).requestOnce (.run c run.rseq) c run.cls := by
  simp only [doReloadRun, hsq, hcut, hch, hs]
  rfl

/-- A run that neither reading gives is lost (R224). -/
theorem reloadRun_loses {a b : RunRead} {n : Nat}
    (hs : ((s.exposeHead c).requestOnce (.run c run.rseq) c run.cls).hasSlot (.run c run.rseq) = true) (h0 : run.rereads = 0)
    (hl : runLost a b = some n) :
    let t := ((((s.exposeHead c).requestOnce (.run c run.rseq) c run.cls).readRun c run a).loseRun c run.rseq n)
    doReloadRun a b s = { t with sched := { t.sched with reloadRot := (c + 1) % 4096 } } := by
  simp only [doReloadRun, hsq, hcut, hch, hs, h0, if_true, hl]
  rfl

/-- A run that has been read, whose tables have been read and whose records all find a place, comes back into the pool (R223). -/
theorem reloadRun_reloads {a b : RunRead} {v : State}
    (hs : ((s.exposeHead c).requestOnce (.run c run.rseq) c run.cls).hasSlot (.run c run.rseq) = true) (h0 : run.rereads = 0)
    (hl : runLost a b = none) (hu : s.unreadOf c run = none)
    (hv : State.reloadAll c run run.recs
      ((((s.exposeHead c).requestOnce (.run c run.rseq) c run.cls).readRun c run a).dropRun c run.rseq) = some v) :
    let t := v.count 15 run.recs.length
    doReloadRun a b s = { t with sched := { t.sched with reloadRot := (c + 1) % 4096 } } := by
  simp only [doReloadRun, hsq, hcut, hch, hs, h0, if_true, hl, hu, hv]
  rfl

end

/-! ### Where a run is placed -/

/-- The run that is placed, at a line and with a number. -/
def placedRun (rseq start cls scene bough tag : Nat) (fresh written : Bool) (rs : List OvfRec) : Run :=
  { rseq := rseq, state := .live, cls := cls, fresh := fresh, scene := scene, bough := bough, tag := tag, start := start,
    lines := runLines rs, recs := rs, written := written, rereads := 0, stall := none }

/-- A run that ends inside the area goes to the tail (R220). -/
theorem place_tail {o : Ovf} {size : Nat} (cls scene bough tag : Nat) (fresh written : Bool) {rs : List OvfRec}
    (h : o.tail + runLines rs ≤ size) :
    o.place size cls fresh scene bough tag rs written = (o.nextRseq, { o with
      runs := o.runs ++ [placedRun o.nextRseq o.tail cls scene bough tag fresh written rs]
      nextRseq := o.nextRseq + 1, tail := tailAfter size o.tail (runLines rs) }) := by
  have pad : padLines size o.tail (runLines rs) = 0 := if_pos h
  simp only [Ovf.place, pad, if_true]
  rfl

/-- Another goes to line 0, after a PAD run that reaches to the end (R220). -/
theorem place_wraps {o : Ovf} {size : Nat} (cls scene bough tag : Nat) (fresh written : Bool) {rs : List OvfRec} (ht : o.tail < size)
    (h : size < o.tail + runLines rs) :
    o.place size cls fresh scene bough tag rs written = (o.nextRseq + 1, { o with
      runs := o.runs ++ [padRun o.nextRseq o.tail (size - o.tail)] ++
        [placedRun (o.nextRseq + 1) 0 cls scene bough tag fresh written rs]
      nextRseq := o.nextRseq + 1 + 1, tail := tailAfter size 0 (runLines rs) }) := by
  have pad : padLines size o.tail (runLines rs) = size - o.tail := if_neg (Nat.not_le.mpr h)
  simp only [Ovf.place, pad, if_neg (Nat.sub_ne_zero_of_lt ht)]
  rfl

/-- The tail stands after a run that ends inside the area, at line 0 after the last line. -/
theorem tailAfter_fits {size start lines : Nat} (h0 : 0 < size) (h : start + lines ≤ size) :
    tailAfter size start lines = (start + lines) % size := by
  simp only [tailAfter, if_neg (Nat.ne_of_gt h0), if_pos h]

/-- It stands inside the area. -/
theorem tailAfter_lt {size : Nat} (start lines : Nat) (h0 : 0 < size) : tailAfter size start lines < size := by
  simp only [tailAfter, if_neg (Nat.ne_of_gt h0)]
  exact Nat.mod_lt _ h0

/-- Settles O34: SPILL_COHORT, the acknowledgement, FRESH_RUN_CLOSE and RELOAD_RUN by their cases, and the two places of a run. -/
theorem overflow : Obligations.Overflow := by
  refine ⟨⟨fun s h => congrArg Host.Outcome.next (spillCohort_calm h),
    fun s c cls h hc => congrArg Host.Outcome.next (spillCohort_spills h hc),
    fun s c rseq r hr hw hs hcut => congrArg Host.Outcome.next (spillAcknowledged_frees hr hw hs hcut),
    fun s c cls h => congrArg Host.Outcome.next (closeFresh_none h), fun s c cls f h => congrArg Host.Outcome.next (closeFresh_writes h),
    fun s a b h => congrArg Host.Outcome.next (reloadRun_waits a b h), ?_⟩, ?_⟩
  · intro s a b c run hsq hcut hch w u
    exact ⟨fun hs => congrArg Host.Outcome.next (reloadRun_asks hsq hcut hch a b hs), fun hs h0 =>
      ⟨fun n hl => congrArg Host.Outcome.next (reloadRun_loses hsq hcut hch hs h0 hl),
        fun v hl hu hv => congrArg Host.Outcome.next (reloadRun_reloads hsq hcut hch hs h0 hl hu hv)⟩⟩
  · intro o size cls scene bough tag fresh written rs ht hl p
    have h0 : 0 < size := Nat.zero_lt_of_lt ht
    by_cases hfit : o.tail + runLines rs ≤ size
    · have hp : p = _ := place_tail cls scene bough tag fresh written hfit
      rw [hp]
      refine ⟨placedRun o.nextRseq o.tail cls scene bough tag fresh written rs, by simp, rfl, rfl, rfl, hfit, rfl, tailAfter_fits h0 hfit,
        tailAfter_lt _ _ h0, rfl,
        fun _ => ⟨rfl, rfl, by simp⟩, fun h => absurd h (Nat.not_lt.mpr hfit)⟩
    · have hp : p = _ := place_wraps cls scene bough tag fresh written ht (Nat.lt_of_not_le hfit)
      have hin : 0 + runLines rs ≤ size := (Nat.zero_add _).symm ▸ hl
      rw [hp]
      refine ⟨placedRun (o.nextRseq + 1) 0 cls scene bough tag fresh written rs, by simp, rfl, rfl, rfl, hin, rfl, tailAfter_fits h0 hin,
        tailAfter_lt _ _ h0, rfl,
        fun h => absurd h hfit, fun _ => ⟨rfl, rfl, by simp⟩⟩

/-! ### Writes of registers -/

/-- A scheduler parameter takes a value in its range that keeps the relations of R193. -/
theorem paramPut_takes {s : State} {n w : Nat} (hr : paramRange n (w % 2 ^ paramBits n) = true)
    (ha : paramsAgree (s.sched.pend.set n (w % 2 ^ paramBits n)) = true) :
    s.paramPut n w = { s with
      sched := { s.sched with pend := s.sched.pend.set n (w % 2 ^ paramBits n), tInit := s.sched.tInit || n == 6 } } :=
  if_pos (by rw [hr, ha]; rfl)

/-- Any other value sets PARAM_ERR alone. -/
theorem paramPut_errs {s : State} {n w : Nat} (h : paramRange n (w % 2 ^ paramBits n) = false ∨
    paramsAgree (s.sched.pend.set n (w % 2 ^ paramBits n)) = false) :
    s.paramPut n w = { s with sched := { s.sched with paramErr := true } } :=
  if_neg (by rcases h with h | h <;> simp [h])

/-- LEAF_STAGE_LINES takes up to 8,192 lines while no STAGE stream runs, and any other write sets its error bit (R314). -/
theorem stageLinesPut_eq (s : State) (n : Nat) : s.stageLinesPut n =
    if n ≤ 8192 ∧ ∀ e ∈ s.streams, smKind e.2.image = 1 → e.2.state = .idle then { s with stageLines := n } else { s with stageParamErr := true } := by
  unfold State.stageLinesPut
  congr 1
  simp only [Bool.and_eq_true, decide_eq_true_eq, Bool.not_eq_true', List.any_eq_false, bne_iff_ne, beq_iff_eq, not_and,
    eq_iff_iff, and_congr_right_iff]
  exact fun _ => forall₂_congr fun e _ => ⟨fun h k => by_contra fun i => h i k, fun h i k => i (h k)⟩

/-- COLLECT_SHARES takes three shares of at most 16 MiB together, of which each that changes is empty (R358). -/
theorem sharesPut_eq (s : State) (v : Word) : s.sharesPut v =
    if fbit v 0 9 + fbit v 9 9 + fbit v 18 9 ≤ 256 ∧ (fbit v 0 9 = s.shareBin ∨ (s.binUsed = 0 ∧ s.chainsInTransit = false)) ∧
      (fbit v 9 9 = s.shareAcc ∨ s.accUsed = 0) ∧ (fbit v 18 9 = s.shareGrid ∨ s.gridUsed = 0)
    then { s with shareBin := fbit v 0 9, shareAcc := fbit v 9 9, shareGrid := fbit v 18 9 } else { s with collectErr := true } := by
  unfold State.sharesPut
  dsimp only
  congr 1
  simp [and_assoc]

/-- COLLECT_FLUSH flushes a valid entry of an OPEN context (R349, R351). -/
theorem flushPut_eq (s : State) (v : Word) : s.flushPut v =
    if (s.ctx (fbit v 16 12)).state = .opened ∧ (s.deliv (fbit v 16 12) (fbit v 0 12)).raw ≠ none ∧
      (s.deliv (fbit v 16 12) (fbit v 0 12)).valid = true then s.flushEntry (fbit v 16 12) (fbit v 0 12) else s := by
  unfold State.flushPut
  dsimp only
  congr 1
  simp [and_assoc, Option.isSome_iff_ne_none]

/-- While an injection is armed INJ_CTL takes none (R432). -/
theorem injPut_armed {s : State} (h : s.integ.injArmed = true) (v : Word) : s.injPut v = s := by
  simp [State.injPut, h]

/-- It takes a KIND 1 or 2, an error of a line, for an SRAM other than the banks (R432). -/
theorem injPut_arms {s : State} {v : Word} (h : s.integ.injArmed = false) (hk : fbit v 0 4 = 1 ∨ fbit v 0 4 = 2) (h1 : 1 ≤ fbit v 4 2)
    (h2 : fbit v 4 2 ≤ 2) : s.injPut v = { s with integ := { s.integ with
      injKind := fbit v 0 4, injSram := fbit v 4 2, injUnit := fbit v 16 11, injArmed := fbit v 31 1 == 1 } } := by
  have hz : fbit v 4 2 ≠ 0 := by omega
  have h3 : fbit v 4 2 ≠ 3 := by omega
  rcases hk with hk | hk <;> simp [State.injPut, h, hk, hz, h3]

/-- It takes no reserved KIND, none armed with KIND 0, and no KIND 3 for a bank that is not there (R543). -/
theorem injPut_refuses {s : State} {v : Word}
    (hb : 5 < fbit v 0 4 ∨ (fbit v 0 4 = 0 ∧ fbit v 31 1 = 1) ∨ (fbit v 0 4 = 3 ∧ 1600 ≤ fbit v 16 11)) : s.injPut v = s := by
  refine if_pos ?_
  rcases hb with hb | ⟨hk, ha⟩ | ⟨hk, hu⟩
  · simp [hb]
  · simp [hk, ha]
  · simp [hk, hu]

/-- Clearing PENDING bits sends the messages of their groups again of which the log holds a record (R438). -/
theorem pendClear_eq (s : State) (m : BitVec 4) : s.pendClear m =
    foldS ((List.range 4).filter (fun g => (s.integ.intPend &&& m).getLsbD g && s.logHas g))
      { s with integ := { s.integ with intPend := s.integ.intPend &&& ~~~ m } } State.interrupt := rfl

/-- Clearing PENDING bits of which the log holds no record sends nothing (R438). -/
theorem pendClear_silent {s : State} {m : BitVec 4} (h : ∀ g, (s.integ.intPend &&& m).getLsbD g = true → s.logHas g = false) :
    s.pendClear m = { s with integ := { s.integ with intPend := s.integ.intPend &&& ~~~ m } } := by
  have none_left : (List.range 4).filter (fun g => (s.integ.intPend &&& m).getLsbD g && s.logHas g) = [] :=
    List.filter_eq_nil_iff.mpr fun g _ => by
      rw [Bool.and_eq_true, not_and, Bool.not_eq_true]
      exact h g
  rw [pendClear_eq, none_left, foldS_nil]

/-- Clearing one of which it holds a record sends the group's message again (R438). -/
theorem pendClear_again {s : State} {m : BitVec 4} {g : Fin 4} (hm : s.integ.intPend &&& m = BitVec.ofNat 4 (2 ^ g.val))
    (hl : s.logHas g = true) :
    s.pendClear m = ({ s with integ := { s.integ with intPend := s.integ.intPend &&& ~~~ m } } : State).interrupt g := by
  have bit : ∀ i < 4, ∀ g : Fin 4, (BitVec.ofNat 4 (2 ^ g.val)).getLsbD i = decide (i = g.val) := by decide
  have alone : ∀ g : Fin 4, (List.range 4).filter (fun i => decide (i = g.val)) = [g.val] := by decide
  have one_left : (List.range 4).filter (fun i => (s.integ.intPend &&& m).getLsbD i && s.logHas i) = [g.val] := by
    rw [← alone g, hm]
    refine List.filter_congr fun i hi => ?_
    rw [bit i (List.mem_range.mp hi) g]
    by_cases hig : i = g.val
    · subst hig; simp [hl]
    · simp [hig]
  rw [pendClear_eq, one_left, foldS, List.foldl_cons, List.foldl_nil]

/-- LOST_CLEAR empties the lost set, or one entry of it (R485). -/
theorem lostPut_eq (s : State) (v : Word) :
    s.lostPut v = if v.getLsbD 31 = true then { s with lost := [] } else { s with lost := merase s.lost (fbit v 0 10) } := by
  unfold State.lostPut
  rw [bit1]
  congr 1
  simp

/-- TRACE_EN takes effect with debug open (R548). -/
theorem tracePut_open {s : State} (h : s.dev.debugOpen = true) (v : Word) :
    s.tracePut v = { s with dev := { s.dev with traceEn := v.getLsbD 0 } } := if_pos h

/-- With debug closed it does not. -/
theorem tracePut_closed {s : State} (h : s.dev.debugOpen = false) (v : Word) : s.tracePut v = s := if_neg (by simp [h])

/-- A base register keeps its value while a context is not CLOSED (R538). -/
theorem basePut_busy {s : State} (h : s.allClosed = false) (r : BaseReg) (x : DWord) : s.basePut r x = s := if_neg (by simp [h])

/-- With every context CLOSED it takes the bits that it has. -/
theorem basePut_takes {s : State} (h : s.allClosed = true) (r : BaseReg) (x : DWord) : s.basePut r x = s.modDev (fun d => match r with
    | .ctxTableBase => { d with ctxTableBase := x &&& ~~~ 0xFF }
    | .drvAsid => { d with drvAsid := x.setWidth 32 }
    | .ingestBase => { d with ingestBase := x &&& 0xFFFFFFFF00000000 }
    | .shardTableBase => { d with shardTableBase := x &&& ~~~ 0x3F }) := if_pos h

/-- A host write that acts leaves what it makes of the state, settled. -/
theorem hostWrite_next {s u : State} {act : State → State} (hready : s.dev.stage = .ready) (h : act s = u) :
    (.next (s.hostWrite act) : Host.Outcome State Fault Refusal) = .next u.settleAll := by
  rw [host_ready hready, h]

/-- Settles O56, register by register; a write acts in the READY state and then settles. -/
theorem registerCommands : Obligations.RegisterCommands := by
  refine ⟨fun s v hready => ⟨fun n => ?_, ?_, ?_, ?_, ?_⟩, fun s v hready => ?_⟩
  · exact ⟨fun hr ha => hostWrite_next hready (paramPut_takes hr ha), fun h => hostWrite_next hready (paramPut_errs h)⟩
  · refine ⟨fun hn hs => hostWrite_next hready ((stageLinesPut_eq s _).trans (if_pos ⟨hn, hs⟩)),
      fun h => hostWrite_next hready ((stageLinesPut_eq s _).trans (if_neg ?_))⟩
    rintro ⟨hn, hs⟩
    rcases h with h | ⟨e, he, hk, hi⟩
    · exact absurd hn (Nat.not_le.mpr h)
    · exact hi (hs e he hk)
  · exact ⟨fun hn => hostWrite_next hready (if_pos hn), fun hn => hostWrite_next hready (if_neg (Nat.not_le.mpr hn))⟩
  · exact ⟨fun h => hostWrite_next hready ((sharesPut_eq s v).trans (if_pos h)),
      fun h => hostWrite_next hready ((sharesPut_eq s v).trans (if_neg h))⟩
  · refine ⟨fun ho hr hv => hostWrite_next hready ((flushPut_eq s v).trans (if_pos ⟨ho, hr, hv⟩)),
      fun h => hostWrite_next hready ((flushPut_eq s v).trans (if_neg ?_))⟩
    rintro ⟨ho, hr, hv⟩
    rcases h with h | h | h
    · exact h ho
    · exact hr h
    · rw [h] at hv; cases hv
  · refine ⟨hostWrite_next hready rfl, fun h => hostWrite_next hready (injPut_armed h v),
      fun h hk h1 h2 => hostWrite_next hready (injPut_arms h hk h1 h2), fun _ hb => hostWrite_next hready (injPut_refuses hb),
      fun h => hostWrite_next hready (if_pos h), fun h => hostWrite_next hready (if_neg (Nat.not_le.mpr h)),
      fun m h => hostWrite_next hready (pendClear_silent h), fun m g hm hl => hostWrite_next hready (pendClear_again hm hl),
      fun h => hostWrite_next hready ((lostPut_eq s v).trans (if_pos h)),
      fun h => hostWrite_next hready ((lostPut_eq s v).trans (if_neg (by rw [h]; exact Bool.false_ne_true))),
      fun h => hostWrite_next hready (tracePut_open h v), fun h => hostWrite_next hready (tracePut_closed h v),
      fun x => ⟨fun h r => hostWrite_next hready (basePut_busy h r x), fun h => ?_⟩⟩
    have takes := fun r => hostWrite_next hready (basePut_takes h r x)
    exact ⟨takes .ctxTableBase, takes .drvAsid, takes .ingestBase, takes .shardTableBase⟩

/-! ### Transfers that fail -/

section
variable {s : State} {x : Xfer} {line : Nat}

/-- A line that fails is repeated up to three times, each counted in FABRIC_RETRY, by its line (R429). -/
theorem lineFails_again (h : mgetD x.fails line 0 < 3) (c : Nat) (a : DWord) (settle : State → State) :
    s.lineFails x line c a settle = (s.count 59 1).modXfer x.n (fun y => { y with fails := mset y.fails line (mgetD x.fails line 0 + 1) }) :=
  once_lt h _ _

/-- The fourth failure is counted and logged, and settles the transfer. -/
theorem lineFails_settles (h : 3 ≤ mgetD x.fails line 0) (c : Nat) (a : DWord) (settle : State → State) :
    s.lineFails x line c a settle =
      settle ((s.modXfer x.n (fun y => { y with fails := merase y.fails line })).fabricFail c (s.fabricPort a) a) :=
  once_ge h _ _

end

/-- The line of a fill that failed is one that the fill waits for. -/
theorem fabricRetry_fill {s : State} {id : CohortId} {n : Fin 65} {f : Fill} {d : Rec64} (hf : s.fillOf id = some f)
    (hd : s.bound id.ctx id.scene = some d)
    (hw : (f.stage = .trailer ∧ n.val = 64) ∨ (f.stage = .lines ∧ mget f.got n = none ∧ (n.val = 64 ∨ n.val < f.count.getD 0))) :
    doFabricRetry (.fill id n) s = s.fillLineFails id d f n := by
  simp only [doFabricRetry, hf, hd]
  refine if_pos ?_
  rcases hw with ⟨hs, hn⟩ | ⟨hs, hg, hn⟩
  · simp [hs, hn]
  · simp [hs, hg, hn]

/-- Its line is repeated up to three times. -/
theorem fillLineFails_again {s : State} {f : Fill} {n : Nat} (h : mgetD f.fails n 0 < 3) (id : CohortId) (d : Rec64) :
    s.fillLineFails id d f n = (s.count 59 1).modFill id (fun y => { y with fails := mset y.fails n (mgetD f.fails n 0 + 1) }) := by
  unfold State.fillLineFails
  exact once_lt h _ _

/-- With the fourth failure the fill fails its check (R419); a trailer that never came leaves no line to ask for. -/
theorem fillLineFails_settles {s : State} {f : Fill} {n : Nat} (h : 3 ≤ mgetD f.fails n 0) (id : CohortId) (d : Rec64) :
    let a := if n = 64 then trailerAddr d id.bough else nodeAddr d id.bough n
    s.fillLineFails id d f n = ((s.fabricFail id.ctx (s.fabricPort a) a).modFill id (fun y =>
      if y.stage == .trailer then { y with stage := .lines, count := some 1, got := [(0, 0), (64, 0)], forcedBad := true }
      else { y with got := mset y.got n 0, forcedBad := true })).checkFill id := by
  unfold State.fillLineFails
  exact once_ge h _ _

/-- The line of a leaf fill that failed is one of the lines that it asks for, until the block is queued. -/
theorem fabricRetry_leaf {s : State} {g : GroveNo} {id : BlockId} {f : LeafFill} {d : Rec64} {x : Xfer} (hf : s.leafFillOf g id = some f) (hd : s.bound id.ctx id.scene = some d)
    (hx : s.atWork (.leaf g id) = some x) (n : Fin 16) :
    doFabricRetry (.leafFill g id n) s = if n.val < f.count ∧ f.queued = false then s.leafLineFails g f d x n else s := by
  simp [doFabricRetry, hf, hd, hx]

/-- The line of a run that failed is one of its lines. -/
theorem fabricRetry_run {s : State} {c : CtxNo} {rseq n : Nat} {r : Run} {x : Xfer}
    (hr : (s.ctx c).ovf.runs.find? (fun r => r.rseq == rseq) = some r) (hx : s.atWork (.run c rseq) = some x) (hn : n < r.lines) :
    doFabricRetry (.run c rseq n) s = s.runLineFails c r x n := by
  simp only [doFabricRetry, hr, hx]
  exact if_pos hn

/-- A run that is still being written, or is none of queries, has no reading to fail. -/
theorem runLineFails_other {s : State} {c n : Nat} {r : Run} {x : Xfer} (h3 : 3 ≤ mgetD x.fails n 0)
    (h : r.written = false ∨ r.state ≠ .live) :
    s.runLineFails c r x n = (s.modXfer x.n (fun y => { y with fails := merase y.fails n })).fabricFail c
      (s.fabricPort (s.areaLine c (r.start + n))) (s.areaLine c (r.start + n)) :=
  (lineFails_settles h3 _ _ _).trans (if_neg (by rcases h with h | h <;> simp [h]))

/-- The reading of a run of queries fails (R224). -/
theorem runLineFails_reading {s : State} {c n : Nat} {r : Run} {x : Xfer} (h3 : 3 ≤ mgetD x.fails n 0) (hw : r.written = true)
    (hl : r.state = .live) :
    s.runLineFails c r x n = ((s.modXfer x.n (fun y => { y with fails := merase y.fails n })).fabricFail c
      (s.fabricPort (s.areaLine c (r.start + n))) (s.areaLine c (r.start + n))).readingFails c r x :=
  (lineFails_settles h3 _ _ _).trans (if_pos (by simp [hw, hl]))

/-- A second reading that fails loses the run; the cut is over if it covered no more (R224, R228). -/
theorem readingFails_loses {s : State} {c : Nat} {r : Run} (h : r.rereads ≠ 0) (x : Xfer) :
    let v := (s.finishXfer (.run c r.rseq)).loseRun c r.rseq r.recs.length
    s.readingFails c r x =
      if (v.ctx c).cut.isSome then v.settleCut c else { v with sched := { v.sched with reloadRot := (c + 1) % 4096 } } :=
  if_neg h

/-- The line of a scan that failed is one of the chunk that it reads. -/
theorem fabricRetry_scan {s : State} {ch : Fin 8} {n : Fin 33} {x : Xfer} {a : DWord} (hx : s.atWork (.scan ch) = some x)
    (hh : (s.scan ch).held = true) (hf : (s.scan ch).finished = false)
    (ha : (linesOf (s.scan ch).next (min 4096 (s.scan ch).remain))[n.val]? = some a) :
    doFabricRetry (.scan ch n) s = s.lineFails x n (s.scan ch).ctx a (fun s =>
      ((s.modScan ch (fun x => { x with failed := true })).finishXfer (.scan ch)).finishScan ch) := by
  simp only [doFabricRetry, hx, hh, hf, State.scanLineFails, ha]
  rfl

/-- The line of a tile that failed is one of its lines. -/
theorem fabricRetry_tile {s : State} {k : StreamNo} {j n : Nat} {x : Xfer} {a : DWord} (hx : s.atWork (.tile k j) = some x)
    (ha : (tileLineAddrs (s.stream k).image ((s.stream k).arming j).2 (j - ((s.stream k).arming j).1))[n]? = some a) :
    doFabricRetry (.tile k j n) s = s.lineFails x n (s.stream k).owner a (fun t =>
      if smKind (s.stream k).image = 1 then t.modXfer x.n (fun z => { z with bad := z.bad ++ [n] }) else t) := by
  simp only [doFabricRetry, hx, State.tileLineFails, ha]

/-- The line of the transaction buffer that failed is one that is being written through. -/
theorem fabricRetry_through {s : State} {n : Fin 32768} {x : Xfer} {l : BufLine} (hx : s.atWork (.through n) = some x)
    (hl : mget s.txnBuf n = some l) (hw : l.state = .writing) : doFabricRetry (.through n) s = s.lineFails x 0 l.ctx l.addr id := by
  simp only [doFabricRetry, hx, hl, hw]
  rfl

/-- The read of a table that failed is one that the engine has asked for. -/
theorem fabricRetry_table {s : State} {c : CtxNo} {a : DWord} (hc : (s.ctx c).state ≠ .closed)
    (ho : s.out.any (fun o => match o with | .read _ _ b k => b == a && k.tableOf c | _ => false) = true) :
    doFabricRetry (.table c a) s = s.failOnce (mgetD (s.ctx c).readFails a.toNat 0)
      (fun s k => s.modCtx c (fun x => { x with readFails := mset x.readFails a.toNat k }))
      (fun s => (s.modCtx c (fun x => { x with readFails := merase x.readFails a.toNat })).fabricFail c (s.fabricPort a) a) := by
  refine if_neg ?_
  rw [Bool.or_eq_true, not_or, Bool.not_eq_true', Bool.not_eq_false]
  exact ⟨by simpa using hc, ho⟩

/-- The write that failed is the last that went out under its completion. -/
theorem fabricRetry_delivery {s : State} {n p : Nat} {x : Completion} {a : DWord} (hx : s.completions.find? (fun y => y.n == n) = some x)
    (hs : s.sentAt n = some (p, a)) :
    doFabricRetry (.delivery n) s = s.failOnce x.fails (fun s k => s.modCompletion n (fun y => { y with fails := k }))
      (fun s => ((s.modCompletion n (fun y => { y with fails := 0 })).fabricFail x.ctx p a).ackWrite n) := by
  simp only [doFabricRetry, State.writeFails, hx, hs]

/-- The read of a strand that failed is one that the strand waits for. -/
theorem fabricRetry_strand {s : State} {c : CtxNo} {a : DWord} (h : (s.strandReads c).contains (lineOf a) = true) :
    doFabricRetry (.strandRead c a) s = s.failOnce (mgetD (s.ctx c).strand.fails (lineOf a).toNat 0)
      (fun s k => s.modStrand c (fun t => { t with fails := mset t.fails (lineOf a).toNat k }))
      (fun s => (s.fabricFail c (s.fabricPort a) a).kill c 2 noUnit (s.ctx c).strand.pc a) :=
  if_neg (by rw [h]; decide)

/-- Any other fails nothing. -/
theorem fabricRetry_strand_none {s : State} {c : CtxNo} {a : DWord} (h : (s.strandReads c).contains (lineOf a) = false) :
    doFabricRetry (.strandRead c a) s = s := if_pos (by rw [h]; decide)

/-- FABRIC_RETRY leaves what the failure of its line does. -/
theorem fabricRetry_next {s t u : State} {item : FabricItem} (h : doFabricRetry item s = t) (k : t = u) :
    exec (.fabricRetry item) s = .next u := congrArg Host.Outcome.next (h.trans k)

/-- Settles O47, by what the line that failed belongs to and by the failures before it. -/
theorem fabricFailures : Obligations.FabricFailures := by
  intro s
  refine ⟨?_, ?_, ?_, ?_, ?_, ?_, ?_, ?_, ?_, fun c a h => congrArg Host.Outcome.next (fabricRetry_strand_none h)⟩
  · intro id n f d hf hd hw
    have retry := fabricRetry_fill hf hd hw
    exact ⟨fun h => fabricRetry_next retry (fillLineFails_again h id d), fun h => fabricRetry_next retry (fillLineFails_settles h id d)⟩
  · intro g id n f d x hf hd hx
    have retry := fabricRetry_leaf hf hd hx n
    refine ⟨fun hn hq => ?_, fun h => fabricRetry_next retry (if_neg ?_)⟩
    · rw [if_pos ⟨hn, hq⟩] at retry
      exact ⟨fun h => fabricRetry_next retry (lineFails_again h _ _ _),
        fun h => fabricRetry_next retry (lineFails_settles h _ _ _)⟩
    · rintro ⟨hn, hq⟩
      rcases h with h | h
      · exact absurd hn (Nat.not_lt.mpr h)
      · rw [hq] at h; cases h
  · intro c rseq n r x hr hx hn
    have retry := fabricRetry_run hr hx hn
    refine ⟨fun h => fabricRetry_next retry (lineFails_again h _ _ _),
      fun h hw => fabricRetry_next retry (runLineFails_other h hw), fun h hw hl h0 => ?_, fun h hw hl h0 => ?_⟩
    · exact fabricRetry_next retry ((runLineFails_reading h hw hl).trans (if_pos h0))
    · have lost := (runLineFails_reading (s := s) (c := c) h hw hl).trans (readingFails_loses h0 x)
      exact ⟨fun hc => fabricRetry_next retry (lost.trans (if_pos (some_of hc))),
        fun hc => fabricRetry_next retry (lost.trans (if_neg (Option.not_isSome_iff_eq_none.mpr hc)))⟩
  · intro ch n x a hx hh hf ha
    have retry := fabricRetry_scan hx hh hf ha
    exact ⟨fun h => fabricRetry_next retry (lineFails_again h _ _ _),
      fun h => fabricRetry_next retry (lineFails_settles h _ _ _)⟩
  · intro k j n x a hx ha
    have retry := fabricRetry_tile hx ha
    exact ⟨fun h => fabricRetry_next retry (lineFails_again h _ _ _),
      fun h hk => fabricRetry_next retry ((lineFails_settles h _ _ _).trans (if_neg hk)),
      fun h hk => fabricRetry_next retry ((lineFails_settles h _ _ _).trans (if_pos hk))⟩
  · intro n x l hx hl hw
    have retry := fabricRetry_through hx hl hw
    exact ⟨fun h => fabricRetry_next retry (lineFails_again h _ _ _),
      fun h => fabricRetry_next retry (lineFails_settles h _ _ _)⟩
  · intro c a hc ho
    have retry := fabricRetry_table hc ho
    exact ⟨fun h => fabricRetry_next retry (once_lt h _ _), fun h => fabricRetry_next retry (once_ge h _ _)⟩
  · intro n x p a hx hs
    have retry := fabricRetry_delivery hx hs
    exact ⟨fun h => fabricRetry_next retry (once_lt h _ _), fun h => fabricRetry_next retry (once_ge h _ _)⟩
  · intro c a hr
    have retry := fabricRetry_strand hr
    exact ⟨fun h => fabricRetry_next retry ((once_lt h _ _).trans (modStrand1 _ _ _)),
      fun h => fabricRetry_next retry (once_ge h _ _)⟩

end Sys2Proof.Machine
end

section
/-! PROOFS. The statements of 07_kyozil_programming_model: what does not issue and what kills (O60), the instructions of a strand (O6) and
of an issue group (O7), special registers (O8), lanes that leave (O13), ends (O16), and how a context opens (O39) and ends (O40), each
after the facts about the operations that it rests on. -/
namespace Sys2Proof.Machine

/-! ### The form of an instruction -/

/-- What the issue of a strand instruction looks at: its context, the registers it uses, whether it is legal, whether it has two words,
and whether it reads memory for its strand, so that it may have to wait for more than its registers (R370). -/
structure StrandForm where
  ctx : Nat
  uses : List Nat
  legal : Bool
  long : Bool := false
  reads : Bool := false

/-- The form of each strand instruction (R240, R252, R261, R370), in the state that issues it. -/
def State.strandForm (s : State) : Instr → Option StrandForm
  | .nop (.strand c) => some { ctx := c, uses := [], legal := true }
  | .iop (.strand c) f => some {
      ctx := c, uses := [f.a.toNat, f.b.toNat, f.d.toNat]
      legal := isX f.d && isX f.a && isX f.b && (iop f.minor.toNat (s.getReg c f.a) (s.getReg c f.b)).isSome }
  | .iopi (.strand c) f => some {
      ctx := c, uses := [f.a.toNat, f.d.toNat], long := true
      legal := isX f.d && isX f.a && (iop f.minor.toNat (s.getReg c f.a) (sext64 f.imm)).isSome }
  | .movi (.strand c) f => some { ctx := c, uses := [f.d.toNat], legal := isX f.d && minorIs f 0, long := true }
  | .movih (.strand c) f => some { ctx := c, uses := [f.a.toNat, f.d.toNat], legal := isX f.d && isX f.a && minorIs f 1, long := true }
  | .cmp (.strand c) f => some {
      ctx := c, uses := [f.a.toNat, f.b.toNat, f.d.toNat]
      legal := isX f.d && isX f.a && isX f.b && (cmpHolds f.minor.toNat (s.getReg c f.a) (s.getReg c f.b)).isSome }
  | .br (.strand c) f => some {
      ctx := c, uses := [], long := true
      legal := minorIs f 0 && !decide ((s.ctx c).strand.words ≤ f.imm.toNat) }
  | .brt (.strand c) f => some {
      ctx := c, uses := [f.a.toNat], long := true
      legal := isX f.a && minorIs f 1 && !(branchTaken true (s.getReg c f.a != 0) && decide ((s.ctx c).strand.words ≤ f.imm.toNat)) }
  | .brf (.strand c) f => some {
      ctx := c, uses := [f.a.toNat], long := true
      legal := isX f.a && minorIs f 2 && !(branchTaken false (s.getReg c f.a != 0) && decide ((s.ctx c).strand.words ≤ f.imm.toNat)) }
  | .call (.strand c) f => some {
      ctx := c, uses := [f.d.toNat], long := true
      legal := isX f.d && minorIs f 3 && !decide ((s.ctx c).strand.words ≤ f.imm.toNat) }
  | .ret (.strand c) f => some {
      ctx := c, uses := [f.a.toNat]
      legal := isX f.a && minorIs f 0 && !decide ((s.ctx c).strand.words ≤ (s.getReg c f.a).toNat) }
  | .retH (.strand c) => some { ctx := c, uses := [], legal := false }
  | .illegalInstruction (.strand c) => some { ctx := c, uses := [], legal := false }
  | .strandEnd c f => some { ctx := c, uses := [], legal := minorIs f 1 }
  | .ld c f => some { ctx := c, uses := [f.a.toNat, f.d.toNat], legal := isX f.d && isX f.a && decide (f.minor.toNat < 32), long := true }
  | .st c f => some {
      ctx := c, uses := [f.a.toNat, f.b.toNat], long := true
      legal := isX f.a && isX f.b && decide (f.minor.toNat < 32) && !f.minor.getLsbD 2 }
  | .amo c f => some {
      ctx := c, uses := [f.a.toNat, f.b.toNat, f.d.toNat]
      legal := isX f.d && isX f.a && isX f.b && decide (f.minor.toNat % 16 ≤ 9) && decide (2 ≤ f.minor.toNat / 16 % 4) &&
        (s.getReg c f.a).toNat % 2 ^ (f.minor.toNat / 16 % 4) == 0 }
  | .rdc c f => some { ctx := c, uses := [f.a.toNat, f.d.toNat], legal := isX f.d && isX f.a && minorIs f 0 }
  | .waitc c f => some { ctx := c, uses := [f.a.toNat, f.b.toNat, f.d.toNat], legal := isX f.d && isX f.a && isX f.b && minorIs f 1 }
  | .waitcT c f => some { ctx := c, uses := [f.a.toNat, f.b.toNat, f.d.toNat], legal := isX f.d && isX f.a && isX f.b && minorIs f 2 }
  | .strmStart c f => some { ctx := c, uses := [f.a.toNat, f.d.toNat], legal := isX f.d && isX f.a && minorIs f 2 }
  | .strmStop c f => some { ctx := c, uses := [f.a.toNat, f.d.toNat], legal := isX f.d && isX f.a && minorIs f 3 }
  | .strmCancel c f => some { ctx := c, uses := [f.a.toNat, f.d.toNat], legal := isX f.d && isX f.a && minorIs f 4 }
  | .strmStat c f => some { ctx := c, uses := [f.a.toNat, f.d.toNat], legal := isX f.d && isX f.a && minorIs f 5 }
  | .scanWait c f => some { ctx := c, uses := [f.a.toNat, f.d.toNat], legal := isX f.d && isX f.a && minorIs f 1 }
  | .scanSuspend c f => some { ctx := c, uses := [f.a.toNat, f.d.toNat], legal := isX f.d && isX f.a && minorIs f 2 }
  | .scanStat c f => some { ctx := c, uses := [f.a.toNat, f.d.toNat], legal := isX f.d && isX f.a && minorIs f 3 }
  | .xcommit c f => some { ctx := c, uses := [f.d.toNat], legal := isX f.d && minorIs f 3 }
  | .xabort c f => some { ctx := c, uses := [f.d.toNat], legal := isX f.d && minorIs f 4 }
  | .xstat c f => some { ctx := c, uses := [f.d.toNat], legal := isX f.d && minorIs f 5 }
  | .xwtpend c f => some { ctx := c, uses := [f.d.toNat], legal := isX f.d && minorIs f 6 }
  | .xwtwait c f => some { ctx := c, uses := [f.d.toNat], legal := isX f.d && minorIs f 7 }
  | .fence c f => some { ctx := c, uses := [], legal := decide (f.minor.toNat < 8) && f.minor.toNat % 4 != 0 }
  | .barrier c f => some { ctx := c, uses := [f.a.toNat, f.d.toNat], legal := isX f.d && isX f.a }
  | .strmArm c f => some {
      ctx := c, uses := [f.a.toNat, f.b.toNat, f.d.toNat], reads := true
      legal := isX f.d && isX f.a && isX f.b && minorIs f 0 }
  | .strmRearm c f => some {
      ctx := c, uses := [f.a.toNat, f.b.toNat, f.d.toNat], reads := true
      legal := isX f.d && isX f.a && isX f.b && minorIs f 1 }
  | .crcscan c f => some { ctx := c, uses := [f.a.toNat, f.d.toNat], legal := isX f.d && isX f.a && minorIs f 0, reads := true }
  | .xwriteNode c f => some {
      ctx := c, uses := [f.a.toNat, f.b.toNat, f.d.toNat], reads := true
      legal := isX f.d && isX f.a && isX f.b && minorIs f 1 }
  | .xwriteLeaf c f => some {
      ctx := c, uses := [f.a.toNat, f.b.toNat, f.d.toNat], reads := true
      legal := isX f.d && isX f.a && isX f.b && minorIs f 2 }
  | .launch c f => some { ctx := c, uses := [f.a.toNat, f.d.toNat], legal := isX f.d && isX f.a, reads := true }
  | .nvstore c f => some { ctx := c, uses := [f.a.toNat, f.d.toNat], legal := isX f.d && isX f.a, reads := true }
  | .xbegin c f => some { ctx := c, uses := [f.a.toNat, f.d.toNat], legal := isX f.d && isX f.a && minorIs f 0, reads := true }
  | _ => none

/-- What the issue of an instruction by a sheaf looks at: the sheaf slot, whether the instruction is legal in a sheaf, and whether it
has two words. -/
structure SheafForm where
  core : Nat
  sh : Nat
  legal : Sheaf → Bool
  long : Bool := false

/-- The form of each instruction of an issue group (R242, R252), in the state that issues it. -/
def State.sheafForm (s : State) : Instr → Option SheafForm
  | .nop (.sheaf core sh) => some { core, sh, legal := fun _ => true }
  | .iop (.sheaf core sh) f => some {
      core, sh
      legal := fun x => isVDst x.handler f.d && isV f.a && isV f.b && (iop f.minor.toNat (0 : Word) 0).isSome }
  | .iopi (.sheaf core sh) f => some {
      core, sh, long := true
      legal := fun x => isVDst x.handler f.d && isV f.a && (iop f.minor.toNat (0 : Word) 0).isSome }
  | .movi (.sheaf core sh) f => some { core, sh, long := true, legal := fun x => isVDst x.handler f.d && minorIs f 0 }
  | .movih (.sheaf core sh) _f => some { core, sh, long := true, legal := fun _ => false }
  | .cmp (.sheaf core sh) f => some {
      core, sh
      legal := fun _ => isPDst f.d && isV f.a && isV f.b && (cmpHolds f.minor.toNat (0 : Word) 0).isSome }
  | .br (.sheaf core sh) f => some {
      core, sh, long := true
      legal := fun x => minorIs f 0 && !x.group.any (fun _ => beyond x.words f.imm.toNat) }
  | .brt (.sheaf core sh) f => some {
      core, sh, long := true
      legal := fun x => isP f.a && minorIs f 1 && !x.group.any (fun l => branchTaken true (l.rp f.a) && beyond x.words f.imm.toNat) }
  | .brf (.sheaf core sh) f => some {
      core, sh, long := true
      legal := fun x => isP f.a && minorIs f 2 && !x.group.any (fun l => branchTaken false (l.rp f.a) && beyond x.words f.imm.toNat) }
  | .call (.sheaf core sh) f => some {
      core, sh, long := true
      legal := fun x => isVDst x.handler f.d && minorIs f 3 && !x.group.any (fun _ => beyond x.words f.imm.toNat) }
  | .ret (.sheaf core sh) f => some {
      core, sh
      legal := fun x => isV f.a && minorIs f 0 && !x.group.any (fun l => beyond x.words (l.rv f.a).toNat) }
  | .retH (.sheaf core sh) => some { core, sh, legal := fun x => x.handler }
  | .illegalInstruction (.sheaf core sh) => some { core, sh, legal := fun _ => false }
  | .fop core sh f => some {
      core, sh
      legal := fun x => isVDst x.handler f.d && isV f.a && (fopUnary f.minor.toNat || isV f.b) && decide (f.minor.toNat ≤ 0x09) }
  | .fcmp core sh f => some { core, sh, legal := fun _ => isPDst f.d && isV f.a && isV f.b && decide (f.minor.toNat ≤ 0x07) }
  | .cvt core sh f => some { core, sh, legal := fun x => isVDst x.handler f.d && isV f.a && decide (f.minor.toNat ≤ 0x07) }
  | .sel core sh f => some { core, sh, legal := fun x => isVDst x.handler f.d && isV f.a && isV f.b && decide (f.minor.toNat < 8) }
  | .plog core sh f => some {
      core, sh
      legal := fun _ => isPDst f.d && isP f.a && (plogUnary f.minor.toNat || isP f.b) && decide (f.minor.toNat ≤ 0x05) }
  | .testn core sh f => some { core, sh, legal := fun x => x.walkOnly && isV f.d && isV f.a }
  | .testb core sh f => some { core, sh, legal := fun x => x.walkOnly && isV f.d }
  | .leaf core sh f => some { core, sh, legal := fun x => x.walkOnly && isV f.d && isV f.a }
  | .order core sh f => some { core, sh, legal := fun x => x.walkOnly && isV f.a && decide (f.minor.toNat < 4) }
  | .child core sh f => some { core, sh, legal := fun x => isVDst x.handler f.d && isV f.a && childMinorOk f.minor }
  | .push core sh f => some { core, sh, legal := fun x => x.walkOnly && decide (f.minor.toNat < 2) }
  | .pop core sh f => some { core, sh, legal := fun x => x.walkOnly && isPDst f.d }
  | .descend core sh f => some { core, sh, legal := fun x => x.walkOnly && isV f.d }
  | .trail core sh f => some { core, sh, legal := fun x => x.walkOnly && decide (f.minor.toNat ≤ 5) && trailOperands f.minor.toNat f }
  | .yield core sh f => some { core, sh, legal := fun x => x.walkOnly && minorIs f 0 && x.group.all Lane.yields }
  | .yieldTree core sh f => some { core, sh, legal := fun x => x.walkOnly && minorIs f 1 && x.group.all s.isForest }
  | .fwd core sh _f => some { core, sh, legal := fun x => x.walkOnly && x.group.all Lane.holdsRemote }
  | .hit core sh f => some { core, sh, legal := fun x => x.walkOnly && isPDst f.d && isV f.a && decide (f.minor.toNat < 2) }
  | .collectEntry core sh f => some { core, sh, legal := fun x => x.walkOnly && decide (f.a.toNat ≤ 20) && minorIs f 0 }
  | .collectSum core sh f => some { core, sh, legal := fun x => x.walkOnly && minorIs f 1 }
  | .collectSumv core sh f => some { core, sh, legal := fun x => x.walkOnly && isV f.a && isV f.b && minorIs f 2 }
  | .collectClear core sh f => some { core, sh, legal := fun x => x.walkOnly && minorIs f 3 }
  | .emit core sh f => some { core, sh, legal := fun x => x.walkOnly && decide (f.a.toNat ≤ 16) }
  | .spawn core sh f => some { core, sh, legal := fun _ => isPDst f.d && decide (f.a.toNat ≤ 8) }
  | .walkEnd core sh f => some { core, sh, legal := fun x => x.walkOnly && minorIs f 1 }
  | .movs core sh f => some {
      core, sh
      legal := fun x => if f.minor.toNat < 128 then f.minor.toNat < 64 && isVDst x.handler f.d && specialReadable (f.minor.toNat % 64)
        else f.minor.toNat < 192 && isV f.a && specialWritable (f.minor.toNat % 64) }
  | _ => none

/-! ### A strand that may not issue, and one that issues an illegal instruction -/

/-- A strand that may not issue leaves the machine as it is. -/
theorem strandIssue_idle {s : State} {c : Nat} {uses : List Nat} (h : s.strandReady c uses = false) (long legal : Bool) (lat : Nat)
    (eff : State → State) : s.strandIssue c uses long legal lat eff = s := by
  simp [State.strandIssue, h]

/-- A strand that issues an instruction beyond its image, or an illegal one, kills its context (R253). -/
theorem strandIssue_kills {s : State} {c : Nat} {uses : List Nat} {long legal : Bool} (h : s.strandReady c uses = true)
    (hb : legal = false ∨ pcBad (some (s.ctx c).strand.words) (s.ctx c).strand.pc long = true) (lat : Nat) (eff : State → State) :
    s.strandIssue c uses long legal lat eff = s.kill c 1 0xFFFF (s.ctx c).strand.pc 0 := by
  have bad : (pcBad (some (s.ctx c).strand.words) (s.ctx c).strand.pc long || !legal) = true := by
    rcases hb with hb | hb <;> simp [hb]
  simp only [State.strandIssue, h, bad]
  rfl

/-- The issue of an instruction of a form: one that reads memory is passed over until R370 lets it read. -/
def State.issueForm (s : State) (F : StrandForm) (lat : Nat) (eff : State → State) : State :=
  match F.reads with
  | true => if (s.ctx F.ctx).strand.quiet || !F.legal then s.strandIssue F.ctx F.uses F.long F.legal lat eff else s
  | false => s.strandIssue F.ctx F.uses F.long F.legal lat eff

/-- What an instruction of a form does while its strand may not issue it, when it is illegal, and when it lies beyond the image. -/
structure StrandForm.Issues (F : StrandForm) (s : State) (i : Instr) : Prop where
  idle : s.strandReady F.ctx F.uses = false → exec i s = .next s
  kills : s.strandReady F.ctx F.uses = true →
    (F.legal = false ∨ F.reads = false ∧ pcBad (some (s.ctx F.ctx).strand.words) (s.ctx F.ctx).strand.pc F.long = true) →
    exec i s = .next (s.kill F.ctx 1 0xFFFF (s.ctx F.ctx).strand.pc 0)

/-- An instruction that is passed over, or issued, as its form says. An illegal one is not passed over. -/
theorem StrandForm.Issues.of_issueForm {F : StrandForm} {s : State} {i : Instr}
    (h : ∃ lat eff, exec i s = .next (s.issueForm F lat eff)) : F.Issues s i := by
  obtain ⟨lat, eff, h⟩ := h
  refine ⟨fun hr => ?_, fun hr hb => ?_⟩
  · rw [h, State.issueForm, strandIssue_idle hr]
    cases F.reads <;> simp
  · have kills := strandIssue_kills hr (hb.imp_right And.right) lat eff
    rw [h, State.issueForm, kills]
    rcases hb with hl | ⟨hn, -⟩
    · cases F.reads <;> simp [hl]
    · simp [hn]

/-- XBEGIN reads its scene descriptor only when it may issue and is legal. -/
theorem xbegin_issues (s : State) (c : CtxNo) (f : Fields) : StrandForm.Issues
    { ctx := c, uses := [f.a.toNat, f.d.toNat], legal := isX f.d && isX f.a && minorIs f 0, reads := true } s (.xbegin c f) := by
  refine ⟨fun hr => congrArg Host.Outcome.next ?_, fun hr hb => congrArg Host.Outcome.next ?_⟩
  · unfold doXbegin
    dsimp only at hr ⊢
    rw [hr, strandIssue_idle hr]
    rfl
  · have hl : (isX f.d && isX f.a && minorIs f 0) = false := hb.elim id (fun h => nomatch h.1)
    have asks : (s.strandReady c [f.a.toNat, f.d.toNat] && isX f.d && isX f.a && minorIs f 0 &&
        s.sceneUnread c (s.getReg c f.a).toNat) = false := by grind
    unfold doXbegin
    dsimp only at hr ⊢
    rw [asks, strandIssue_kills hr (.inl hl)]
    rfl

/-- Every instruction of the table issues as its form says. -/
theorem strandForm_issues {s : State} {i : Instr} {F : StrandForm} (h : s.strandForm i = some F) : F.Issues s i := by
  unfold State.strandForm at h
  split at h
  case h_42 c f => cases h; exact xbegin_issues s c f
  case h_43 => cases h
  all_goals cases h; exact .of_issueForm ⟨_, _, rfl⟩

/-- An instruction that its strand may not issue leaves the machine as it is. -/
theorem strand_idle {s : State} {i : Instr} {F : StrandForm} (hF : s.strandForm i = some F) (hr : s.strandReady F.ctx F.uses = false) :
    exec i s = .next s := (strandForm_issues hF).idle hr

/-- One that is illegal, or lies beyond the image, kills the context of its strand. -/
theorem strand_kills {s : State} {c : Nat} {i : Instr} {F : StrandForm} (hF : s.strandForm i = some F) (hc : F.ctx = c)
    (hr : s.strandReady F.ctx F.uses = true)
    (hb : F.legal = false ∨ F.reads = false ∧ pcBad (some (s.ctx F.ctx).strand.words) (s.ctx F.ctx).strand.pc F.long = true) :
    exec i s = .next (s.kill c 1 0xFFFF (s.ctx c).strand.pc 0) := hc ▸ (strandForm_issues hF).kills hr hb

/-- No strand issues outside a READY strand of an OPEN context (R240). -/
theorem strandReady_stopped {s : State} {c : Nat} (h : (s.ctx c).state ≠ .opened ∨ (s.ctx c).strand.state ≠ .ready)
    (uses : List Nat) : s.strandReady c uses = false := by
  rcases h with h | h <;> simp [State.strandReady, h]

/-- None issues an instruction that uses a register still to be written (R261). -/
theorem strandReady_awaits {s : State} {c n : Nat} {uses : List Nat} (h : (s.ctx c).strand.awaits n = true) (hn : n ∈ uses) :
    s.strandReady c uses = false := by
  have bad : uses.all (fun n => !(s.ctx c).strand.awaits n) = false := List.all_eq_false.mpr ⟨n, hn, by simp [h]⟩
  simp [State.strandReady, bad]

/-- A READY strand with no load under way may issue. -/
theorem strandReady_free {s : State} {c : Nat} (ho : (s.ctx c).state = .opened) (hr : (s.ctx c).strand.state = .ready)
    (hl : (s.ctx c).strand.loads = []) (uses : List Nat) : s.strandReady c uses = true := by
  simp [State.strandReady, Strand.awaits, ho, hr, hl]

/-! ### A sheaf that may not issue, and one that issues an illegal instruction -/

/-- Every instruction of the table issues as its form says. -/
theorem sheafForm_issues {s : State} {i : Instr} {F : SheafForm} (h : s.sheafForm i = some F) :
    ∃ eff, exec i s = .next (s.issue F.core F.sh F.long F.legal eff) := by
  unfold State.sheafForm at h
  split at h
  case h_39 core sh f =>
    cases h
    by_cases hm : f.minor.toNat < 128
    · simp only [hm, if_true]
      exact ⟨_, congrArg Host.Outcome.next (if_pos hm)⟩
    · simp only [hm, if_false]
      exact ⟨_, congrArg Host.Outcome.next (if_neg hm)⟩
  case h_40 => cases h
  all_goals cases h; exact ⟨_, rfl⟩

/-- A sheaf that may not issue leaves the machine as it is. -/
theorem issue_idle {s : State} {core sh : Nat} (h : s.issuing core sh = none) (long : Bool) (legal : Sheaf → Bool)
    (eff : Sheaf → State) : s.issue core sh long legal eff = s := by
  simp only [State.issue, h]

/-- A sheaf that issues an instruction beyond its image, or an illegal one, kills its context (R253). -/
theorem issue_kills {s : State} {core sh : Nat} {x : Sheaf} {long : Bool} {legal : Sheaf → Bool} (h : s.issuing core sh = some x)
    (hb : legal x = false ∨ pcBad x.words x.pc long = true) (eff : Sheaf → State) :
    s.issue core sh long legal eff = s.kill x.cohort.ctx 1 core x.pc 0 := by
  have bad : (pcBad x.words x.pc long || !legal x) = true := by
    rcases hb with hb | hb <;> simp [hb]
  simp only [State.issue, h, bad]
  rfl

/-- An instruction of a sheaf that may not issue leaves the machine as it is. -/
theorem sheaf_idle {s : State} {core sh : Nat} {i : Instr} {F : SheafForm} (hx : s.issuing core sh = none) (hF : s.sheafForm i = some F)
    (hc : F.core = core) (hs : F.sh = sh) : exec i s = .next s := by
  obtain ⟨eff, h⟩ := sheafForm_issues hF
  subst hc hs
  rw [h, issue_idle hx]

/-- One that is illegal, or lies beyond the image, kills the context of its sheaf. -/
theorem sheaf_kills {s : State} {core sh : Nat} {x : Sheaf} {i : Instr} {F : SheafForm} (hx : s.issuing core sh = some x)
    (hF : s.sheafForm i = some F) (hc : F.core = core) (hs : F.sh = sh) (hb : F.legal x = false ∨ pcBad x.words x.pc F.long = true) :
    exec i s = .next (s.kill x.cohort.ctx 1 core x.pc 0) := by
  obtain ⟨eff, h⟩ := sheafForm_issues hF
  subst hc hs
  rw [h, issue_kills hx hb]

/-! ### Reserved minors -/

/-- IOP has no operation above minor 0x12 (R263). -/
theorem iop_reserved {w m : Nat} (h : 0x12 < m) (a b : BitVec w) : iop m a b = none := by
  obtain ⟨k, rfl⟩ : ∃ k, m = k + 0x13 := ⟨m - 0x13, by omega⟩
  rfl

/-- CMP has none above 5 (R266). -/
theorem cmpHolds_reserved {w m : Nat} (h : 5 < m) (a b : BitVec w) : cmpHolds m a b = none := by
  obtain ⟨k, rfl⟩ : ∃ k, m = k + 6 := ⟨m - 6, by omega⟩
  rfl

/-- Settles O60: each instruction issues as its form says, so what is left of each clause is that the strand or the sheaf may not issue
or that the form is not legal. -/
theorem illegalForms : Obligations.IllegalForms := by
  refine ⟨?_, ?_, ?_, ?_, ?_⟩
  · intro s c f h
    simp only [List.forall_mem_cons, List.not_mem_nil, false_implies, implies_true, and_true]
    and_intros
    all_goals exact strand_idle rfl (strandReady_stopped h _)
  · intro s c f h
    simp only [List.forall_mem_cons, List.not_mem_nil, false_implies, implies_true, and_true]
    and_intros
    all_goals exact strand_idle rfl (strandReady_awaits h (by simp))
  · intro s core sh f h
    simp only [List.forall_mem_cons, List.not_mem_nil, false_implies, implies_true, and_true]
    and_intros
    all_goals exact sheaf_idle h rfl rfl rfl
  · intro s c f t ho hr hl kills
    have free := strandReady_free ho hr hl
    refine ⟨fun hpc => ?_, fun hpc => ?_, fun ht => ?_, fun hd => ?_, fun ha => ?_, ?_, fun hm => ?_, fun hm => ?_,
      fun hm => ?_, fun hm => ?_⟩
    · have hb : pcBad (some t.words) t.pc false = true := by simpa [pcBad, beyond] using hpc
      and_intros
      all_goals exact strand_kills rfl rfl (free _) (.inr ⟨rfl, hb⟩)
    · have hb : pcBad (some t.words) t.pc true = true := by simpa [pcBad, beyond] using hpc
      and_intros
      all_goals exact strand_kills rfl rfl (free _) (.inr ⟨rfl, hb⟩)
    · have hb : decide (t.words ≤ f.imm.toNat) = true := decide_eq_true ht
      and_intros
      all_goals exact strand_kills rfl rfl (free _) (.inl (by simp [t, hb]))
    · have hx : isX f.d = false := by simpa [isX] using hd
      simp only [List.forall_mem_cons, List.not_mem_nil, false_implies, implies_true, and_true]
      and_intros
      all_goals exact strand_kills rfl rfl (free _) (.inl (by simp [hx]))
    · have hx : isX f.a = false := by simpa [isX] using ha
      simp only [List.forall_mem_cons, List.not_mem_nil, false_implies, implies_true, and_true]
      and_intros
      all_goals exact strand_kills rfl rfl (free _) (.inl (by simp [hx]))
    · simp only [List.forall_mem_cons, List.not_mem_nil, false_implies, implies_true, and_true]
      and_intros
      all_goals exact fun hm => strand_kills rfl rfl (free _) (.inl (by simp [minorIs, hm]))
    · and_intros
      all_goals exact strand_kills rfl rfl (free _) (.inl (by simp [iop_reserved hm]))
    · exact strand_kills rfl rfl (free _) (.inl (by simp [cmpHolds_reserved hm]))
    · and_intros
      all_goals exact strand_kills rfl rfl (free _) (.inl (by simp [Nat.not_lt.mpr hm]))
    · refine strand_kills rfl rfl (free _) (.inl ?_)
      rcases hm with hm | hm | hm
      · simp [Nat.not_le.mpr hm]
      · simp [Nat.not_le.mpr hm]
      · simp [State.getReg, Strand.rx, hm, t]
  · intro s core sh x f hx kills
    refine ⟨fun hpc => ?_, fun hpc => ?_, fun hg ht => ?_, fun hd => ?_, fun hd => ?_, fun ha => ?_, fun hm => ?_, ?_, fun hh => ?_,
      fun hy => ?_, fun hy => ?_, fun hy => ?_⟩
    · and_intros
      all_goals exact sheaf_kills hx rfl rfl rfl (.inr hpc)
    · and_intros
      all_goals exact sheaf_kills hx rfl rfl rfl (.inr hpc)
    · and_intros
      all_goals exact sheaf_kills hx rfl rfl rfl (.inl (by simp [ht, any_true x hg]))
    · simp only [List.forall_mem_cons, List.not_mem_nil, false_implies, implies_true, and_true]
      and_intros
      all_goals exact sheaf_kills hx rfl rfl rfl (.inl (by simp [hd]))
    · simp only [List.forall_mem_cons, List.not_mem_nil, false_implies, implies_true, and_true]
      and_intros
      all_goals exact sheaf_kills hx rfl rfl rfl (.inl (by simp [hd]))
    · simp only [List.forall_mem_cons, List.not_mem_nil, false_implies, implies_true, and_true]
      and_intros
      all_goals exact sheaf_kills hx rfl rfl rfl (.inl (by simp [ha]))
    · have le : ∀ n ≤ 0x12, decide (f.minor.toNat ≤ n) = false := fun n hn => decide_eq_false (by omega)
      have lt : ∀ n ≤ 0x12, decide (f.minor.toNat < n) = false := fun n hn => decide_eq_false (by omega)
      have cmp : 5 < f.minor.toNat := by omega
      and_intros
      all_goals exact sheaf_kills hx rfl rfl rfl (.inl (by simp [iop_reserved hm, cmpHolds_reserved cmp, le, lt]))
    · simp only [List.forall_mem_cons, List.not_mem_nil, false_implies, implies_true, and_true]
      and_intros
      all_goals exact fun hm => sheaf_kills hx rfl rfl rfl (.inl (by simp [minorIs, hm]))
    · have hw : x.walkOnly = false := by simp [Sheaf.walkOnly, hh]
      simp only [List.forall_mem_cons, List.not_mem_nil, false_implies, implies_true, and_true]
      and_intros
      all_goals exact sheaf_kills hx rfl rfl rfl (.inl (by simp [hw]))
    all_goals exact sheaf_kills hx rfl rfl rfl (.inl (by simp only [hy, Bool.and_false]))

/-! ### Instructions of a strand that issue -/

/-- A change of a strand that has been put in place. -/
theorem withStrand_modStrand (s : State) (c : Nat) (t : Strand) (f : Strand → Strand) :
    (s.withStrand c t).modStrand c f = s.withStrand c (f t) := by
  rw [modStrand1, ctx_with, State.withStrand, ctx_with]
  exact setCtx_setCtx _ _ _ _

/-- An instruction of a strand that leaves a value in a register. -/
theorem strandIssue_writes {s : State} {c : Nat} {uses : List Nat} {long : Bool} (h : s.strandMay c uses long) (lat : Nat) (d : BitVec 6)
    (v : DWord) : s.strandIssue c uses long true lat (fun t => t.setReg c d v) =
      s.withStrand c { (s.ctx c).strand.set d.toNat v with pc := (s.ctx c).strand.pc + iwords long, lat := lat } := by
  rw [strandIssue_ok h, setReg_mod, set_with]

/-- A legal branch of a strand that is taken, to a target inside the image. -/
theorem strandBranch_taken {s : State} {c : Nat} {uses : List Nat} {long : Bool} (h : s.strandMay c uses long) {target : Nat}
    (ht : target < (s.ctx c).strand.words) (eff : State → State) :
    s.strandBranch c uses long true true target eff =
      (eff (s.modStrand c (fun t => { t with pc := t.pc + iwords long, lat := 2 }))).modStrand c (fun t => { t with pc := target }) := by
  have inside : decide ((s.ctx c).strand.words ≤ target) = false := decide_eq_false (Nat.not_le.mpr ht)
  simp only [State.strandBranch, inside]
  exact strandIssue_ok h

/-- One that keeps the registers moves the PC and sets the latency. -/
theorem strandBranch_jumps {s : State} {c : Nat} {uses : List Nat} {long : Bool} (h : s.strandMay c uses long) {target : Nat}
    (ht : target < (s.ctx c).strand.words) :
    s.strandBranch c uses long true true target id = s.withStrand c { (s.ctx c).strand with pc := target, lat := 2 } := by
  rw [strandBranch_taken h ht]
  exact modStrand2 _ _ _ _

/-- A legal branch of a strand that is not taken goes on after its words. -/
theorem strandBranch_passed {s : State} {c : Nat} {uses : List Nat} {long : Bool} (h : s.strandMay c uses long) (target : Nat)
    (eff : State → State) : s.strandBranch c uses long true false target eff =
      s.withStrand c { (s.ctx c).strand with pc := (s.ctx c).strand.pc + iwords long, lat := 1 } := by
  simp only [State.strandBranch, Bool.false_and, Bool.not_false, Bool.and_self, Bool.false_eq_true, if_false]
  exact (strandIssue_ok h).trans (modStrand1 _ _ _)

/-- A conditional branch whose target lies inside the image. -/
theorem condBranch_strand {s : State} {c : CtxNo} {f : Fields} (h : s.strandMay c [f.a.toNat] true) (ha : isX f.a = true)
    (ht : f.imm.toNat < (s.ctx c).strand.words) {onTrue : Bool} (hm : minorIs f (if onTrue then 1 else 2) = true) :
    s.condBranch (.strand c) f onTrue = s.withStrand c (if branchTaken onTrue ((s.ctx c).strand.reg f.a.toNat != 0)
      then { (s.ctx c).strand with pc := f.imm.toNat, lat := 2 }
      else { (s.ctx c).strand with pc := (s.ctx c).strand.pc + 2, lat := 1 }) := by
  simp only [State.condBranch, ha, hm, Bool.and_self]
  cases hb : branchTaken onTrue (s.getReg c f.a != 0) with
  | true => exact (strandBranch_jumps h ht).trans (congrArg (s.withStrand c) (if_pos hb).symm)
  | false => exact (strandBranch_passed h _ _).trans (congrArg (s.withStrand c) (if_neg (Bool.eq_false_iff.mp hb)).symm)

/-- Settles O6: what a strand instruction writes is `strandIssue_writes`, and where a branch goes `strandBranch_jumps` and
`condBranch_strand`. -/
theorem strandComputes : Obligations.StrandComputes := by
  refine ⟨⟨?_, ?_, ?_, ?_, ?_, ?_⟩, ?_, ?_, ?_, ?_⟩
  · intro s c h
    exact congrArg Host.Outcome.next ((strandIssue_ok h).trans (modStrand1 _ _ _))
  · intro s c f v h hd ha hb hv
    have result : iop f.minor.toNat (s.getReg c f.a) (s.getReg c f.b) = some v := hv
    refine congrArg Host.Outcome.next ?_
    simp only [doIop, hd, ha, hb, result, Option.isSome_some, Option.getD_some, Bool.and_self]
    exact strandIssue_writes h _ _ _
  · intro s c f v h hd ha hv
    have result : iop f.minor.toNat (s.getReg c f.a) (sext64 f.imm) = some v := hv
    refine congrArg Host.Outcome.next ?_
    simp only [doIopi, hd, ha, result, Option.isSome_some, Option.getD_some, Bool.and_self]
    exact strandIssue_writes h _ _ _
  · intro s c f h hd hm
    have minor : minorIs f 0 = true := beq_iff_eq.mpr hm
    refine congrArg Host.Outcome.next ?_
    simp only [doMovi, hd, minor, Bool.and_self]
    exact strandIssue_writes h _ _ _
  · intro s c f h hd ha hm
    have minor : minorIs f 1 = true := beq_iff_eq.mpr hm
    refine congrArg Host.Outcome.next ?_
    simp only [doMovih, hd, ha, minor, Bool.and_self]
    rw [strandIssue_ok h, setReg_mod, set_with, getReg_mod]
    rfl
  · intro s c f b h hd ha hb hc
    have result : cmpHolds f.minor.toNat (s.getReg c f.a) (s.getReg c f.b) = some b := hc
    refine congrArg Host.Outcome.next ?_
    simp only [doCmp, hd, ha, hb, result, Option.isSome_some, Option.getD_some, Bool.and_self]
    exact strandIssue_writes h _ _ _
  · intro s c f h hm ht
    have minor : minorIs f 0 = true := beq_iff_eq.mpr hm
    refine congrArg Host.Outcome.next ?_
    simp only [doBr, minor]
    exact strandBranch_jumps h ht
  · intro s c f h ha ht
    refine ⟨fun hm => congrArg Host.Outcome.next ?_, fun hm => congrArg Host.Outcome.next ?_⟩
    · rw [doBrt, condBranch_strand h ha ht (onTrue := true) (beq_iff_eq.mpr hm)]
      by_cases hz : (s.ctx c).strand.reg f.a.toNat = 0 <;> simp [branchTaken, hz]
    · rw [doBrf, condBranch_strand h ha ht (onTrue := false) (beq_iff_eq.mpr hm)]
      by_cases hz : (s.ctx c).strand.reg f.a.toNat = 0 <;> simp [branchTaken, hz]
  · intro s c f h hd hm ht
    have minor : minorIs f 3 = true := beq_iff_eq.mpr hm
    refine congrArg Host.Outcome.next ?_
    simp only [doCall, hd, minor, Bool.and_self]
    rw [strandBranch_taken h ht, setReg_mod, set_with, withStrand_modStrand]
  · intro s c f h ha hm ht
    have minor : minorIs f 0 = true := beq_iff_eq.mpr hm
    refine congrArg Host.Outcome.next ?_
    simp only [doRet, ha, minor, Bool.and_self]
    exact strandBranch_jumps h ht

/-! ### Instructions of an issue group that issue -/

/-- A legal instruction of an issue group changes each of its lanes alone. -/
theorem laneOp_ok {s : State} {core sh lat : Nat} {x : Sheaf} {long : Bool} (h : s.sheafMay core sh x long) {legal : Sheaf → Bool}
    (hl : legal x = true) {f g : Lane → Lane} (hg : ∀ l, f (l.next (iwords long)) = g l) :
    s.laneOp core sh long lat legal f = s.onGroup core sh x lat g := by
  rw [← funext hg]
  exact issue_ok h hl

/-- A legal branch of an issue group none of whose lanes goes beyond the image. -/
theorem laneBranch_ok {s : State} {core sh : Nat} {x : Sheaf} {long : Bool} (h : s.sheafMay core sh x long) {legal : Sheaf → Bool}
    (hl : legal x = true) {taken : Lane → Bool} {target : Lane → Nat} (ht : ∀ l ∈ x.group, beyond x.words (target l) = false)
    (eff : Lane → Lane) :
    s.laneBranch core sh long legal taken target eff = s.onGroup core sh x (if x.group.any taken then 2 else 1)
      (fun l => if taken l then { eff l.counted with pc := target l } else l.next (iwords long)) := by
  have inside : x.group.any (fun l => taken l && beyond x.words (target l)) = false :=
    any_false _ _ (fun l hm => by simp [ht l hm])
  exact issue_ok h (by simp [hl, inside])

/-- One that every lane of the group takes. -/
theorem laneBranch_jumps {s : State} {core sh : Nat} {x : Sheaf} {long : Bool} (h : s.sheafMay core sh x long) {legal : Sheaf → Bool}
    (hl : legal x = true) {target : Lane → Nat} (ht : ∀ l ∈ x.group, beyond x.words (target l) = false) (hg : x.group ≠ [])
    (eff : Lane → Lane) :
    s.laneBranch core sh long legal (fun _ => true) target eff =
      s.onGroup core sh x 2 (fun l => { eff l.counted with pc := target l }) := by
  rw [laneBranch_ok h hl ht, any_true x hg]
  rfl

/-- A conditional branch of an issue group whose target lies inside the image. -/
theorem condBranch_sheaf {s : State} {core : CoreNo} {sh : SheafNo} {x : Sheaf} {f : Fields} (h : s.sheafMay core sh x true)
    (ha : isP f.a = true) (ht : beyond x.words f.imm.toNat = false) {onTrue : Bool} (hm : minorIs f (if onTrue then 1 else 2) = true) :
    s.condBranch (.sheaf core sh) f onTrue = s.onGroup core sh x
      (if x.group.any (fun l => branchTaken onTrue (l.pred (f.a.toNat - 32))) then 2 else 1)
      (fun l => if branchTaken onTrue (l.pred (f.a.toNat - 32)) then { l with pc := f.imm.toNat, icount := l.icount + 1 } else l.next 2) :=
  laneBranch_ok h (by simp [ha, hm]) (fun _ _ => ht) id

/-- Settles O7: an instruction that changes each lane alone is `laneOp_ok`; where the lanes of a branch go is `laneBranch_jumps` and
`condBranch_sheaf`. -/
theorem laneComputes : Obligations.LaneComputes := by
  refine ⟨fun s core sh x f => ⟨?_, ?_, ?_, ?_, ?_, ?_, ?_, ?_, ?_, ?_⟩, fun s core sh x f => ⟨?_, ?_, ?_, ?_⟩⟩
  · intro h
    refine congrArg Host.Outcome.next ?_
    unfold doNop
    exact laneOp_ok h rfl (fun _ => rfl)
  · intro h hd ha hb hm
    refine congrArg Host.Outcome.next ?_
    unfold doIop
    exact laneOp_ok h (by simp [hd, ha, hb, iop_some _ _ _ hm]) (fun _ => rfl)
  · intro h hd ha hm
    refine congrArg Host.Outcome.next ?_
    unfold doIopi
    exact laneOp_ok h (by simp [hd, ha, iop_some _ _ _ hm]) (fun _ => rfl)
  · intro h hd hm
    refine congrArg Host.Outcome.next ?_
    unfold doMovi
    exact laneOp_ok h (by simp [hd, minorIs, hm]) (fun _ => rfl)
  · intro h hd ha hb hm
    refine congrArg Host.Outcome.next ?_
    unfold doCmp
    exact laneOp_ok h (by simp [hd, ha, hb, cmp_some _ _ _ hm]) (fun _ => rfl)
  · intro h hd ha hb hm
    refine congrArg Host.Outcome.next ?_
    unfold doFop
    exact laneOp_ok h (by simp [hd, ha, hb, hm]) (fun _ => rfl)
  · intro h hd ha hb hm
    refine congrArg Host.Outcome.next ?_
    unfold doFcmp
    exact laneOp_ok h (by simp [hd, ha, hb, hm]) (fun _ => rfl)
  · intro h hd ha hm
    refine congrArg Host.Outcome.next ?_
    unfold doCvt
    exact laneOp_ok h (by simp [hd, ha, hm]) (fun _ => rfl)
  · intro h hd ha hb hm
    refine congrArg Host.Outcome.next ?_
    unfold doSel
    exact laneOp_ok h (by simp [hd, ha, hb, hm]) (fun _ => rfl)
  · intro h hd ha hb hm
    refine congrArg Host.Outcome.next ?_
    unfold doPlog
    exact laneOp_ok h (by simp [hd, ha, hb, hm]) (fun _ => rfl)
  · intro h ht hg hm
    refine congrArg Host.Outcome.next ?_
    unfold doBr
    exact laneBranch_jumps h (by simp [minorIs, hm]) (fun _ _ => ht) hg id
  · intro h ht ha
    refine ⟨fun hm => congrArg Host.Outcome.next ?_, fun hm => congrArg Host.Outcome.next ?_⟩
    · rw [doBrt, condBranch_sheaf h ha ht (onTrue := true) (beq_iff_eq.mpr hm)]
      simp only [branchTaken, beq_true]
    · rw [doBrf, condBranch_sheaf h ha ht (onTrue := false) (beq_iff_eq.mpr hm)]
      simp only [branchTaken, beq_false]
      congr 1
      funext l
      cases l.pred (f.a.toNat - 32) <;> rfl
  · intro h ht hg hd hm
    refine congrArg Host.Outcome.next ?_
    unfold doCall
    exact laneBranch_jumps h (by simp [hd, minorIs, hm]) (fun _ _ => ht) hg _
  · intro h ht hg ha hm
    refine congrArg Host.Outcome.next ?_
    unfold doRet
    exact laneBranch_jumps h (by simp [ha, minorIs, hm]) ht hg id

/-! ### Special registers -/

/-- A legal MOVS that reads puts the special register, or 0 where there is none, into each lane of the group. -/
theorem movs_reads {s : State} {core sh : Nat} {x : Sheaf} {f : Fields} (h : s.sheafMay core sh x false) (hm : f.minor.toNat < 64)
    (hd : isVDst x.handler f.d = true) (hr : specialReadable f.minor.toNat = true) :
    doMovs core sh f s = s.onGroup core sh x 1 (fun l =>
      { l.next 1 with v := l.v.set f.d.toNat (((s.laneQuery l).bind (s.specialReg core sh f.minor.toNat l)).getD 0) }) := by
  have value : ∀ l, (match s.laneQuery l with | some q => (s.specialReg core sh f.minor.toNat l q).getD 0 | none => 0) =
      ((s.laneQuery l).bind (s.specialReg core sh f.minor.toNat l)).getD 0 := by
    intro l
    cases s.laneQuery l <;> rfl
  unfold doMovs
  simp only [show f.minor.toNat < 128 by omega, if_true, Nat.mod_eq_of_lt hm]
  rw [issue_ok h (by simp [hm, hd, hr])]
  simp only [← value]
  rfl

/-- A legal MOVS that writes does so for each lane in turn. -/
theorem movs_writes {s : State} {core sh : Nat} {x : Sheaf} {f : Fields} (h : s.sheafMay core sh x false) (hlo : 128 ≤ f.minor.toNat)
    (hhi : f.minor.toNat < 192) (ha : isV f.a = true) (hw : specialWritable (f.minor.toNat - 128) = true) :
    doMovs core sh f s = foldS x.group (s.onGroup core sh x 1 (fun l => l.next 1))
      (fun t l => t.writeSpecial (sheafKey core sh) (f.minor.toNat - 128) l (l.reg f.a.toNat)) := by
  have low : f.minor.toNat % 64 = f.minor.toNat - 128 := by omega
  unfold doMovs
  simp only [Nat.not_lt.mpr hlo, if_false, low]
  rw [issue_ok h (by simp [hhi, ha, hw])]
  rfl

/-- Settles O8: the two forms of MOVS, and what each register of the statement reads or takes. -/
theorem specialRegisters : Obligations.SpecialRegisters := by
  refine ⟨?_, ?_, ?_, fun s core sh l q => ⟨rfl, rfl, rfl, rfl⟩⟩
  · intro s core sh x f h hm hd hr
    exact congrArg Host.Outcome.next (movs_reads h hm hd hr)
  · intro s core sh x f h hlo hhi ha hw
    exact congrArg Host.Outcome.next (movs_writes h hlo hhi ha hw)
  · intro s k l q v hq
    exact ⟨modQuery_some hq _, rfl⟩

/-! ### Lanes that leave their sheaf -/

/-- Writing a collection back touches the extension units and the integrity registers alone. -/
theorem syncColl_same (s : State) (q : Query) (ws : WalkState) : ∃ e i, s.syncColl q ws = { s with ext := e, integ := i } := by
  simp only [State.syncColl]
  split
  · exact ⟨_, _, rfl⟩
  · next u _ _ =>
    obtain ⟨i, h⟩ := writeSpine_same { s with ext := _ } (unitLine u)
    exact ⟨_, i, h⟩

/-- A lane that leaves takes its packets out of the banks' queues, and with the last lane the sheaf goes. -/
theorem removeLane_same {s : State} {k : Nat} {x : Sheaf} (h : mget s.sheaves k = some x) (n : Nat) :
    ∃ o, s.removeLane k n = { s with
      octets := o
      sheaves := if (x.lanes.filter (fun y => y.n != n)).isEmpty then merase s.sheaves k
        else mset s.sheaves k { x with lanes := x.lanes.filter (fun y => y.n != n), held := false } } := by
  simp only [State.removeLane, h]
  split <;> exact ⟨_, rfl⟩

/-- The query of a lane that leaves keeps the walk state (R246). -/
theorem leaveSheaf_same {s : State} {k : Nat} {l : Lane} {q : Query} {x : Sheaf} (hq : mget s.pool l.slot = some q)
    (hx : mget s.sheaves k = some x) (ws : WalkState) : ∃ e i, s.leaveSheaf k l ws =
      { s.removeLane k l.n with pool := mset s.pool l.slot { q with ws := ws }, ext := e, integ := i } := by
  obtain ⟨o, gone⟩ := removeLane_same hx l.n
  have kept : mget (s.removeLane k l.n).pool l.slot = some q := by rw [gone]; exact hq
  obtain ⟨i, spine⟩ := writeSpine_same ((s.removeLane k l.n).modQuery l.slot (fun q => { q with ws := ws })) l.slot
  obtain ⟨e, j, synced⟩ := syncColl_same (((s.removeLane k l.n).modQuery l.slot (fun q => { q with ws := ws })).writeSpine l.slot)
    { q with ws := ws } ws
  refine ⟨e, j, ?_⟩
  have pool : mget (((s.removeLane k l.n).modQuery l.slot (fun q => { q with ws := ws })).writeSpine l.slot).pool l.slot =
      some { q with ws := ws } := by
    rw [spine, modQuery_some kept]
    exact mget_mset_self _ _ _
  simp only [State.leaveSheaf, pool]
  rw [synced, spine, modQuery_some kept, gone]

/-- A lane that holds a reference to a bough parks its query there, to resume at the next instruction (R288). -/
theorem yieldLane_bough {s : State} {k : Nat} {l : Lane} {q : Query} {e : ChildEntry} (hq : s.laneQuery l = some q) (he : l.held = some e)
    (ht : e.type = .bough) :
    s.yieldLane k l = (s.leaveSheaf k l { l.ws with resumePc := some (l.pc + 1), bough := refIndex e.ref, node := 0 }).parkOrForward
      l.slot q.ctx (sceneAt q l.ws) (refIndex e.ref) e.clines (.walk (k / 48 / 8)) := by
  have hp : mget s.pool l.slot = some q := hq
  simp only [State.yieldLane, he, hq, ht, State.parkLane, hp]
  rfl

/-- Under a binding that is not BKIND 3 a lane that ends enters no hook (R255). -/
theorem endOrHook_stock {b : Binding} (h : b.bkind ≠ 3) (s : State) (key : Nat) (l : Lane) (flags : Nat) :
    s.endOrHook key b l flags = s.endLane key l flags := by
  have off : hookOn b b.hEnd = false := by simp [hookOn, h]
  simp only [State.endOrHook, off]
  rfl

/-- Lanes that end under such a binding need room for their chains. -/
theorem mayEnd_stock {b : Binding} (h : b.bkind ≠ 3) (s : State) (g : Nat) (ls : List Lane) : s.mayEnd g b ls = s.endRoom g ls := by
  simp [State.mayEnd, hookOn, h]

/-- Settles O13: each instruction takes the lanes of its group one by one, or is held; what one lane leaves behind is
`yieldLane_bough` and `leaveSheaf_same`. -/
theorem leavingASheaf : Obligations.LeavingASheaf := by
  refine ⟨fun s core sh x f h hw => ⟨fun hm hy => ?_, fun hr => ?_, fun hm hf => ⟨fun room => ?_, fun full => ?_⟩,
    fun hm hb => ⟨fun room => ?_, fun full => ?_⟩⟩, fun s k l q e hq he ht => yieldLane_bough hq he ht, ?_⟩
  · exact congrArg Host.Outcome.next (issue_ok h (by simp [hw, minorIs, hm, hy]))
  · exact congrArg Host.Outcome.next (issue_ok h (by simp [hw, hr]))
  · refine congrArg Host.Outcome.next ((issue_ok h (by simp [hw, minorIs, hm, hf])).trans ?_)
    exact if_pos room
  · refine congrArg Host.Outcome.next ((issue_ok h (by simp [hw, minorIs, hm, hf])).trans ?_)
    exact if_neg (Bool.eq_false_iff.mp full)
  · refine congrArg Host.Outcome.next ((issue_ok h (by simp [hw, minorIs, hm])).trans ?_)
    simp only [mayEnd_stock hb, room, endOrHook_stock hb, if_true]
  · refine congrArg Host.Outcome.next ((issue_ok h (by simp [hw, minorIs, hm])).trans ?_)
    simp only [mayEnd_stock hb, full]
    rfl
  · intro s k l q ws x hq hx t
    obtain ⟨o, gone⟩ := removeLane_same hx l.n
    obtain ⟨e, i, left⟩ := leaveSheaf_same hq hx ws
    have ht : t = _ := left.trans (by rw [gone])
    refine ⟨by rw [ht], ?_, by rw [ht], by rw [ht], by rw [ht], State.leaveSheaf_kernel s k l ws⟩
    rw [ht]
    dsimp only
    split
    · rfl
    · exact mget_mset_self _ _ _

/-! ### Illegal instructions, long walks and strands that end -/

/-- A strand that ends goes on to its next word and is HALTED; with CLOSE its context closes (R269). -/
theorem strandEnd_halts {s : State} {c : Nat} {f : Fields} (h : s.strandMay c [] false) (hm : f.minor.toNat = 1) :
    doStrandEnd c f s =
      let t := s.withStrand c { (s.ctx c).strand with pc := (s.ctx c).strand.pc + 1, lat := 1, state := .halted }
      if f.a.getLsbD 0 then t.close c else t := by
  have minor : minorIs f 1 = true := beq_iff_eq.mpr hm
  unfold doStrandEnd
  rw [minor, strandIssue_ok h, modStrand2]
  rfl

/-- A lane whose count of instructions has reached 2^20 and that has not been reported yet is (R243). -/
theorem walkLong_reports {s : State} {core sh n : Nat} {x : Sheaf} {l : Lane} {q : Query} (hx : mget s.sheaves (sheafKey core sh) = some x)
    (hl : x.lane n = some l) (hi : 1048576 ≤ l.icount) (hg : l.long = false) (hq : s.laneQuery l = some q) :
    doWalkLong core sh n s = ((s.modLane (sheafKey core sh) n (fun y => { y with long := true })).countC x.cohort.ctx 5 1).report
      0x12 2 x.cohort.ctx core 0xFFFF (qTag q.record).toNat := by
  have lane : x.lanes.find? (fun l => l.n == n) = some l := hl
  have query : mget s.pool l.slot = some q := hq
  unfold doWalkLong
  simp only [hx, lane, hi, hg, query]
  rfl

/-- Settles O16: the illegal instructions by their forms, then `walkLong_reports` and `strandEnd_halts`. -/
theorem illegalAndEnds : Obligations.IllegalAndEnds := by
  refine ⟨fun s c f ⟨hr, hb⟩ => ⟨?_, ?_, fun hm => ?_⟩, fun s core sh x f hx => ⟨?_, ?_, fun hh => ?_⟩, ?_⟩
  · exact strand_kills rfl rfl hr (.inl rfl)
  · exact strand_kills rfl rfl hr (.inl rfl)
  · exact congrArg Host.Outcome.next (strandEnd_halts ⟨hr, hb⟩ hm)
  · exact sheaf_kills hx rfl rfl rfl (.inl rfl)
  · exact sheaf_kills hx rfl rfl rfl (.inl rfl)
  · exact sheaf_kills hx rfl rfl rfl (.inl hh)
  · intro s core sh n x l q hx hl hi hg hq
    exact congrArg Host.Outcome.next (walkLong_reports hx hl hi hg hq)

/-! ### Opening a context -/

/-- OPEN of a context that is not CLOSED, or while opens are refused, leaves code 8 and nothing else (R443). -/
theorem ctxOpen_refused {s : State} {c : Nat} (h : (s.ctx c).state ≠ .closed ∨ s.openBarred = true) :
    doCtxOpen c s = s.modCtx c (fun x => { x with openCode := 8 }) := by
  refine if_pos ?_
  rcases h with h | h <;> simp [h]

/-- OPEN of a CLOSED context reads its descriptor. -/
theorem ctxOpen_reads {s : State} {c : Nat} (h : (s.ctx c).state = .closed) (hb : s.openBarred = false) :
    doCtxOpen c s = (s.modCtx c (fun x => { x with state := .opening, pendKill := false, pendClose := false, killAsids := [] })).readAs
      s.dev.drvAsid.toNat (s.descAddr c) (.ctxDesc c) :=
  if_neg (by simp [h, hb])

/-- Reading the sequencer image leaves the device registers. -/
theorem readSeqImage_dev (s : State) (c : Nat) (rd : OpenRead) : (s.readSeqImage c rd).dev = s.dev := by
  unfold State.readSeqImage
  split
  · split
    · unfold State.readImage
      dsimp only
      split <;> simp [State.readAs]
    · rfl
  · rfl

/-- An open that fails a check leaves its context CLOSED with the check's code. -/
theorem openComplete_fails {s : State} {c : Nat} {rd : OpenRead} (ho : (s.ctx c).state = .opening) (hc : s.openCodeOf c rd ≠ 0) :
    doOpenComplete c rd s = (s.readSeqImage c rd).modCtx c (fun x => { Context.reset with
      openCode := s.openCodeOf c rd, cnt := x.cnt, endCause := x.endCause }) := by
  unfold doOpenComplete
  simp only [ho, bne_self_eq_false, Bool.false_eq_true, if_false]
  split
  · next h0 _ _ => exact absurd h0 hc
  · rfl

/-- An open whose checks pass, and that nothing has ended meanwhile, leaves its context OPEN with its strand started (R239). -/
theorem openComplete_opens {s : State} {c : Nat} {rd : OpenRead} {d : Unit256} {h : Rec64} (ho : (s.ctx c).state = .opening)
    (hc : s.openCodeOf c rd = 0) (hd : rd.desc = some d) (hh : rd.header = some h) (hk : (s.ctx c).pendKill = false)
    (hcl : (s.ctx c).pendClose = false) (hu : s.dev.unlock ≠ .killing) (ha : (s.ctx c).killAsids.contains (dAsid d) = false) :
    doOpenComplete c rd s = (s.readSeqImage c rd).modCtx c (fun x => { Context.reset with
      state := .opened, level := 1, desc := d, cnt := x.cnt, endCause := x.endCause
      strand := openStrand c ((s.readSeqImage c rd).descAddr c) h }) := by
  have unlock : ∀ f, (((s.readSeqImage c rd).modCtx c f).dev.unlock == .killing) = false := fun f =>
    beq_eq_false_iff_ne.mpr (readSeqImage_dev s c rd ▸ hu)
  unfold doOpenComplete
  simp only [ho, hc, hd, hh, ha, hk, hcl, unlock, Bool.and_false]
  rfl

/-- The strand of an open has every register 0 but x1 and x2. -/
theorem openStrand_reg (c n : Nat) (a : DWord) (h : Rec64) :
    (openStrand c a h).reg n = if n = 1 then BitVec.ofNat 64 c else if n = 2 then a else 0 := by
  by_cases h1 : n = 1
  · subst h1; rfl
  by_cases h2 : n = 2
  · subst h2; rfl
  have other : nth (((List.replicate 32 (0 : DWord)).set 1 (BitVec.ofNat 64 c)).set 2 a) n 0 = 0 := by
    rw [nth, List.getD_eq_getElem?_getD, List.getElem?_set_ne (Ne.symm h2), List.getElem?_set_ne (Ne.symm h1), List.getElem?_replicate]
    split <;> rfl
  rw [if_neg h1, if_neg h2]
  exact ite_eq_left_iff.mpr (fun _ => other)

/-- Settles O39, by the answer to an OPEN and the two ends of one. -/
theorem contextOpen : Obligations.ContextOpen := by
  refine ⟨fun s c hs h => hostWrite_next hs (ctxOpen_refused h), fun s c hs h hb => hostWrite_next hs (ctxOpen_reads h hb),
    ?_, ?_, ?_, ?_⟩
  · intro s c hs
    refine congrArg Host.Outcome.next ?_
    simp only [State.hostWrite, hs]
  · intro s c rd ho hc
    exact congrArg (fun t : State => Host.Outcome.next t.settleAll) (openComplete_fails ho hc)
  · intro s c rd d h ho hc hd hh hk hcl hu ha
    exact congrArg (fun t : State => Host.Outcome.next t.settleAll) (openComplete_opens ho hc hd hh hk hcl hu ha)
  · intro c n a h
    refine ⟨rfl, rfl, rfl, openStrand_reg c 1 a h, openStrand_reg c 2 a h, fun h1 h2 => ?_⟩
    rw [openStrand_reg, if_neg h1, if_neg h2]

/-! ### The end of a context -/

/-- A kill of a context that is OPEN or CLOSING makes it KILLING, and gives up what it holds (R445). -/
theorem kill_open {s : State} {c : Nat} (h : (s.ctx c).state = .opened ∨ (s.ctx c).state = .closing) (cause unit pc : Nat) (a : DWord) :
    let u := ((s.report 0x16 2 c unit 0xFFFF (killDetail cause pc a)).count 63 1).leaveGhosts c
    let v := u.setCtx c { u.ctx c with
      state := .killing, killCause := cause, cdMode := .idle, cdVal := 0, barrier := none, arrivals := [], released := []
      strand := { (u.ctx c).strand with state := .halted, loads := [], stores := [], held := [] } }
    let w := ((((v.clearUrgent c).endTxns c 4).discardLines c).freeScans c).discardDelivery c
    s.kill c cause unit pc a = (((foldS (w.streamsOf c) w (fun x k =>
      (x.modStream k (fun y => { y with space := [], spilled := [] })).cancelStream k)).killQueries c).killTransfers c).settleMsgs := by
  intro u v w
  unfold State.kill
  rcases h with h | h
  · rw [h]; rfl
  · rw [h]; rfl

/-- Of any other context it does nothing. -/
theorem kill_ended {s : State} {c : Nat} (h : (s.ctx c).state = .closed ∨ (s.ctx c).state = .killing) (cause unit pc : Nat) (a : DWord) :
    s.kill c cause unit pc a = s := by
  unfold State.kill
  rcases h with h | h <;> rw [h]

/-- The context c holds no query, sheaf, transfer or line of the transaction buffer any more. -/
structure State.Emptied (s : State) (c : Nat) : Prop where
  pool : ∀ e ∈ s.pool, e.2.ctx ≠ c
  sheaves : ∀ e ∈ s.sheaves, e.2.cohort.ctx ≠ c
  xfers : ∀ x ∈ s.xfers, x.ctx ≠ c
  lines : ∀ e ∈ s.txnBuf, e.2.ctx ≠ c

/-- A KILLING context that holds nothing any more is CLOSED with the cause of its kill. -/
theorem killingDone_closes {s : State} {c : Nat} (h : (s.ctx c).state = .killing) (he : s.Emptied c) :
    doKillingDone c s = s.setClosed c (s.ctx c).killCause := by
  have pool : s.pool.any (fun e => e.2.ctx == c) = false := any_false _ _ (fun e hm => beq_eq_false_iff_ne.mpr (he.pool e hm))
  have sheaves : s.sheaves.any (fun e => e.2.cohort.ctx == c) = false :=
    any_false _ _ (fun e hm => beq_eq_false_iff_ne.mpr (he.sheaves e hm))
  have xfers : s.xfers.any (fun x => x.ctx == c) = false := any_false _ _ (fun x hm => beq_eq_false_iff_ne.mpr (he.xfers x hm))
  have lines : s.txnBuf.any (fun e => e.2.ctx == c) = false := any_false _ _ (fun e hm => beq_eq_false_iff_ne.mpr (he.lines e hm))
  unfold doKillingDone
  simp only [h, pool, sheaves, xfers, lines]
  rfl

section
variable {s : State} {c : Nat} (hc : (s.ctx c).state = .closing) (hq : s.hasQueries c = false) (hi : s.itemsWait c = false)
include hc hq hi

/-- A CLOSING context without queries waits while the collector has not flushed. -/
theorem closingDone_flushes (hb : (s.closeFlush c).collectorIdle c = false) : doClosingDone c s = s.closeFlush c := by
  unfold doClosingDone
  simp only [hc, hq, hi, hb, Bool.false_eq_true, if_false, Bool.and_false, Bool.false_and]
  rfl

/-- Once it has, and nothing of the context is left, the context is CLOSED. -/
theorem closingDone_closes (hb : (s.closeFlush c).collectorIdle c = true) {u : State} (hu : (s.closeFlush c).endDeliveries c = u)
    (hs : u.streamsOf c = []) (hk : u.collectorIdle c = true) (hl : ∀ e ∈ u.txnBuf, e.2.ctx ≠ c) :
    doClosingDone c s = u.setClosed c 0 := by
  have lines : u.txnBuf.any (fun e => e.2.ctx == c) = false := any_false _ _ (fun e hm => beq_eq_false_iff_ne.mpr (hl e hm))
  unfold doClosingDone
  simp only [hc, hq, hi, hb, if_true, hu, hs, hk, lines]
  rfl

end

/-- A context after it, or another, has been put in place. -/
theorem ctx_setCtx_any (s : State) (c j : Nat) (x : Context) : (s.setCtx c x).ctx j = if j = c then x else s.ctx j :=
  mgetD_mset _ _ _ _ _

/-- Settles O40: CLOSE and KILL by the state of the context, then `kill_open` and the ways to CLOSED. -/
theorem contextEnd : Obligations.ContextEnd := by
  refine ⟨fun s c hs => ⟨fun h => ?_, fun h => ?_, fun h => ?_⟩, fun s c cause unit pc a h => kill_open h cause unit pc a, ?_, ?_, ?_,
    fun s c cause j => ctx_setCtx_any _ c j _⟩
  · refine ⟨hostWrite_next hs ?_, hostWrite_next hs ?_⟩
    · rw [doCtxClose, h]
    · rw [doCtxKill, h]; rfl
  · refine ⟨hostWrite_next hs ?_, hostWrite_next hs ?_⟩
    · rw [doCtxClose, h]
    · rw [doCtxKill, h]
  · refine ⟨hostWrite_next hs ?_, hostWrite_next hs ?_⟩
    · unfold doCtxClose
      rcases h with h | h <;> rw [h]
    · have ended := kill_ended h 3 noUnit 0 0
      unfold doCtxKill
      rw [ended]
      rcases h with h | h <;> rw [h]
  · intro s c h pool sheaves xfers lines
    exact congrArg (fun t : State => Host.Outcome.next t.settleAll) (killingDone_closes h ⟨pool, sheaves, xfers, lines⟩)
  · intro s c hc hq hi hb
    exact congrArg (fun t : State => Host.Outcome.next t.settleAll) (closingDone_flushes hc hq hi hb)
  · intro s c hc hq hi hb u hs hk hl
    exact congrArg (fun t : State => Host.Outcome.next t.settleAll) (closingDone_closes hc hq hi hb rfl hs hk hl)

end Sys2Proof.Machine
end

section
/-! PROOFS. The statements of 08_kyozil_instruction_reference: division (O58), child lists, short stack and trail (O9), receive counters
(O18), fences and LAUNCH (O19), transactions (O24), XWRITE (O25), commit and write-through (O26), NVM stores (O44), the pass barrier
(O46), memory of a strand (O17), streams (O20) and scans (O23), each after the facts about the operations that it rests on. -/
namespace Sys2Proof.Machine

/-! ### Division -/

section
variable {w : Nat} {a b : BitVec w} (hb : b ≠ 0)
include hb

/-- DIVU is the unsigned division of the library. -/
theorem iop_divu : iop 0x0F a b = some (a / b) := by
  simp only [iop, if_neg hb, ← BitVec.toNat_udiv, BitVec.ofNat_toNat, BitVec.setWidth_eq]

/-- REMU is its remainder. -/
theorem iop_remu : iop 0x11 a b = some (a % b) := by
  simp only [iop, if_neg hb, ← BitVec.toNat_umod, BitVec.ofNat_toNat, BitVec.setWidth_eq]

/-- DIVS is the signed division of the library, whose quotient is rounded towards 0. -/
theorem iop_divs : iop 0x10 a b = some (a.sdiv b) := by
  simp only [iop, if_neg hb, Option.some.injEq]
  exact BitVec.eq_of_toInt_eq (by rw [BitVec.toInt_ofInt, BitVec.toInt_sdiv])

/-- REMS is its remainder. -/
theorem iop_rems : iop 0x12 a b = some (a.srem b) := by
  simp only [iop, if_neg hb, ← BitVec.toInt_srem, BitVec.ofInt_toInt]

end

/-- A signed remainder that is not 0 has the sign of the dividend. -/
theorem tmod_neg_iff {a b : Int} (h : a.tmod b ≠ 0) : a.tmod b < 0 ↔ a < 0 := by
  constructor
  · intro hn
    by_contra ha
    exact absurd (Int.tmod_nonneg b (not_lt.mp ha)) (not_le.mpr hn)
  · intro ha
    have hp := Int.tmod_nonneg b (Int.neg_nonneg_of_nonpos ha.le)
    rw [Int.neg_tmod] at hp
    omega

/-- Minus one is not 0 in a width of at least two bits. -/
theorem neg_one_ne_zero {w : Nat} (hw : 2 ≤ w) : (-1#w) ≠ 0 := by
  intro h
  have := congrArg BitVec.toInt h
  rw [one_toInt hw] at this
  simp at this

/-- Settles O58: a divisor other than 0 divides as the library's divisions do (`iop_divu` to `iop_rems`), and what issues goes on as
every integer operation does. -/
theorem divisionResults : Obligations.DivisionResults := by
  refine ⟨fun w a => ⟨congrArg some (if_pos rfl), congrArg some (if_pos rfl), congrArg some (if_pos rfl), congrArg some (if_pos rfl)⟩,
    fun w hw => ⟨?_, ?_⟩, ?_, ?_, ?_, ?_⟩
  · rw [iop_divs (neg_one_ne_zero hw), BitVec.intMin_sdiv_neg_one]
  · rw [iop_rems (neg_one_ne_zero hw)]
    exact congrArg some (BitVec.eq_of_toInt_eq (by simp [BitVec.toInt_srem, one_toInt hw]))
  · intro w a b hb
    refine ⟨a / b, a % b, iop_divu hb, iop_remu hb, ?_, ?_⟩
    · rw [BitVec.toNat_udiv, BitVec.toNat_umod, Nat.mul_comm, Nat.div_add_mod]
    · rw [BitVec.toNat_umod]
      exact Nat.mod_lt _ (Nat.pos_of_ne_zero (fun h => hb (BitVec.eq_of_toNat_eq h)))
  · intro w a b hw hb hm
    have hq := BitVec.toInt_sdiv_of_ne_or_ne a b (not_and_or.mp hm)
    have hbi : b.toInt ≠ 0 := fun h => hb (BitVec.eq_of_toInt_eq (by simpa using h))
    refine ⟨a.sdiv b, a.srem b, iop_divs hb, iop_rems hb, ?_, ?_, ?_⟩
    · rw [hq, BitVec.toInt_srem, Int.tdiv_mul_add_tmod]
    · rw [BitVec.toInt_srem, Int.natAbs_tmod]
      exact Nat.mod_lt _ (Int.natAbs_pos.mpr hbi)
    · rw [BitVec.toInt_srem]
      exact or_iff_not_imp_left.mpr tmod_neg_iff
  · intro s c f h hd ha hb hlo hhi
    obtain ⟨v, hv⟩ := Option.isSome_iff_exists.mp
      (iop_some f.minor.toNat ((s.ctx c).strand.reg f.a.toNat) ((s.ctx c).strand.reg f.b.toNat) hhi)
    have lat : iopLatency true f.minor.toNat = 20 := by
      rw [iopLatency, if_neg (by omega), if_pos ⟨hlo, hhi⟩]; rfl
    obtain ⟨-, iops, -⟩ := strandComputes.1
    exact ⟨v, hv, lat ▸ iops s c f v h hd ha hb hv⟩
  · intro s core sh x f h hd ha hb hlo hhi
    have lat : iopLatency false f.minor.toNat = 18 := by
      rw [iopLatency, if_neg (by omega), if_pos ⟨hlo, hhi⟩]; rfl
    obtain ⟨-, iops, -⟩ := laneComputes.1 s core sh x f
    exact lat ▸ iops h hd ha hb hhi

/-! ### Child lists, short stack and trail -/

/-- A legal instruction of an issue group that goes by the queries of its lanes. -/
theorem queryOp_ok {s : State} {core sh lat : Nat} {x : Sheaf} (h : s.sheafMay core sh x false) {legal : Sheaf → Bool}
    (hl : legal x = true) {f : Query → Lane → Lane} {g : Lane → Lane}
    (hg : ∀ l, (match s.laneQuery l with | some q => f q (l.next 1) | none => l.next 1) = g l) :
    s.queryOp core sh lat legal f = s.onGroup core sh x lat g := by
  rw [← funext hg]
  exact issue_ok h hl

/-- A short stack that is not full grows by the pushed entry, and the trail stays. -/
theorem pushEntry_room {ws : WalkState} (h : ws.stack.length < 12) (q : Query) (e : ChildEntry) :
    pushEntry q ws e = { ws with stack := { e with bough := ws.bough, scene := sceneAt q ws, ilevel := ws.path.length } :: ws.stack } := by
  have below : ∀ e : ChildEntry, (e :: ws.stack).take 12 = e :: ws.stack := fun e => List.take_of_length_le (by simp; omega)
  simp only [pushEntry, if_neg (Nat.not_le.mpr h), below]

/-- A full one loses its bottom entry, and the trail is marked LOST. -/
theorem pushEntry_full {ws : WalkState} (h : ws.stack.length = 12) (q : Query) (e : ChildEntry) :
    pushEntry q ws e = { ws with
      stack := { e with bough := ws.bough, scene := sceneAt q ws, ilevel := ws.path.length } :: ws.stack.take 11
      trail := ws.trail ||| (1 <<< 63 : DWord) } := by
  unfold pushEntry
  rw [if_pos h.ge]
  rfl

/-- LOST is bit 63 of the trail. -/
theorem lost_msb (t : DWord) : (t ||| (1 <<< 63 : DWord)).msb = true := by
  rw [BitVec.msb_or]
  exact Bool.or_true _

/-- It leaves the other bits. -/
theorem lost_low (t : DWord) : (t ||| (1 <<< 63 : DWord)).extractLsb' 0 63 = t.extractLsb' 0 63 := by
  rw [BitVec.extractLsb'_or]
  exact BitVec.or_zero

/-- Settles O9: each instruction changes the lanes of its group alone (`laneOp_ok`, `queryOp_ok`), and a push depends on whether the
stack is full. -/
theorem workStack : Obligations.WorkStack := by
  refine ⟨fun s core sh x f h => ⟨?_, ?_, ?_, ?_, ?_, ?_⟩, fun q ws e hl => ?_⟩
  · intro hd ha hm
    refine congrArg Host.Outcome.next ?_
    unfold doChild
    exact laneOp_ok h (by simp [hd, ha, hm]) (fun _ => rfl)
  · intro hw ha hm
    refine congrArg Host.Outcome.next ?_
    unfold doOrder
    exact laneOp_ok h (by simp [hw, ha, hm]) (fun _ => rfl)
  · intro hw hm
    refine congrArg Host.Outcome.next ?_
    unfold doPush
    exact queryOp_ok h (by simp [hw, hm]) (fun l => by cases s.laneQuery l <;> rfl)
  · intro hw hd
    refine congrArg Host.Outcome.next ?_
    unfold doPop
    exact laneOp_ok h (by simp [hw, hd]) (fun l => by simp only [Lane.next]; cases l.ws.stack <;> rfl)
  · intro hw hd
    refine congrArg Host.Outcome.next ?_
    unfold doDescend
    exact queryOp_ok h (by simp [hw, hd]) (fun l => by cases s.laneQuery l <;> rfl)
  · intro hw hm ho
    refine congrArg Host.Outcome.next ?_
    unfold doTrail
    refine laneOp_ok h (by simp [hw, hm, ho]) (fun l => ?_)
    have same : trailOp f.minor.toNat (l.next (iwords false)).ws.trail ((l.next (iwords false)).rv f.a) =
        trailOp f.minor.toNat l.ws.trail (l.reg f.a.toNat) := rfl
    rw [same]
    rcases trailOp f.minor.toNat l.ws.trail (l.reg f.a.toNat) with _ | ⟨t, _ | v⟩ <;> rfl
  · rcases Nat.lt_or_eq_of_le hl with hr | hf
    · have below : ws.stack.take 11 = ws.stack := List.take_of_length_le (by omega)
      rw [pushEntry_room hr]
      exact ⟨rfl, by simp; omega, below.symm, fun _ => ⟨rfl, rfl⟩, fun hf => absurd hf hr.ne⟩
    · rw [pushEntry_full hf]
      exact ⟨rfl, by simp [hf], rfl, fun hr => absurd hf hr.ne, fun _ => ⟨lost_msb _, lost_low _⟩⟩

/-! ### A strand that has issued an instruction of one word -/

/-- Strand c has issued an instruction of one word with latency 2 (R304); nothing else changed yet. -/
def State.strandOn (s : State) (c : Nat) : State :=
  s.withStrand c { (s.ctx c).strand with pc := (s.ctx c).strand.pc + 1, lat := 2 }

/-- It is the change of the strand that every such instruction begins with. -/
theorem strandOn_eq (s : State) (c : Nat) : s.modStrand c (fun t => { t with pc := t.pc + iwords false, lat := 2 }) = s.strandOn c :=
  modStrand1 _ _ _

/-- A legal instruction of one word and latency 2. -/
theorem strandIssue_on {s : State} {c : Nat} {uses : List Nat} (h : s.strandMay c uses false) (eff : State → State) :
    s.strandIssue c uses false true 2 eff = eff (s.strandOn c) :=
  (strandIssue_ok h).trans (congrArg eff (strandOn_eq s c))

/-- One that reads memory, of a strand with no accesses under way. -/
theorem readIssue_on {s : State} {c : Nat} {uses : List Nat} (h : s.strandMay c uses false) (hq : (s.ctx c).strand.quiet = true)
    (eff : State → State) : s.readIssue c uses true eff = eff (s.strandOn c) :=
  (readIssue_ok h hq).trans (congrArg eff (strandOn_eq s c))

/-- One that reads memory is passed over while R370 does not let it read. -/
theorem readIssue_passed {s : State} {c : Nat} (hq : (s.ctx c).strand.quiet = false) (uses : List Nat) (eff : State → State) :
    s.readIssue c uses true eff = s := by
  simp only [State.readIssue, hq]
  rfl

/-- The context then differs in its strand alone. -/
theorem strandOn_ctx (s : State) (c : Nat) : (s.strandOn c).ctx c =
    { s.ctx c with strand := { (s.ctx c).strand with pc := (s.ctx c).strand.pc + 1, lat := 2 } } := ctx_with _ _ _

/-- The registers are as they were. -/
@[simp] theorem strandOn_getReg (s : State) (c : Nat) (f : BitVec 6) : (s.strandOn c).getReg c f = (s.ctx c).strand.reg f.toNat := by
  rw [← strandOn_eq, getReg_mod]; rfl

/-- What it leaves in a register. -/
@[simp] theorem strandOn_setReg (s : State) (c : Nat) (d : BitVec 6) (v : DWord) :
    (s.strandOn c).setReg c d v = s.strandPut c d.toNat 2 v := by
  rw [← strandOn_eq, put_eq]

/-- What it waits for. -/
@[simp] theorem strandOn_waitOn (s : State) (c : Nat) (w : Wait) : (s.strandOn c).waitOn c w = s.strandWaits c w := by
  rw [← strandOn_eq, waits_eq]

/-- The descriptor of its context is as it was. -/
@[simp] theorem strandOn_desc (s : State) (c : Nat) : ((s.strandOn c).ctx c).desc = (s.ctx c).desc := by rw [strandOn_ctx]
/-- Its receive counters. -/
@[simp] theorem strandOn_recv (s : State) (c : Nat) : ((s.strandOn c).ctx c).recv = (s.ctx c).recv := by rw [strandOn_ctx]
/-- The use of its countdown. -/
@[simp] theorem strandOn_cdMode (s : State) (c : Nat) : ((s.strandOn c).ctx c).cdMode = (s.ctx c).cdMode := by rw [strandOn_ctx]
/-- Its bound scenes. -/
@[simp] theorem strandOn_bound (s : State) (c h : Nat) : (s.strandOn c).bound c h = s.bound c h := by
  simp only [State.bound, State.scene, strandOn_ctx]

/-! ### Receive counters -/

/-- A change of a context that has been put in place. -/
theorem setCtx_modCtx (s : State) (c : Nat) (x : Context) (f : Context → Context) : (s.setCtx c x).modCtx c f = s.setCtx c (f x) := by
  rw [State.modCtx, ctx_setCtx, setCtx_setCtx]

section
variable {s : State} {c : CtxNo} {f : Fields} (h : s.strandMay c [f.a.toNat, f.b.toNat, f.d.toNat] false) (hd : isX f.d = true)
  (ha : isX f.a = true) (hb : isX f.b = true)
include h hd ha hb

/-- A legal WAITC answers 3 for a counter that does not exist, and else waits. -/
theorem waitc_on (hm : f.minor.toNat = 1) : doWaitc c f s = if 15 < ((s.ctx c).strand.reg f.a.toNat).toNat
    then s.strandPut c f.d.toNat 2 3
    else s.strandWaits c (.waitc f.d.toNat ((s.ctx c).strand.reg f.a.toNat).toNat ((s.ctx c).strand.reg f.b.toNat) false) := by
  simp only [doWaitc, hd, ha, hb, minorIs, hm, Bool.and_self, beq_self_eq_true, strandIssue_on h, strandOn_getReg, strandOn_setReg,
    strandOn_waitOn]

/-- A legal WAITC.T, by the number of the counter, the time and the use of the countdown. -/
theorem waitcT_on (hm : f.minor.toNat = 2) : doWaitcT c f s =
    let n := ((s.ctx c).strand.reg f.a.toNat).toNat
    let target := (s.ctx c).strand.reg f.b.toNat
    let t := min ((s.ctx c).strand.reg f.d.toNat).toNat (2 ^ 32 - 1)
    if 15 < n then s.strandPut c f.d.toNat 2 3
    else if t = 0 then s.strandPut c f.d.toNat 2 (if reached (mgetD (s.ctx c).recv n 0) target then 0 else 1)
    else if (s.ctx c).cdMode == .deadline then s.strandPut c f.d.toNat 2 2
    else ((s.strandOn c).modCtx c (fun x => { x with cdMode := .timer, cdVal := t })).waitOn c (.waitc f.d.toNat n target true) := by
  simp only [doWaitcT, hd, ha, hb, minorIs, hm, Bool.and_self, beq_self_eq_true, strandIssue_on h, strandOn_getReg, strandOn_setReg,
    strandOn_recv, strandOn_cdMode]

end

/-- A time of a wait is 0 only for a register of 0. -/
theorem waitTime_eq_zero {v : DWord} : min v.toNat (2 ^ 32 - 1) = 0 ↔ v = 0 := by
  rw [show v = 0 ↔ v.toNat = 0 from BitVec.toNat_inj.symm]
  omega

/-- Settles O18: WAITC and WAITC.T by their cases (`waitc_on`, `waitcT_on`), and WAITC_MET by whether the wait is timed. -/
theorem receiveCounters : Obligations.ReceiveCounters := by
  intro s c f t n on put
  refine ⟨fun h hd ha hm => ?_, fun h hd ha hb => ⟨fun hm hn => ?_, fun hm hn => ?_, fun hm hn => ?_, fun hm hn hz => ?_,
    fun hm hn hz hc => ?_, fun hm hn hz hc => ?_⟩, fun rd k target hw hr => ?_, fun rd k target hw hr => ?_⟩
  · refine congrArg Host.Outcome.next ?_
    simp only [doRdc, hd, ha, minorIs, hm, Bool.and_self, beq_self_eq_true, strandIssue_on h, strandOn_getReg, strandOn_setReg,
      strandOn_recv]
    rfl
  · exact congrArg Host.Outcome.next ((waitc_on h hd ha hb hm).trans (if_pos hn))
  · exact congrArg Host.Outcome.next ((waitc_on h hd ha hb hm).trans (if_neg (Nat.not_lt.mpr hn)))
  · exact congrArg Host.Outcome.next ((waitcT_on h hd ha hb hm).trans (if_pos hn))
  · refine congrArg Host.Outcome.next ((waitcT_on h hd ha hb hm).trans ?_)
    exact (if_neg (Nat.not_lt.mpr hn)).trans (if_pos (waitTime_eq_zero.mpr hz))
  · refine congrArg Host.Outcome.next ((waitcT_on h hd ha hb hm).trans ?_)
    exact (if_neg (Nat.not_lt.mpr hn)).trans ((if_neg (mt waitTime_eq_zero.mp hz)).trans (if_pos (beq_iff_eq.mpr hc)))
  · refine congrArg Host.Outcome.next ((waitcT_on h hd ha hb hm).trans ?_)
    refine (if_neg (Nat.not_lt.mpr hn)).trans ((if_neg (mt waitTime_eq_zero.mp hz)).trans ((if_neg (mt beq_iff_eq.mp hc)).trans ?_))
    rw [State.waitOn, State.modStrand, modCtx_modCtx]
    exact setCtx_modCtx _ _ _ _
  · refine congrArg Host.Outcome.next ?_
    have hw' : (s.ctx c).strand.state = _ := hw
    simp only [doWaitcMet, hw', hr, if_true, wake_eq]
    rfl
  · refine congrArg Host.Outcome.next ?_
    have hw' : (s.ctx c).strand.state = _ := hw
    simp only [doWaitcMet, hw', hr, if_true]
    rw [State.wake, State.modStrand, modCtx_modCtx]
    rfl

/-! ### Fences and LAUNCH -/

/-- Settles O19, by the issue of an instruction that reads memory, and the ordering of the fence. -/
theorem fencesAndLaunch : Obligations.FencesAndLaunch := by
  intro s c f t
  refine ⟨fun h hm hz => ?_, fun m chip hw hl hst => ?_, fun h hd ha => ⟨fun hq => ?_, fun hq hn => ?_, fun hq hn => ?_⟩⟩
  · have legal : (decide (f.minor.toNat < 8) && f.minor.toNat % 4 != 0) = true := by simp [hm, hz]
    refine congrArg Host.Outcome.next ?_
    simp only [doFence, legal, strandIssue_on h, strandOn_waitOn]
    rfl
  · have holds : (s.ctx c).strand.fenceHolds m = true := by
      simp only [Strand.fenceHolds, show (s.ctx c).strand.loads = [] from hl]
      by_cases h1 : m = 1
      · simp [h1]
      · simp [show (s.ctx c).strand.stores = [] from hst h1]
    refine congrArg Host.Outcome.next ?_
    have hw' : (s.ctx c).strand.state = _ := hw
    simp only [doFenceDone, hw', holds, if_true, wake_eq]
    rfl
  · refine congrArg Host.Outcome.next ?_
    simp only [doLaunch, hd, ha, Bool.and_self, readIssue_passed hq]
  · refine congrArg Host.Outcome.next ?_
    simp only [doLaunch, hd, ha, Bool.and_self, readIssue_on h hq, strandOn_getReg, strandOn_setReg]
    exact if_pos hn
  · refine congrArg Host.Outcome.next ?_
    simp only [doLaunch, hd, ha, Bool.and_self, readIssue_on h hq, strandOn_getReg, strandOn_waitOn, strandOn_desc]
    exact if_neg (Nat.not_lt.mpr hn)

/-! ### Transactions -/

/-- A counter of a context and its strand are changed in either order. -/
theorem countC_modStrand (s : State) (c k n : Nat) (g : Strand → Strand) :
    (s.modStrand c g).countC c k n = (s.countC c k n).modStrand c g := by
  simp only [State.countC, State.modStrand, modCtx_modCtx]

/-- Transaction t opens on scene h of context c. -/
def State.openTxn (s : State) (c t h : Nat) : State :=
  { s with nextId := s.nextId + 1, txns := mset s.txns t { ctx := c, scene := h, order := s.nextId, aborted := none, committing := false } }

/-- What a strand that has issued an instruction leaves in a register, when it opens a transaction. -/
theorem strandOn_openTxn (s : State) (c t h : Nat) (d : BitVec 6) (v : DWord) :
    (((s.strandOn c).openTxn c t h).countC c 0x1B 1).setReg c d v =
      ((s.openTxn c t h).countC c 0x1B 1).strandPut c d.toNat 2 v := by
  rw [← put_eq, ← countC_modStrand, ← strandOn_eq]
  rfl

/-- The transactions that context c has opened. -/
def State.txnsOf (s : State) (c : Nat) : Nat := (s.txns.filter (fun e => e.2.ctx == c)).length

/-- A legal XBEGIN on a handle whose descriptor has been read: it opens a transaction, or tells why not. -/
theorem xbegin_on {s : State} {c : CtxNo} {f : Fields} (h : s.strandMay c [f.a.toNat, f.d.toNat] false) (hd : isX f.d = true)
    (ha : isX f.a = true) (hm : f.minor.toNat = 0) (hr : s.sceneUnread c ((s.ctx c).strand.reg f.a.toNat).toNat = false) :
    doXbegin c f s =
      let n := ((s.ctx c).strand.reg f.a.toNat).toNat
      if (s.bound c n).isNone then s.strandPut c f.d.toNat 2 (code64 (2 ^ 32 + 8))
      else if dMaxTxn (s.ctx c).desc ≤ s.txnsOf c then s.strandPut c f.d.toNat 2 (code64 (2 ^ 32 + 7))
      else match mfree s.txns 64 with
        | none => s.strandPut c f.d.toNat 2 (code64 (2 ^ 32 + 7))
        | some t => ((s.openTxn c t n).countC c 0x1B 1).strandPut c f.d.toNat 2 (code64 t) := by
  have read : s.sceneUnread c (s.getReg c f.a).toNat = false := hr
  simp only [doXbegin, read, Bool.and_false, Bool.false_eq_true, if_false, hd, ha, minorIs, hm, Bool.and_self, beq_self_eq_true,
    strandIssue_on h, strandOn_setReg, strandOn_bound, strandOn_desc, ← strandOn_openTxn]
  rfl

section
variable {s : State} {c : CtxNo} {f : Fields} (h : s.strandMay c [f.d.toNat] false) (hd : isX f.d = true)
include h hd

/-- A legal instruction that names its operand in rd. -/
theorem xactIssue_on {minor : Nat} (hm : f.minor.toNat = minor) (eff : State → State) :
    s.xactIssue c f minor eff = eff (s.strandOn c) := by
  simp only [State.xactIssue, hd, minorIs, hm, Bool.and_self, beq_self_eq_true, strandIssue_on h]

end

/-- The transactions are as they were. -/
@[simp] theorem strandOn_txnOf (s : State) (c c' t : Nat) : (s.strandOn c).txnOf c' t = s.txnOf c' t := rfl

/-- What it leaves in a register, when it drops a transaction. -/
theorem strandOn_dropTxn (s : State) (c t : Nat) (d : BitVec 6) (v : DWord) :
    ({ s.strandOn c with txns := merase (s.strandOn c).txns t } : State).setReg c d v =
      { s.strandPut c d.toNat 2 v with txns := merase s.txns t } := by
  rw [← strandOn_setReg]
  rfl

/-- Settles O24: XBEGIN by `xbegin_on`, and the other instructions by the transaction that rd names. -/
theorem transactions : Obligations.Transactions := by
  intro s c f put
  refine ⟨?_, ?_⟩
  · intro h hd ha hm n mine hr
    have begins := congrArg (Host.Outcome.next (φ := Fault) (ρ := Refusal)) (xbegin_on h hd ha hm hr)
    have bound : s.bound c n ≠ none → (s.bound c n).isNone ≠ true := fun hb => by simpa using hb
    refine ⟨fun hb => ?_, fun hb hmax => ?_, fun hb hmax hf => ?_, fun t hb hmax hf => ?_⟩
    all_goals refine begins.trans (congrArg Host.Outcome.next ?_)
    · exact if_pos (by rw [show s.bound c _ = none from hb]; rfl)
    · exact (if_neg (bound hb)).trans (if_pos hmax)
    · exact (if_neg (bound hb)).trans ((if_neg (Nat.not_le.mpr hmax)).trans (by rw [hf]; rfl))
    · exact (if_neg (bound hb)).trans ((if_neg (Nat.not_le.mpr hmax)).trans (by rw [hf]; rfl))
  · intro h hd
    dsimp only
    have issues : ∀ {m : Nat} (hm : f.minor.toNat = m) (eff : State → State) {u : State}, eff (s.strandOn c) = u →
        (Host.Outcome.next (s.xactIssue c f m eff) : Host.Outcome State Fault Refusal) = .next u :=
      fun hm eff _ hu => congrArg Host.Outcome.next ((xactIssue_on h hd hm eff).trans hu)
    refine ⟨fun hm => ⟨fun hx => issues hm _ ?_, fun x hx => issues hm _ ?_⟩,
      fun hm => ⟨fun hx => issues hm _ ?_, fun x k hx hk => issues hm _ ?_, fun x hx hk => issues hm _ ?_⟩,
      fun hm => issues hm _ (strandOn_setReg _ _ _ _), fun hm => ⟨fun hz => issues hm _ ?_, fun hz => issues hm _ ?_⟩⟩
    · simp only [strandOn_getReg, strandOn_setReg, strandOn_txnOf, hx]
      rfl
    · simp only [strandOn_getReg, strandOn_setReg, strandOn_txnOf, hx]
      rfl
    · simp only [strandOn_getReg, strandOn_setReg, strandOn_txnOf, hx]
      rfl
    · simp only [strandOn_getReg, strandOn_txnOf, hx, hk]
      exact strandOn_dropTxn s c _ f.d _
    · simp only [strandOn_getReg, strandOn_txnOf, hx, hk]
      rfl
    · exact (if_pos hz).trans (strandOn_setReg _ _ _ _)
    · exact (if_neg hz).trans (strandOn_waitOn _ _ _)

/-! ### XWRITE -/

/-- The address space of every context is as it was. -/
@[simp] theorem strandOn_asid (s : State) (c j : Nat) : (s.strandOn c).asid j = s.asid j := by
  have desc : ((s.strandOn c).ctx j).desc = (s.ctx j).desc := by
    rw [State.strandOn, State.withStrand, ctx_setCtx_any]
    split
    · next h => rw [h]
    · rfl
  rw [State.asid, State.asid, desc]

/-- The lines that transactions have written are as they were. -/
@[simp] theorem strandOn_conflicts (s : State) (c j t : Nat) (a : DWord) : (s.strandOn c).conflicts j t a = s.conflicts j t a := by
  have ring : ∀ j a, (s.strandOn c).rline j a = s.rline j a := fun j a => by rw [State.rline, strandOn_asid]; rfl
  unfold State.conflicts
  simp only [State.bufRLine, ring]
  rfl

/-- A legal XWRITE of a strand with no accesses under way. -/
theorem xwrite_on {s : State} {c : CtxNo} {f : Fields} (h : s.strandMay c [f.a.toNat, f.b.toNat, f.d.toNat] false)
    (hd : isX f.d = true) (ha : isX f.a = true) (hb : isX f.b = true) (hq : (s.ctx c).strand.quiet = true) {leaf : Bool}
    (hm : f.minor.toNat = if leaf then 2 else 1) :
    s.xwrite leaf c f = match s.txnOf c ((s.ctx c).strand.reg f.d.toNat).toNat with
      | none => s.strandPut c f.d.toNat 2 6
      | some x => match x.aborted with
        | some k => s.strandPut c f.d.toNat 2 (code64 k)
        | none => (s.strandOn c).xwriteOpen c f.d.toNat ((s.ctx c).strand.reg f.d.toNat).toNat x leaf
            ((s.ctx c).strand.reg f.a.toNat) ((s.ctx c).strand.reg f.b.toNat) := by
  simp only [State.xwrite, hd, ha, hb, minorIs, hm, Bool.and_self, beq_self_eq_true, readIssue_on h hq, strandOn_getReg,
    strandOn_setReg, strandOn_txnOf] <;> rfl

section
variable {s : State} {c t : Nat} {x : Txn} {a : DWord} {leaf : Bool} {target : DWord}
  (hx : s.txnOf c t = some x) (hk : x.aborted = none)

/-- An XWRITE to a bough that does not exist answers 8 (R397). -/
theorem xwriteOpen_nowhere (ha : xwriteAddr ((s.bound c x.scene).getD 0) leaf target.toNat = none) (rd : Nat) (src : DWord) :
    s.xwriteOpen c rd t x leaf target src = s.modStrand c (fun y => y.set rd 8) := by
  simp only [State.xwriteOpen, ha]

section
variable (ha : xwriteAddr ((s.bound c x.scene).getD 0) leaf target.toNat = some a)
include ha

/-- One to a line that another open transaction has written aborts its own with cause 3 (R399). -/
theorem xwriteOpen_conflicts (hc : s.conflicts c t a = true) (rd : Nat) (src : DWord) :
    s.xwriteOpen c rd t x leaf target src = (s.abortTxn t 3).modStrand c (fun y => y.set rd 3) := by
  simp only [State.xwriteOpen, ha, hc, if_true]

include hx hk in
/-- One to a line that the transaction has already asks for the source line. -/
theorem xwriteOpen_again (hc : s.conflicts c t a = false) (ho : (s.ownLineAt t a).isSome = true) (rd : Nat) (src : DWord) :
    s.xwriteOpen c rd t x leaf target src = (s.waitOn c (.xwrite rd t leaf target src)).request (.line c src) c 0 := by
  simp only [State.xwriteOpen, ha, hc, ho, hx, hk, Option.bind_some, Bool.false_eq_true, if_false, if_true]

/-- One to another line claims a buffer line first, whose want aborts the transaction (R398, R411). -/
theorem xwriteOpen_claims (hc : s.conflicts c t a = false) (ho : (s.ownLineAt t a).isSome = false) (rd : Nat) (src : DWord) :
    s.xwriteOpen c rd t x leaf target src =
      let u := s.claimLine t x leaf false target.toNat a
      match (u.txnOf c t).bind (·.aborted) with
      | some k => u.modStrand c (fun y => y.set rd (code64 k))
      | none => (u.waitOn c (.xwrite rd t leaf target src)).request (.line c src) c 0 := by
  simp only [State.xwriteOpen, ha, hc, ho, Bool.false_eq_true, if_false] <;> rfl

end
end

/-- The line that an XWRITE waits for becomes the new content of its buffer line. -/
theorem xwriteReadDone_writes {s : State} {c rd t n : Nat} {leaf : Bool} {target src a : DWord} {x : Txn} {l : BufLine}
    (hw : (s.ctx c).strand.state = .waiting (.xwrite rd t leaf target src)) (hs : s.hasSlot (.line c src) = true)
    (hx : s.txnOf c t = some x) (hk : x.aborted = none)
    (ha : xwriteAddr ((s.bound c x.scene).getD 0) leaf target.toNat = some a) (hl : s.ownLineAt t a = some (n, l))
    (ho : l.owned = true) (hi : s.injSramArmed 2 none = none) (line : Line) :
    doXwriteReadDone c line s = (({ s.clearMark 2 0 n with
      txnBuf := mset s.txnBuf n { l with data := line, ue := false } } : State).finishXfer (.line c src)).strandWoken c rd 0 := by
  have armed : ∀ m, ({ s.clearMark 2 0 n with txnBuf := m } : State).injSramArmed 2 none = none := fun _ => hi
  have owned : (!l.owned) = false := by rw [ho]; rfl
  dsimp only at armed
  simp only [doXwriteReadDone, hw, hs, hx, hk, ha, hl, owned, armed, Option.bind_some, Bool.not_true, Bool.false_eq_true, if_false, wake_eq]
  rfl

/-- Settles O25: an XWRITE on an open transaction by its address and by who has written the line. -/
theorem transactionWrites : Obligations.TransactionWrites := by
  intro s c f
  refine ⟨?_, fun line rd t leaf target src x a n l hw hs hx hk ha hl ho hi =>
    congrArg Host.Outcome.next (xwriteReadDone_writes hw hs hx hk ha hl ho hi line)⟩
  intro h hd ha hb hq t target src on put res
  have writes : ∀ leaf, f.minor.toNat = (if leaf then 2 else 1) → s.xwrite leaf c f = res leaf := by
    intro leaf hm
    rw [xwrite_on h hd ha hb hq hm]
    dsimp only [res, put, on, t, target, src]
    cases hx : s.txnOf c ((s.ctx c).strand.reg f.d.toNat).toNat with
    | none => rfl
    | some x =>
    dsimp only
    cases hk : x.aborted with
    | some k => rfl
    | none =>
    dsimp only
    have reads : ((s.strandOn c).bound c x.scene).getD 0 = (s.bound c x.scene).getD 0 := by rw [strandOn_bound]
    cases hw : xwriteAddr ((s.bound c x.scene).getD 0) leaf ((s.ctx c).strand.reg f.a.toNat).toNat with
    | none => exact (xwriteOpen_nowhere (reads ▸ hw) _ _).trans (strandOn_setReg _ _ _ _)
    | some a =>
    dsimp only
    have hw' := reads ▸ hw
    have others := strandOn_conflicts s c c ((s.ctx c).strand.reg f.d.toNat).toNat a
    cases hc : s.conflicts c ((s.ctx c).strand.reg f.d.toNat).toNat a with
    | true => exact xwriteOpen_conflicts hw' (others.trans hc) _ _
    | false =>
    rw [if_neg Bool.false_ne_true]
    cases ho : (s.ownLineAt ((s.ctx c).strand.reg f.d.toNat).toNat a).isSome with
    | true =>
      rw [if_pos rfl, ← strandOn_waitOn]
      exact xwriteOpen_again ((strandOn_txnOf _ _ _ _).trans hx) hk hw' (others.trans hc) ho _ _
    | false =>
      rw [if_neg Bool.false_ne_true]
      exact xwriteOpen_claims hw' (others.trans hc) ho _ _
  exact ⟨fun hm => congrArg Host.Outcome.next (writes false hm), fun hm => congrArg Host.Outcome.next (writes true hm)⟩

/-! ### Commit -/

/-- XCOMMIT of an open transaction makes it COMMITTING and claims the trailer lines of its boughs, while the strand waits (R401). -/
theorem xcommit_claims {s : State} {c : CtxNo} {f : Fields} (h : s.strandMay c [f.d.toNat] false) (hd : isX f.d = true)
    (hm : f.minor.toNat = 3) {x : Txn} (hx : s.txnOf c ((s.ctx c).strand.reg f.d.toNat).toNat = some x) (hk : x.aborted = none) :
    doXcommit c f s =
      let t := ((s.ctx c).strand.reg f.d.toNat).toNat
      foldS ((s.editedBoughs t).map (· / 8)).dedup
        { s.strandWaits c (.xcommit f.d.toNat t) with txns := mset s.txns t { x with committing := true } }
        (fun u n => match u.txnOf c t with
          | none => u
          | some y => if y.aborted.isSome then u
            else u.claimLine t y false true n (addr64 (sTrailerBase ((s.bound c x.scene).getD 0)) (128 * n))) := by
  refine (xactIssue_on h hd hm _).trans ?_
  simp only [strandOn_getReg, strandOn_txnOf, hx, hk, strandOn_bound, strandOn_waitOn]
  rfl

/-- A line of the transaction's write set that the engine does not own. -/
theorem unowned_iff {s : State} {t : Nat} :
    (s.openLines t).any (fun e => !e.2.owned) = true ↔ ∃ e ∈ s.openLines t, e.2.owned = false := by
  simp [List.any_eq_true]

/-- A trailer line that cannot be recomputed from the lines given. -/
theorem anyNone_iff {α β : Type} {l : List (α × Option β)} : l.any (fun e => e.2.isNone) = true ↔ ∃ e ∈ l, e.2 = none := by
  simp [List.any_eq_true]

section
variable {s : State} {c rd t : Nat} {x : Txn} (hw : (s.ctx c).strand.state = .waiting (.xcommit rd t)) (hx : s.txnOf c t = some x)
include hw hx

/-- The commit point waits for the age of versions and, by the model's choice, for the lines of the write set (R394). -/
theorem commitPoint_waits (h : s.epochHeld c = true ∨ ∃ e ∈ s.openLines t, e.2.owned = false) (mem : List (DWord × Line)) :
    doCommitPoint c mem s = s := by
  have held : (s.epochHeld c || (s.openLines t).any (fun e => !e.2.owned)) = true := by rwa [Bool.or_eq_true, unowned_iff]
  simp only [doCommitPoint, hw, hx, held, if_true]

section
variable (he : s.epochHeld c = false) (ho : ∀ e ∈ s.openLines t, e.2.owned = true) (mem : List (DWord × Line))
include he ho

/-- Otherwise it comes once the lines of memory that the recomputed trailers need are given. -/
theorem commitPoint_reads : doCommitPoint c mem s =
    let names := ((s.editedBoughs t).map (· / 8)).dedup
    let read := foldS ((s.openLines t).filter (fun e => !e.2.leaf && !e.2.trailer)) s (fun u e => u.readBuf e.1 none)
    let new := names.map (fun n => (n, read.newTrailerLine t c x.scene ((s.bound c x.scene).getD 0) mem n))
    if new.any (fun e => e.2.isNone) then s
    else read.commitNow t c rd (new.foldl (fun m e => mset m e.1 (e.2.getD 0)) []) := by
  have free : (s.epochHeld c || (s.openLines t).any (fun e => !e.2.owned)) = false := by
    rw [he, Bool.false_or, any_false _ _ (fun e hm => by rw [ho e hm]; rfl)]
  simp only [doCommitPoint, hw, hx, free, Bool.false_eq_true, if_false]

end
end

section
variable (s : State) (t c rd : Nat) (tr : FMap Line)

/-- The context of a commit point has its next epoch, and its strand 0 in rd; only a counter changes besides (R402). -/
theorem commitNow_ctx : ∃ cnt, (s.commitNow t c rd tr).ctx c = { s.ctx c with
    epoch := ((s.ctx c).epoch + 1) % 2 ^ 32
    cnt := cnt
    strand := { (s.ctx c).strand.set rd 0 with state := .ready, fails := [] } } := by
  refine ⟨mset (s.ctx c).cnt 0x1C (satAdd (mgetD (s.ctx c).cnt 0x1C 0) 1), ?_⟩
  simp only [State.commitNow, State.countC, State.wake, State.modStrand, modCtx_modCtx, ctx_modCtx]
  rfl

/-- The lines of its write set are COMMITTED with that epoch, and every other stays (R402). -/
theorem commitNow_line {n : Nat} {l : BufLine} (hl : mget s.txnBuf n = some l) : mget (s.commitNow t c rd tr).txnBuf n =
    some (if l.state = .open t
      then { l with state := .committed, version := ((s.ctx c).epoch + 1) % 2 ^ 32, data := if l.trailer then mgetD tr l.name l.data else l.data }
      else l) := by
  have buf : (s.commitNow t c rd tr).txnBuf = mmap s.txnBuf (fun _ l => if l.state == BufState.open t
      then { l with state := .committed, version := ((s.ctx c).epoch + 1) % 2 ^ 32, data := if l.trailer then mgetD tr l.name l.data else l.data }
      else l) := rfl
  rw [buf, mget_mmap, hl, Option.map_some]
  simp only [beq_iff_eq]

end

/-! ### Write-through -/

/-- An acknowledged line frees its buffer line, is counted, and gives what it served the tag 0 (R408, R409). -/
theorem writeThroughAck_frees {s : State} {n : Nat} {l : BufLine} (hl : mget s.txnBuf n = some l) (hs : l.state = .writing) :
    doWriteThroughAck n s =
      let u : State := (((({ s with txnBuf := merase s.txnBuf n } : State).clearMark 2 0 n).count 44 1).finishXfer (.through n))
      (if l.leaf then u.rekeyBlocks l else u.rekeyBoughs l).settleWt l.ctx := by
  simp only [doWriteThroughAck, hl, hs]
  rfl

section
variable {u : State} {n : Nat} {l : BufLine} (hl : mget u.txnBuf n = some l)
include hl

/-- A line that the engine has lost is asked for again, unless it has been. -/
theorem wtGo_lost (hd : u.dirAt (u.bufRLine l) = none) : u.wtGo n = if u.ringAsked (u.bufRLine l) then u
    else (if l.owned then u else u.countC l.ctx 0x23 1).readOwn (u.bufRLine l) (.writeThrough n) := by
  simp only [State.wtGo, hl, hd]

/-- A line that it shares is upgraded. -/
theorem wtGo_shared {e : DirEntry} (hd : u.dirAt (u.bufRLine l) = some e) (hs : e.state = .ownedShared) :
    u.wtGo n = if u.ringAsked (u.bufRLine l) then u else u.upgradeLine (u.bufRLine l) (.writeThrough n) := by
  simp only [State.wtGo, hl, hd, hs, beq_self_eq_true, if_true]

/-- A line that it owns alone waits until it may be written. -/
theorem wtGo_waits {e : DirEntry} (hd : u.dirAt (u.bufRLine l) = some e) (hs : e.state ≠ .ownedShared) (hm : u.mayWrite n = false) :
    u.wtGo n = u := by
  simp only [State.wtGo, hl, hd, beq_eq_false_iff_ne.mpr hs, hm, Bool.false_eq_true, if_false]

/-- It then is. -/
theorem wtGo_writes {e : DirEntry} {x : Xfer} (hd : u.dirAt (u.bufRLine l) = some e) (hs : e.state ≠ .ownedShared)
    (hm : u.mayWrite n = true) (hx : u.xferOf (.through n) = some x) :
    u.wtGo n = (u.modXfer x.n (fun y => { y with out := 1 })).wtWrite n l e := by
  simp only [State.wtGo, hl, hd, beq_eq_false_iff_ne.mpr hs, hm, hx, Bool.false_eq_true, if_false, if_true]

end

/-- Settles O26: XCOMMIT and the commit point by what they wait for, and the write-through of a line by its entry in the directory. -/
theorem commitLines : Obligations.CommitLines := by
  refine ⟨fun s c => ⟨fun f h hd hm => ⟨fun hx => ?_, fun x k hx hk => ?_, fun x hx hk => ?_⟩, ?_, fun t rd tr => ?_⟩,
    fun s n l hl => ⟨fun hs hd => ?_, fun h => ?_, fun hs => ?_, fun hs => ?_⟩, ?_⟩
  · refine congrArg Host.Outcome.next ((xactIssue_on h hd hm _).trans ?_)
    simp only [strandOn_getReg, strandOn_setReg, strandOn_txnOf, hx]
  · refine congrArg Host.Outcome.next ((xactIssue_on h hd hm _).trans ?_)
    simp only [strandOn_getReg, strandOn_txnOf, hx, hk]
    exact strandOn_dropTxn s c _ f.d _
  · exact congrArg Host.Outcome.next (xcommit_claims h hd hm hx hk)
  · intro rd t x mem v hw hx
    refine ⟨fun h => congrArg Host.Outcome.next (commitPoint_waits hw hx h mem), ?_⟩
    intro he ho d names read new
    have comes := congrArg (Host.Outcome.next (φ := Fault) (ρ := Refusal)) (commitPoint_reads hw hx he ho mem)
    refine ⟨fun hn => comes.trans (congrArg Host.Outcome.next (if_neg ?_)),
      fun hn => comes.trans (congrArg Host.Outcome.next (if_pos (anyNone_iff.mpr hn)))⟩
    intro h
    obtain ⟨e, hm, hne⟩ := anyNone_iff.mp h
    exact hn e hm hne
  · obtain ⟨cnt, hc⟩ := commitNow_ctx s t c rd tr
    refine ⟨congrArg Context.epoch hc, congrArg Context.strand hc, rfl, fun n l hl hs ht => ?_, fun n l hl hs => ?_, rfl, rfl⟩
    · rw [commitNow_line s t c rd tr hl, if_pos hs, ht]
      rfl
    · rw [commitNow_line s t c rd tr hl, if_neg hs]
  · refine congrArg Host.Outcome.next ?_
    simp only [doWriteThroughDue, hl, hs, hd, beq_self_eq_true, Bool.and_self, if_true]
  · have idle : (l.state == .committed && s.wtDue l) = false := by rcases h with h | h <;> simp [h]
    refine congrArg Host.Outcome.next ?_
    simp only [doWriteThroughDue, hl, idle, Bool.false_eq_true, if_false]
  · exact congrArg Host.Outcome.next (writeThroughAck_frees hl hs)
  · refine congrArg Host.Outcome.next ?_
    simp only [doWriteThroughAck, hl, bne_iff_ne.mpr hs, if_true]
  · intro u n l hl a
    refine ⟨fun e x hd hs hm hx => wtGo_writes hl hd hs hm hx, fun e hd hs hm => wtGo_waits hl hd hs hm,
      fun e hd hs hr => (wtGo_shared hl hd hs).trans (if_neg (Bool.eq_false_iff.mp hr)),
      fun hd hr => (wtGo_lost hl hd).trans (if_neg (Bool.eq_false_iff.mp hr)), fun hs hr => ?_⟩
    cases hd : u.dirAt a with
    | none => exact (wtGo_lost hl hd).trans (if_pos hr)
    | some e => exact (wtGo_shared hl hd (hs e hd)).trans (if_pos hr)

/-! ### NVM stores -/

/-- NVSTORE of a sector that has an outcome (R303, R510). -/
theorem strandOn_storeOutcome (s : State) (c n o : Nat) (d : BitVec 6) (v : DWord) :
    ((s.strandOn c).storeOutcome n o).setReg c d v =
      ({ s with dev := { s.dev with lastSector := n, lastOutcome := o } } : State).strandPut c d.toNat 2 v := by
  rw [← strandOn_setReg]
  rfl

/-- NVSTORE that begins a store. -/
theorem strandOn_beginStore (s : State) (c n : Nat) (w : Wait) :
    ((s.strandOn c).beginStore (.strand c) n).waitOn c w = ({ s with dev := { s.dev with
      nvmBusy := some { who := .strand c, sector := n, started := s.staged? n } } } : State).strandWaits c w := by
  rw [← strandOn_waitOn]
  rfl

/-- A legal NVSTORE of a strand with no accesses under way: no sector, one that may not be stored, another store in progress, or a
store that begins. -/
theorem nvstore_on {s : State} {c : CtxNo} {f : Fields} (h : s.strandMay c [f.a.toNat, f.d.toNat] false)
    (hq : (s.ctx c).strand.quiet = true) (hd : isX f.d = true) (ha : isX f.a = true) :
    doNvstore c f s =
      let n := ((s.ctx c).strand.reg f.a.toNat).toNat
      if 63 < n then s.strandPut c f.d.toNat 2 1
      else if !dNvmStore (s.ctx c).desc || n == 0 || n == 62 || n == 63 then
        ({ s with dev := { s.dev with lastSector := n, lastOutcome := 1 } } : State).strandPut c f.d.toNat 2 1
      else if s.nvmWorking then
        ({ s with dev := { s.dev with lastSector := n, lastOutcome := 2 } } : State).strandPut c f.d.toNat 2 2
      else ({ s with dev := { s.dev with
        nvmBusy := some { who := .strand c, sector := n, started := s.staged? n } } } : State).strandWaits c (.nvstore f.d.toNat n) := by
  simp only [doNvstore, hd, ha, Bool.and_self, readIssue_on h hq, strandOn_getReg, strandOn_setReg, strandOn_desc,
    strandOn_storeOutcome, strandOn_beginStore]
  rfl

/-- A store of sector n that ends: the sector holds bs, and its staged image the bytes that were to be stored (R508, R510). -/
def State.storeEnded (s : State) (n : Nat) (bs : List Byte) (o : Nat) : State := { s with
  staged := setSector s.staged n (storeBytes (sectorBytes s.staged n) (sectorBytes s.nvm n))
  nvm := setSector s.nvm n bs
  dev := { s.dev with nvmBusy := none, lastSector := n, lastOutcome := o } }

/-- A store whose read-back agrees. -/
theorem finishStore_agrees (s : State) (st : Store) : s.finishStore st true =
    (s.storeEnded st.sector (storeBytes (sectorBytes s.staged st.sector) (sectorBytes s.nvm st.sector)) 0).answerStore st true := by
  simp only [State.finishStore, if_true, State.putStaged, State.putNvm, State.modDev, State.storeOutcome, State.storeEnded]

/-- One whose read-back differs leaves free bytes, and is counted (R510). -/
theorem finishStore_differs (s : State) (st : Store) : ∃ free, s.finishStore st false =
    (({ s.storeEnded st.sector free 3 with freeCtr := s.freeCtr + 512 } : State).count 72 1).answerStore st false := by
  obtain ⟨free, spoilt⟩ := spoil_eq
    (s.putStaged st.sector (storeBytes (sectorBytes s.staged st.sector) (sectorBytes s.nvm st.sector))) st.sector
  refine ⟨free, ?_⟩
  unfold State.finishStore
  simp only [Bool.false_eq_true, if_false, spoilt]
  rfl

/-- A store of the chain answers no strand. -/
theorem answerStore_chain {st : Store} (h : st.who = .chain) (s : State) (ok : Bool) : s.answerStore st ok = s := by
  unfold State.answerStore
  rw [h]

/-- One of a strand answers it. -/
theorem answerStore_strand {st : Store} {c rd : Nat} (h : st.who = .strand c) (s : State) (ok : Bool)
    (hw : (s.ctx c).strand.state = .waiting (.nvstore rd st.sector)) :
    s.answerStore st ok = s.strandWoken c rd (if ok then 0 else 3) := by
  unfold State.answerStore
  rw [h]
  dsimp only
  rw [hw]
  exact (if_pos rfl).trans (wake_eq _ _ _ _)

/-- The event that ends a store that has begun. -/
theorem nvmStoreDone_ends {s : State} {st : Store} (h : s.dev.nvmBusy = some st) (hs : st.started = true) (ok : Bool) :
    doNvmStoreDone ok s = ((s.finishStore st ok).settleAll).settleChain := by
  simp only [doNvmStoreDone, h, hs, if_true]

/-- What is read of a sector whose header has four fields of four bytes. -/
theorem pieces_read {a b c d : List Byte} (ha : a.length = 4) (hb : b.length = 4) (hc : c.length = 4) (hd : d.length = 4) (r : List Byte) :
    let l := a ++ (b ++ (c ++ (d ++ r)))
    l.take 4 = a ∧ (l.drop 4).take 4 = b ∧ (l.drop 8).take 4 = c ∧ (l.drop 12).take 4 = d ∧ l.drop 16 = r ∧
      l.take 12 = a ++ (b ++ c) := by
  simp [List.drop_append, List.take_append, List.drop_eq_nil_of_le, List.take_of_length_le, ha, hb, hc, hd]

/-- Each byte of a field is one. -/
theorem bytesOf_length {n : Nat} (r : BitVec n) (k : Nat) : (bytesOf r k).length = k := by simp [bytesOf]

/-- The bytes of a store in their fields (R507, R508). -/
theorem storeBytes_fields {image : List Byte} (h : 4 ≤ image.length) (old : List Byte) :
    let bs := storeBytes image old
    let header := image.take 4 ++ (bytesOf (secGen image + 1) 4 ++ bytesOf (secWord old 8 + 1) 4)
    bs.take 4 = image.take 4 ∧ (bs.drop 4).take 4 = bytesOf (secGen image + 1) 4 ∧ (bs.drop 8).take 4 = bytesOf (secWord old 8 + 1) 4 ∧
      (bs.drop 12).take 4 = bytesOf (crc32c (image.drop 16 ++ header)) 4 ∧ bs.drop 16 = image.drop 16 ∧ bs.take 12 = header := by
  have start : (image.take 4).length = 4 := by simp [h]
  simp only [storeBytes, List.append_assoc]
  exact pieces_read start (bytesOf_length _ _) (bytesOf_length _ _) (bytesOf_length _ _) _

/-- Settles O44: NVSTORE by `nvstore_on`, the end of a store by its read-back and by who asked for it, and the bytes of a store by their
fields. -/
theorem nvmStores : Obligations.NvmStores := by
  refine ⟨?_, ?_, fun image old h => ?_⟩
  · intro s c f h hq hd ha n tell
    have stores := congrArg (Host.Outcome.next (φ := Fault) (ρ := Refusal)) (nvstore_on h hq hd ha)
    have sector : n ≤ 63 → ¬ 63 < n := Nat.not_lt.mpr
    have may : dNvmStore (s.ctx c).desc = true → 1 ≤ n → n ≤ 61 →
        ¬ (!dNvmStore (s.ctx c).desc || n == 0 || n == 62 || n == 63) = true := by
      intro hn hlo hhi
      simp [hn]
      omega
    refine ⟨fun hn => ?_, fun hn hb => ?_, fun hn hlo hhi hw => ?_, fun hn hlo hhi hw => ?_⟩
    all_goals refine stores.trans (congrArg Host.Outcome.next ?_)
    · exact if_pos hn
    · refine (if_neg (sector hn)).trans (if_pos ?_)
      rcases hb with hb | hb | hb | hb <;> simp [hb, n]
    · exact (if_neg (sector (by omega))).trans ((if_neg (may hn hlo hhi)).trans (if_pos hw))
    · exact (if_neg (sector (by omega))).trans ((if_neg (may hn hlo hhi)).trans (if_neg (Bool.eq_false_iff.mp hw)))
  · intro s st hb hs n bs done
    have ends : ∀ ok {u}, s.finishStore st ok = u → exec (.nvmStoreDone ok) s = .next u.settleAll.settleChain := fun ok _ hu =>
      congrArg Host.Outcome.next (hu ▸ nvmStoreDone_ends hb hs ok)
    obtain ⟨free, differs⟩ := finishStore_differs s st
    refine ⟨fun hw => ends true ?_, fun c rd hw hc => ends true ?_, fun hw => ⟨free, ends false ?_⟩,
      fun c rd hw hc => ⟨free, ends false ?_⟩⟩
    · exact (finishStore_agrees s st).trans (answerStore_chain hw _ _)
    · exact (finishStore_agrees s st).trans (answerStore_strand hw _ _ hc)
    · exact differs.trans (answerStore_chain hw _ _)
    · exact differs.trans (answerStore_strand hw _ _ hc)
  · obtain ⟨start, gen, stores, crc, rest, header⟩ := storeBytes_fields (Nat.le_trans (by decide) h) old
    refine ⟨(congrArg (ofBytes 32) gen).trans (bytes4 _), (congrArg (ofBytes 32) stores).trans (bytes4 _),
      (congrArg (ofBytes 32) crc).trans ((bytes4 _).trans ?_), start, rest⟩
    rw [secCrc, rest, header]

/-! ### The pass barrier -/

/-- A packet leaves the contexts. -/
theorem sendPacket_ctx (s : State) (hdr : Rec64) (q : Option QueryImage) (recs : List Rec32) (c : Nat) :
    (s.sendPacket hdr q recs).ctx c = s.ctx c := by
  unfold State.sendPacket
  split <;> rfl

/-- With an empty lost set no child is lost (R485, R488). -/
theorem loseListed_none {s : State} (h : s.lost = []) (c : Nat) (b : Barrier) : s.loseListed c b = s := by
  have found : ∀ i, s.isLost i c = false := fun i => by rw [State.isLost, h]; rfl
  have listed : s.children.filter (fun i => s.isLost i c && !(s.ctx c).hasArrived b.pass i) = [] :=
    List.filter_eq_nil_iff.mpr (fun i _ => by simp [found])
  rw [State.loseListed, listed]
  rfl

/-- A barrier whose ARRIVE has gone and whose RELEASE has come passes it on, and ends with whether some participant was lost (R487). -/
theorem settleBarrier_released {s : State} {c : Nat} {b : Barrier} (hb : (s.ctx c).barrier = some b) (hs : b.sent = true)
    (hr : reached (mgetD (s.ctx c).recv 15 0) (BitVec.ofNat 64 (64 * (b.pass + 1))) = true) :
    s.settleBarrier c = (s.sendRelease c b.pass ((s.ctx c).released.any (fun r => r.1 == b.pass && r.2))).endBarrier c b
      ((s.ctx c).released.any (fun r => r.1 == b.pass && r.2)) := by
  simp only [State.settleBarrier, hb, hs, hr, Bool.and_self, if_true]

/-- Before that it waits. -/
theorem settleBarrier_waits {s : State} {c : Nat} {b : Barrier} (hb : (s.ctx c).barrier = some b)
    (hr : reached (mgetD (s.ctx c).recv 15 0) (BitVec.ofNat 64 (64 * (b.pass + 1))) = false) : s.settleBarrier c = s := by
  simp only [State.settleBarrier, hb, hr, Bool.and_false, Bool.false_eq_true, if_false]

/-- A context without a barrier has none to settle. -/
theorem settleBarrier_none {s : State} {c : Nat} (hb : (s.ctx c).barrier = none) : s.settleBarrier c = s := by
  simp only [State.settleBarrier, hb]

section
variable {s : State} {c : Nat} {b : Barrier} (hb : (s.ctx c).barrier = some b)
include hb

/-- A barrier whose ARRIVE has gone, or whose context has a query Forwarded, does not send (R487). -/
theorem arriveSend_waits (h : b.sent = true ∨ s.noneForwarded c = false) : doArriveSend c s = s := by
  have waits : (b.sent || !s.noneForwarded c) = true := by rcases h with h | h <;> simp [h]
  simp only [doArriveSend, hb, waits, if_true]

/-- When its children have arrived and no participant is lost, the root releases, and another sends ARRIVE to its parent (R487). -/
theorem arriveSend_arrives (hs : b.sent = false) (hl : b.lost = false) (hf : s.noneForwarded c = true) (hn : s.lost = [])
    (ha : ∀ a ∈ (s.ctx c).arrivals, a.2.2 = false)
    (hr : reached (mgetD (s.ctx c).recv 14 0) (BitVec.ofNat 64 (64 * s.children.length * (b.pass + 1))) = true) :
    doArriveSend c s = if s.dev.instId = 0 then (s.sendRelease c b.pass false).endBarrier c b false
      else ((s.sendPacket (fwdHeader s 7 1 0 ((s.dev.instId - 1) / 64) 0 c 0 0 b.pass 0) none []).modCtx c (fun x =>
        { x with barrier := some { b with sent := true, lost := false } })).settleBarrier c := by
  have goes : (b.sent || !s.noneForwarded c) = false := by simp [hs, hf]
  have whole : (s.ctx c).arrivals.any (fun a => a.1 == b.pass && a.2.2) = false := any_false _ _ (fun a hm => by simp [ha a hm])
  simp only [doArriveSend, hb, goes, loseListed_none hn, hr, hl, whole, Option.map_some, Option.getD_some, Bool.or_self,
    Bool.not_true, Bool.false_eq_true, if_false]

/-- Without a limit no barrier ends before its RELEASE (R488). -/
theorem barrierTimeout_never (h : s.dev.barTimeout = 0) : doBarrierTimeout c s = s := by
  simp only [doBarrierTimeout, hb, h, if_true]

/-- At the limit a barrier whose ARRIVE has gone ends with 1; one whose context has no query Forwarded loses the children that have
not arrived (R488). -/
theorem barrierTimeout_limit (h : s.dev.barTimeout ≠ 0) : doBarrierTimeout c s =
    if b.sent then ((s.countC c 0x2E 1).report 0x33 2 c noUnit noUnit (b.pass + 2 ^ 32 * 0x1FFFF)).endBarrier c b true
    else if !s.noneForwarded c then s
    else foldS (s.children.filter (fun i => !(s.ctx c).hasArrived b.pass i)) s (fun s i => (s.addLost i none).loseChild c b i) := by
  simp only [doBarrierTimeout, hb, h, if_false]

end

/-- The end of a barrier, in its context: its strand goes on with 0 or 1. -/
theorem endBarrier_ctx {s : State} {c rd k : Nat} (hw : (s.ctx c).strand.state = .waiting (.barrier rd k)) (b : Barrier) (lost : Bool) :
    ((s.endBarrier c b lost).ctx c).strand = { (s.ctx c).strand.set rd (if lost then 1 else 0) with state := .ready, fails := [] } ∧
      ((s.endBarrier c b lost).ctx c).barrier = none := by
  cases lost with
  | true =>
    simp only [State.endBarrier, if_true, ctx_modCtx, hw, State.wake, State.modStrand]
    exact ⟨trivial, trivial⟩
  | false =>
    simp only [State.endBarrier, Bool.false_eq_true, if_false, State.countC, ctx_modCtx, hw, State.wake, State.modStrand]
    exact ⟨trivial, trivial⟩

section
variable {s : State} {hdr : Rec64}

/-- An ARRIVE for a context that cannot take it is heard, and no more. -/
theorem arrive_ignored (hh : s.hears hdr 7 1) (ht : (s.heardFrom (pSrc hdr)).takesBarrier hdr = false) :
    doArrive hdr s = s.heardFrom (pSrc hdr) :=
  (onPacket_ok hh _).trans (if_pos (by rw [ht]; rfl))

/-- So is a RELEASE. -/
theorem release_ignored (hh : s.hears hdr 8 1) (ht : (s.heardFrom (pSrc hdr)).takesBarrier hdr = false) :
    doRelease hdr s = s.heardFrom (pSrc hdr) :=
  (onPacket_ok hh _).trans (if_pos (by rw [ht]; rfl))

/-- An ARRIVE adds 64 to counter 14, and its child has arrived (R486). -/
theorem arrive_takes (hh : s.hears hdr 7 1) (ht : (s.heardFrom (pSrc hdr)).takesBarrier hdr = true) :
    doArrive hdr s =
      let u := s.heardFrom (pSrc hdr)
      let x := u.ctx (pCtx hdr)
      u.setCtx (pCtx hdr) { x with
        recv := mset x.recv 14 (mgetD x.recv 14 0 + 64), arrivals := x.arrivals ++ [(pArg0 hdr, pSrc hdr, pArg1 hdr % 2 == 1)] } := by
  refine (onPacket_ok hh _).trans ((if_neg (by rw [ht]; decide)).trans ?_)
  rw [State.addRecv, modCtx_modCtx]
  rfl

/-- A RELEASE adds 64 to counter 15, and settles the barrier (R486, R487). -/
theorem release_takes (hh : s.hears hdr 8 1) (ht : (s.heardFrom (pSrc hdr)).takesBarrier hdr = true) :
    doRelease hdr s =
      let u := s.heardFrom (pSrc hdr)
      let x := u.ctx (pCtx hdr)
      (u.setCtx (pCtx hdr) { x with
        recv := mset x.recv 15 (mgetD x.recv 15 0 + 64), released := x.released ++ [(pArg0 hdr, pArg1 hdr % 2 == 1)] }).settleBarrier
          (pCtx hdr) := by
  refine (onPacket_ok hh _).trans ((if_neg (by rw [ht]; decide)).trans ?_)
  rw [State.addRecv, modCtx_modCtx]
  rfl

end

/-- Settles O46: BARRIER, then what the participant sends (`arriveSend_arrives`), the limit (`barrierTimeout_limit`), and the packets that
come, of which a RELEASE settles the barrier. -/
theorem passBarrier : Obligations.PassBarrier := by
  refine ⟨fun s c f h hd ha => ?_, fun s c hb => ⟨?_, ?_⟩, fun s c b hb hs hl hf hn ha hr => ⟨fun hi => ?_, fun hi hw => ?_⟩,
    fun s c b hb => ⟨fun h => ?_, fun h => ?_, fun h hs => ?_, fun h hs hf => ?_⟩, fun s c b lost rd k hw => endBarrier_ctx hw b lost, ?_⟩
  · refine congrArg Host.Outcome.next ?_
    simp only [doBarrier, hd, ha, Bool.and_self, strandIssue_on h, strandOn_getReg]
    rw [State.waitOn, State.modStrand, modCtx_modCtx]
    exact setCtx_modCtx _ _ _ _
  · refine congrArg Host.Outcome.next ?_
    simp only [doArriveSend, hb]
  · refine congrArg Host.Outcome.next ?_
    simp only [doBarrierTimeout, hb]
  · exact congrArg Host.Outcome.next ((arriveSend_arrives hb hs hl hf hn ha hr).trans (if_pos hi))
  · refine congrArg Host.Outcome.next ((arriveSend_arrives hb hs hl hf hn ha hr).trans ((if_neg hi).trans ?_))
    rw [settleBarrier_waits (b := { b with sent := true, lost := false }) (by rw [ctx_modCtx]) (by rwa [ctx_modCtx, sendPacket_ctx]), ← hl]
  · exact congrArg Host.Outcome.next (arriveSend_waits hb h)
  · exact congrArg Host.Outcome.next (barrierTimeout_never hb h)
  · exact congrArg Host.Outcome.next ((barrierTimeout_limit hb h).trans (if_pos hs))
  · refine congrArg Host.Outcome.next ((barrierTimeout_limit hb h).trans ((if_neg (Bool.eq_false_iff.mp hs)).trans ?_))
    exact if_neg (by rw [hf]; decide)
  · intro s hdr u c lost x
    refine ⟨fun ht hh => congrArg Host.Outcome.next (arrive_ignored hh ht), fun ht hh => congrArg Host.Outcome.next (release_ignored hh ht),
      fun ht hh => congrArg Host.Outcome.next (arrive_takes hh ht), fun ht hh => ?_⟩
    intro v
    have taken := congrArg (Host.Outcome.next (φ := Fault) (ρ := Refusal)) (release_takes hh ht)
    refine ⟨fun hb => taken.trans (congrArg Host.Outcome.next ?_), fun b hb hs hr => taken.trans (congrArg Host.Outcome.next ?_)⟩
    · exact settleBarrier_none (by rwa [ctx_setCtx])
    · have count : mgetD ((v.ctx c).recv) 15 0 = mgetD x.recv 15 0 + 64 := by rw [ctx_setCtx]; exact mgetD_mset_self _ _ _ _
      have told : (v.ctx c).released = x.released ++ [(pArg0 hdr, lost)] := by rw [ctx_setCtx]
      refine (settleBarrier_released (b := b) (by rwa [ctx_setCtx]) hs (by rwa [count])).trans ?_
      rw [told]
      rfl

/-! ### Loads, stores and atomics of a strand -/

/-- The bits of a mask. -/
theorem mask_getLsbD (k i : Nat) (h : i < 64) : (BitVec.ofNat 64 (2 ^ k - 1)).getLsbD i = decide (i < k) := by
  rw [BitVec.getLsbD_ofNat, Nat.testBit_two_pow_sub_one, decide_eq_true h, Bool.true_and]

/-- Without SX the low bytes of a value are extended with zeros (R296). -/
theorem extend_zero (size : Nat) (v : DWord) : extend size false v = (v.extractLsb' 0 (8 * size)).setWidth 64 := by
  apply BitVec.eq_of_getLsbD_eq
  intro i hi
  simp only [extend, Bool.false_and, Bool.false_eq_true, if_false, BitVec.getLsbD_and, mask_getLsbD _ i hi, BitVec.getLsbD_setWidth,
    BitVec.getLsbD_extractLsb']
  simp [hi, Bool.and_comm]

/-- With SX their sign is extended (R296). -/
theorem extend_sign {size : Nat} (h0 : 0 < size) (h8 : size ≤ 8) (v : DWord) :
    extend size true v = (v.extractLsb' 0 (8 * size)).signExtend 64 := by
  apply BitVec.eq_of_getLsbD_eq
  intro i hi
  have sign : (v &&& BitVec.ofNat 64 (2 ^ (8 * size) - 1)).getLsbD (8 * size - 1) = v.getLsbD (8 * size - 1) := by
    rw [BitVec.getLsbD_and, mask_getLsbD _ _ (by omega)]
    simp [h0]
  have msb : (v.extractLsb' 0 (8 * size)).msb = v.getLsbD (8 * size - 1) := by
    rw [BitVec.msb_eq_getLsbD_last, BitVec.getLsbD_extractLsb']
    simp [h0]
  rw [BitVec.getLsbD_signExtend, msb, BitVec.getLsbD_extractLsb']
  simp only [extend, sign, Bool.true_and]
  cases hv : v.getLsbD (8 * size - 1) with
  | true =>
    simp only [if_true, BitVec.getLsbD_or, BitVec.getLsbD_and, BitVec.getLsbD_not, mask_getLsbD _ i hi]
    by_cases h : i < 8 * size <;> simp [h, hi]
  | false =>
    simp only [Bool.false_eq_true, if_false, BitVec.getLsbD_and, mask_getLsbD _ i hi]
    by_cases h : i < 8 * size <;> simp [h, hi]

/-- A port of a line goes by the device registers alone. -/
theorem fabricPort_of_dev {s t : State} (h : t.dev = s.dev) (a : DWord) : t.fabricPort a = s.fabricPort a := by
  rw [State.fabricPort, State.fabricPort, State.enabledPort, State.enabledPort, h]

/-- One store request for a context, under the number of an access or a completion. -/
def State.storeTo (s : State) (c n : Nat) (rel chip : Bool) (a : DWord) (d : List Byte) : State :=
  (s.touch (s.asid c) a).emit (.store (s.fabricPort a) (s.asid c) a d n rel chip)

section
variable (s : State) (c n : Nat) (rel chip : Bool) (a : DWord) (d : List Byte)

/-- It sends the request. -/
@[simp] theorem storeTo_out : (s.storeTo c n rel chip a d).out = .store (s.fabricPort a) (s.asid c) a d n rel chip :: s.out := by
  simp [State.storeTo, State.emit]
/-- The port of every line is as it was. -/
@[simp] theorem storeTo_fabricPort (b : DWord) : (s.storeTo c n rel chip a d).fabricPort b = s.fabricPort b :=
  fabricPort_of_dev (by simp [State.storeTo]) b
/-- The address space of every context too. -/
@[simp] theorem storeTo_asid (j : Nat) : (s.storeTo c n rel chip a d).asid j = s.asid j := by
  simp [State.storeTo, State.asid, State.ctx]

end

/-- A store that is sent goes out as one request, or as one for each of the two lines in which it lies (R326, R371). -/
theorem sendAccess_store (s : State) (c n : Nat) (after : List Nat) (a : DWord) (d : List Byte) (rel chip : Bool) :
    s.sendAccess c { n := n, after := after, addr := a, what := .store d rel chip } =
      let k := 128 - a.toNat % 128
      if d.length ≤ k then s.storeTo c n rel chip a d
      else (s.storeTo c n rel chip a (d.take k)).storeTo c n rel chip (addr64 a k) (d.drop k) := by
  have within : a.toNat % 128 + d.length ≤ 128 ↔ d.length ≤ 128 - a.toNat % 128 := by omega
  simp only [State.sendAccess, within]
  rfl

/-- So does a load. -/
theorem sendAccess_load (s : State) (c n : Nat) (after : List Nat) (a : DWord) (size : Nat) (acq chip : Bool) :
    s.sendAccess c { n := n, after := after, addr := a, what := .load size acq chip } =
      let k := 128 - a.toNat % 128
      if size ≤ k then s.readFor c a (.load c n size acq chip)
      else (s.readFor c a (.load c n k acq chip)).readFor c (addr64 a k) (.load c n (size - k) acq chip) := by
  have within : a.toNat % 128 + size ≤ 128 ↔ size ≤ 128 - a.toNat % 128 := by omega
  simp only [State.sendAccess, within]

/-- A load that waits for nothing is sent at once. -/
theorem access_load {s : State} {c : Nat} {a : DWord} {size : Nat} {acq chip : Bool}
    (h : (s.ctx c).strand.mustWait (.load size acq chip) a = []) (rd : Nat) (sx : Bool) :
    s.access c a rd sx (.load size acq chip) = (({ s with nextId := s.nextId + 1 } : State).withStrand c { (s.ctx c).strand with
      loads := (s.ctx c).strand.loads ++ [{ n := s.nextId, rd := rd, size := size, sx := sx, atomic := false, acq := acq }] }).sendAccess
        c { n := s.nextId, after := [], addr := a, what := .load size acq chip } := by
  unfold State.access
  dsimp only [State.takeId]
  rw [h, modStrand1]
  rfl

/-- The completion of a store, and the store among those of its strand (R364). -/
def State.storeOpened (s : State) (c : Nat) : State :=
  (s.addCompletion c 0 1 .store).2.modStrand c (fun t => { t with stores := t.stores ++ [s.nextId] })

/-- A store that waits for nothing is sent at once. -/
theorem access_store {s : State} {c : Nat} {a : DWord} {d : List Byte} {rel chip : Bool}
    (h : (s.ctx c).strand.mustWait (.store d rel chip) a = []) (rd : Nat) (sx : Bool) :
    s.access c a rd sx (.store d rel chip) =
      (s.storeOpened c).sendAccess c { n := s.nextId, after := [], addr := a, what := .store d rel chip } := by
  unfold State.access
  simp only [h]
  rfl

/-- It sends nothing yet. -/
@[simp] theorem storeOpened_out (s : State) (c : Nat) : (s.storeOpened c).out = s.out := rfl
/-- The port of every line is as it was. -/
@[simp] theorem storeOpened_fabricPort (s : State) (c : Nat) (a : DWord) : (s.storeOpened c).fabricPort a = s.fabricPort a := rfl
/-- The address space of its context too. -/
@[simp] theorem storeOpened_asid (s : State) (c : Nat) : (s.storeOpened c).asid c = s.asid c := by
  rw [State.asid, State.storeOpened, ctx_mod]
  rfl

/-- An access that must wait is held, and sends nothing (R364, R371). -/
theorem access_held {s : State} {c : Nat} {a : DWord} {w : Access} (h : (s.ctx c).strand.mustWait w a ≠ []) (rd : Nat) (sx : Bool) :
    (s.access c a rd sx w).out = s.out ∧ ((s.access c a rd sx w).ctx c).strand.held =
      (s.ctx c).strand.held ++ [{ n := s.nextId, after := (s.ctx c).strand.mustWait w a, addr := a, what := w }] := by
  have waits : ((s.ctx c).strand.mustWait w a).isEmpty = false := List.isEmpty_eq_false_iff.mpr h
  cases w with
  | load size acq chip =>
    unfold State.access
    simp only [waits, State.takeId, Bool.false_eq_true, if_false, ctx_mod]
    exact ⟨rfl, rfl⟩
  | amo op size v cmp ar chip =>
    unfold State.access
    simp only [waits, State.takeId, Bool.false_eq_true, if_false, ctx_mod]
    exact ⟨rfl, rfl⟩
  | store d rel chip =>
    unfold State.access
    simp only [waits, State.addCompletion, State.takeId, Bool.false_eq_true, if_false, ctx_mod]
    exact ⟨rfl, rfl⟩

/-- Settles O17: an access by whether it must wait, sent whole or in two lines, and the data that returns. -/
theorem strandMemory : Obligations.StrandMemory := by
  refine ⟨?_, ?_, fun d => ⟨?_, extend_sign (by decide) (by decide) d, extend_zero 1 d⟩⟩
  · intro s c f t m
    refine ⟨fun h hd ha hm => ?_, fun h ha hb hm hx => ?_, fun h hd ha hb hm hs hz => ?_, ?_, ?_, fun a rd sx w hw => access_held hw rd sx⟩
    · refine congrArg Host.Outcome.next ?_
      have legal : decide (f.minor.toNat < 32) = true := decide_eq_true hm
      simp only [doLd, hd, ha, legal, Bool.and_self, strandIssue_ok h, getReg_mod]
      rw [modStrand1]
      rfl
    · refine congrArg Host.Outcome.next ?_
      have legal : decide (f.minor.toNat < 32) = true := decide_eq_true hm
      have plain : f.minor.getLsbD 2 = false := hx
      simp only [doSt, ha, hb, legal, plain, Bool.not_false, Bool.and_self, strandIssue_ok h, getReg_mod]
      rw [modStrand1]
      rfl
    · refine congrArg Host.Outcome.next ?_
      have legal : (isX f.d && isX f.a && isX f.b && decide (f.minor.toNat % 16 ≤ 9) && decide (2 ≤ f.minor.toNat / 16 % 4) &&
          (s.getReg c f.a).toNat % 2 ^ (f.minor.toNat / 16 % 4) == 0) = true := by
        rw [hd, ha, hb, decide_eq_true hm, decide_eq_true hs]
        exact beq_iff_eq.mpr hz
      simp only [doAmo, legal, strandIssue_ok h, getReg_mod]
      rw [modStrand1]
      rfl
    · intro a rd size sx acq chip hw k u
      exact (access_load hw rd sx).trans (sendAccess_load _ _ _ _ _ _ _ _)
    · intro a bs rel chip hw k put
      rw [access_store hw, sendAccess_store]
      dsimp only
      rw [apply_ite State.out, storeTo_out, storeTo_out, storeTo_out, storeTo_fabricPort, storeTo_asid, storeOpened_out, storeOpened_asid,
        storeOpened_fabricPort, storeOpened_fabricPort]
  · intro s c n data x t hx hh
    refine congrArg Host.Outcome.next ?_
    have hx' : (s.ctx c).strand.loads.find? (fun y => y.n == n) = some x := hx
    have hh' : (s.ctx c).strand.held.any (fun h => h.n == n) = false := hh
    simp only [doLoadDataReturn, hx', hh', Bool.false_eq_true, if_false]
    rw [modStrand1]
  · rw [extend_zero]
    simp

/-! ### The stream instructions -/

/-- The streams are as they were. -/
@[simp] theorem strandOn_stream (s : State) (c k : Nat) : (s.strandOn c).stream k = s.stream k := rfl

/-- Who owns a stream. -/
@[simp] theorem strandOn_ownsStream (s : State) (c k : Nat) : (s.strandOn c).ownsStream c k = s.ownsStream c k := by
  simp only [State.ownsStream, strandOn_desc]

/-- A counter and a register of a strand are changed in either order. -/
theorem setReg_countC (s : State) (c k n : Nat) (d : BitVec 6) (v : DWord) : (s.countC c k n).setReg c d v = (s.setReg c d v).countC c k n :=
  (countC_modStrand s c k n _).symm

section
variable {s : State} {c : CtxNo} {f : Fields} (h : s.strandMay c [f.a.toNat, f.d.toNat] false) (hd : isX f.d = true) (ha : isX f.a = true)
include h hd ha

/-- A legal instruction on the stream that ra names answers 3 for the stream of another context (R299). -/
theorem streamIssue_on {minor : Nat} (hm : f.minor.toNat = minor) (eff : State → Nat → State) : s.streamIssue c f minor eff =
    let k := ((s.ctx c).strand.reg f.a.toNat).toNat
    if s.ownsStream c k then eff (s.strandOn c) k else s.strandPut c f.d.toNat 2 3 := by
  simp only [State.streamIssue, hd, ha, minorIs, hm, Bool.and_self, beq_self_eq_true, strandIssue_on h, strandOn_getReg, strandOn_setReg,
    strandOn_ownsStream]

section
variable {minor : Nat} (hm : f.minor.toNat = minor) (eff : State → Nat → State)
include hm

/-- On the stream of another context. -/
theorem streamIssue_other (ho : s.ownsStream c ((s.ctx c).strand.reg f.a.toNat).toNat = false) :
    s.streamIssue c f minor eff = s.strandPut c f.d.toNat 2 3 :=
  (streamIssue_on h hd ha hm eff).trans (if_neg (Bool.eq_false_iff.mp ho))

/-- On one of its own. -/
theorem streamIssue_own (ho : s.ownsStream c ((s.ctx c).strand.reg f.a.toNat).toNat = true) :
    s.streamIssue c f minor eff = eff (s.strandOn c) ((s.ctx c).strand.reg f.a.toNat).toNat :=
  (streamIssue_on h hd ha hm eff).trans (if_pos ho)

end
end

/-- The state of a stream as STAT gives it. -/
def Stream.code (x : Stream) : Nat := match x.state with | .idle => 0 | .armed => 1 | .running => 2 | .stopped => 3

/-- It takes two bits. -/
theorem Stream.code_lt (x : Stream) : x.code < 4 := by
  unfold Stream.code
  split <;> decide

/-- The transfers of this arming that have not retired. -/
def Stream.unretired (x : Stream) : Nat := (x.inflight.filter (fun j => decide (x.tileBase ≤ j))).length

/-- The STAT word holds its three fields apart (R299). -/
theorem stat_toNat {x : Stream} (h : x.inflight.length < 4294967296) :
    x.stat.toNat = x.code + (if x.pend.isSome then 4 else 0) + 2 ^ 32 * x.unretired := by
  have few : x.unretired < 4294967296 := Nat.lt_of_le_of_lt (List.length_filter_le _ _) h
  have code := x.code_lt
  refine (BitVec.toNat_ofNat _ _).trans (Nat.mod_eq_of_lt ?_)
  change x.code + (if x.pend.isSome then 4 else 0) + 2 ^ 32 * x.unretired < 2 ^ 64
  split <;> omega

/-- The fields of the STAT word (R299). -/
theorem stat_fields {x : Stream} (h : x.inflight.length < 4294967296) :
    x.stat.toNat % 4 = x.code ∧ x.stat.getLsbD 2 = x.pend.isSome ∧ x.stat.toNat / 4294967296 = x.unretired := by
  have code := x.code_lt
  have word := stat_toNat h
  refine ⟨?_, ?_, ?_⟩
  · rw [word]
    split <;> omega
  · rw [BitVec.getLsbD, word, Nat.testBit_eq_decide_div_mod_eq]
    cases x.pend.isSome <;> simp <;> omega
  · rw [word]
    split <;> omega

/-- What a strand that has issued an instruction leaves in a register, when it changes a stream. -/
@[simp] theorem strandOn_setReg_modStream (s : State) (c k : Nat) (g : Stream → Stream) (d : BitVec 6) (v : DWord) :
    ((s.strandOn c).modStream k g).setReg c d v = (s.strandPut c d.toNat 2 v).modStream k g := by
  rw [setReg_modStream, strandOn_setReg]

/-- A wait that ends when a stream has been changed. -/
theorem wake_modStream (s : State) (c k rd : Nat) (g : Stream → Stream) (v : DWord) :
    (s.modStream k g).wake c rd v = (s.strandWoken c rd v).modStream k g := by
  rw [← wake_eq]
  rfl

section
variable {s : State} {c : CtxNo} {f : Fields} (h : s.strandMay c [f.a.toNat, f.b.toNat, f.d.toNat] false) (hd : isX f.d = true)
  (ha : isX f.a = true) (hb : isX f.b = true) (hq : (s.ctx c).strand.quiet = true)
include h hd ha hb hq

/-- A legal ARM of a strand with no accesses under way: the image is read for an IDLE stream of the context (R299, R370). -/
theorem strmArm_on (hm : f.minor.toNat = 0) : doStrmArm c f s =
    let k := ((s.ctx c).strand.reg f.a.toNat).toNat
    let b := (s.ctx c).strand.reg f.b.toNat
    if !s.ownsStream c k then s.strandPut c f.d.toNat 2 3
    else if (s.stream k).state != .idle then s.strandPut c f.d.toNat 2 4
    else (s.strandWaits c (.armImage f.d.toNat k b)).readFor c b (.streamImage c) := by
  simp only [doStrmArm, hd, ha, hb, minorIs, hm, Bool.and_self, beq_self_eq_true, readIssue_on h hq, strandOn_getReg, strandOn_setReg,
    strandOn_waitOn, strandOn_ownsStream, strandOn_stream]

/-- A legal REARM: at once where nothing of the arming is left, else pending (R300). -/
theorem strmRearm_on (hm : f.minor.toNat = 1) : doStrmRearm c f s =
    let k := ((s.ctx c).strand.reg f.a.toNat).toNat
    let b := (s.ctx c).strand.reg f.b.toNat
    let x := s.stream k
    if !s.ownsStream c k then s.strandPut c f.d.toNat 2 3
    else if x.state == .idle then s.strandPut c f.d.toNat 2 6
    else if x.issuedAll && x.again.isEmpty && x.inflight.isEmpty then
      (s.strandPut c f.d.toNat 2 0).modStream k (fun y => y.rearm b)
    else if x.pend.isSome then ((s.strandPut c f.d.toNat 2 2).modStream k (fun y => { y with pend := some b })).countC c 0xB 1
    else (s.strandPut c f.d.toNat 2 1).modStream k (fun y => { y with pend := some b }) := by
  simp only [doStrmRearm, hd, ha, hb, minorIs, hm, Bool.and_self, beq_self_eq_true, readIssue_on h hq, strandOn_getReg, strandOn_setReg,
    strandOn_setReg_modStream, setReg_countC, strandOn_ownsStream, strandOn_stream]

end

section
variable {s : State} {c rd k : Nat} {b : DWord} {m : Line} (hw : (s.ctx c).strand.state = .waiting (.armImage rd k b))
include hw

/-- An image that R310 refuses, for itself or as a STAGE image, leaves 5 in rd. -/
theorem streamImageRead_refused
    (h : imageBad m = true ∨ imageBad m = false ∧ smKind m = 1 ∧ s.sceneUnread c (smScene m) = false ∧ s.stageBad c m = true) :
    doStreamImageRead c m s = s.strandWoken c rd 5 := by
  rcases h with hi | ⟨hi, hk, hr, hs⟩
  · simp only [doStreamImageRead, hw, hi, if_true, wake_eq]
  · simp only [doStreamImageRead, hw, hi, hk, hr, hs, beq_self_eq_true, Bool.and_false, Bool.and_self, Bool.false_eq_true, if_false,
      if_true, wake_eq]

/-- An accepted one makes the stream ARMED with it. -/
theorem streamImageRead_accepted (hi : imageBad m = false)
    (h : smKind m ≠ 1 ∨ s.sceneUnread c (smScene m) = false ∧ s.stageBad c m = false) :
    doStreamImageRead c m s = (s.strandWoken c rd 0).modStream k (fun _ => Stream.armed c m) := by
  have read : (smKind m == 1 && s.sceneUnread c (smScene m)) = false := by
    rcases h with hk | ⟨hr, -⟩
    · simp [hk]
    · simp [hr]
  have fits : (smKind m == 1 && s.stageBad c m) = false := by
    rcases h with hk | ⟨-, hs⟩
    · simp [hk]
    · simp [hs]
  simp only [doStreamImageRead, hw, hi, read, fits, Bool.false_eq_true, if_false, wake_modStream]

end

/-- Settles O20: START, STOP, CANCEL and STAT by the owner and the state of the stream (`streamIssue_other`, `streamIssue_own`), ARM and
REARM by `strmArm_on` and `strmRearm_on`, and the image by the checks of R310. -/
theorem streamCommands : Obligations.StreamCommands := by
  refine ⟨?_, fun s c f => ⟨?_, ?_⟩⟩
  · intro s c f h hd ha
    dsimp only
    have other : ∀ {m : Nat} (hm : f.minor.toNat = m) (eff : State → Nat → State)
        (ho : s.ownsStream c ((s.ctx c).strand.reg f.a.toNat).toNat = false),
        (Host.Outcome.next (s.streamIssue c f m eff) : Host.Outcome State Fault Refusal) = .next (s.strandPut c f.d.toNat 2 3) :=
      fun hm eff ho => congrArg Host.Outcome.next (streamIssue_other h hd ha hm eff ho)
    have own : ∀ {m : Nat} (hm : f.minor.toNat = m) (eff : State → Nat → State)
        (ho : s.ownsStream c ((s.ctx c).strand.reg f.a.toNat).toNat = true) {u : State},
        eff (s.strandOn c) ((s.ctx c).strand.reg f.a.toNat).toNat = u →
        (Host.Outcome.next (s.streamIssue c f m eff) : Host.Outcome State Fault Refusal) = .next u :=
      fun hm eff ho _ hu => congrArg Host.Outcome.next ((streamIssue_own h hd ha hm eff ho).trans hu)
    refine ⟨fun hm => ⟨other hm _, fun ho => ⟨fun hs => own hm _ ho ?_, fun hs => own hm _ ho ?_, fun hs => own hm _ ho ?_,
        fun hs hk => own hm _ ho ?_, fun hs hk => ⟨fun a t hf => own hm _ ho ?_, fun hf h2 => own hm _ ho ?_, fun hf h2 => own hm _ ho ?_⟩⟩⟩,
      fun hm => ⟨other hm _, fun ho => ⟨fun hs => own hm _ ho ?_, fun hs => own hm _ ho ?_, fun hs => own hm _ ho ?_⟩⟩,
      fun hm => ⟨other hm _, fun ho => ⟨fun hs => own hm _ ho ?_, fun hs => own hm _ ho ?_⟩⟩,
      fun hm => ⟨other hm _, fun ho => own hm _ ho (strandOn_setReg _ _ _ _)⟩, stat_fields⟩
    · simp only [strandOn_stream, hs, strandOn_setReg]
    · simp only [strandOn_stream, hs, strandOn_setReg_modStream]
    · simp only [strandOn_stream, hs]
      rfl
    · simp only [strandOn_stream, hs, hk, if_false, strandOn_setReg]
    · simp only [strandOn_stream, hs, hk, if_true, State.releaseStart, hf]
      rfl
    · simp only [strandOn_stream, hs, hk, if_true, State.releaseStart, hf, h2, strandOn_setReg_modStream]
    · simp only [strandOn_stream, hs, hk, if_true, State.releaseStart, hf, Nat.not_lt.mpr h2, if_false]
      rfl
    · simp only [strandOn_stream, hs, strandOn_setReg]
    · simp only [strandOn_stream, hs, strandOn_setReg_modStream]
    · rcases hs with hs | hs <;> simp only [strandOn_stream, hs, strandOn_setReg]
    · exact (if_pos (beq_iff_eq.mpr hs)).trans (strandOn_setReg _ _ _ _)
    · refine (if_neg (mt beq_iff_eq.mp hs)).trans ?_
      rw [strandOn_waitOn]
  · intro h hd ha hb hq
    dsimp only
    refine ⟨fun hm => ?_, fun hm => ?_⟩
    · have arm := congrArg (Host.Outcome.next (φ := Fault) (ρ := Refusal)) (strmArm_on h hd ha hb hq hm)
      refine ⟨fun ho => ?_, fun ho => ⟨fun hs => ?_, fun hs => ?_⟩⟩
      all_goals refine arm.trans (congrArg Host.Outcome.next ?_)
      · simp only [ho, Bool.not_false, if_true]
      · simp only [ho, bne_iff_ne.mpr hs, Bool.not_true, Bool.false_eq_true, if_false, if_true]
      · simp only [ho, hs, bne_self_eq_false, Bool.not_true, Bool.false_eq_true, if_false]
    · have rearm := congrArg (Host.Outcome.next (φ := Fault) (ρ := Refusal)) (strmRearm_on h hd ha hb hq hm)
      refine ⟨fun ho => ?_, fun ho => ⟨fun hs => ?_, fun hs hr => ?_, fun hs hr hp => ?_, fun hs hr hp => ?_⟩⟩
      all_goals refine rearm.trans (congrArg Host.Outcome.next ?_)
      · simp only [ho, Bool.not_false, if_true]
      · simp only [ho, hs, beq_self_eq_true, Bool.not_true, Bool.false_eq_true, if_false, if_true]
      · simp only [ho, beq_eq_false_iff_ne.mpr hs, hr, Bool.not_true, Bool.false_eq_true, if_false, if_true]
        rfl
      · simp only [ho, beq_eq_false_iff_ne.mpr hs, hr, hp, Option.isSome_none, Bool.not_true, Bool.false_eq_true, if_false]
      · simp only [ho, beq_eq_false_iff_ne.mpr hs, hr, some_of hp, Bool.not_true, Bool.false_eq_true, if_false, if_true]
  · intro m rd k b u hw
    refine ⟨fun hi => ?_, fun hi hk => ?_, fun hi hk hr hs => ?_, fun hi hk hr hs => ?_⟩
    · exact congrArg Host.Outcome.next (streamImageRead_refused hw (.inl hi))
    · exact congrArg Host.Outcome.next (streamImageRead_accepted hw hi (.inl hk))
    · exact congrArg Host.Outcome.next (streamImageRead_refused hw (.inr ⟨hi, hk, hr, hs⟩))
    · exact congrArg Host.Outcome.next (streamImageRead_accepted hw hi (.inr ⟨hr, hs⟩))


/-! ### The scan instructions -/

/-- The scan channels are as they were. -/
@[simp] theorem strandOn_scan (s : State) (c ch : Nat) : (s.strandOn c).scan ch = s.scan ch := rfl
/-- Whether the context holds a channel. -/
@[simp] theorem strandOn_holdsScan (s : State) (c ch : Nat) : (s.strandOn c).holdsScan c ch = s.holdsScan c ch := rfl

section
variable {s : State} {c : CtxNo} {f : Fields} (h : s.strandMay c [f.a.toNat, f.d.toNat] false) (hd : isX f.d = true) (ha : isX f.a = true)
include h hd ha

/-- A legal instruction on the channel that ra names answers 2 for one that the context does not hold (R301). -/
theorem scanIssue_on {minor : Nat} (hm : f.minor.toNat = minor) (eff : State → Nat → State) : s.scanIssue c f minor eff =
    let ch := ((s.ctx c).strand.reg f.a.toNat).toNat
    if s.holdsScan c ch then eff (s.strandOn c) ch else s.strandPut c f.d.toNat 2 2 := by
  simp only [State.scanIssue, hd, ha, minorIs, hm, Bool.and_self, beq_self_eq_true, strandIssue_on h, strandOn_getReg, strandOn_setReg,
    strandOn_holdsScan]

section
variable {minor : Nat} (hm : f.minor.toNat = minor) (eff : State → Nat → State)
include hm

/-- On a channel that the context does not hold. -/
theorem scanIssue_other (ho : s.holdsScan c ((s.ctx c).strand.reg f.a.toNat).toNat = false) :
    s.scanIssue c f minor eff = s.strandPut c f.d.toNat 2 2 :=
  (scanIssue_on h hd ha hm eff).trans (if_neg (Bool.eq_false_iff.mp ho))

/-- On one that it holds. -/
theorem scanIssue_own (ho : s.holdsScan c ((s.ctx c).strand.reg f.a.toNat).toNat = true) :
    s.scanIssue c f minor eff = eff (s.strandOn c) ((s.ctx c).strand.reg f.a.toNat).toNat :=
  (scanIssue_on h hd ha hm eff).trans (if_pos ho)

end
end

/-- Two writes under one completion go out in order. -/
theorem writeTracked_two_out (s : State) (c : Nat) (a b : DWord) (p q : List Byte) :
    (s.writeTracked c [(a, p), (b, q)]).out = .store (s.fabricPort b) (s.asid c) b q s.nextId false false ::
      .store (s.fabricPort a) (s.asid c) a p s.nextId false false :: s.out := by
  have sent : s.writeTracked c [(a, p), (b, q)] =
      ((s.addCompletion c 0 2 .nothing).2.storeTo c s.nextId false false a p).storeTo c s.nextId false false b q := rfl
  rw [sent, storeTo_out, storeTo_out, storeTo_fabricPort, storeTo_asid]
  rfl

/-- The running register after two runs of bytes, one after the other (R413). -/
theorem scanFold_append (poly : Bool) (r : DWord) (a b : List Byte) : scanFold poly r (a ++ b) = scanFold poly (scanFold poly r a) b := by
  cases poly with
  | true => exact List.foldl_append
  | false => simp [scanFold, crcRun_append32]

section
variable {s : State} {c rd : Nat} {a : DWord} {b : Rec64} (hw : (s.ctx c).strand.state = .waiting (.scanBlk rd a))
include hw

/-- A block that R415 refuses leaves 257 in rd. -/
theorem scanBlockRead_refused (hb : blockBad b = true) : doScanBlockRead c b s = s.strandWoken c rd 257 := by
  simp only [doScanBlockRead, hw, hb, if_true, wake_eq]

/-- Without a channel left it leaves 256. -/
theorem scanBlockRead_full (hb : blockBad b = false) (hc : s.freeScan c = none) : doScanBlockRead c b s = s.strandWoken c rd 256 := by
  simp only [doScanBlockRead, hw, hb, hc, Bool.false_eq_true, if_false, wake_eq]

/-- Else a scan starts on the channel. -/
theorem scanBlockRead_starts {ch : Nat} (hb : blockBad b = false) (hc : s.freeScan c = some ch) : doScanBlockRead c b s =
    let t := ((s.modScan ch (fun y =>
      { held := true, ctx := c, block := a, next := pbNext b, remain := pbRemain b, running := pbRunning b,
        poly := fld b 1 8 == 1, cmp := fbit b 16 1 == 1, notify := fbit b 17 1 == 1, expect := pbExpect b, result := 0,
        finished := false, mismatch := y.mismatch, failed := false })).writeTracked c [(addr64 a 3, [0])]).strandWoken c rd
          (BitVec.ofNat 64 ch)
    if pbRemain b = 0 then t.finishScan ch else t.request (.scan ch) c 3 := by
  simp only [doScanBlockRead, hw, hb, hc, Bool.false_eq_true, if_false, wake_eq]
  rfl

end

/-- A chunk of a scan under way is folded, and the scan goes on while bytes remain (R416). -/
theorem scanChunkArrive_folds {s : State} {ch : Nat} (hh : (s.scan ch).held = true) (hf : (s.scan ch).finished = false)
    (hs : s.hasSlot (.scan ch) = true) (data : List Byte) : doScanChunkArrive ch data s =
      let x := s.scan ch
      let bs := data.take (min 4096 x.remain)
      let t := (((s.linesBack (.scan ch)).modScan ch (fun y => { y with
        running := scanFold y.poly y.running bs, next := addr64 y.next bs.length, remain := y.remain - bs.length })).countC
          x.ctx 0x29 bs.length).finishXfer (.scan ch)
      if x.remain = bs.length then t.finishScan ch else t.request (.scan ch) x.ctx 3 := by
  have works : (!(s.scan ch).held || (s.scan ch).finished || !s.hasSlot (.scan ch)) = false := by simp [hh, hf, hs]
  simp only [doScanChunkArrive, works, Bool.false_eq_true, if_false]

/-! ### The end of a scan -/

/-- A scan that the fabric did not fail is a mismatch as it ends (R417). -/
def Scan.differs (x : Scan) : Bool := x.cmp && scanResult x.poly x.running != x.expect

/-- The channel as its scan ends. -/
def Scan.ended (x : Scan) : Scan :=
  { x with finished := true, mismatch := x.differs, result := scanResult x.poly x.running }

/-- STATUS of a scan that ends. -/
def Scan.status (x : Scan) : Byte := if x.cmp then (if x.differs then 2 else 1) else 3

/-- STATUS as the model computes it. -/
theorem Scan.status_eq (x : Scan) :
    BitVec.ofNat 8 (if !x.cmp then 3 else if x.cmp && scanResult x.poly x.running != x.expect then 2 else 1) = x.status := by
  rw [Scan.status, Scan.differs]
  cases x.cmp
  · rfl
  · cases scanResult x.poly x.running != x.expect <;> rfl

/-- A channel has finished, and its block is being written: progress, RESULT and last STATUS (R416, R417). -/
def State.scanEnded (s : State) (ch : Nat) : State :=
  let x := s.scan ch
  ((((s.modScan ch (fun _ => x.ended)).addCompletion x.ctx 3 3 (.blockWrite ch)).2.storeTo x.ctx s.nextId false false
    (addr64 x.block 8) (scanProgress x)).storeTo x.ctx s.nextId false false (addr64 x.block 40) (bytesOf (scanResult x.poly x.running) 8)).storeTo
    x.ctx s.nextId false false (addr64 x.block 3) [x.status]

/-- The end of a scan; a mismatch is counted and logged besides (R417). -/
theorem finishScan_eq {s : State} {ch : Nat} (h : (s.scan ch).failed = false) : s.finishScan ch =
    let x := s.scan ch
    if x.differs then
      let t := ((s.scanEnded ch).countC x.ctx 0x2A 1).log 0x20 3 x.ctx ch noUnit x.block.toNat
      if x.notify then t.interrupt 3 else t
    else s.scanEnded ch := by
  unfold State.finishScan
  simp only [h, Bool.or_false, Bool.false_or, Scan.status_eq]
  rfl

section
variable (s : State) (ch : Nat)

/-- The channel has finished. -/
theorem scanEnded_scan : (s.scanEnded ch).scan ch = (s.scan ch).ended := by
  have scans : (s.scanEnded ch).scans = (s.modScan ch (fun _ => (s.scan ch).ended)).scans := by
    simp [State.scanEnded, State.storeTo, State.addCompletion, State.takeId]
  rw [State.scan, scans]
  exact mgetD_mset_self ..

/-- No context changes. -/
theorem scanEnded_ctxs : (s.scanEnded ch).ctxs = s.ctxs := by
  simp [State.scanEnded, State.storeTo, State.addCompletion, State.takeId]

/-- Nothing is logged. -/
theorem scanEnded_integ : (s.scanEnded ch).integ = s.integ := by
  simp [State.scanEnded, State.storeTo, State.addCompletion, State.takeId]

/-- The three writes of its block, the last one first. -/
theorem scanEnded_out : (s.scanEnded ch).out =
    let x := s.scan ch
    let put (off : Nat) (d : List Byte) : Output :=
      .store (s.fabricPort (addr64 x.block off)) (s.asid x.ctx) (addr64 x.block off) d s.nextId false false
    put 3 [x.status] :: put 40 (bytesOf (scanResult x.poly x.running) 8) :: put 8 (scanProgress x) :: s.out := by
  simp only [State.scanEnded, storeTo_out, storeTo_fabricPort, storeTo_asid]
  rfl

end

section
variable {s : State} {ch : Nat} (h : (s.scan ch).failed = false)
include h

/-- Reporting a mismatch leaves the channel as it ended. -/
theorem finishScan_scan : (s.finishScan ch).scan ch = (s.scan ch).ended := by
  have scans : (s.finishScan ch).scans = (s.scanEnded ch).scans := by
    rw [finishScan_eq h]
    dsimp only
    split
    · split <;> simp [interrupt_scans]
    · rfl
  rw [State.scan, scans]
  exact scanEnded_scan s ch

/-- Without NOTIFY nothing goes out but the block. -/
theorem finishScan_out (hn : (s.scan ch).notify = false) : (s.finishScan ch).out = (s.scanEnded ch).out := by
  simp only [finishScan_eq h, hn, Bool.false_eq_true, if_false]
  split <;> simp

/-- A scan that is no mismatch is not reported. -/
theorem finishScan_agrees (hd : (s.scan ch).differs = false) : s.finishScan ch = s.scanEnded ch := by
  simp only [finishScan_eq h, hd, Bool.false_eq_true, if_false]

/-- A mismatch is counted for the context of the scan. -/
theorem finishScan_counts (hd : (s.scan ch).differs = true) :
    ((s.finishScan ch).ctx (s.scan ch).ctx).cnt = ((s.scanEnded ch).countC (s.scan ch).ctx 0x2A 1 |>.ctx (s.scan ch).ctx).cnt := by
  have ctxs : (s.finishScan ch).ctxs = ((s.scanEnded ch).countC (s.scan ch).ctx 0x2A 1).ctxs := by
    simp only [finishScan_eq h, hd, if_true]
    split <;> simp [interrupt_ctxs]
  rw [State.ctx, ctxs]
  rfl

end

/-! ### O23 -/

/-- The result of SCAN WAIT, whether the channel or the register is written first. -/
theorem strandOn_setReg_modScan (s : State) (c ch : Nat) (d : BitVec 6) (v : DWord) (g : Scan → Scan) :
    ((s.strandOn c).modScan ch g).setReg c d v = (s.strandPut c d.toNat 2 v).modScan ch g := by
  rw [← strandOn_setReg]
  rfl

/-- The block of a channel is written when no completion stands for it. -/
theorem strandOn_written (s : State) (c ch : Nat) : (!(s.strandOn c).completions.any (fun y => y.fin == .blockWrite ch)) =
    s.completions.all (fun y => y.fin != .blockWrite ch) :=
  List.not_any_eq_all_not

/-- What STAT tells of a channel (R301). -/
theorem Scan.code_eq (x : Scan) : code64 ((if x.finished then 0 else 1) + (if x.finished && x.mismatch then 2 else 0)) =
    if x.finished then (if x.mismatch then 2 else 0) else 1 := by
  cases x.finished
  · rfl
  · cases x.mismatch <;> rfl

/-- Settles O23: each instruction by the holder of the channel (`scanIssue_other`, `scanIssue_own`), the block and the chunks by
`scanBlockRead_starts` and `scanChunkArrive_folds`, the end of a scan by `finishScan_eq`. -/
theorem scans : Obligations.Scans := by
  refine ⟨?_, ⟨?_, ?_, scanFold_append⟩, ?_⟩
  · intro s c f h hd ha
    dsimp only
    have other : ∀ {m : Nat} (hm : f.minor.toNat = m) (eff : State → Nat → State)
        (ho : s.holdsScan c ((s.ctx c).strand.reg f.a.toNat).toNat = false),
        (Host.Outcome.next (s.scanIssue c f m eff) : Host.Outcome State Fault Refusal) = .next (s.strandPut c f.d.toNat 2 2) :=
      fun hm eff ho => congrArg Host.Outcome.next (scanIssue_other h hd ha hm eff ho)
    have own : ∀ {m : Nat} (hm : f.minor.toNat = m) (eff : State → Nat → State)
        (ho : s.holdsScan c ((s.ctx c).strand.reg f.a.toNat).toNat = true) {u : State},
        eff (s.strandOn c) ((s.ctx c).strand.reg f.a.toNat).toNat = u →
        (Host.Outcome.next (s.scanIssue c f m eff) : Host.Outcome State Fault Refusal) = .next u :=
      fun hm eff ho _ hu => congrArg Host.Outcome.next ((scanIssue_own h hd ha hm eff ho).trans hu)
    refine ⟨fun hm hq => congrArg Host.Outcome.next ?_, fun hm hq => congrArg Host.Outcome.next ?_,
      fun hm => ⟨other hm _, fun ho hf hw => own hm _ ho ?_, fun ho hn => own hm _ ho ?_⟩,
      fun hm => ⟨other hm _, fun ho => own hm _ ho rfl⟩, fun u => writeTracked_two_out u c,
      fun hm => ⟨other hm _, fun ho => own hm _ ho ?_⟩⟩
    · simp only [doCrcscan, hd, ha, minorIs, hm, Bool.and_self, beq_self_eq_true, readIssue_on h hq, strandOn_getReg, strandOn_waitOn]
    · simp only [doCrcscan, hd, ha, minorIs, hm, Bool.and_self, beq_self_eq_true, readIssue_passed hq]
    · simp only [strandOn_scan, strandOn_written, hf, hw, Bool.and_self, if_true]
      exact strandOn_setReg_modScan ..
    · have waits : ((s.scan ((s.ctx c).strand.reg f.a.toNat).toNat).finished &&
          s.completions.all (fun y => y.fin != .blockWrite ((s.ctx c).strand.reg f.a.toNat).toNat)) = false := by
        rcases hn with hf | hw
        · rw [hf, Bool.false_and]
        · rw [hw, Bool.and_false]
      simp only [strandOn_scan, strandOn_written, waits, Bool.false_eq_true, if_false, strandOn_waitOn]
    · exact (strandOn_setReg ..).trans (congrArg _ (Scan.code_eq _))
  · intro s c b rd a u hw
    exact ⟨fun hb => congrArg Host.Outcome.next (scanBlockRead_refused hw hb),
      fun hb hc => congrArg Host.Outcome.next (scanBlockRead_full hw hb hc),
      fun ch hb hc => congrArg Host.Outcome.next (scanBlockRead_starts hw hb hc)⟩
  · intro s ch data hh hf hs
    exact congrArg Host.Outcome.next (scanChunkArrive_folds hh hf hs data)
  · intro s ch h
    dsimp only
    refine ⟨finishScan_scan h, fun hn => ⟨s.nextId, ?_, ?_⟩, fun hb => ?_, fun hb => ?_⟩
    · rw [finishScan_out h hn, scanEnded_out]
      rfl
    · rw [finishScan_out h hn, scanEnded_out]
      rfl
    · rw [finishScan_agrees h hb]
      exact ⟨scanEnded_ctxs s ch, scanEnded_integ s ch⟩
    · rw [finishScan_counts h hb, State.countC, ctx_modCtx]
      rw [State.ctx, scanEnded_ctxs]
      exact mgetD_mset_self ..

end Sys2Proof.Machine
end

section
/-! PROOFS. The statements of 09_streams_and_handle_queues: the transfers of streams and their rates (O21), and PRELOAD entries with
the breaking of wait cycles (O22), each after the facts about the operations that it rests on. -/
namespace Sys2Proof.Machine

/-! ### The issue of tiles -/

/-- A tile that a stall break took back is issued first (R332). -/
theorem streamTileIssue_again {s : State} {k j : Nat} {t : List Nat} (hi : (s.stream k).issues = true)
    (ha : (s.stream k).again = j :: t) :
    doStreamTileIssue k s = (s.modStream k (fun y => { y with again := t })).issueTile k j := by
  simp only [doStreamTileIssue, hi, ha, if_true]

section
variable {s : State} {k : Nat} (h : (s.stream k).issues = false ∨ (s.stream k).again = [])
include h

/-- A stream that does not issue, or from which no tile was taken back, has none to issue again. -/
theorem tileIssue_none_again : (if (s.stream k).issues then (s.stream k).again else []) = [] := by
  rcases h with hi | ha
  · simp [hi]
  · simp [ha]

/-- Then the next tile is issued where the lead allows it (R313, R315, R320). -/
theorem streamTileIssue_next (hm : (s.stream k).mayIssue = true) : doStreamTileIssue k s =
    let j := (s.stream k).nextTile
    (s.modStream k (fun y => { y with nextTile := j + 1, outstanding := y.outstanding ++ [j], undone := y.undone ++ [j] })).issueTile k j := by
  simp only [doStreamTileIssue, tileIssue_none_again h, hm, Bool.not_true, Bool.false_eq_true, if_false]

/-- Else nothing happens. -/
theorem streamTileIssue_held (hm : (s.stream k).mayIssue = false) : doStreamTileIssue k s = s := by
  simp only [doStreamTileIssue, tileIssue_none_again h, hm, Bool.not_false, if_true]

end

/-! ### Staged tiles -/

section
variable {s : State} {k j : Nat} (hi : (s.stream k).state ≠ .idle) (hk : smKind (s.stream k).image = 1)
  (hs : s.hasSlot (.tile k j) = true)
include hi hk hs

/-- The lines of a tile of a STAGE stream, whose transfer is at work, are not passed over. -/
theorem stagedTile_awaited :
    ((s.stream k).state == .idle || smKind (s.stream k).image != 1 || !s.hasSlot (.tile k j)) = false := by
  simp [hi, hk, hs]

/-- The blocks of a tile of a scene that is not KEYED are handed on as they are (R316). -/
theorem stagedTileInstall_plain (ls : List Line) {d : Rec64}
    (hb : (s.linesBack (.tile k j)).bound (s.stream k).owner (smScene (s.stream k).image) = some d) (hd : sKeyed d = false) :
    doStagedTileInstall k j ls s = (s.linesBack (.tile k j)).handTile k j
      ((stagedBlocks (((s.xferOf (.tile k j)).map (·.bad)).getD []) (((s.stream k).tileAddr j 0 - sLeafBase d).toNat / 128) 0
        (smTileLines (s.stream k).image) (ls.take (smTileLines (s.stream k).image))).map (stagedBlock (s.stream k) k j)) := by
  simp only [doStagedTileInstall, stagedTile_awaited hi hk hs, hb, State.stagedUse, hd, Bool.not_false, Bool.false_eq_true, if_false,
    if_true]

/-- Where its scene is no longer bound, the transfer of a tile ends with nothing installed. -/
theorem stagedTileInstall_unbound (ls : List Line)
    (hb : (s.linesBack (.tile k j)).bound (s.stream k).owner (smScene (s.stream k).image) = none) :
    doStagedTileInstall k j ls s = (s.linesBack (.tile k j)).finishXfer (.tile k j) := by
  simp only [doStagedTileInstall, stagedTile_awaited hi hk hs, hb, Bool.false_eq_true, if_false]

end

/-! ### The ends of tiles and of transfers -/

/-- A tile that is not complete stays as it is. -/
theorem tileComplete_undone {s : State} {k j : Nat} (h : s.tileDone k j = false) : doTileComplete k j s = s := by
  simp only [doTileComplete, h, Bool.not_false, if_true]

/-- A complete tile of a PRELOAD stream is done with, and its bytes are received where CNT_EN is set (R312). -/
theorem tileComplete_preload {s : State} {k j : Nat} (h : s.tileDone k j = true) (hk : smKind (s.stream k).image = 3) :
    doTileComplete k j s =
      let x := s.stream k
      let m := x.image
      let t := s.modStream k (fun y => { y with undone := y.undone.filter (· != j), unacked := merase y.unacked j })
      (if smCntEn m then t.receive x.owner (smCounter m) (smTileBytes m) else t).settleStream k := by
  simp only [doTileComplete, h, hk, Nat.reduceEqDiff, Bool.not_true, Bool.false_eq_true, if_false]

/-- A number under which no transfer has finished retires none. -/
theorem transferRetire_none {s : State} {n : Nat} (h : s.xfers.find? (fun y => y.n == n && y.fin && !y.waiting) = none) :
    doTransferRetire n s = s := by
  simp only [doTransferRetire, h]

/-- The finished transfer of a tile gives its slot up, and its stream goes on if it was its last (R307). -/
theorem transferRetire_tile {s : State} {n k j : Nat} {x : Xfer}
    (h : s.xfers.find? (fun y => y.n == n && y.fin && !y.waiting) = some x) (hw : x.what = .tile k j)
    (hi : ((s.dropXfer n).drainStreams.stream k).state ≠ .idle) :
    doTransferRetire n s = (((s.dropXfer n).drainStreams).modStream k (fun y => { y with
      inflight := y.inflight.filter (· != j),
      outstanding := if smKind y.image = 2 then y.outstanding.filter (· != j) else y.outstanding })).settleStream k := by
  simp only [doTransferRetire, h, hw, beq_eq_false_iff_ne.mpr hi, Bool.false_eq_true, if_false]

/-! ### Rates -/

/-- The rate of every stream is a weighted mean of the old one and of its window, and the window starts again (R327). -/
theorem streamRateUpdate_rates (s : State) (k : Nat) : mget (doStreamRateUpdate s).streams k = (mget s.streams k).map (fun x =>
    { x with rate := (3 * x.rate + x.windowBytes) / 4, consumed := 0, windowLookups := 0 }) := by
  rw [doStreamRateUpdate, mget_mmap]

/-! ### O21 -/

/-- Settles O21: issue by what was taken back and what the lead allows, a staged tile by its scene, completion and retirement by the
lemmas above, and the rates by `streamRateUpdate_rates`, while nothing else of the machine changes. -/
theorem streamTransfers : Obligations.StreamTransfers := by
  refine ⟨⟨fun s k j t hi ha => congrArg Host.Outcome.next (streamTileIssue_again hi ha),
    fun s k h => ⟨fun hm => congrArg Host.Outcome.next (streamTileIssue_next h hm),
      fun hm => congrArg Host.Outcome.next (streamTileIssue_held h hm)⟩,
    fun s k j => rfl,
    fun s k j ls hi hk hs => ⟨fun d hb hd => congrArg Host.Outcome.next (stagedTileInstall_plain hi hk hs ls hb hd),
      fun hb => congrArg Host.Outcome.next (stagedTileInstall_unbound hi hk hs ls hb)⟩,
    fun s k j h hk => congrArg Host.Outcome.next (tileComplete_preload h hk),
    fun s k j h => congrArg Host.Outcome.next (tileComplete_undone h),
    fun s n x k j h hw hi => congrArg Host.Outcome.next (transferRetire_tile h hw hi),
    fun s n h => congrArg Host.Outcome.next (transferRetire_none h)⟩,
    fun s => ⟨doStreamRateUpdate s, rfl, rfl, streamRateUpdate_rates s⟩⟩

/-! ### PRELOAD entries -/

section
variable {s : State} {k : Nat} {entry : DWord} (hi : (s.stream k).state ≠ .idle) (hk : smKind (s.stream k).image = 3)
  (hc : (s.stream k).cancelling = false) (hw : (s.stream k).plWait = none)
  (ho : (s.stream k).outstanding.contains ((s.stream k).plDone / smCount (s.stream k).image 0) = true)
  (hs : s.hasSlot (.tile k ((s.stream k).plDone / smCount (s.stream k).image 0)) = true)
  (hr : s.sceneUnread (s.stream k).owner (fld entry 0 16) = false)
  (hl : ((s.stream k).plDone + 1) % smCount (s.stream k).image 0 ≠ 0)
include hi hk hc hw ho hs hr hl

/-- The next entry of a PRELOAD stream, which is not the last of its tile: by whether its bough can be preloaded here, and whether it
is there already (R324). -/
theorem preloadEntry_next : doPreloadEntry k entry s =
    if s.entryBad (s.stream k).owner (fld entry 0 16) (fld entry 4 32) then s.skipEntry k
    else
      let id := (s.preloadFill k entry).id
      if s.resident id || s.underFill id then s.modStream k Stream.entryDone
      else if s.isCrownBough id then (s.crownPark id).modStream k Stream.entryDone
      else s.modStream k (fun x => { x with plWait := some (entry, s.now) }) := by
  have taken : ((s.stream k).state == .idle || smKind (s.stream k).image != 3 || (s.stream k).cancelling || (s.stream k).plWait.isSome ||
      !(s.stream k).outstanding.contains ((s.stream k).plDone / smCount (s.stream k).image 0) ||
      !s.hasSlot (.tile k ((s.stream k).plDone / smCount (s.stream k).image 0))) = false := by
    rw [beq_eq_false_iff_ne.mpr hi, hk, hc, hw, ho, hs]
    rfl
  simp only [doPreloadEntry, taken, hr, hl, Bool.false_eq_true, if_false]

end

/-- An entry that waits too long is skipped (R325). -/
theorem preloadTimeout_skips {s : State} {k : Nat} {e : DWord × Nat} (h : (s.stream k).plWait = some e) :
    doPreloadTimeout k s = s.skipEntry k := by
  simp only [doPreloadTimeout, h, Option.isSome_some, if_true]

/-! ### Wait cycles -/

/-- Without a wait cycle nothing is broken. -/
theorem stallBreak_none {s : State} {k : Nat} (h : s.waitCycle k (s.streams.length + 1) k = none) : doStallBreak k s = s := by
  simp only [doStallBreak, h]

/-- A cycle is broken at a member whose hold can be broken, if there is one, and the break counts for that member's context
(R332). -/
theorem stallBreak_member {s : State} {k : Nat} {ms : List Nat} (h : s.waitCycle k (s.streams.length + 1) k = some ms)
    (hb : ∃ j ∈ ms, s.breakStream j ≠ none) :
    ∃ j ∈ ms, ∃ u, s.breakStream j = some u ∧ doStallBreak k s = u.countC (s.stream j).owner 0xF 1 := by
  unfold doStallBreak
  simp only [h]
  split
  next j u hj =>
    obtain ⟨i, hi, hu⟩ := List.exists_of_findSome?_eq_some hj
    obtain ⟨v, hv, heq⟩ := Option.map_eq_some_iff.mp hu
    obtain ⟨rfl, rfl⟩ := Prod.mk.inj heq
    exact ⟨i, (mem_sortBy _ i ms).mp hi, v, hv, rfl⟩
  next hn =>
    obtain ⟨j, hj, hbj⟩ := hb
    have unbroken := List.findSome?_eq_none_iff.mp hn j ((mem_sortBy _ j ms).mpr hj)
    exact absurd (Option.map_eq_none_iff.mp unbroken) hbj

/-! ### Stall-break data -/

section
variable {s : State} {k : Nat} {r : Run} {ls : List Line} (hr : s.stallRun k = some (r, ls)) (hp : (s.stream k).spilled ≠ [])
  (hb : s.blockedOn k = none)
include hr hp hb

/-- A stream that is no longer BLOCKED asks for a transfer for its data, and has them again, before those that arrived since, once that
has a slot (R306, R333). -/
theorem stallDataReadback_unblocked : doStallDataReadback k s =
    let x := s.stream k
    let w := XferWhat.run x.owner r.rseq
    let u := s.requestOnce w x.owner (smClass x.image)
    if !u.hasSlot w then u
    else (((((u.linesBack w).finishXfer w).modOvf x.owner (fun o =>
      { o with runs := o.runs.map (fun y => if y.rseq == r.rseq then { y with stall := none } else y) })).modStream k (fun y =>
      { y with spilled := [], space := (recsOfLines x.spilled.length ls).zip x.spilled ++ y.space })).streamDrain k) := by
  have unblocked : ((s.stream k).spilled.isEmpty || (s.blockedOn k).isSome) = false := by simp [hp, hb]
  simp only [doStallDataReadback, hr, unblocked, Bool.false_eq_true, if_false]

end

/-! ### O22 -/

/-- Settles O22: an entry by `preloadEntry_next`, a wait cycle by `stallBreak_member`, and the data of a break by whether their
transfer has its slot. -/
theorem preloadAndStalls : Obligations.PreloadAndStalls := by
  refine ⟨⟨fun s k entry hi hk hc hw ho hs hr hl => ?_, fun s k e h => congrArg Host.Outcome.next (preloadTimeout_skips h),
    fun x => ⟨rfl, rfl, rfl⟩⟩, fun s k ms h hb => ?_, fun s k h => congrArg Host.Outcome.next (stallBreak_none h),
    fun s k r ls hr hp hb => ?_⟩
  · have next := congrArg (Host.Outcome.next (φ := Fault) (ρ := Refusal)) (preloadEntry_next hi hk hc hw ho hs hr hl)
    refine ⟨fun bad => ?_, fun good there => ?_, fun good absent noCrown => ?_⟩
    all_goals refine next.trans (congrArg Host.Outcome.next ?_)
    · exact if_pos bad
    · simp only [good, there, Bool.false_eq_true, if_false, if_true]
    · simp only [good, absent, noCrown, Bool.false_eq_true, if_false]
  · obtain ⟨j, hj, u, hu, broken⟩ := stallBreak_member h hb
    exact ⟨j, hj, u, hu, congrArg Host.Outcome.next broken⟩
  · have readback := congrArg (Host.Outcome.next (φ := Fault) (ρ := Refusal)) (stallDataReadback_unblocked hr hp hb)
    refine ⟨fun hs => ?_, fun hs => ?_⟩
    all_goals refine readback.trans (congrArg Host.Outcome.next ?_)
    · exact if_pos (by rw [hs]; rfl)
    · exact if_neg (by rw [hs]; decide)

end Sys2Proof.Machine
end

section
/-! PROOFS. The statements of 10_result_delivery: the heads that the collector takes (O35), the exception ring, delivery entries and
the collector's timers (O36), and the acknowledgements of its writes (O37), each after the facts about the operations that it rests
on. -/
namespace Sys2Proof.Machine

/-! ### Offers in rotation -/

/-- A step that leaves a state leaves it when it is repeated. -/
theorem iter_same {f : State → State} {s : State} (h : f s = s) (n : Nat) : iter f n s = s := by
  induction n with
  | zero => rfl
  | succ n ih => rw [iter, h, ih]

/-- Offers that cannot be taken are passed over (R359). -/
theorem takeFirst_passes {s : State} {pre : List (Nat × Nat × CItem)} (h : ∀ x ∈ pre, s.accept x.2.2 = (s, false))
    (l : List (Nat × Nat × CItem)) : s.takeFirst (pre ++ l) = s.takeFirst l := by
  induction pre with
  | nil => rfl
  | cons x t ih =>
    rw [List.cons_append, State.takeFirst, h x List.mem_cons_self]
    exact ih (fun y hy => h y (List.mem_cons_of_mem _ hy))

/-- An offer that can be taken leaves its source. -/
theorem takeFirst_takes {s v : State} {i : CItem} (h : s.accept i = (v, true)) (k j : Nat) (l : List (Nat × Nat × CItem)) :
    s.takeFirst ((k, j, i) :: l) = (v.popHead k j).taken' i := by
  rw [State.takeFirst, h]

/-- Without an offer nothing is read and nothing taken. -/
theorem collectorTakeHead_none {s : State} (h : s.allHeads = []) (err : Option EccError) : doCollectorTakeHead err s = s := by
  have unread : s.collRead err (s.allHeads.head?.map (fun x => .item x.1 x.2.1)) = s := by rw [h]; rfl
  rw [doCollectorTakeHead, unread, h, State.takeFirst]

/-! ### The acceptance of an item -/

section
variable {s : State} {i : CItem} {x : Deliv} {d : Rec64} (hx : mget (s.ctx i.ctx).delivs i.entry = some x) (hd : x.raw = some d)
include hx hd

/-- A chain waits while emissions of its query wait (R341). -/
theorem accept_held (h : s.heldBack i = true) : s.accept i = (s, false) := by
  simp only [State.accept, hx, hd, h, if_true]

/-- An item of an entry that R337 refuses is dropped. -/
theorem accept_invalid (h : s.heldBack i = false) (hv : x.valid = false) : s.accept i = (s.dropItem i, true) := by
  simp only [State.accept, hx, hd, h, hv, Bool.not_false, Bool.false_eq_true, if_false, if_true]

/-- One that goes to no stream is taken once the BIN share (R358) and the delivery ports (R359) have room. -/
theorem accept_room {room : Bool} (h : s.heldBack i = false) (hv : x.valid = true) (hb : s.binTakes d i = (s, room))
    (ht : deTarget d ≠ 1) : s.accept i =
      if room && s.portsRoom i.cls (s.itemPorts d (s.deliv i.ctx i.entry) i) then ((s.take d i).writeSpine collLine, true)
      else (s, false) := by
  simp only [State.accept, hx, hd, h, hv, hb, ht, decide_false, Bool.and_false, Bool.false_and, Bool.not_true, Bool.false_eq_true, if_false]
  cases room with
  | false => rfl
  | true =>
    dsimp only
    cases s.portsRoom i.cls (s.itemPorts d (s.deliv i.ctx i.entry) i) <;> rfl

end

/-- An item that joins no key opens no tile. -/
theorem tilesOpened_keyless {d : Rec64} {i : CItem} (h : itemKeys d i = []) (x : Deliv) : tilesOpened d x i = 0 := by
  simp only [tilesOpened, h]
  rfl

/-- For such an item no tile is flushed early: it fits, or it brings no records in transit, or it waits. -/
theorem binTakes_keyless {d : Rec64} {i : CItem} (h : itemKeys d i = []) (s : State) : s.binTakes d i =
    (s, decide (s.binUsed + transitBytes d i ≤ 65536 * s.shareBin) || transitBytes d i == 0) := by
  simp only [State.binTakes, tilesOpened_keyless h, Nat.mul_zero, Nat.add_zero, beq_self_eq_true, Bool.and_true]
  rw [iter_same (by simp)]

/-! ### RECORD chains for slots -/

section
variable {d : Rec64} {c e cls status : Nat} {slot : Option Nat} {recs : List Rec32} {known late ints : Bool} {tag user0 user1 : Word}
  (hm : deMode d = 1)
include hm

/-- What names a RECORD entry joins no key. -/
theorem itemKeys_record (i : CItem) : itemKeys d i = [] := if_pos (by rw [hm]; decide)

variable (ht : deTarget d = 0)
include ht

/-- The records of a chain for a slot are in transit, as many as the slot holds. -/
theorem transitBytes_slot : transitBytes d (.chain c e slot cls status recs false known tag user0 user1 late ints) =
    32 * min recs.length (2 ^ deSlotLog d) := by
  simp only [transitBytes, ite_excRoute d status hm, hm, ht, and_self, Bool.false_eq_true, if_false, if_true]

/-- Its lines go to the delivery ports, but for those that get more writes (R381). -/
theorem itemPorts_slot (s : State) (x : Deliv) : s.itemPorts d x (.chain c e slot cls status recs false known tag user0 user1 late ints) =
    portLines (decide (deSlotLog d < 2)) (pieces 128 (addr64 (deDest d) (32 * 2 ^ deSlotLog d * ((tag >>> deShift d).toNat % deLimit d)))
      (recBytes (recs.take (2 ^ deSlotLog d)))) := by
  simp only [State.itemPorts, hm, ht, ite_excRoute d status hm, bne_self_eq_false, Bool.or_self, Bool.false_eq_true, if_false]

/-- When it is taken it is written to its slot, counts for the frame and frees its pool slot (R24, R342). -/
theorem take_slot (s : State) : s.take d (.chain c e slot cls status recs false known tag user0 user1 late ints) =
    ((s.slotChain c e cls d tag recs).frameChain c e d).freeChain slot := by
  simp only [State.take, State.takeChain, hm, ht, ite_excRoute d status hm, Bool.false_eq_true, if_false, if_true]

/-- The BIN share has room for a chain that it can hold, and for one without records. -/
theorem binTakes_slot (s : State) : s.binTakes d (.chain c e slot cls status recs false known tag user0 user1 late ints) =
    (s, decide (s.binUsed + 32 * min recs.length (2 ^ deSlotLog d) ≤ 65536 * s.shareBin) || recs.isEmpty) := by
  have none : (32 * min recs.length (2 ^ deSlotLog d) == 0) = recs.isEmpty := by cases recs <;> simp
  rw [binTakes_keyless (itemKeys_record hm _), transitBytes_slot hm ht, none]

end

/-! ### O35 -/

/-- Settles O35: the rotation by `takeFirst_passes` and `takeFirst_takes`, and a chain by what its entry, the share and the ports say
of it. -/
theorem collectorHeads : Obligations.CollectorHeads := by
  refine ⟨fun s u v err pre post k j i hu ho hp hi => congrArg Host.Outcome.next ?_,
    fun s err h => congrArg Host.Outcome.next (collectorTakeHead_none h err), ?_⟩
  · rw [doCollectorTakeHead, hu, ho, takeFirst_passes hp, takeFirst_takes hi]
  intro s c e cls status slot recs exc known late ints tag user0 user1 x d hx hd i
  refine ⟨accept_held (i := i) hx hd, accept_invalid (i := i) hx hd, fun hb hv hm ht he => ?_⟩
  subst he
  have accepted := accept_room (i := i) hx hd hb hv (binTakes_slot hm ht s) (by rw [ht]; decide)
  rw [take_slot hm ht, itemPorts_slot hm ht] at accepted
  exact ⟨fun room ports => accepted.trans (if_pos (Bool.and_eq_true_iff.mpr ⟨room, ports⟩)),
    fun _ ports => accepted.trans (if_neg fun h => Bool.false_ne_true (ports.symm.trans (Bool.and_eq_true_iff.mp h).2)),
    fun room => accepted.trans (if_neg fun h => Bool.false_ne_true (room.symm.trans (Bool.and_eq_true_iff.mp h).1))⟩

/-! ### Delivery entries -/

/-- A delivery entry just changed. -/
theorem deliv_modDeliv (s : State) (c e : Nat) (f : Deliv → Deliv) : (s.modDeliv c e f).deliv c e = f (s.deliv c e) := by
  simp only [State.deliv, State.modDeliv, ctx_modCtx, mgetD_mset_self]

/-- Changes that agree on a delivery entry as it stands are one. -/
theorem modDeliv_congr {s : State} {c e : Nat} {f g : Deliv → Deliv} (h : f (s.deliv c e) = g (s.deliv c e)) :
    s.modDeliv c e f = s.modDeliv c e g :=
  congrArg (fun x => s.setCtx c { s.ctx c with delivs := mset (s.ctx c).delivs e x }) h

/-- The change of an entry that its context has. -/
theorem modDeliv_some {s : State} {c e : Nat} {x : Deliv} (h : mget (s.ctx c).delivs e = some x) (f : Deliv → Deliv) :
    s.modDeliv c e f = s.setCtx c { s.ctx c with delivs := mset (s.ctx c).delivs e (f x) } := by
  simp only [State.modDeliv, State.modCtx, mgetD, h, Option.getD_some]

/-- An entry read for the first time is kept with what R337 says of it, and a GRID entry whose cells find no room is logged (R357). -/
theorem deliveryEntryFetch_keeps {s : State} {c e : Nat} {x : Deliv} (hx : mget (s.ctx c).delivs e = some x) (hr : x.raw = none)
    (entry : Rec64) :
    let ok := s.deliveryOk c entry
    let fits := deMode entry != 4 || decide (s.gridUsed + 2048 * deLimit entry ≤ 65536 * s.shareGrid)
    let u := s.setCtx c { s.ctx c with delivs := mset (s.ctx c).delivs e { x with raw := some entry, valid := ok, gridOk := fits } }
    doDeliveryEntryFetch c e none entry s = if ok && !fits then u.report 0x15 2 c 0xFFFF 0xFFFF e else u := by
  simp only [doDeliveryEntryFetch, hx, hr, modDeliv_some hx, Option.isSome_none, Bool.false_eq_true, if_false]
  rfl

/-- A key entry for which tiles wait is kept with what R348 says of it, and they are written. -/
theorem deliveryEntryFetch_key {s : State} {c e k : Nat} {d : Rec64} (hd : (s.deliv c e).raw = some d)
    (hk : (s.binKey c e k).keyEntry = none) (hw : (s.binKey c e k).waiting ≠ []) (entry : Rec64) :
    doDeliveryEntryFetch c e (some k) entry s = (s.modBin c e k (fun b => { b with
      keyEntry := some (entry.setWidth 256), keyBad := !keyEntryOk (entry.setWidth 256) })).writeTiles c e k d := by
  have asked : ((s.binKey c e k).keyEntry.isSome || (s.binKey c e k).waiting.isEmpty) = false := by simp [hk, hw]
  simp only [doDeliveryEntryFetch, hd, asked, Bool.false_eq_true, if_false]

/-! ### The exception ring -/

section
variable {s : State} {c e : Nat} {d : Rec64} (hd : (s.deliv c e).raw = some d)
include hd

/-- The consumed count of an entry that has been read is kept. -/
theorem excConsumed_kept (consumed : DWord) :
    s.modDeliv c e (fun x => if x.raw.isSome then { x with excConsumed := consumed.toNat } else x) =
      s.modDeliv c e (fun x => { x with excConsumed := consumed.toNat }) :=
  modDeliv_congr (by simp [hd])

/-- Where no record has asked for the count, that is all. -/
theorem excConsumedRead_none (hw : (s.deliv c e).excWait = []) (consumed : DWord) :
    doExcConsumedRead c e consumed s = s.modDeliv c e (fun x => { x with excConsumed := consumed.toNat }) := by
  simp only [doExcConsumedRead, excConsumed_kept hd, deliv_modDeliv, hd, hw]

/-- The record that asked for it is decided by it: written, with those after it, or dropped before them. -/
theorem excConsumedRead_decides {w : ExcWait} {r : Rec32} {l : List Rec32} {t : List ExcWait} (hw : (s.deliv c e).excWait = w :: t)
    (hr : w.rest = r :: l) (consumed : DWord) :
    let v := s.modDeliv c e (fun x => { x with excConsumed := consumed.toNat })
    doExcConsumedRead c e consumed s =
      if (v.deliv c e).excRoom d then v.excDrain c e d
      else ((v.modDeliv c e (fun x => { x with excWait := { w with rest := l } :: t })).excDrop c e).excDrain c e d := by
  simp only [doExcConsumedRead, excConsumed_kept hd, deliv_modDeliv, hd, hw, hr, List.isEmpty_cons, Bool.or_false, List.tail_cons]

end

/-- A record that finds the ring full asks for the count. -/
theorem excDrain_full {s : State} {c e : Nat} {d : Rec64} {w : ExcWait} {r : Rec32} {l : List Rec32} {t : List ExcWait}
    (hw : (s.deliv c e).excWait = w :: t) (hr : w.rest = r :: l) (hf : (s.deliv c e).excRoom d = false) :
    s.excDrain c e d = s.readFor c (addr64 (deExcCnt d) 8) (.excConsumed c e) := by
  unfold State.excDrain
  dsimp only
  rw [iter_same (by simp only [hw, hr, hf, Bool.false_eq_true, if_false]), hw]
  rfl

/-- A chain that comes while others wait waits behind them. -/
theorem excChain_waits {s u : State} {c e cls n : Nat} {d : Rec64}
    (hu : s.addCompletion c cls 1 (.counter (deExcCnt d) 0 (deChip d)) = (n, u)) (hw : (u.deliv c e).excWait ≠ []) (rs : List Rec32) :
    s.excChain c e cls d rs = (u.carries n e []).modDeliv c e (fun x =>
      { x with excWait := x.excWait ++ [{ n := n, cls := cls, rest := rs }] }) := by
  have busy : (u.deliv c e).excWait.isEmpty = false := by simp [hw]
  simp only [State.excChain, hu, busy, Bool.false_eq_true, if_false]

/-! ### The timers of the collector -/

section
variable {s : State} {c e : Nat} {d : Rec64} (hd : (s.deliv c e).raw = some d)
include hd

/-- Without an age or an open tile no tile is closed. -/
theorem binAgeFlush_idle {k : Nat} (h : deAge d = 0 ∨ (s.binKey c e k).openTile = none) (err : Option EccError) :
    doBinAgeFlush c e k err s = s := by
  have idle : (decide (deAge d = 0) || (s.binKey c e k).openTile.isNone) = true := by simpa using h
  simp only [doBinAgeFlush, hd, idle, if_true]

/-- The open tile of an age is read, and what the read leaves of it is closed, with its partial flag, and written, once its key entry
has been read (R349). -/
theorem binAgeFlush_closes {k : Nat} {u : State} {t : Tile} {err : Option EccError} (ha : deAge d ≠ 0)
    (ho : (s.binKey c e k).openTile ≠ none) (hu : s.collRead err (some (.tile c e k (s.binKey c e k).waiting.length)) = u)
    (ht : (u.binKey c e k).openTile = some t) (hk : (u.binKey c e k).keyEntry ≠ none) :
    doBinAgeFlush c e k err s = (u.modBin c e k (fun b => { b with
      openTile := none, waiting := b.waiting ++ [{ t with partialFlush := decide (t.entries.length < deN d) }] })).writeTiles c e k d := by
  have due : (decide (deAge d = 0) || (s.binKey c e k).openTile.isNone) = false := by simp [ha, some_of ho]
  simp only [doBinAgeFlush, hd, due, hu, State.flushTile, ht, some_of hk, Bool.false_eq_true, if_false, if_true]

section
variable {k : Nat} {ke : Rec32} (hk : (s.binKey c e k).keyEntry = some ke)
include hk

/-- The consumed count of a ring that is not full is of no use. -/
theorem binRingReread_idle (hf : (s.binKey c e k).full = false) (consumed : DWord) : doBinRingReread c e k consumed s = s := by
  simp only [doBinRingReread, hd, hk, hf, Bool.false_eq_true, if_false]

/-- That of a full ring lets the tiles that now fit be written, and is asked for again if none does (R348). -/
theorem binRingReread_writes (hf : (s.binKey c e k).full = true) (consumed : DWord) :
    let u := (s.modBin c e k (fun b => { b with consumed := consumed.toNat })).writeTiles c e k d
    doBinRingReread c e k consumed s =
      if (u.binKey c e k).waiting.length = (s.binKey c e k).waiting.length then u.readTiles c e k ke else u := by
  simp only [doBinRingReread, hd, hk, hf, if_true]

end

/-- Without a combining window none is closed, and nothing is read. -/
theorem accumWindowClose_none (hw : (s.deliv c e).window = none) (err : Option EccError) : doAccumWindowClose c e err s = s := by
  have unread : s.collRead err none = s := rfl
  simp only [doAccumWindowClose, hd, hw, Option.isSome_none, Bool.false_eq_true, if_false, unread, State.closeWindow]

/-- A window is read, and what the read leaves of it goes out merged, index by index (R352). -/
theorem accumWindowClose_sends {u : State} {w : AccWindow} {err : Option EccError} (ho : (s.deliv c e).window ≠ none)
    (hu : s.collRead err (some (.update c e 0)) = u) (hw : (u.deliv c e).window = some w) :
    doAccumWindowClose c e err s =
      foldS ((w.ups.map (·.index)).reverse.dedup.reverse) (u.modDeliv c e (fun x => { x with window := none }))
        (fun u i => u.accSend c e 0 d i (mergeUpdates (deOp d) (deEtype d) (w.ups.filter (fun y => y.index == i)))) := by
  simp only [doAccumWindowClose, hd, some_of ho, if_true, hu, State.closeWindow, hw]

end

/-! ### O36 -/

/-- Settles O36: the exception ring by the count and the records that wait for it, a read entry by what it is, and each timer by what it
finds open. -/
theorem collectorEnds : Obligations.CollectorEnds := by
  refine ⟨⟨fun s u c e consumed d w r l t hu hd hw hr => ?_, fun s u c e consumed d hu hd hw => ?_,
      fun s c e d w r l t => excDrain_full, fun s u c e cls n d rs hu hw => excChain_waits hu hw rs, fun s c e cls n d r => rfl⟩,
    fun s r c e entry x hr hx hn => ?_, fun s r c e k entry d hr hd hk hw => ?_,
    fun s c e k d err hd => ⟨fun h => ?_, fun u t ha ho hu ht hk => ?_⟩, fun s r c e k consumed d ke hr hd hk => ?_,
    fun s c e d err hd => ⟨fun hw => ?_, fun u w ho hu hw => ?_⟩⟩
  · subst hu
    have decided := congrArg (Host.Outcome.next (φ := Fault) (ρ := Refusal)) (excConsumedRead_decides hd hw hr consumed)
    exact ⟨fun room => decided.trans (congrArg _ (if_pos room)),
      fun full => decided.trans (congrArg _ (if_neg (by rw [full]; decide)))⟩
  · subst hu
    exact congrArg Host.Outcome.next (excConsumedRead_none hd hw consumed)
  · subst hr
    exact congrArg Host.Outcome.next (deliveryEntryFetch_keeps hx hn entry)
  · subst hr
    exact congrArg Host.Outcome.next (deliveryEntryFetch_key hd hk hw entry)
  · exact congrArg Host.Outcome.next (binAgeFlush_idle hd h err)
  · exact congrArg Host.Outcome.next (binAgeFlush_closes hd ha ho hu ht hk)
  · subst hr
    exact ⟨fun hf => congrArg Host.Outcome.next (binRingReread_idle hd hk hf consumed),
      fun hf => congrArg Host.Outcome.next (binRingReread_writes hd hk hf consumed)⟩
  · exact congrArg Host.Outcome.next (accumWindowClose_none hd hw err)
  · exact congrArg Host.Outcome.next (accumWindowClose_sends hd ho hu hw)

/-! ### Acknowledgements -/

/-- Completion n, as it stood, is over: it goes, what its end brings follows, and the messages that waited for it wait for that. -/
def State.endCompletion (s : State) (n : Nat) (x : Completion) : State :=
  ({ s with completions := s.completions.filter (fun y => y.n != n) } : State).followMsgs n (fun v => v.completed x)

section
variable {s : State} {n : Nat} {x : Completion} (hx : s.completions.find? (fun y => y.n == n) = some x)
include hx

/-- While more writes are awaited an acknowledgement takes one from them (R340). -/
theorem ackOne_more (hl : 1 < x.left) : s.ackOne n =
    ({ s with completions := s.completions.map (fun y => if y.n == n then { y with left := y.left - 1 } else y) }, none) := by
  simp only [State.ackOne, hx, hl, if_true]

/-- The last one ends the completion. -/
theorem ackOne_last (hl : x.left ≤ 1) : s.ackOne n = (s.endCompletion n x, some x) := by
  simp only [State.ackOne, hx, Nat.not_lt.mpr hl, if_false]
  rfl

/-- An acknowledgement of a completion that is open is one of its writes. -/
theorem writeAcknowledged_open : doWriteAcknowledged n s = s.ackWrite n :=
  if_pos (List.any_eq_true.mpr ⟨x, List.mem_of_find?_eq_some hx, List.find?_some (p := fun y : Completion => y.n == n) hx⟩)

/-- Before the last write a completion goes on. -/
theorem writeAcknowledged_more (hl : 1 < x.left) : doWriteAcknowledged n s =
    { s with completions := s.completions.map (fun y => if y.n == n then { y with left := y.left - 1 } else y) } := by
  rw [writeAcknowledged_open hx, State.ackWrite, ackOne_more hx hl]

/-- The end of an element's write acknowledges one write of its chain (R340). -/
theorem writeAcknowledged_element {k j p : Nat} (hl : x.left ≤ 1) (hf : x.fin = .element k j p) : doWriteAcknowledged n s =
    ((s.endCompletion n x).ackOne p).1 := by
  simp only [writeAcknowledged_open hx, State.ackWrite, ackOne_last hx hl, hf]

/-- Any other completion ends alone. -/
theorem writeAcknowledged_last (hl : x.left ≤ 1) (hf : ∀ k j p, x.fin ≠ .element k j p) : doWriteAcknowledged n s =
    s.endCompletion n x := by
  simp only [writeAcknowledged_open hx, State.ackWrite, ackOne_last hx hl]

end

/-- Where no message waits, the end of a completion changes none. -/
theorem followMsgs_none {s : State} {f : State → State} (h : (f s).msgs = []) (n : Nat) : s.followMsgs n f = f s := by
  have same : ({ f s with msgs := [] } : State) = f s := by rw [← h]
  simp only [State.followMsgs, State.settleMsgs, h, List.map_nil, List.filter_nil, foldS_nil, same]

/-! ### Counter adds -/

section
variable {s : State} {c cls k : Nat} {a : DWord} {chip : Bool} (hk : k ≠ 0)
include hk

/-- An add that finds one of the same FAB cycle in the counter's port is added to it. -/
theorem counterAdd_joins (h : (mgetD s.ports (s.deliveryPort a) []).any (fun e => s.sameAdd c a chip e.item) = true) :
    s.counterAdd c cls a k chip = { s with ports := mset s.ports (s.deliveryPort a) ((mgetD s.ports (s.deliveryPort a) []).map (fun e =>
      if s.sameAdd c a chip e.item then { e with item := e.item.plus k } else e)) } := by
  simp only [State.counterAdd, hk, h, if_false, if_true]

/-- Any other goes to the end of that port, under a completion of its own. -/
theorem counterAdd_sends (h : (mgetD s.ports (s.deliveryPort a) []).any (fun e => s.sameAdd c a chip e.item) = false) :
    s.counterAdd c cls a k chip =
      ({ s with nextId := s.nextId + 1, completions := s.completions ++
        [{ n := s.nextId, ctx := c, cls := cls, left := 1, fin := .nothing, fails := 0, chain := none }] } : State).toPort cls a
        (.atomic (s.asid c) a .add 1 (BitVec.ofNat 64 k) s.nextId (some chip) s.now) := by
  simp only [State.counterAdd, hk, h, Bool.false_eq_true, if_false]
  rfl

end

/-! ### O37 -/

/-- Settles O37: an acknowledgement by the writes that its completion still awaits, and the end of a completion by what it brings. -/
theorem writeAcknowledgements : Obligations.WriteAcknowledgements := by
  refine ⟨fun s n h => ?_, fun s n x hx => ⟨fun hl => ?_, fun k j p hl hf => ?_, fun hl hf => ?_⟩, fun u x hf => ?_, fun u x hf => ?_,
    fun u x a k chip hf => ?_⟩
  · exact congrArg Host.Outcome.next (if_neg (by rw [h]; decide))
  · exact congrArg Host.Outcome.next (writeAcknowledged_more hx hl)
  · exact congrArg Host.Outcome.next (writeAcknowledged_element hx hl hf)
  · have last := congrArg (Host.Outcome.next (φ := Fault) (ρ := Refusal)) (writeAcknowledged_last hx hl hf)
    refine ⟨last, fun v hv hm => last.trans (congrArg _ ?_)⟩
    subst hv
    exact followMsgs_none hm n
  · simp only [State.completed, hf]
  · simp only [State.completed, hf]
    rfl
  · have add : u.completed x = u.counterAdd x.ctx x.cls a k chip := by simp only [State.completed, hf]
    rw [add]
    refine ⟨fun h0 => if_pos h0, fun h0 joins => counterAdd_joins h0 joins,
      fun h0 alone => ⟨_, counterAdd_sends h0 alone, ?_, toPort_completions _ _ _ _⟩⟩
    rw [toPort_ports]
    exact (congrArg List.getLast? (mgetD_mset_self _ _ _ _)).trans List.getLast?_concat

end Sys2Proof.Machine
end

section
/-! PROOFS. The statement of 11_memory_model_and_coherence: snoops, the grants of the ring and the acknowledgements of evictions (O38),
after the facts about the operations that it rests on. -/
namespace Sys2Proof.Machine

/-! ### Lines of the directory and of the transaction buffer -/

/-- The entry that is found for a line is the line's. -/
theorem dirAt_addr {s : State} {a : RLine} {e : DirEntry} (h : s.dirAt a = some e) : e.addr = a :=
  eq_of_beq (List.find?_some (p := fun x : DirEntry => x.addr == a) h)

/-- No write waits for a line when none that waits is to it. -/
theorem ownWrites_none {l : List OwnWrite} {a : RLine} (h : ∀ w ∈ l, w.addr ≠ a) : l.any (fun w => w.addr == a) = false :=
  List.any_eq_false.mpr (fun w hw same => h w hw (eq_of_beq same))

/-- The buffer lines of a memory line lose it. -/
def State.disown (s : State) (a : RLine) : State :=
  { s with txnBuf := mmap s.txnBuf (fun _ l => if s.bufRLine l == a then { l with owned := false } else l) }

/-- A line that is lost stays in the transaction that wrote it. -/
theorem openOwner_disown (s : State) (a b : RLine) : (s.disown a).openOwner b = s.openOwner b := by
  simp only [State.openOwner, State.disown, mmap, List.findSome?_map]
  congr 1
  funext e
  by_cases h : (s.bufRLine e.2 == a) = true
  · simp only [Function.comp, if_pos h]
    rfl
  · simp only [Function.comp, if_neg h]
    rfl

/-- A buffer line that has its number stands for its memory line. -/
theorem bufLineFor_some {s : State} {n : Nat} {l : BufLine} {a : RLine} (hl : mget s.txnBuf n = some l) (ha : s.bufRLine l = a) :
    s.bufLineFor n a = some l := by
  simp only [State.bufLineFor, hl, ha, beq_self_eq_true, if_true]

/-! ### What the user of a line does that a snoop takes (R382) -/

section
variable {s : State} {a : RLine} {e : DirEntry} (he : e.addr = a)
include he

/-- A line that was to leave is gone, and requests for its set are tried again. -/
theorem snoopLost_departing (hu : e.user = .departing) (hw : ∀ w ∈ s.ownWrites, w.addr ≠ a) : s.snoopLost e = s.pumpRing := by
  simp only [State.snoopLost, he, hu, ownWrites_none hw, Bool.false_eq_true, if_false]

/-- The collector notes a line that is taken from it. -/
theorem snoopLost_collector (hu : e.user = .collector) (hw : ∀ w ∈ s.ownWrites, w.addr ≠ a) :
    s.snoopLost e = ({ s with taken := s.taken ++ [a] } : State).pumpRing := by
  simp only [State.snoopLost, he, hu, ownWrites_none hw, Bool.false_eq_true, if_false]

/-- A line that no open transaction pins is lost, and none aborts. -/
theorem snoopLost_unpinned (hu : e.user = .transaction) (hp : e.pinned = false) (hw : ∀ w ∈ s.ownWrites, w.addr ≠ a) :
    s.snoopLost e = (s.disown a).pumpRing := by
  have owner := openOwner_disown s a a
  unfold State.disown at owner ⊢
  cases ho : s.openOwner a with
  | none => simp only [State.snoopLost, he, hu, owner, ho, ownWrites_none hw, Bool.false_eq_true, if_false]
  | some t => simp only [State.snoopLost, he, hu, owner, ho, hp, ownWrites_none hw, Bool.false_eq_true, if_false]

/-- The open transaction that has pinned it aborts (R411). -/
theorem snoopLost_pinned {t : Nat} (hu : e.user = .transaction) (hp : e.pinned = true) (ho : s.openOwner a = some t)
    (hw : ∀ w ∈ ((s.disown a).abortTxn t 3).ownWrites, w.addr ≠ a) : s.snoopLost e = ((s.disown a).abortTxn t 3).pumpRing := by
  have owner := (openOwner_disown s a a).trans ho
  unfold State.disown at owner hw ⊢
  simp only [State.snoopLost, he, hu, owner, hp, if_true, ownWrites_none hw, Bool.false_eq_true, if_false]

end

/-! ### Snoops -/

/-- Before READY a SNOOP_SHARED is not accepted (R500). -/
theorem snoopShared_early {s : State} (h : s.dev.stage ≠ .ready) (asid : Nat) (addr : DWord) : doSnoopShared asid addr s = s := by
  simp only [doSnoopShared, bne_iff_ne.mpr h, if_true]

/-- Nor are SNOOP_OWN and SNOOP_INVAL. -/
theorem snoopTake_early {s : State} (h : s.dev.stage ≠ .ready) (a : RLine) : s.snoopTake a = s := by
  simp only [State.snoopTake, bne_iff_ne.mpr h, if_true]

section
variable {s : State} (hr : s.dev.stage = .ready)
include hr

section
variable {a : RLine}

/-- A line on its way out is answered from the departure buffer, and its entry is marked (R386). -/
theorem snoopTake_departing {d : Departing} (hd : s.depart.find? (fun x => x.addr == a) = some d) : s.snoopTake a =
    ((({ s with depart := s.depart.map (fun x => if x.addr == a then { x with dropped := true } else x) } : State).answerSnoop a
      (some d.data)).count 40 1).count 39 1 := by
  simp only [State.snoopTake, hr, hd, bne_self_eq_false, Bool.false_eq_true, if_false]

variable (hd : s.depart.find? (fun x => x.addr == a) = none)
include hd

/-- A request that is outstanding is crossed by the snoop (R383). -/
theorem snoopTake_crosses (hu : s.unsettled a = true) : s.snoopTake a =
    ({ s with ringPend := s.ringPend.map (fun r => if r.addr == a && !r.waiting then { r with crossed := true } else r) } : State).answerSnoop
      a none := by
  simp only [State.snoopTake, hr, hd, hu, bne_self_eq_false, Bool.false_eq_true, if_false, if_true]

/-- A line that the engine does not hold is answered with no data. -/
theorem snoopTake_absent (hu : s.unsettled a = false) (ha : s.dirAt a = none) : s.snoopTake a = s.answerSnoop a none := by
  simp only [State.snoopTake, hr, hd, hu, ha, bne_self_eq_false, Bool.false_eq_true, if_false]

/-- One that it holds is given up with its data. -/
theorem snoopTake_held {e : DirEntry} (hu : s.unsettled a = false) (ha : s.dirAt a = some e) :
    s.snoopTake a = (((s.dropDir a).answerSnoop a (some e.data)).count 39 1).snoopLost e := by
  simp only [State.snoopTake, hr, hd, hu, ha, bne_self_eq_false, Bool.false_eq_true, if_false]

end

section
variable {asid : Nat} {addr : DWord} {a : RLine} (hl : ({ asid := asid, addr := lineOf addr } : RLine) = a)
include hl

/-- SNOOP_SHARED of a line on its way out is answered from the departure buffer (R386). -/
theorem snoopShared_departing {d : Departing} (hd : s.depart.find? (fun x => x.addr == a) = some d) :
    doSnoopShared asid addr s = ((s.answerSnoop a (some d.data)).count 41 1).count 39 1 := by
  simp only [doSnoopShared, hr, hl, hd, bne_self_eq_false, Bool.false_eq_true, if_false]

variable (hd : s.depart.find? (fun x => x.addr == a) = none)
include hd

/-- One for which a request is outstanding is answered with no data (R383). -/
theorem snoopShared_crosses (hu : s.unsettled a = true) : doSnoopShared asid addr s = s.answerSnoop a none := by
  simp only [doSnoopShared, hr, hl, hd, hu, bne_self_eq_false, Bool.false_eq_true, if_false, if_true]

/-- So is one that the engine does not hold. -/
theorem snoopShared_absent (hu : s.unsettled a = false) (ha : s.dirAt a = none) :
    doSnoopShared asid addr s = s.answerSnoop a none := by
  simp only [doSnoopShared, hr, hl, hd, hu, ha, bne_self_eq_false, Bool.false_eq_true, if_false]

/-- One that it holds is answered with its data and becomes OWNED_SHARED. -/
theorem snoopShared_held {e : DirEntry} (hu : s.unsettled a = false) (ha : s.dirAt a = some e) : doSnoopShared asid addr s =
    ((s.modDir a (fun x => { x with state := .ownedShared })).answerSnoop a (some e.data)).count 39 1 := by
  simp only [doSnoopShared, hr, hl, hd, hu, ha, bne_self_eq_false, Bool.false_eq_true, if_false]

end

end

/-! ### Grants -/

/-- A granted line enters the directory for its user, EXCLUSIVE and with its data (R379, R380). -/
def State.entered (s : State) (a : RLine) (data : Line) (user : LineUser) (pinned : Bool) : State :=
  ({ s with dir := s.dir ++ [{ addr := a, state := .exclusive, user := user, pinned := pinned, used := 0, data := data, written := 0 }] } :
    State).useLine a

section
variable {s : State} {r : RingPend} (hd : s.dirAt r.addr = none)
include hd

/-- A line that the collector asked for enters the directory, and the writes that wait for it are merged (R388). -/
theorem granted_collector (hu : r.use = .coll) (data : Line) :
    s.granted r data = (s.entered r.addr data .collector false).mergeAll r.addr := by
  simp only [State.granted, hu, enter_ok s r.addr data _ _ hd]
  rfl

section
variable {n : Nat} {l : BufLine} (hl : mget s.txnBuf n = some l) (ha : s.bufRLine l = r.addr)
include hl ha

/-- One that a transaction asked for makes its buffer line owned, and is pinned while the transaction is open (R404). -/
theorem granted_transaction (hu : r.use = .txn n) (data : Line) : s.granted r data =
    ({ s.entered r.addr data .transaction (!l.committed) with txnBuf := mset s.txnBuf n { l with owned := true } } : State).mergeAll
      r.addr := by
  simp only [State.granted, hu, bufLineFor_some hl ha, enter_ok s r.addr data _ _ hd]
  rfl

/-- One that a write-through asked for does so too, and the write-through goes on (R408). -/
theorem granted_writeThrough (hu : r.use = .writeThrough n) (hs : l.state = .committed) (data : Line) : s.granted r data =
    (({ s.entered r.addr data .transaction false with txnBuf := mset s.txnBuf n { l with owned := true } } : State).mergeAll
      r.addr).wtGo n := by
  simp only [State.granted, hu, bufLineFor_some hl ha, hs, enter_ok s r.addr data _ _ hd]
  rfl

end

end

/-- A request that is granted is outstanding no more. -/
def State.unpend (s : State) (r : RingPend) : State := { s with ringPend := s.ringPend.erase r }

section
variable {s : State} {asid : Nat} {addr : DWord} {a : RLine} (hl : ({ asid := asid, addr := lineOf addr } : RLine) = a)
include hl

/-- A grant that no issued request waits for is of no use. -/
theorem ringGrant_none (h : s.ringPend.find? (fun r => r.addr == a && !r.waiting) = none) (data : Line) :
    doRingGrant asid addr data s = s := by
  simp only [doRingGrant, hl, h]

variable {r : RingPend} (h : s.ringPend.find? (fun r => r.addr == a && !r.waiting) = some r)
include h

/-- Any other grants the oldest request that has been issued. -/
theorem ringGrant_grants (hu : r.upgrade = false) {data : Line} {v : State}
    (hv : (s.unpend r).granted r data = v) : doRingGrant asid addr data s = v.pumpRing := by
  subst hv
  simp only [doRingGrant, hl, h, hu, Bool.false_eq_true, if_false]
  rfl

/-- One for an upgrade upgrades the line. -/
theorem ringGrant_upgrades (hu : r.upgrade = true) {data : Line} {v : State}
    (hv : (s.unpend r).upgraded r data = v) : doRingGrant asid addr data s = v.pumpRing := by
  subst hv
  simp only [doRingGrant, hl, h, hu, if_true]
  rfl

end

/-- A line that has been upgraded is MODIFIED, with the ring's data where a snoop has crossed the request, and the writes that wait for
it are merged (R383, R388). -/
def State.upgradedLine (s : State) (r : RingPend) (data : Line) : State :=
  (s.modDir r.addr (fun x => { x with state := .modified, data := if r.crossed then data else x.data })).mergeAll r.addr

/-- An upgrade that the collector asked for brings no more. -/
theorem upgraded_collector (s : State) {r : RingPend} (hu : r.use = .coll) (data : Line) : s.upgraded r data = s.upgradedLine r data := by
  simp only [State.upgraded, hu]
  rfl

/-- After one that a write-through asked for, the write-through goes on (R408). -/
theorem upgraded_writeThrough (s : State) {r : RingPend} {n : Nat} (hu : r.use = .writeThrough n) (data : Line) :
    s.upgraded r data = (s.upgradedLine r data).wtGo n := by
  simp only [State.upgraded, hu]
  rfl

/-! ### Acknowledgements of evictions -/

section
variable {s : State} {asid : Nat} {addr : DWord} {a : RLine} (hl : ({ asid := asid, addr := lineOf addr } : RLine) = a)
include hl

/-- EVICT_ACK frees its entry of the departure buffer, and what waited for room goes on (R385). -/
theorem evictAck_frees (h : s.depart.any (fun d => d.addr == a) = true) : doEvictAck asid addr s =
    ({ s with depart := s.depart.eraseP (fun d => d.addr == a) } : State).pumpDepart.pumpRing := by
  subst hl
  exact if_pos h

/-- One for a line that is not on its way out does nothing. -/
theorem evictAck_none (h : s.depart.any (fun d => d.addr == a) = false) : doEvictAck asid addr s = s := by
  subst hl
  exact if_neg (by rw [h]; decide)

end

/-! ### O38 -/

/-- What SNOOP_OWN and SNOOP_INVAL, an acknowledgement of an eviction or a grant leaves then settles. -/
theorem next_settled {u v : State} (h : u = v) :
    (Host.Outcome.next u.settleAll : Host.Outcome State Fault Refusal) = .next v.settleAll :=
  congrArg (fun x : State => Host.Outcome.next x.settleAll) h

/-- Settles O38: a snoop by where it finds its line and by who uses that, an acknowledgement by the departure buffer, and a grant by
whether the request was for an upgrade and by who asked. -/
theorem coherence : Obligations.Coherence := by
  refine ⟨⟨calm_settle, fun s asid addr => ⟨fun h => ?_, fun hr => ⟨fun hd hu ha => ?_, fun hd hu => ?_, fun e hd hu ha => ?_,
      fun e hd hu ha hw => ?_, fun d hd => ?_⟩, fun h => ?_, fun h => ?_⟩⟩,
    fun s asid addr data h => ?_, fun s asid addr data r h => ⟨fun hu hc hd => ?_, fun n l hu hn hd hl ha => ?_,
      fun n l hu hn hd hl ha hs => ?_, fun hu => ⟨fun hc => ?_, fun n hn => ?_⟩⟩⟩
  · exact ⟨congrArg Host.Outcome.next (snoopShared_early h _ _), next_settled (snoopTake_early h _), next_settled (snoopTake_early h _)⟩
  · exact ⟨congrArg Host.Outcome.next (snoopShared_absent (a := ⟨_, _⟩) hr rfl hd hu ha), next_settled (snoopTake_absent hr hd hu ha),
      next_settled (snoopTake_absent hr hd hu ha)⟩
  · exact ⟨congrArg Host.Outcome.next (snoopShared_crosses (a := ⟨_, _⟩) hr rfl hd hu), next_settled (snoopTake_crosses hr hd hu),
      next_settled (snoopTake_crosses hr hd hu)⟩
  · exact congrArg Host.Outcome.next (snoopShared_held (a := ⟨_, _⟩) hr rfl hd hu ha)
  · have taken := snoopTake_held hr hd hu ha
    have same := dirAt_addr ha
    refine ⟨rfl, fun hx => ?_, fun hx hp => ?_, fun t hx hp ho hw' => ?_, fun hx => ?_⟩
    · exact next_settled (taken.trans (snoopLost_departing same hx hw))
    · exact next_settled (taken.trans (snoopLost_unpinned same hx hp hw))
    · exact next_settled (taken.trans (snoopLost_pinned same hx hp ho hw'))
    · exact next_settled (taken.trans (snoopLost_collector same hx hw))
  · exact ⟨congrArg Host.Outcome.next (snoopShared_departing (a := ⟨_, _⟩) hr rfl hd), next_settled (snoopTake_departing hr hd), rfl⟩
  · exact next_settled (evictAck_frees rfl h)
  · exact next_settled (evictAck_none rfl h)
  · exact next_settled (ringGrant_none rfl h data)
  · exact next_settled (ringGrant_grants rfl h hu (granted_collector (s := s.unpend r) hd hc data))
  · exact next_settled (ringGrant_grants rfl h hu (granted_transaction (s := s.unpend r) hd hl ha hn data))
  · exact next_settled (ringGrant_grants rfl h hu (granted_writeThrough (s := s.unpend r) hd hl ha hn hs data))
  · exact next_settled (ringGrant_upgrades rfl h hu (upgraded_collector _ hc data))
  · exact next_settled (ringGrant_upgrades rfl h hu (upgraded_writeThrough _ hn data))

end Sys2Proof.Machine
end

section
/-! PROOFS. The statement of 13_integrity_and_errors about control state: parity errors and the rebuilding of a cohort's entry (O49),
after what the sweep makes of each kind of item. -/
namespace Sys2Proof.Machine

/-! ### The sweep -/

/-- Before READY, and with PARITY 0 for what carries parity, an error is ignored (R430). -/
theorem schedSweep_ignores {s : State} {e : CtrlFault} (h : s.dev.stage ≠ .ready ∨ (s.integOn 7 = false ∧ ctrlEcc e = false)) :
    doSchedSweep (some e) s = s := by
  refine if_pos ?_
  rcases h with early | ⟨off, plain⟩
  · simp [early]
  · simp [off, plain]

/-- Otherwise an error in an item that exists has its effect, as the injected one where one is armed for its class (R432). -/
theorem schedSweep_finds {s u v : State} {e : CtrlFault} {inj : Bool} (hr : s.dev.stage = .ready)
    (hp : s.integOn 7 = true ∨ ctrlEcc e = true) (hi : inj = s.ctrlArmed e) (hu : u = if inj then s.disarm else s)
    (hv : u.ctrlFault inj e = some v) : doSchedSweep (some e) s = v := by
  have seen : ¬(s.dev.stage != .ready || !(s.integOn 7 || ctrlEcc e)) = true := by
    rcases hp with on | ecc
    · simp [hr, on]
    · simp [hr, ecc]
  refine (if_neg seen).trans ?_
  subst hu hi
  cases armed : s.ctrlArmed e with
  | false => simp only [armed, Bool.false_eq_true, if_false] at hv ⊢; rw [hv, Option.getD_some]
  | true => simp only [armed, if_true] at hv ⊢; rw [hv, Option.getD_some]

/-! ### What becomes of each item (R428) -/

/-- A parity error is counted and logged, with the number of its structure (R544). -/
def State.parityNoted (s : State) (inj : Bool) (row c unit : Nat) : State := (s.count 58 1).logInj inj 9 1 c unit noUnit row

section
variable {s : State} (inj : Bool)

/-- The entry of a cohort is being rebuilt. -/
theorem ctrlFault_cohort {id : CohortId} {x : Cohort} (hx : s.cohort id = some x) (hb : x.rebuilding = false) :
    s.ctrlFault inj (.cohort id) = some ((s.parityNoted inj 1 id.ctx noUnit).modCohort id (fun c => { c with rebuilding := true })) := by
  simp only [State.ctrlFault, hx, hb, Bool.false_eq_true, if_false]
  rfl

/-- A lane's query ends. -/
theorem ctrlFault_lane {core : CoreNo} {sh : SheafNo} {l : LaneNo} {x : Sheaf} {y : Lane} {q : Query}
    (hx : mget s.sheaves (sheafKey core sh) = some x) (hy : x.lane l = some y) (hq : s.laneQuery y = some q) :
    s.ctrlFault inj (.lane core sh l) =
      some (((s.parityNoted inj 3 q.ctx core.val).interrupt 1).failLane (sheafKey core sh) y errLANE_PARITY) := by
  simp only [State.ctrlFault, hx, Option.bind_some, hy, hq]
  rfl

/-- A strand halts. -/
theorem ctrlFault_strand {c : CtxNo} (h : (s.ctx c).state = .opened) : s.ctrlFault inj (.strand c) =
    some (((s.parityNoted inj 4 c noUnit).interrupt 1).modStrand c (fun t => { t with state := .halted })) :=
  if_pos (beq_iff_eq.mpr h)

/-- A stream that is not IDLE is cancelled. -/
theorem ctrlFault_stream {k : StreamNo} (h : (s.stream k).state ≠ .idle) : s.ctrlFault inj (.stream k) =
    some (((s.parityNoted inj 5 (s.stream k).owner noUnit).interrupt 1).cancelStream k) :=
  if_neg (by simpa using h)

/-- A fill is asked for again. -/
theorem ctrlFault_fill {id : CohortId} {f : Fill} (h : s.fillOf id = some f) : s.ctrlFault inj (.otherFill id) =
    some (((s.parityNoted inj 6 id.ctx noUnit).interrupt 1).reissueFill id) :=
  if_pos (by rw [h, Option.isSome_some])

/-- Any other query ends. -/
theorem ctrlFault_query {p : Fin 524288} {q : Query} (h : mget s.pool p = some q) : s.ctrlFault inj (.otherQuery p) =
    some (((s.parityNoted inj 6 q.ctx noUnit).interrupt 1).failQuery p errLANE_PARITY .scheduler) := by
  simp only [State.ctrlFault, h]
  rfl

/-- An entry of the presence directory is discarded. -/
theorem ctrlFault_dirEntry {asid : Word} {addr : DWord} (h : (s.dirAt { asid := asid.toNat, addr := lineOf addr }).isSome = true) :
    s.ctrlFault inj (.dirEntry asid addr) =
      some (((s.parityNoted inj 6 noUnit noUnit).interrupt 1).loseDir { asid := asid.toNat, addr := lineOf addr }) :=
  if_pos h

/-- So is one of the departure buffer. -/
theorem ctrlFault_departEntry {asid : Word} {addr : DWord}
    (h : s.depart.any (fun d => d.addr == { asid := asid.toNat, addr := lineOf addr }) = true) :
    s.ctrlFault inj (.departEntry asid addr) =
      some (((s.parityNoted inj 6 noUnit noUnit).interrupt 1).loseDepart { asid := asid.toNat, addr := lineOf addr }) :=
  if_pos h

/-- The fill that a discarded placement handle stood for is asked for again. -/
theorem ctrlFault_placementHandle {g : GroveNo} {i : Nat} {h : HEntry CohortId}
    (hh : (mgetD ((s.parityNoted inj 6 noUnit noUnit).interrupt 1).hq g [])[i]? = some h) :
    s.ctrlFault inj (.placementHandle g i) = some (((s.parityNoted inj 6 noUnit noUnit).interrupt 1).reissueFill h.item) :=
  congrArg (Option.map _) hh

end

/-! ### The entry of a cohort that is rebuilt (R428) -/

/-- The queries parked at a cohort, in order of arrival. -/
def State.parkedAt (s : State) (id : CohortId) : List (Nat × Query) :=
  sortBy (fun (e : Nat × Query) => [e.2.arrived, e.2.admitted, e.1]) (s.pool.filter (fun e =>
    e.2.cohort == id && (match e.2.place with | .parked _ _ => true | _ => false)))

section
variable {s : State} {id : CohortId}

/-- A cohort that has no entry has none to rebuild. -/
theorem cohortEntryRebuilt_absent (h : s.cohort id = none) : doCohortEntryRebuilt id s = s := by
  simp only [doCohortEntryRebuilt, h]

section
variable {c : Cohort} (h : s.cohort id = some c)
include h

/-- An entry in which no error was found is left. -/
theorem cohortEntryRebuilt_sound (hb : c.rebuilding = false) : doCohortEntryRebuilt id s = s := by
  simp only [doCohortEntryRebuilt, h, hb, Bool.not_false, if_true]

/-- An entry that is being rebuilt has the parked queries as its members, and the first CLINES that one of them holds. -/
theorem cohortEntryRebuilt_rebuilds (hb : c.rebuilding = true) : doCohortEntryRebuilt id s =
    (s.modCohort id (fun _ => { Cohort.fresh id ((((s.parkedAt id).map (fun e => e.2.ws.clines)).find? (· != 0)).getD 0) with
      members := (s.parkedAt id).map (·.1) })).lapse id := by
  simp only [doCohortEntryRebuilt, h, hb, Bool.not_true, Bool.false_eq_true, if_false]
  rfl

end

end

/-! ### O49 -/

/-- Settles O49: an error by whether it is seen and by the kind of its item, and a rebuilt entry by whether an error was found in it. -/
theorem controlParity : Obligations.ControlParity := by
  refine ⟨fun s => rfl, fun s e h => congrArg Host.Outcome.next (schedSweep_ignores h), ?_,
    fun s id h => congrArg Host.Outcome.next (cohortEntryRebuilt_absent h),
    fun s id c h => ⟨fun hb => congrArg Host.Outcome.next (cohortEntryRebuilt_sound h hb),
      fun hb => congrArg Host.Outcome.next (cohortEntryRebuilt_rebuilds h hb)⟩⟩
  intro s u e inj hr hp hi hu note
  have found : ∀ {v : State}, u.ctrlFault inj e = some v → exec (.schedSweep (some e)) s = .next v :=
    fun hv => congrArg Host.Outcome.next (schedSweep_finds hr hp hi hu hv)
  refine ⟨?cohort, ?slotMap, ?lane, ?strand, ?stream, ?fill, ?query, ?dirEntry, ?departEntry, ?placementHandle, ?leafHandle⟩
  case cohort => rintro id x rfl hx hb; exact found (ctrlFault_cohort inj hx hb)
  case slotMap => rintro o sl rfl; exact found rfl
  case lane => rintro core sh l x y q rfl hx hy hq; exact found (ctrlFault_lane inj hx hy hq)
  case strand => rintro c rfl h; exact found (ctrlFault_strand inj h)
  case stream => rintro k rfl h; exact found (ctrlFault_stream inj h)
  case fill => rintro id f rfl h; exact found (ctrlFault_fill inj h)
  case query => rintro p q rfl h; exact found (ctrlFault_query inj h)
  case dirEntry => rintro asid addr rfl h; exact found (ctrlFault_dirEntry inj h)
  case departEntry => rintro asid addr rfl h; exact found (ctrlFault_departEntry inj h)
  case placementHandle => rintro g i h rfl hh; exact found (ctrlFault_placementHandle inj hh)
  case leafHandle => rintro g i t rfl h; exact found h

end Sys2Proof.Machine
end

section
/-! PROOFS. The statements of 14_contexts_and_security: the FAB cycle of an empty queue (O2), debug unlock (O55), and the key commands
with KEY_BUF (O54). -/
namespace Sys2Proof.Machine

/-! ### One FAB cycle -/

section
variable {s : State}

/-- Without clocks nothing happens. -/
theorem tick_unclocked (h : s.dev.stage = .off ∨ s.dev.stage = .held ∨ s.dev.stage = .pll) : s.tick = s := by
  rcases h with h | h | h <;> simp only [State.tick, h]

/-- During bring-up the cycles are counted (R498). -/
theorem tick_bringup (h : s.dev.stage = .bringup) : s.tick = { s with dev := { s.dev with fab := s.dev.fab + 1 } } := by
  simp only [State.tick, h, State.modDev]

end

/-- What the rest of a FAB cycle at READY makes of a state whose countdowns and watches have gone on. -/
def State.cycleRest (s : State) : State := (foldS (List.range 16) s State.portTake).drainLeaves.settleInvalidates

/-- At READY the limits are settled, then the cycle is counted and passes. -/
theorem tick_ready {s : State} (h : s.dev.stage = .ready) : s.tick = s.settleLimits.countCycle.countDown.ageWatch.cycleRest.newCycle := by
  simp only [State.tick, h, State.cycleRest]

/-- States that agree on what a tick leaves agree on the leaf handle queues. -/
theorem TickSame.leafQ {s t : State} (h : TickSame s t) : t.leafQ = s.leafQ := by
  obtain ⟨-, -, -, -, -, -, leafQ⟩ := h
  exact leafQ

/-- The new cycle has the next number, and the ingest ports may take bytes again. -/
theorem newCycle_parts (u : State) : u.newCycle.pending = u.pending ∧ u.newCycle.dev = { u.dev with fab := u.dev.fab + 1 } ∧
    u.newCycle.ingested = [] ∧ u.newCycle.pool = u.pool ∧ u.newCycle.streams = u.streams ∧ u.newCycle.banks = u.banks ∧
    u.newCycle.ctxs = u.ctxs := ⟨rfl, rfl, rfl, rfl, rfl, rfl, rfl⟩

/-- Where no leaf handle waits, the delivery ports and the invalidations leave what `TickSame` names. -/
theorem same_cycleRest {s : State} (h : ∀ g < 16, mgetD s.leafQ g [] = []) : TickSame s s.cycleRest := by
  have ports : TickSame s (foldS (List.range 16) s State.portTake) := same_foldS _ _ same_port s
  have waits : ∀ g < 16, mgetD (foldS (List.range 16) s State.portTake).leafQ g [] = [] := by rwa [ports.leafQ]
  rw [State.cycleRest, drain_none _ waits]
  exact ports.tr (same_settle _)

/-- A FAB cycle after the limits have been settled, where no leaf handle waits. -/
theorem cycle_leaves {u : State} (h : ∀ g < 16, mgetD u.leafQ g [] = []) :
    let t := u.countCycle.countDown.ageWatch.cycleRest.newCycle
    t.pending = u.pending ∧ t.dev = { u.dev with fab := u.dev.fab + 1 } ∧ t.ingested = [] ∧ t.pool = u.pool ∧ t.streams = u.streams ∧
      t.banks = u.banks ∧ t.ctxs = u.countDown.ctxs := by
  obtain ⟨dev, ctxs, pending, pool, streams, banks, leafQ⟩ := same_cycle u
  obtain ⟨dev', pending', pool', streams', banks', ctxs', leafQ'⟩ := down_parts u.countCycle
  have waits : ∀ g < 16, mgetD u.countCycle.countDown.ageWatch.leafQ g [] = [] := by rwa [leafQ', leafQ]
  obtain ⟨dev'', ctxs'', pending'', pool'', streams'', banks'', -⟩ := same_cycleRest waits
  obtain ⟨newPending, newDev, newIngested, newPool, newStreams, newBanks, newCtxs⟩ :=
    newCycle_parts u.countCycle.countDown.ageWatch.cycleRest
  refine ⟨?_, ?_, newIngested, ?_, ?_, ?_, ?_⟩
  · rw [newPending, pending'', pending', pending]
  · rw [newDev, dev'', dev', dev]
  · rw [newPool, pool'', pool', pool]
  · rw [newStreams, streams'', streams', streams]
  · rw [newBanks, banks'', banks', banks]
  · rw [newCtxs, ctxs'', ctxs', down_ctxs, ctxs, down_ctxs]

/-- A context after a FAB cycle: its countdown has fallen by 1 if it is armed (R453). -/
theorem countDown_ctx (u : State) (c : Nat) :
    mget u.countDown.ctxs c = (mget u.ctxs c).map (fun x => if x.cdMode = .idle then x else { x with cdVal := x.cdVal - 1 }) := by
  simp only [down_ctxs, mget_mmap, beq_iff_eq]

/-! ### Limits that have not been reached -/

/-- A grove that does not drain, or has not drained for FROST_DRAIN_MAX cycles (R513). -/
theorem frostDrain_early {s : State} {g : Nat}
    (h : (s.grove g).state ≠ .drain ∨ s.now < (s.grove g).drainSince + s.dev.frostDrainMax.toNat) : doFrostDrainTimeout g s = s := by
  refine if_neg fun hd => ?_
  rw [Bool.and_eq_true, beq_iff_eq, decide_eq_true_eq] at hd
  exact h.elim (fun hn => hn hd.1) (fun hn => Nat.not_le.mpr hn hd.2)

/-- An origin some of whose queries are held here, and to which a packet has gone within 262,144 cycles (R484). -/
theorem heartbeat_early {s : State} {o : Nat} (hh : s.holdsFor o = true) (hb : mgetD s.beats o 0 < 262144) : doHeartbeatSend o s = s := by
  simp only [doHeartbeatSend, hh, hb, Bool.not_true, Bool.false_eq_true, if_false, if_true]

/-- A holder that has been heard within 1,048,576 cycles (R484). -/
theorem watchdog_early {s : State} {d : Nat} (h : mgetD s.watch d 0 < 1048576) : doWatchdogExpire d s = s := if_pos h

/-- A countdown that is idle or has not come to 0 is not due. -/
theorem cdDue_false {x : Context} (h : x.cdMode = .idle ∨ x.cdVal ≠ 0) : x.cdDue = false := by
  rcases h with h | h <;> simp [Context.cdDue, h]

/-- The deadline of the only context, come to 0, makes its cut (R454). -/
theorem settleCountdowns_one {s : State} {c : Nat} {x : Context} (h : s.ctxs = [(c, x)]) (hm : x.cdMode = .deadline) (hv : x.cdVal = 0) :
    s.settleCountdowns = s.deadlineOut c := by
  obtain rfl : s.ctx c = x := by simp [State.ctx, mgetD, mget, h]
  have due : (s.ctx c).cdDue = true := by simp [Context.cdDue, hm, hv]
  have one : s.settleCountdowns = doCountdownZero c s := by
    rw [State.settleCountdowns, h, List.filter_cons_of_pos (by exact due)]
    exact (if_pos due).symm
  rw [one, countdownZero_deadline hm hv]

/-- Settles O2: a tick by the stage of the device, the limits none of which has been reached, and one that has. -/
theorem emptyQueueTick : Obligations.EmptyQueueTick := by
  refine ⟨fun s hp => ?_, fun s hc hg hb hw => ?_, fun s c x h hm hv => settleCountdowns_one h hm hv⟩
  · have tick : step s = .next s.tick := by simp only [step, hp]
    rw [tick]
    refine ⟨fun h => congrArg _ (tick_unclocked h), fun h => congrArg _ (tick_bringup h), ?_⟩
    rintro u h rfl hq
    obtain ⟨pending, dev, ingested, pool, streams, banks, ctxs⟩ := cycle_leaves hq
    refine ⟨_, congrArg _ (tick_ready h), pending, dev, ingested, pool, streams, banks, fun c => ?_⟩
    rw [ctxs, countDown_ctx]
  · exact settleLimits_none s (fun e he => cdDue_false (hc e he)) (fun g hlt => frostDrain_early (hg g hlt))
      (fun e he => heartbeat_early (hb e he).1 (hb e he).2) (fun e he => watchdog_early (hw e he))

/-! ### Debug unlock -/

section
variable {s : State}

/-- A debug unlock that is under way kills the contexts that use keys, and begins to erase once none of them is left and NVM is at
rest (R464). -/
theorem settleUnlock_killing (h : s.dev.unlock = .killing) :
    s.settleUnlock = if s.killKeyed.keyed.isEmpty = true ∧ s.killKeyed.nvmWorking = false then s.killKeyed.startErase else s.killKeyed := by
  simp only [State.settleUnlock, h, beq_self_eq_true, if_true, Bool.and_eq_true, Bool.not_eq_true']

/-- Where no context uses a key there is none to kill. -/
theorem killKeyed_none (h : s.keyed = []) : s.killKeyed = s := by rw [State.killKeyed, h]; rfl

/-- DBG_UNLOCK is not taken up outside RUN, nor while an unlock is under way. -/
theorem dbgUnlock_refused (h : s.dev.stage ≠ .ready ∨ s.dev.pwrState ≠ 1 ∨ s.dev.unlock ≠ .idle) : doDbgUnlock s = s := by
  refine if_pos ?_
  simpa only [Bool.or_eq_true, bne_iff_ne, or_assoc] using h

section
variable (hs : s.dev.stage = .ready) (hp : s.dev.pwrState = 1) (hu : s.dev.unlock = .idle)
include hs hp hu

/-- DBG_UNLOCK in RUN begins with the kills. -/
theorem dbgUnlock_kills : doDbgUnlock s = (s.modDev (fun d => { d with unlock := .killing })).settleUnlock := by
  simp only [doDbgUnlock, hs, hp, hu, bne_self_eq_false, Bool.or_self, Bool.false_eq_true, if_false]

/-- Where no context uses a key, DBG_UNLOCK begins to erase if NVM is at rest. -/
theorem dbgUnlock_keyless (hk : s.keyed = []) : doDbgUnlock s =
    if s.nvmWorking = false then (s.modDev (fun d => { d with unlock := .killing })).startErase
    else s.modDev (fun d => { d with unlock := .killing }) := by
  have none_keyed : (s.modDev (fun d => { d with unlock := .killing })).keyed = [] := hk
  rw [dbgUnlock_kills hs hp hu, settleUnlock_killing rfl, killKeyed_none none_keyed, none_keyed]
  simp only [List.isEmpty_nil, true_and]
  rfl

end

/-- The end of an erase is not heard while none is in progress. -/
theorem dbgEraseDone_none (h : s.dev.eraseBusy = false) (e : Bool) : doDbgEraseDone e s = s := if_pos (by rw [h]; rfl)

section
variable (hb : s.dev.eraseBusy = true)
include hb

/-- An erase of a debug unlock that has failed is begun again; one that a reset resumed is left. -/
theorem dbgEraseDone_failed : doDbgEraseDone false s = if s.dev.unlock = .erasing then s.startErase else s := by
  simp only [doDbgEraseDone, hb, Bool.not_true, Bool.not_false, Bool.false_eq_true, if_false, if_true, beq_iff_eq]

/-- An erase that has succeeded leaves no secret sector. A debug unlock then opens debug if no key slot holds a key, and erases again
if one does; the erase that a reset resumed opens nothing (R464). -/
theorem dbgEraseDone_succeeds : doDbgEraseDone true s =
    if s.dev.unlock = .erasing then
      (if s.keys = [] then (s.eraseSecret.markErase false).modDev (fun d => { d with eraseBusy := false, unlock := .idle, debugOpen := true })
       else s.eraseSecret.startErase)
    else ((s.eraseSecret.markErase false).modDev (fun d => { d with eraseBusy := false })).settleUnlock := by
  simp only [doDbgEraseDone, hb, Bool.not_true, Bool.false_eq_true, if_false, beq_iff_eq, List.isEmpty_iff]
  rfl

end

end

/-- A sector that has been erased reads as 0, and the others as before. -/
theorem memRead_erasedSector {m : List Host.Cell} (n : Nat) (h : Memory.wf m = true) (a : Nat) :
    memRead (setSector m n []) a = if 4096 * n ≤ a ∧ a < 4096 * (n + 1) then 0 else memRead m a := set_read m n [] h a

/-- Settles O55: DBG_UNLOCK by whether it is taken up and by what it finds keyed or working, the end of the erase by its outcome and by
whose erase it is, and the erased sector by the read after a sector is put in place. -/
theorem debugUnlock : Obligations.DebugUnlock := by
  refine ⟨fun s h => congrArg Host.Outcome.next (dbgUnlock_refused h), fun s => ?_, fun m a h => memRead_erasedSector 63 h a⟩
  refine ⟨fun hs hp hu => ⟨fun hk hw => ?_, fun hk hw => ?_, fun _ => ?_⟩, fun hu => ?_, fun hb e => ?_, fun hb hu => ?_, fun hb hu => ?_,
    fun hb hu hk => ?_, fun hb hu hk => ?_, fun hb hu => ?_⟩
  · exact congrArg Host.Outcome.next ((dbgUnlock_keyless hs hp hu hk).trans (if_pos hw))
  · exact congrArg Host.Outcome.next ((dbgUnlock_keyless hs hp hu hk).trans (if_neg (by simp [hw])))
  · exact congrArg Host.Outcome.next (dbgUnlock_kills hs hp hu)
  · exact settleUnlock_killing hu
  · exact congrArg Host.Outcome.next (dbgEraseDone_none hb e)
  · exact congrArg Host.Outcome.next ((dbgEraseDone_failed hb).trans (if_pos hu))
  · exact congrArg Host.Outcome.next ((dbgEraseDone_failed hb).trans (if_neg hu))
  · exact congrArg Host.Outcome.next ((dbgEraseDone_succeeds hb).trans ((if_pos hu).trans (if_pos hk)))
  · exact congrArg Host.Outcome.next ((dbgEraseDone_succeeds hb).trans ((if_pos hu).trans (if_neg hk)))
  · exact congrArg Host.Outcome.next ((dbgEraseDone_succeeds hb).trans (if_neg hu))

/-! ### Key commands -/

section
variable {s : State}

/-- What a key command for slot k leaves that, taken, makes the state t: a command or an erase in progress bars it, and so does a context
that names the slot (R460, R547). -/
def State.keyTaken (s : State) (k : Nat) (t : State) : State :=
  if s.keyBarred then { s with keyResult := 4 } else if s.keyNamed k then s.endKey 3 else t

/-- LOAD and UNWRAP, when taken, run. -/
theorem keyStart_eq (s : State) (k : Nat) (cmd : KeyCmd) :
    s.keyStart k cmd = s.keyTaken k { s with keyCmd := some cmd, keyResult := 0 } := rfl

/-- CLEAR, when taken, empties the slot at once. -/
theorem keyClear_eq (s : State) (k : Nat) : s.keyClear k = s.keyTaken k (({ s with keys := merase s.keys k } : State).endKey 1) := rfl

/-- A key command that finds another, or an erase, in progress. -/
theorem keyTaken_barred (h : s.keyCmd ≠ none ∨ s.dev.eraseBusy = true) (k : Nat) (t : State) :
    s.keyTaken k t = { s with keyResult := 4 } := by
  have barred : s.keyBarred = true := by rwa [State.keyBarred, Bool.or_eq_true, Option.isSome_iff_ne_none]
  exact if_pos barred

section
variable (hc : s.keyCmd = none) (he : s.dev.eraseBusy = false)
include hc he

/-- Where neither is in progress no key command is barred. -/
theorem keyBarred_false : ¬ s.keyBarred = true := by simp [State.keyBarred, hc, he]

/-- A key command for a slot that a context names. -/
theorem keyTaken_named {k : Nat} (hn : s.keyNamed k = true) (t : State) : s.keyTaken k t = s.endKey 3 :=
  (if_neg (keyBarred_false hc he)).trans (if_pos hn)

/-- A key command for a slot that no context names. -/
theorem keyTaken_free {k : Nat} (hn : s.keyNamed k = false) (t : State) : s.keyTaken k t = t :=
  (if_neg (keyBarred_false hc he)).trans (if_neg (Bool.eq_false_iff.mp hn))

end

/-- KEY_BUF takes no write while a key command runs. -/
theorem keyPut_running (h : s.keyCmd ≠ none) (i : Nat) (v : DWord) : s.keyPut i v = { s with keyResult := 4 } :=
  if_pos (Option.isSome_iff_ne_none.mpr h)

/-- It takes one while none does. -/
theorem keyPut_takes (h : s.keyCmd = none) (i : Nat) (v : DWord) : s.keyPut i v = { s with keyBuf := s.keyBuf.set i v } :=
  if_neg (by rw [h]; exact Bool.false_ne_true)

/-- No key command ends while none runs. -/
theorem keyCmdDone_none (h : s.keyCmd = none) : doKeyCmdDone s = s := by simp only [doKeyCmdDone, h]

section
variable {k : Nat} {cmd : KeyCmd} (h : s.keyCmd = some cmd) (hk : cmd = .load k ∨ cmd = .unwrap k)
include h hk

/-- A key command that has its material puts the key in its slot, unless both halves are the same or debug is open (R459, R464). -/
theorem keyCmdDone_material {x : KeySlot} (hx : s.keyMaterial cmd = some x) : doKeyCmdDone s =
    if x.k1 = x.k2 ∨ s.dev.debugOpen = true then ({ s with keys := merase s.keys k } : State).endKey 2
    else ({ s with keys := mset s.keys k x } : State).endKey 1 := by
  rcases hk with rfl | rfl <;> simp only [doKeyCmdDone, h, hx, Bool.or_eq_true, beq_iff_eq] <;> rfl

/-- One that has none leaves the slot without a key. -/
theorem keyCmdDone_no_material (hx : s.keyMaterial cmd = none) :
    doKeyCmdDone s = ({ s with keys := merase s.keys k } : State).endKey 2 := by
  rcases hk with rfl | rfl <;> simp only [doKeyCmdDone, h, hx] <;> rfl

end

/-- UNWRAP has no material while the secret sector is not valid (R464). -/
theorem keyMaterial_unwrap_invalid (h : secValid 63 (sectorBytes s.nvm 63) = false) (k : Nat) : s.keyMaterial (.unwrap k) = none :=
  if_neg (by rw [h]; exact Bool.false_ne_true)

end

/-- Settles O54: the key commands by what stands in their way, writes of KEY_BUF by whether a command runs, and the end of a command by
its material. -/
theorem keySlots : Obligations.KeySlots := by
  refine ⟨fun s k hs => ?_,
    fun s i v hs => ⟨fun hc => hostWrite_next hs (keyPut_running hc i v), fun hc => hostWrite_next hs (keyPut_takes hc i v)⟩,
    fun s hc => congrArg Host.Outcome.next (keyCmdDone_none hc), fun s k cmd hc hk => ⟨fun x hx hd ho => ?_, fun x hx hf => ?_, fun hx => ?_⟩,
    fun _ _ => rfl, fun s k hv => keyMaterial_unwrap_invalid hv k⟩
  · have start : ∀ cmd {u}, s.keyTaken k { s with keyCmd := some cmd, keyResult := 0 } = u →
        Host.Outcome.next (s.hostWrite (fun s => s.keyStart k cmd)) = .next u.settleAll := fun cmd _ h =>
      hostWrite_next hs ((keyStart_eq s k cmd).trans h)
    have clear : ∀ {u}, s.keyTaken k (({ s with keys := merase s.keys k } : State).endKey 1) = u →
        exec (.keyClear k) s = .next u.settleAll := fun h => hostWrite_next hs ((keyClear_eq s k).trans h)
    refine ⟨fun hb => ?_, fun hc he hn => ?_, fun hc he hn => ?_⟩
    · have barred := keyTaken_barred hb k
      exact ⟨start _ (barred _), start _ (barred _), clear (barred _)⟩
    · have named := keyTaken_named hc he hn
      exact ⟨start _ (named _), start _ (named _), clear (named _)⟩
    · have free := keyTaken_free hc he hn
      exact ⟨start _ (free _), start _ (free _), clear (free _)⟩
  · exact congrArg Host.Outcome.next ((keyCmdDone_material hc hk hx).trans (if_neg (by simp [hd, ho])))
  · exact congrArg Host.Outcome.next ((keyCmdDone_material hc hk hx).trans (if_pos hf))
  · exact congrArg Host.Outcome.next (keyCmdDone_no_material hc hk hx)

end Sys2Proof.Machine
end

section
/-! PROOFS. The statement of 15_multi_instance_domains: packets at the holder and at the origin (O45), after the facts about the
operations that it rests on. -/
namespace Sys2Proof.Machine

/-! ### Packets that are heard, and those that are not -/

section
variable {s : State} {hdr : Rec64}

/-- A packet that is discarded is logged with a port that is left open (R476, R490). -/
theorem fwdBad_port (s : State) (hdr : Rec64) : ∃ port < 4, s.fwdBad hdr =
    (({ s with freeCtr := s.freeCtr + 1 } : State).count 68 1).report 0x31 1 noUnit port noUnit (pSrc hdr ||| 2 ^ 16 * pType hdr) :=
  ⟨(Config.freeWord s.freeCtr).toNat % 4, Nat.mod_lt _ (by decide), rfl⟩

/-- A sender whose cycles are counted is heard: its count is 0 again (R484). -/
theorem heardFrom_watched {d n : Nat} (h : mget s.watch d = some n) : s.heardFrom d = { s with watch := mset s.watch d 0 } :=
  if_pos (by rw [h]; rfl)

/-- One whose cycles are not counted changes nothing. -/
theorem heardFrom_unwatched {d : Nat} (h : mget s.watch d = none) : s.heardFrom d = s := if_neg (by rw [h]; exact Bool.false_ne_true)

/-- A heartbeat is due to an origin whose queries are held when nothing has gone there for 262,144 cycles (R484). -/
theorem heartbeatSend_due {d : Nat} (hh : s.holdsFor d = true) (hb : 262144 ≤ mgetD s.beats d 0) :
    doHeartbeatSend d s = s.sendPacket (fwdHeader s 6 1 0 d d 0 0 0 0 0) none [] := by
  rw [doHeartbeatSend, hh, if_neg (by decide), if_neg (Nat.not_lt.mpr hb)]

/-- The cycles are counted no more for an origin none of whose queries is held. -/
theorem heartbeatSend_none {d : Nat} (hh : s.holdsFor d = false) : doHeartbeatSend d s = { s with beats := merase s.beats d } :=
  if_pos (by rw [hh]; rfl)

/-! ### The holder -/

/-- The query image of a packet, its reserved bits ignored (R4, R477). -/
def receivedImage (q : QueryImage) : QueryImage := { q with record := withDepth q.record (fld q.record 52 8) }

/-- What the holder makes of a query for which it has the descriptors: it takes a pool slot, or goes to the overflow area, or waits. -/
def State.holdQuery (s : State) (hdr : Rec64) (q : QueryImage) : State :=
  ((s.takeForwarded hdr q).or (s.writeForwarded hdr q)).elim s (fun t => (t.count 66 1).keepBeat (pOrigin hdr))

/-- A QUERY packet that is heard, by what stands in its way (R477). -/
theorem queryPacket_heard {q : QueryImage} (hh : s.hears hdr 1 (3 + 4 * (q.data.length + collUnitCount q.record)))
    (hd : pArg1 hdr % 256 = q.data.length) (hc : pArg1 hdr / 256 % 256 = collUnitCount q.record) : doQueryPacket hdr q s =
      let u := s.heardFrom (pSrc hdr)
      let c := pCtx hdr
      let n := walkIndex (receivedImage q).record
      if pIdent hdr ≠ identWord then u.nackTo hdr 3
      else if 4096 ≤ c ∨ (u.ctx c).state ≠ .opened then u.nackTo hdr 1
      else if u.sceneUnread c (pScene hdr) then u.askScene c (pScene hdr)
      else if (u.bound c (pScene hdr)).map sSharded ≠ some true then u.nackTo hdr 2
      else if mget (u.ctx c).walks n = none then u.askWalk c n
      else u.holdQuery hdr (receivedImage q) := by
  have sharded : ∀ o : Option Bool, (!o.getD false) = true ↔ o ≠ some true := by decide
  unfold doQueryPacket
  simp only [hd, hc, and_self, if_true, onPacket_ok hh]
  have takes : ∀ c (x : CtxState), (decide (4096 ≤ c) || x != .opened) = true ↔ 4096 ≤ c ∨ x ≠ .opened := by simp
  refine if_congr bne_iff_ne rfl (if_congr (takes _ _) rfl (if_congr Iff.rfl rfl (if_congr (sharded _) rfl ?_)))
  refine if_congr Option.isNone_iff_eq_none rfl ?_
  unfold State.holdQuery receivedImage
  cases (s.heardFrom (pSrc hdr)).takeForwarded hdr { q with record := withDepth q.record (fld q.record 52 8) } with
  | some t => rfl
  | none => cases (s.heardFrom (pSrc hdr)).writeForwarded hdr { q with record := withDepth q.record (fld q.record 52 8) } <;> rfl

/-! ### The origin -/

section
variable {p : Nat} {q : Query} {rs : List Rec32}

/-- What has come of a query after records i on of its chain, which is announced with n emissions (R481). -/
def FwdRx.withRecs (f : FwdRx) (i n : Nat) (rs : List Rec32) : FwdRx :=
  { recs := (List.range rs.length).foldl (fun m k => mset m (i + k) (nth rs k 0)) f.recs, emits := f.emits, expect := some n }

/-- A chain that is not whole is not delivered. -/
theorem settleForward_waits (h : mget s.pool p = some q) (hc : q.fwd.chain = none) : s.settleForward p = s := by
  simp only [State.settleForward, h, hc]

/-- One that is whole goes to the collector (R481). -/
theorem settleForward_delivers (h : mget s.pool p = some q) {l : List Rec32} (hc : q.fwd.chain = some l) : s.settleForward p =
    (({ s with
      fwdWait := s.fwdWait.filter (· != p)
      pool := mset s.pool p { q with place := .ending }
      fwdQ := s.fwdQ ++ [chainItem q.ctx (some p) q.record q.cls (fld (nth l 0 0) 4 8) l] } : State).writeSpine collLine).settleWatch := by
  have ends := modQuery_some (s := { s with fwdWait := s.fwdWait.filter (· != p) }) h (fun q => q.at .ending)
  simp only [State.settleForward, h, hc, ends]
  rfl

/-- A RESULT for no Forwarded query is discarded (R482). -/
theorem resultPacket_unknown (hl : rs.length ≤ 64) (hh : s.hears hdr 2 (recFlits rs.length))
    (hf : (s.heardFrom (pSrc hdr)).forwarded hdr = none) : doResultPacket hdr rs s = (s.heardFrom (pSrc hdr)).fwdDiscard hdr := by
  rw [doResultPacket, if_pos hl, onPacket_ok hh, hf]

/-- The records of a RESULT are kept, and the chain is settled (R481). -/
theorem resultPacket_known (hl : rs.length ≤ 64) (hh : s.hears hdr 2 (recFlits rs.length))
    (hf : (s.heardFrom (pSrc hdr)).forwarded hdr = some (p, q)) : doResultPacket hdr rs s =
      let u := s.heardFrom (pSrc hdr)
      ({ u with pool := mset u.pool p { q with fwd := q.fwd.withRecs (pArg0 hdr) (pArg1 hdr) rs } } : State).settleForward p := by
  rw [doResultPacket, if_pos hl, onPacket_ok hh, hf]
  exact congrArg (fun t => State.settleForward t p) (modQuery_some (forwarded_get hf) _)

/-- An EMIT for no Forwarded query is discarded (R482). -/
theorem emitPacket_unknown (hl : rs.length = pArg0 hdr) (hh : s.hears hdr 3 (recFlits rs.length))
    (hf : (s.heardFrom (pSrc hdr)).forwarded hdr = none) : doEmitPacket hdr rs s = (s.heardFrom (pSrc hdr)).fwdDiscard hdr := by
  rw [doEmitPacket, if_pos hl, onPacket_ok hh, hf]

/-- The emissions of an EMIT go to the collector under the words of their query, whose chain is not whole yet (R481). -/
theorem emitPacket_known (hl : rs.length = pArg0 hdr) (hh : s.hears hdr 3 (recFlits rs.length))
    (hf : (s.heardFrom (pSrc hdr)).forwarded hdr = some (p, q))
    (hc : ({ q.fwd with emits := q.fwd.emits + rs.length } : FwdRx).chain = none) : doEmitPacket hdr rs s =
      let u := s.heardFrom (pSrc hdr)
      ({ u with
        pool := mset u.pool p { q with fwd := { q.fwd with emits := q.fwd.emits + rs.length } }
        fwdQ := u.fwdQ ++ [.emits q.ctx (qDelivery q.record) q.cls
          (rs.map (fun e => (qTag q.record, qUser0 q.record, qUser1 q.record, e))) [p]] } : State).writeSpine collLine := by
  rw [doEmitPacket, if_pos hl, onPacket_ok hh, hf]
  dsimp only
  rw [modQuery_some (forwarded_get hf)]
  refine settleForward_waits (q := { q with fwd := { q.fwd with emits := q.fwd.emits + rs.length } }) ?_ hc
  obtain ⟨i, same⟩ := writeSpine_same (State.putItem _ .forward q.cls _) collLine
  rw [State.toSource, same]
  exact mget_mset_self _ _ _

/-- A HANDOFF for no Forwarded query is discarded (R482). -/
theorem handoff_unknown (hh : s.hears hdr 4 1) (hf : (s.heardFrom (pSrc hdr)).forwarded hdr = none) :
    doHandoff hdr s = (s.heardFrom (pSrc hdr)).fwdDiscard hdr := by
  rw [doHandoff, onPacket_ok hh, hf]

/-- A HANDOFF changes the holder, whose cycles are counted if there is room for their count (R484). -/
theorem handoff_known (hh : s.hears hdr 4 1) (hf : (s.heardFrom (pSrc hdr)).forwarded hdr = some (p, q)) : doHandoff hdr s =
    let u := s.heardFrom (pSrc hdr)
    let d := pArg0 hdr % 2 ^ 17
    let v := ({ u with pool := mset u.pool p { q with place := .forwarded d } } : State).settleWatch
    if mget v.watch d = none ∧ v.watch.length < 4096 then { v with watch := mset v.watch d 0 } else v := by
  rw [doHandoff, onPacket_ok hh, hf]
  dsimp only
  rw [modQuery_some (forwarded_get hf)]
  exact if_congr (Bool.and_eq_true_iff.trans (and_congr Option.isNone_iff_eq_none decide_eq_true_iff)) rfl rfl

/-- A NACK for no Forwarded query is counted (R483). -/
theorem nack_unknown (hh : s.hears hdr 5 1) (hf : (s.heardFrom (pSrc hdr)).forwarded hdr = none) :
    doNack hdr s = (s.heardFrom (pSrc hdr)).count 67 1 := by
  rw [doNack, onPacket_ok hh]
  dsimp only
  rw [fwd_count, hf]

/-- The lost set after a NACK with a cause (R483, R485). -/
def State.nackLost (s : State) (cause src c : Nat) : State :=
  if cause = 3 then s.addLost src none else if cause = 1 ∨ cause = 2 ∨ cause = 4 then s.addLost src (some c) else s

/-- A NACK is reported, enters the lost set as its cause says, and ends its query (R483). -/
theorem nack_known (hh : s.hears hdr 5 1) (hf : (s.heardFrom (pSrc hdr)).forwarded hdr = some (p, q)) : doNack hdr s =
    let v := ((s.heardFrom (pSrc hdr)).count 67 1).report 0x32 2 q.ctx noUnit noUnit (pSrc hdr + 2 ^ 32 * (pArg0 hdr % 256))
    let w := v.nackLost (pArg0 hdr) (pSrc hdr) q.ctx
    (({ w with fwdWait := w.fwdWait.filter (· != p) } : State).finishErr p stFORWARD_LOST errSHARD_LOST .forward).settleWatch := by
  rw [doNack, onPacket_ok hh]
  dsimp only
  rw [fwd_count, hf]
  rfl

end

end

/-- A holder from which nothing has come for 1,048,576 cycles is lost, with every query there (R484). -/
theorem watchdogExpire_expires {s : State} {d : Nat} (h : 1048576 ≤ mgetD s.watch d 0) : doWatchdogExpire d s =
    (((foldS ((s.pool.filter (fun e => e.2.place == .forwarded d && !s.fwdWait.contains e.1)).map (·.1)) s
      (fun u p => u.finishErr p stFORWARD_LOST errFORWARD_TIMEOUT .forward)).addLost d none).report 0x30 1 noUnit noUnit noUnit d
      ).settleWatch :=
  if_neg (Nat.not_lt.mpr h)

/-- An entry joins the lost set unless it stands there, or the set is full (R485). -/
theorem addLost_eq (s : State) (inst : Nat) (c : Option Nat) : s.addLost inst c =
    if s.lost.any (fun e => e.2 == { inst := inst, ctx := c }) = true then s
    else (mfree s.lost 1024).elim (s.count 70 1) (fun i => { s with lost := mset s.lost i { inst := inst, ctx := c } }) := by
  unfold State.addLost
  refine if_congr Iff.rfl rfl ?_
  cases mfree s.lost 1024 <;> rfl

/-- Settles O45: packets that are not heard, then each packet by whether it names a Forwarded query, a QUERY by what stands in its way
(`queryPacket_heard`), and the counts of cycles and the lost set. -/
theorem packets : Obligations.Packets := by
  unfold Obligations.Packets
  refine ⟨⟨fun s hdr q rs h => ?_, fun s hdr h => ?_, fun s hdr hh => ?_,
    fun s d => ⟨fun n h => heardFrom_watched h, heardFrom_unwatched⟩,
    fun s d => ⟨fun hh hb => ?_, fun hh hb => ?_, fun hh => ?_⟩, fun s hdr q => ?_⟩,
    fun s hdr => ?_, fun s hdr p q => ?_,
    fun s d => ⟨fun h => ?_, fun h => ?_⟩, fun s inst c => ⟨fun h => ?_, fun i h hi => ?_, fun h hn => ?_⟩⟩
  · have off := fun {t f} act =>
      congrArg (Host.Outcome.next (φ := Fault) (ρ := Refusal)) (onPacket_off (hdr := hdr) (t := t) (f := f) h act)
    have query : doQueryPacket hdr q s = s := by
      unfold doQueryPacket
      exact onPacket_off h _
    exact ⟨congrArg _ query, off _, off _, off _, off _, off _, off _, off _⟩
  · have bad := fun {t} act (hb : s.packetBad hdr t 1 = true) =>
      congrArg (Host.Outcome.next (φ := Fault) (ρ := Refusal)) (onPacket_bad h hb act)
    exact ⟨bad _, bad _, bad _, bad _, bad _, fwdBad_port s hdr⟩
  · exact congrArg Host.Outcome.next (onPacket_ok hh _)
  · exact congrArg Host.Outcome.next (heartbeatSend_due hh hb)
  · exact congrArg Host.Outcome.next (heartbeat_early hh hb)
  · exact congrArg Host.Outcome.next (heartbeatSend_none hh)
  · intro u hh hd hc c r no
    have heard := congrArg (Host.Outcome.next (φ := Fault) (ρ := Refusal)) (queryPacket_heard hh hd hc)
    have takes : c < 4096 → (u.ctx c).state = .opened → ¬ (4096 ≤ c ∨ (u.ctx c).state ≠ .opened) := by
      rintro hlt ho (h | h)
      · exact Nat.not_le.mpr hlt h
      · exact h ho
    refine ⟨fun hi => ?_, fun hi hn => ?_, fun hi hlt ho hr hs => ?_, fun b p du cu ext hi hlt ho hr hs hw hb hm hp ha => ?_⟩
    · exact heard.trans (congrArg _ (if_pos hi))
    · exact heard.trans (congrArg _ ((if_neg (not_not.mpr hi)).trans (if_pos hn)))
    · exact heard.trans (congrArg _ ((if_neg (not_not.mpr hi)).trans ((if_neg (takes hlt ho)).trans
        ((if_neg (Bool.eq_false_iff.mp hr)).trans (if_pos hs)))))
    · refine heard.trans (congrArg _ ((if_neg (not_not.mpr hi)).trans ((if_neg (takes hlt ho)).trans
        ((if_neg (Bool.eq_false_iff.mp hr)).trans ((if_neg (not_not.mpr hs)).trans ((if_neg ?_).trans ?_))))))
      · exact fun h => absurd (hw.symm.trans h) (Option.some_ne_none _)
      · rw [State.holdQuery, take_fwd u hdr (receivedImage q) b p du cu ext hw hb hm hp ha]
        rfl
  · intro u drop hf
    refine ⟨fun hh => ?_, fun hh => ?_, fun rs hl hh => ?_, fun rs hl hh => ?_⟩
    · exact congrArg Host.Outcome.next (handoff_unknown hh hf)
    · exact congrArg Host.Outcome.next (nack_unknown hh hf)
    · exact congrArg Host.Outcome.next (resultPacket_unknown hl hh hf)
    · exact congrArg Host.Outcome.next (emitPacket_unknown hl hh hf)
  · intro u hf
    refine ⟨fun rs hl hh => ?_, fun rs hl hh => ?_, fun hh => ?_, fun hh => ?_⟩
    · intro rx y v
      have kept : mget v.pool p = some y := mget_mset_self _ _ _
      have known := congrArg (Host.Outcome.next (φ := Fault) (ρ := Refusal)) (resultPacket_known hl hh hf)
      exact ⟨fun hc => known.trans (congrArg _ (settleForward_waits kept hc)),
        fun l hc => known.trans (congrArg _ (settleForward_delivers kept hc))⟩
    · exact fun hc => congrArg Host.Outcome.next (emitPacket_known hl hh hf hc)
    · intro d v
      have known := congrArg (Host.Outcome.next (φ := Fault) (ρ := Refusal)) (handoff_known hh hf)
      refine ⟨fun hn hlt => known.trans (congrArg _ (if_pos ⟨hn, hlt⟩)), fun h => known.trans (congrArg _ (if_neg ?_))⟩
      rintro ⟨hn, hlt⟩
      exact h.elim (fun hw => hw hn) (fun hle => Nat.not_le.mpr hlt hle)
    · intro v lose
      have known := congrArg (Host.Outcome.next (φ := Fault) (ρ := Refusal)) (nack_known hh hf)
      refine ⟨fun h3 => known.trans (congrArg lose (if_pos h3)), fun h => known.trans (congrArg lose ((if_neg ?_).trans (if_pos h)))⟩
      omega
  · exact congrArg Host.Outcome.next (watchdog_early h)
  · exact congrArg Host.Outcome.next (watchdogExpire_expires h)
  · exact (addLost_eq s inst c).trans (if_pos h)
  · rw [addLost_eq, if_neg (Bool.eq_false_iff.mp h), hi]
    rfl
  · rw [addLost_eq, if_neg (Bool.eq_false_iff.mp h), hn]
    rfl

end Sys2Proof.Machine
end

section
/-! PROOFS. The statements of 16_integration: the NVM window (O43), power and bring-up (O51), FROST and THAW of groves (O52) and the
service chain (O50), each after the facts about the operations that it rests on. -/
namespace Sys2Proof.Machine

/-! ### The NVM window -/

section
variable {s : State}

/-- A read of NVM_DATA at READY gives the staged word and moves the pointer on, or a retry where the sector is not loaded (R509). -/
theorem nvmDataRead_ready (h : s.dev.stage = .ready) :
    doNvmDataRead s = if s.ptrLoaded then (s.emit (.regData s.nvmWord)).advancePtr else s.emit .retry := by
  simp only [doNvmDataRead, h]

/-- A store of the sector that NVM_PTR names is under way. -/
def State.ptrStoring (s : State) : Bool := s.dev.nvmBusy.any (fun st => st.sector == s.dev.nvmPtr / 4096)

/-- A word for a sector that is being stored sets STAGE_BUSY; any other that the register port writes goes to its sector, unless this is
0, 62 or 63 (R511). -/
theorem nvmPut_port (s : State) (v : DWord) : s.nvmPut false v =
    if s.ptrStoring = true then ({ s with dev := { s.dev with stageBusy := true } } : State).advancePtr
    else if s.dev.nvmPtr / 4096 = 0 ∨ s.dev.nvmPtr / 4096 = 62 ∨ s.dev.nvmPtr / 4096 = 63 then s.advancePtr
    else ({ s with staged := memWriteBytes s.staged s.dev.nvmPtr (bytesOf v 8) } : State).advancePtr := by
  refine if_congr ?_ rfl (if_congr ?_ rfl rfl)
  · unfold State.ptrStoring
    cases s.dev.nvmBusy <;> rfl
  · simp
    tauto

/-- An access to another register than NVM_DATA is never early (R509). -/
theorem nvmEarly_false {o : Nat} (h : o ≠ 0x6008) : s.nvmEarly o = false := by simp [State.nvmEarly, h]

/-- The load of the sectors 25 to 61, after which a store that waited has begun (R509). -/
theorem stagedNvmLoad_loads (h : s.dev.stage = .ready) (hl : s.dev.stageLoaded = false) : doStagedNvmLoad s = { s with
    staged := spliceSectors s.staged 25 37 (sectorCells s.nvm 25 37)
    dev := { s.dev with stageLoaded := true, nvmBusy := s.dev.nvmBusy.map (fun st => { st with started := true }) } } := by
  have loads : ¬ (s.dev.stage != .ready || s.dev.stageLoaded) = true := by simp [h, hl]
  exact if_neg loads

end

/-- Settles O43: a read and a write of NVM_DATA by whether the sector is loaded, stored or kept, a word by its bytes, and the load of
sectors by `splice_read`. -/
theorem nvmWindow : Obligations.NvmWindow := by
  refine ⟨fun s hs => ?_, fun s v hs => ?_, fun m p v h => ⟨?_, fun a ha => ?_⟩, fun s hs hl hw hn => ?_⟩
  · intro p word on storing
    have read := congrArg (Host.Outcome.next (φ := Fault) (ρ := Refusal)) (nvmDataRead_ready hs)
    refine ⟨fun hl => read.trans (congrArg _ (if_pos hl)),
      fun hl => ⟨read.trans (congrArg _ (if_neg (Bool.eq_false_iff.mp hl))),
        fun v => hostWrite_next hs (if_neg (Bool.eq_false_iff.mp hl))⟩,
      fun v hl hb => hostWrite_next hs ((if_pos hl).trans ((nvmPut_port s v).trans (if_pos hb))), fun v hl hb => ?_⟩
    have put := (nvmPut_port s v).trans (if_neg (Bool.eq_false_iff.mp hb))
    refine ⟨fun hk => hostWrite_next hs ((if_pos hl).trans (put.trans (if_pos hk))),
      fun h0 h62 h63 => hostWrite_next hs ((if_pos hl).trans (put.trans (if_neg ?_)))⟩
    rintro (h | h | h) <;> contradiction
  · constructor
    · refine congrArg Host.Outcome.next ?_
      simp only [doNvmDataRead, hs]
    · refine congrArg Host.Outcome.next ?_
      simp only [State.hostWrite, hs]
  · rw [read8 m p v h, bytes8]
  · rw [memRead_bytes m p _ h, if_neg (by rw [bytesOf_length]; omega)]
  · exact ⟨_, congrArg Host.Outcome.next (stagedNvmLoad_loads hs hl),
      spliceSectors_wf 25 37 hw (sectorCells_wf 25 37 hn) (fun _ => sectorCells_mem), splice_read _ _ hw hn⟩

/-! ### Power and bring-up -/

section
variable {s : State}

/-- The rise of EZ_PORST_N is heard of a block that is held or off (R494). -/
theorem powerOnReset_eq (s : State) (en : BitVec 16) (svc : Bool) : doPowerOnReset en svc s =
    if s.dev.stage = .held ∨ s.dev.stage = .off then s.bringup .pll en svc else s := by
  simp only [doPowerOnReset, Bool.or_eq_true, beq_iff_eq]

/-- With PLL_LOCK the clocks start (R499). -/
theorem pllLock_eq (s : State) : doPllLock s =
    if s.dev.stage = .pll then { s with dev := { s.dev with stage := .bringup, fab := 0 } } else s := by
  simp only [doPllLock, beq_iff_eq, State.modDev]

/-- The fall of EZ_PORST_N is heard of a block that is not off (R502). -/
theorem porstFall_eq (s : State) : doPorstFall s = if s.dev.stage = .off then s else s.breakStore.bringup .held 0 false := by
  simp only [doPorstFall, beq_iff_eq]

/-- Without a store in progress none is broken. -/
theorem breakStore_none (h : s.dev.nvmBusy = none) : s.breakStore = s := by
  simp only [State.breakStore, h]

/-- The bytes left of a sector whose store is broken: free ones, of which the first is not that of a valid header (R510). -/
def brokenSector (free : List Byte) : List Byte := (if nth free 0 0 == 1 then (0 : Byte) else nth free 0 0) :: free.drop 1

/-- A sector that is spoilt holds what is known of free bytes. -/
theorem spoilNvm_holds (s : State) (n : Nat) (f : List Byte → List Byte) : ∃ free, s.spoilNvm n f =
    { s with nvm := setSector s.nvm n (f free), freeCtr := s.freeCtr + 512 } := by
  obtain ⟨free, drawn⟩ := drawBytes_eq 512 s
  refine ⟨free, ?_⟩
  unfold State.spoilNvm
  rw [drawn]
  rfl

/-- A store that has begun is broken: its sector holds bytes that are not known. -/
theorem breakStore_started {st : Store} (h : s.dev.nvmBusy = some st) (hs : st.started = true) : ∃ free, s.breakStore =
    { s with nvm := setSector s.nvm st.sector (brokenSector free), freeCtr := s.freeCtr + 512 } := by
  obtain ⟨free, spoilt⟩ := spoilNvm_holds s st.sector brokenSector
  refine ⟨free, Eq.trans ?_ spoilt⟩
  unfold State.breakStore
  rw [h]
  exact if_pos hs

/-- The first byte of a broken sector is none of a valid header (R507, R510). -/
theorem memRead_broken {m : List Host.Cell} (h : Memory.wf m = true) (n : Nat) (free : List Byte) :
    memRead (setSector m n (brokenSector free)) (4096 * n) ≠ 1 := by
  rw [set_read _ _ _ h, if_pos (by omega), cells_read, if_pos (by simp [brokenSector]), Nat.sub_self]
  show (if nth free 0 0 == 1 then (0 : Byte) else nth free 0 0) ≠ 1
  split
  · decide
  · next hne => simpa using hne

/-- The bytes of other sectors stay as they were. -/
theorem memRead_setSector_other {m : List Host.Cell} (h : Memory.wf m = true) {n a : Nat} (ha : a < 4096 * n ∨ 4096 * (n + 1) ≤ a)
    (bs : List Byte) : memRead (setSector m n bs) a = memRead m a := by
  rw [set_read _ _ _ h, if_neg (by omega)]

/-- The end of bring-up is heard during it (R499); a RESET of the chain that brought it about is complete then (R501). -/
theorem bringupReady_eq (s : State) (bad : List BankNo) : doBringupReady bad s =
    if s.dev.stage = .bringup then
      let t := (foldS bad s.loadStaged.setReady.loadMaps.loadConfig (fun v b => v.bringupKat b)).settleService
      if t.chainLong = some .reset then t.releaseChain else t
    else s := by
  simp only [doBringupReady, bne_iff_ne, ne_eq, ite_not, beq_iff_eq]

/-- Without a valid copy the repair maps stay the default ones (R157, R508). -/
theorem loadMaps_none (h : pairCopy s.nvm 1 2 1 = none) : s.loadMaps = s := by
  simp only [State.loadMaps, h]

/-- Without a valid copy no configuration is loaded (R508). -/
theorem loadConfig_none (h : pairCopy s.nvm 3 4 1 = none) : s.loadConfig = s := by
  simp only [State.loadConfig, h]

/-- OFF is taken with every context CLOSED and NVM at rest, and gives the lines up (R504). -/
theorem pwrOff_eq (s : State) : s.pwrOff =
    if s.dev.pwrState = 2 then s
    else if s.allClosed = true ∧ s.nvmWorking = false then
      ({ s with dev := { s.dev with pwrState := 2, pwrLastCmd := 1 } } : State).expelLines
    else { s with dev := { s.dev with pwrLastCmd := 2 } } := by
  simp only [State.pwrOff, Bool.and_eq_true, Bool.not_eq_true', State.modDev]

/-- It completes once no line is left (R504). -/
theorem offReady_eq (s : State) : doOffReady s =
    if s.dev.pwrState = 2 ∧ s.noLines = true then { s with dev := { s.dev with offReady := true } } else s := by
  simp only [doOffReady, Bool.and_eq_true, beq_iff_eq, State.modDev]

end

/-- Settles O51, stage by stage: each event by whether it is heard, a store that power breaks by the bytes of its sector, and OFF by what
stands in its way. -/
theorem powerStages : Obligations.PowerStages := by
  unfold Obligations.PowerStages
  intro start
  refine ⟨fun s en svc => ⟨fun h => ?_, fun hh ho => ?_⟩, fun s => ⟨fun h => ?_, fun h => ?_⟩,
    fun s => ⟨fun h => ?_, fun h hb => ?_, fun hb => ?_, fun st hb hs hw => ?_⟩,
    fun s bad => ⟨fun h => ?_, fun h => ?_, loadMaps_none, loadConfig_none⟩,
    fun s hs => ⟨fun hp hc hn => ?_, fun hp hb => ?_, fun hp => ?_⟩,
    fun s => ⟨fun hp hn => ?_, fun hn => ?_⟩⟩
  · exact congrArg Host.Outcome.next ((powerOnReset_eq s en svc).trans (if_pos h))
  · exact congrArg Host.Outcome.next ((powerOnReset_eq s en svc).trans (if_neg (by simp [hh, ho])))
  · exact congrArg Host.Outcome.next ((pllLock_eq s).trans (if_pos h))
  · exact congrArg Host.Outcome.next ((pllLock_eq s).trans (if_neg h))
  · exact congrArg Host.Outcome.next ((porstFall_eq s).trans (if_pos h))
  · refine congrArg Host.Outcome.next ((porstFall_eq s).trans ((if_neg h).trans ?_))
    rw [breakStore_none hb]
    rfl
  · exact congrArg (fun t => Host.Outcome.next (State.bringup t .off 0 false)) (breakStore_none hb)
  · obtain ⟨free, broken⟩ := breakStore_started hb hs
    refine ⟨_, fun h => congrArg Host.Outcome.next ((porstFall_eq s).trans ((if_neg h).trans ?_)), ?_, memRead_broken hw st.sector free,
      fun a ha => memRead_setSector_other hw ha _⟩
    · exact congrArg (fun t => State.bringup t .held 0 false) broken
    · exact congrArg (fun t => Host.Outcome.next (State.bringup t .off 0 false)) broken
  · exact congrArg Host.Outcome.next ((bringupReady_eq s bad).trans (if_neg h))
  · exact congrArg Host.Outcome.next ((bringupReady_eq s bad).trans (if_pos h))
  · exact hostWrite_next hs ((pwrOff_eq s).trans ((if_neg hp).trans (if_pos ⟨hc, hn⟩)))
  · refine hostWrite_next hs ((pwrOff_eq s).trans ((if_neg hp).trans (if_neg ?_)))
    rintro ⟨hc, hn⟩
    rcases hb with h | h
    · rw [h] at hc; cases hc
    · rw [h] at hn; cases hn
  · exact hostWrite_next hs ((pwrOff_eq s).trans (if_pos hp))
  · exact congrArg Host.Outcome.next ((offReady_eq s).trans (if_pos ⟨hp, hn⟩))
  · exact congrArg Host.Outcome.next ((offReady_eq s).trans (if_neg (fun h => absurd h.2 (Bool.eq_false_iff.mp hn))))

/-! ### Groves -/

section
variable {s : State} {g : Nat}

/-- A command to a grove acts in the READY state, settles, and may end a long chain command. -/
theorem groveCmd_next {u : State} {act : State → State} (hs : s.dev.stage = .ready) (h : act s = u) :
    (.next (s.hostWrite act).settleChain : Host.Outcome State Fault Refusal) = .next u.settleAll.settleChain := by
  rw [host_ready hs, h]

/-- FROST of a grove in RUN starts a drain, unless no other is in RUN (R512). -/
theorem frost_run (h : (s.grove g).state = .run) :
    s.frost g = if s.otherRuns g then (s.startDrain g).settleService else s.modGrove g (fun x => { x with result := 2 }) := by
  simp only [State.frost, h, grDENIED]

/-- One in FROST stays there. -/
theorem frost_frost (h : (s.grove g).state = .frost) : s.frost g = s.modGrove g (fun x => { x with result := 1 }) := by
  simp only [State.frost, h, grOK]

/-- FROST leaves a grove that drains already, and an inactive one. -/
theorem frost_leaves (h : (s.grove g).state = .drain ∨ (s.grove g).state = .inactive) : s.frost g = s := by
  rcases h with h | h <;> simp only [State.frost, h]

/-- THAW leaves a grove in RUN there. -/
theorem thaw_run (h : (s.grove g).state = .run) : s.thaw g = s.modGrove g (fun x => { x with result := 1 }) := by
  simp only [State.thaw, h, grOK]

/-- It brings one in DRAIN back to RUN (R512). -/
theorem thaw_drain (h : (s.grove g).state = .drain) :
    s.thaw g = (s.modGrove g (fun x => { x with state := .run, result := 1 })).settleService := by
  simp only [State.thaw, h, grOK, State.setGrove]

/-- It starts the thaw of one in FROST (R515). -/
theorem thaw_frost (h : (s.grove g).state = .frost) : s.thaw g = s.modGrove g (fun x => { x with thawing := true, result := 0 }) := by
  simp only [State.thaw, h, grNONE]

/-- It leaves an inactive one. -/
theorem thaw_inactive (h : (s.grove g).state = .inactive) : s.thaw g = s := by
  simp only [State.thaw, h]

/-- A grove that enters FROST has lost its leaf cache and its leaf fills (R513, R514). -/
theorem enterFrost_eq (s : State) (g : Nat) : s.enterFrost g = (({ s with
    groves := s.groves.modify g (fun x => { x with state := .frost, result := 1, leafCache := [] })
    leafFills := s.leafFills.filter (fun f => f.grove != g) } : State).cancelXfers (fun w =>
      match w with | .leaf h _ => h == g | _ => false)).settleService := by
  have marks : (s.setGrove g .frost grOK).modGrove g (fun x => { x with leafCache := [] }) =
      s.modGrove g (fun x => { x with state := .frost, result := 1, leafCache := [] }) := by
    simp only [State.setGrove, State.modGrove, List.modify_modify_eq]
    rfl
  rw [State.enterFrost, marks]
  rfl

/-- The end of a drain is heard of a grove in DRAIN that is idle. -/
theorem drainComplete_eq (s : State) (g : Nat) : doGroveDrainComplete g s =
    if (s.grove g).state = .drain ∧ s.groveIdle g = true then (s.enterFrost g).settleChain else s := by
  simp only [doGroveDrainComplete, Bool.and_eq_true, beq_iff_eq]

/-- A drain ends too late after FROST_DRAIN_MAX cycles (R513). -/
theorem drainTimeout_late (hd : (s.grove g).state = .drain) (ht : (s.grove g).drainSince + s.dev.frostDrainMax.toNat ≤ s.now) :
    doFrostDrainTimeout g s = ((s.modGrove g (fun x => { x with state := .run, result := 3 })).count 71 1).settleService.settleChain :=
  if_pos (by simp [hd, ht])

/-- A thaw ends when no repair is under way (R515). -/
theorem thawComplete_eq (s : State) (g : Nat) : doThawComplete g s =
    if (s.grove g).thawing = true ∧ (s.grove g).repair = none then (s.finishThaw g).settleChain else s := by
  simp only [doThawComplete, Bool.and_eq_true, Option.isNone_iff_eq_none]

end

/-- Settles O52: FROST and THAW by the state of the grove, and the ends of a drain and of a thaw by what they wait for. -/
theorem groveService : Obligations.GroveService := by
  refine ⟨fun s g hs => ⟨?_, ?_, ?_, ?_, ?_, ?_, ?_, ?_⟩, fun s g hd => ⟨fun hi => ?_, fun hi => ?_, fun ht => ?_, fun ht => ?_⟩,
    fun s g hd => ⟨?_, ?_⟩, fun s g ht => ⟨fun hr => ?_, fun hr => ?_⟩⟩
  · exact fun h ho => groveCmd_next hs ((frost_run h).trans (if_pos ho))
  · exact fun h ho => groveCmd_next hs ((frost_run h).trans (if_neg (Bool.eq_false_iff.mp ho)))
  · exact fun h => groveCmd_next hs (frost_frost h)
  · exact fun h => groveCmd_next hs (frost_leaves h)
  · exact fun h => groveCmd_next hs (thaw_run h)
  · exact fun h => groveCmd_next hs (thaw_drain h)
  · exact fun h => groveCmd_next hs (thaw_frost h)
  · exact fun h => groveCmd_next hs (thaw_inactive h)
  · exact congrArg Host.Outcome.next
      ((drainComplete_eq s g).trans ((if_pos ⟨hd, hi⟩).trans (congrArg State.settleChain (enterFrost_eq s g))))
  · exact congrArg Host.Outcome.next ((drainComplete_eq s g).trans (if_neg (fun h => absurd h.2 (Bool.eq_false_iff.mp hi))))
  · exact congrArg Host.Outcome.next (drainTimeout_late hd ht)
  · exact congrArg Host.Outcome.next (frostDrain_early (.inr ht))
  · exact congrArg Host.Outcome.next ((drainComplete_eq s g).trans (if_neg (fun h => hd h.1)))
  · exact congrArg Host.Outcome.next (frostDrain_early (.inl hd))
  · exact congrArg Host.Outcome.next ((thawComplete_eq s g).trans (if_neg (fun h => hr h.2)))
  · exact congrArg Host.Outcome.next ((thawComplete_eq s g).trans (if_pos ⟨ht, hr⟩))

/-! ### Frames of the chain -/

section
variable {s : State} {f : Frame}

/-- Without clocks no frame is taken (R465). -/
theorem onFrame_unclocked (h : s.clocked = false) (k : Nat) : s.onFrame k f = s := by
  unfold State.onFrame State.takeFrame
  rw [h]
  exact ite_self _

/-- During a long command one frame is held, and later ones are lost (R469). -/
theorem onFrame_long (h : s.clocked = true) (hl : s.chainLong ≠ none) :
    s.onFrame (frOp f) f = if s.chainHeld = none then { s with chainHeld := some f } else s := by
  have clocks : ¬ (!s.clocked) = true := by simp [h]
  have long : s.chainLong.isSome = true := Option.isSome_iff_ne_none.mpr hl
  refine (if_pos rfl).trans ((if_neg clocks).trans ((if_pos long).trans ?_))
  exact if_congr Option.isNone_iff_eq_none rfl rfl

/-- ENUM takes the address away and counts the block (R467). -/
theorem frame_enum (h : frOp f = 1) : s.frame f = ({ s with dev := { s.dev with addressed := false, instId := 0 } } : State).repeatFrame
    (frAnswer (frWithData f ((frData f &&& ~~~ 0x3FFFF) ||| ((frData f + 1) &&& 0x3FFFF))) true 1) := by
  rw [State.frame, h]
  rfl

/-- ASSIGN gives the first block without an address the one in DATA, if this is one (R467). -/
theorem frame_assign (h : frOp f = 2) : s.frame f =
    if s.dev.addressed = true ∨ frStatus f ≠ 0 then s.repeatFrame f
    else if 2 ^ 17 ≤ (frData f).toNat then s.repeatFrame (frAnswer f false 4)
    else ({ s with dev := { s.dev with addressed := true, instId := (frData f).toNat } } : State).repeatFrame (frAnswer f false 1) := by
  rw [State.frame, h]
  exact if_congr (by simp) rfl (if_congr (by simp only [ne_eq, Nat.div_eq_zero_iff]; omega) rfl rfl)

/-- A block that does not act on a frame repeats it as it is (R467). -/
theorem frame_ignored (h1 : frOp f ≠ 1) (h2 : frOp f ≠ 2) (ha : s.acts f = false) : s.frame f = s.repeatFrame f := by
  unfold State.frame
  split
  · contradiction
  · contradiction
  · exact if_pos (by rw [ha]; rfl)

/-- IDENT is answered by a block that acts on it (R467, R500). -/
theorem frame_ident (h : frOp f = 3) (ha : s.acts f = true) : s.frame f = s.ident f := by
  simp only [State.frame, h, ha, Bool.not_true, Bool.false_eq_true, if_false, if_true]

/-- Before READY other commands find BUSY (R500). -/
theorem frame_busy (h : 3 < frOp f) (ha : s.acts f = true) (hs : s.dev.stage ≠ .ready) : s.frame f = s.outcome f 2 := by
  have busy : (s.dev.stage != .ready) = true := bne_iff_ne.mpr hs
  unfold State.frame
  split
  · omega
  · omega
  · rw [ha, if_neg (by decide), if_neg (by omega), if_pos busy, csBUSY]

/-- At READY a block that acts on a frame does what its OP says (R468). -/
theorem frame_ready (ha : s.acts f = true) (hs : s.dev.stage = .ready) :
    (frOp f = 4 → s.frame f = s.peek f) ∧ (frOp f = 5 → s.frame f = s.poke f) ∧ (frOp f = 6 → s.frame f = s.chainReset f) ∧
      (frOp f = 7 → s.frame f = s.chainStore f) ∧ (frOp f = 8 → s.frame f = s.chainFrost f) ∧
      (frOp f = 9 → s.frame f = s.chainThaw f) := by
  refine ⟨?_, ?_, ?_, ?_, ?_, ?_⟩
  all_goals
    intro h
    simp only [State.frame, h, ha, hs, Bool.not_true, Bool.false_eq_true, if_false, bne_self_eq_false, Nat.reduceEqDiff]

/-! ### PEEK, POKE and IDENT -/

/-- IDENT of a frame for this block alone tells what the block is (R467). -/
theorem ident_tells (hb : frBcast f = false) : s.ident f = s.repeatFrame (frAnswer (frWithData f s.identData) false 1) := by
  rw [State.ident, hb, if_neg (by decide), State.outcome, bcast_data, hb, csOK]

/-- NVM_DATA as a register of the window (R546). -/
theorem regRead_nvmData (h : s.dev.stage = .ready) : s.regRead 0x6008 = s.nvmWord := by
  have ready : ¬ (s.dev.stage != .ready) = true := by simp [h]
  exact (if_neg (by decide)).trans ((if_neg ready).trans rfl)

/-- PEEK takes no broadcast, and no address within a register (R468). -/
theorem peek_refused (h : frBcast f = true ∨ frAddr f % 8 ≠ 0) : s.peek f = s.outcome f 4 :=
  if_pos (by simpa using h)

section
variable (hb : frBcast f = false)
include hb

/-- PEEK reads a register (R468). -/
theorem peek_reads (h8 : frAddr f % 8 = 0) (ho : frAddr f ≠ 0x6008) :
    s.peek f = s.repeatFrame (frAnswer (frWithData f (s.regRead (frAddr f))) false 1) := by
  have taken : ¬ (frBcast f || frAddr f % 8 != 0) = true := by simp [hb, h8]
  rw [State.peek, if_neg taken, nvmEarly_false ho, if_neg Bool.false_ne_true, if_neg ho, State.outcome, bcast_data, hb, csOK]

/-- PEEK of NVM_DATA in a sector that is not loaded is BUSY (R509). -/
theorem peek_early (ho : frAddr f = 0x6008) (hl : s.ptrLoaded = false) : s.peek f = s.outcome f 2 := by
  have taken : ¬ (frBcast f || frAddr f % 8 != 0) = true := by simp [hb, ho]
  rw [State.peek, if_neg taken, if_pos (by simp [State.nvmEarly, ho, hl]), csBUSY]

/-- PEEK of NVM_DATA moves NVM_PTR on (R546). -/
theorem peek_nvmData (hs : s.dev.stage = .ready) (ho : frAddr f = 0x6008) (hl : s.ptrLoaded = true) : s.peek f =
    ({ s with dev := { s.dev with nvmPtr := nextPtr s.dev.nvmPtr } } : State).repeatFrame
      (frAnswer (frWithData f s.nvmWord) false 1) := by
  have taken : ¬ (frBcast f || frAddr f % 8 != 0) = true := by simp [hb, ho]
  rw [State.peek, if_neg taken, if_neg (by simp [State.nvmEarly, hl]), if_pos ho, ho, regRead_nvmData hs,
    State.outcome, bcast_data, hb, csOK]
  rfl

end

/-- POKE takes no address within a register (R468). -/
theorem poke_refused (h : frAddr f % 8 ≠ 0) : s.poke f = s.outcome f 4 := if_pos h

/-- POKE of NVM_DATA in a sector that is not loaded is BUSY (R509). -/
theorem poke_early (ho : frAddr f = 0x6008) (hl : s.ptrLoaded = false) : s.poke f = s.outcome f 2 := by
  rw [State.poke, if_neg (by rw [ho]; decide), if_pos (by simp [State.nvmEarly, ho, hl]), csBUSY]

/-- POKE writes a register (R468). -/
theorem poke_writes (h8 : frAddr f % 8 = 0) (ho : frAddr f ≠ 0x6008 ∨ s.ptrLoaded = true) : s.poke f =
    (s.regWrite true (frAddr f) { lo := true, hi := true, v := frData f }).settleAll.outcome f 1 := by
  have ready : ¬ s.nvmEarly (frAddr f) = true := by
    rcases ho with ho | ho <;> simp [State.nvmEarly, ho]
  rw [State.poke, if_neg (not_not.mpr h8), if_neg ready, csOK]

/-! ### STORE, FROST and THAW of the chain -/

/-- STORE takes no broadcast, and no number that is no sector's (R468). -/
theorem chainStore_refused (h : frBcast f = true ∨ 63 < frAddr f) : s.chainStore f = s.outcome f 4 :=
  if_pos (by simpa using h)

/-- STORE of a sector, by whether it may be stored and whether NVM is at rest (R511; log 131). -/
theorem chainStore_sector (hb : frBcast f = false) (hn : frAddr f ≤ 63) : s.chainStore f =
    if frAddr f = 62 ∨ ((frAddr f = 0 ∨ frAddr f = 63) ∧ s.dev.svcEn = false) then (s.storeOutcome (frAddr f) 1).outcome f 3
    else if s.nvmWorking then (s.storeOutcome (frAddr f) 2).outcome f 2
    else { (s.beginStore .chain (frAddr f)).outcome f 1 with chainLong := some (.store (frAddr f)) } := by
  have sector : ¬ (frBcast f || decide (63 < frAddr f)) = true := by simp [hb, hn]
  exact (if_neg sector).trans (if_congr (by simp) rfl rfl)

/-- FROST takes no broadcast, and no number that is no active grove's (R468). -/
theorem chainFrost_refused (h : s.noGrove f = true) : s.chainFrost f = s.outcome f 4 := if_pos h

/-- Nor does THAW. -/
theorem chainThaw_refused (h : s.noGrove f = true) : s.chainThaw f = s.outcome f 4 := if_pos h

/-- The number of an inactive grove is none. -/
theorem noGrove_inactive (h : (s.grove (frAddr f)).state = .inactive) : s.noGrove f = true := by simp [State.noGrove, h]

section
variable (hb : frBcast f = false) (hn : frAddr f ≤ 15)
include hb hn

/-- FROST of a grove in RUN is DENIED, or holds the chain until the drain ends (R469, R512). -/
theorem chainFrost_run (hr : (s.grove (frAddr f)).state = .run) : s.chainFrost f =
    if ((s.frost (frAddr f)).grove (frAddr f)).state = .drain then
      { (s.frost (frAddr f)).outcome f 1 with chainLong := some (.frost (frAddr f)) }
    else (s.frost (frAddr f)).outcome f 3 := by
  have grove := noG hb hn (by rw [hr]; decide)
  rw [State.chainFrost, grove, if_neg Bool.false_ne_true, hr, if_pos (by decide)]
  exact if_congr beq_iff_eq rfl rfl

/-- FROST of the last grove in RUN is DENIED (R512). -/
theorem chainFrost_last (hr : (s.grove (frAddr f)).state = .run) (ho : s.otherRuns (frAddr f) = false)
    (hg : (s.groves[frAddr f]?).isSome = true) :
    s.chainFrost f = (s.modGrove (frAddr f) (fun x => { x with result := 2 })).outcome f 3 := by
  have denied := (frost_run hr).trans (if_neg (Bool.eq_false_iff.mp ho))
  have runs : ((s.frost (frAddr f)).grove (frAddr f)).state = .run := by rw [denied, grove_mod s _ _ hg, hr]
  rw [chainFrost_run hb hn hr, if_neg (by rw [runs]; decide), denied]

/-- FROST of a grove in FROST is done (log 53). -/
theorem chainFrost_frost (hf : (s.grove (frAddr f)).state = .frost) :
    s.chainFrost f = (s.modGrove (frAddr f) (fun x => { x with result := 1 })).outcome f 1 := by
  have grove := noG hb hn (by rw [hf]; decide)
  rw [State.chainFrost, grove, if_neg Bool.false_ne_true, hf, if_neg (by decide), frost_frost hf, csOK]

/-- THAW of a grove in FROST holds the chain until the thaw ends (R469, R515). -/
theorem chainThaw_frost (hf : (s.grove (frAddr f)).state = .frost) (hg : (s.groves[frAddr f]?).isSome = true) : s.chainThaw f =
    { (s.modGrove (frAddr f) (fun x => { x with thawing := true, result := 0 })).outcome f 1 with
      chainLong := some (.thaw (frAddr f)) } := by
  have grove := noG hb hn (by rw [hf]; decide)
  have stays : (((s.modGrove (frAddr f) (fun x => { x with thawing := true, result := 0 })).outcome f 1).grove (frAddr f)).state = .frost :=
    (congrArg Grove.state (grove_mod s _ _ hg)).trans hf
  rw [State.chainThaw, grove, if_neg Bool.false_ne_true, thaw_frost hf, csOK]
  exact if_pos (beq_iff_eq.mpr stays)

end

end

/-! ### A RESET of the chain -/

/-- Outputs sent one after another change the outputs alone. -/
theorem emits_out {α : Type} (l : List α) (f : α → Output) (s : State) :
    ∃ o, foldS l s (fun s a => s.emit (f a)) = { s with out := o } := by
  induction l generalizing s with
  | nil => exact ⟨s.out, rfl⟩
  | cons a t ih => exact ih (s.emit (f a))

/-- RESET is answered, kills every open context and holds the chain (R501). -/
theorem chainReset_kills (s : State) (f : Frame) : s.chainReset f =
    (foldS s.openCtxs { s.outcome f 1 with chainLong := some .reset } (fun u c => doCtxKill c u)).settleAll := rfl

section
variable {s : State} (hs : s.dev.stage = .ready) (hl : s.chainLong = some .reset) (hu : s.dev.unlock ≠ .killing)
  (hc : ∀ e ∈ s.ctxs, e.2.state = .closed) (hd : s.dir = []) (hp : s.depart = []) (hr : s.ringPend = []) (hn : s.dev.nvmBusy = none)
include hs hl hu hc hd hp hr hn

/-- A RESET of the chain that waits for nothing more starts bring-up, once the invalidations have been acknowledged (R501). -/
theorem settleAll_resets :
    s.settleAll = (foldS s.invalidates s (fun s e => s.emit (.invalidateAck e.1 e.2))).chainBringup := by
  have closed : s.allClosed = true := List.all_eq_true.mpr (fun e he => beq_iff_eq.mpr (hc e he))
  have gone : s.expelLines = s := by rw [State.expelLines, hd]; rfl
  have locked : s.settleUnlock = s := if_neg (by simpa using hu)
  have noLock : (if s.givesUp then s.expelLines else s) = s := by rw [gone, ite_self]
  rw [State.settleAll, noLock, locked]
  exact if_pos (by simp [hl, hs, closed, State.noLines, hd, hp, hr, hn])

/-- What the RESET keeps: the count of cycles, the address and the debug state, NVM, the queue and the held frame (R501; log 81). -/
theorem settleAll_reset_keeps : ∃ t, s.settleAll = t ∧ t.dev = { Dev.reset with
      stage := .bringup, groveEn := s.dev.groveEn, svcEn := s.dev.svcEn, fab := s.dev.fab, instId := s.dev.instId
      addressed := s.dev.addressed, debugOpen := s.dev.debugOpen } ∧
    t.nvm = s.nvm ∧ t.pending = s.pending ∧ t.ctxs = State.reset.ctxs ∧ t.pool = State.reset.pool ∧ t.slots = State.reset.slots ∧
    t.keys = State.reset.keys ∧ t.lost = State.reset.lost ∧ t.chainLong = some .reset ∧ t.chainHeld = s.chainHeld := by
  obtain ⟨o, acknowledged⟩ := emits_out s.invalidates (fun e => .invalidateAck e.1 e.2) s
  refine ⟨_, settleAll_resets hs hl hu hc hd hp hr hn, ?_⟩
  rw [acknowledged]
  exact ⟨rfl, rfl, rfl, rfl, rfl, rfl, rfl, rfl, hl, rfl⟩

end

/-! ### The end of a long command -/

section
variable {s : State} (h : s.longDone = true)
include h

/-- A long command that has completed frees the chain (R469). -/
theorem settleChain_frees (hh : s.chainHeld = none) : s.settleChain = { s with chainLong := none } := by
  rw [State.settleChain, if_pos h, State.releaseChain, hh]

/-- Then the frame that was held is acted on (R469). -/
theorem settleChain_held {f : Frame} (hh : s.chainHeld = some f) :
    s.settleChain = ({ s with chainLong := none, chainHeld := none } : State).frame f := by
  rw [State.settleChain, if_pos h, State.releaseChain, hh]

end

/-- Settles O50: frames that are not taken, then each OP by whether the block acts on it and is READY (`frame_ignored`, `frame_busy`,
`frame_ready`), the long commands, a RESET that completes, and the end of a long command. -/
theorem chainCommands : Obligations.ChainCommands := by
  unfold Obligations.ChainCommands
  refine ⟨⟨fun f b o ho => ⟨answer_status f b o ho, fun i hi => answer_bits f b o i ho hi⟩, fun s f hc => ⟨?_, ?_⟩,
    fun s f hc hl h4 => ⟨fun hh => ?_, fun hh => ?_⟩, fun s f hc hl => ?_⟩, fun s f hs hl ha => ?_,
    fun s hs hl hu hc hd hp hr hn => settleAll_reset_keeps hs hl hu hc hd hp hr hn,
    fun s => ⟨fun h => if_neg (Bool.eq_false_iff.mp h), fun h hh => settleChain_frees h hh, fun f h hh => settleChain_held h hh⟩⟩
  · exact congrArg Host.Outcome.next (onFrame_unclocked hc 1)
  · exact congrArg Host.Outcome.next (onFrame_unclocked hc 4)
  · exact congrArg Host.Outcome.next (h4 ▸ (onFrame_long hc hl).trans (if_pos hh))
  · exact congrArg Host.Outcome.next (h4 ▸ (onFrame_long hc hl).trans (if_neg hh))
  · intro say done' acts
    have next : ∀ {k t}, frOp f = k → s.frame f = t → (.next (s.onFrame k f) : Host.Outcome State Fault Refusal) = .next t :=
      fun hk ht => congrArg _ ((frame_ok hc hl hk).trans ht)
    refine ⟨fun h1 => next h1 (frame_enum h1), fun h2 hno => next h2 ((frame_assign h2).trans (if_pos hno)), fun h2 hno hst => ?_,
      fun ha => ?_, fun ha h3 => ⟨fun hb => ?_, fun hb => ?_⟩, fun ha hs => ?_, fun ha hs => ?_⟩
    · have free := (frame_assign (s := s) h2).trans (if_neg (by simp [hno, hst]))
      exact ⟨fun hd => next h2 (free.trans (if_pos hd)), fun hd => next h2 (free.trans (if_neg (Nat.not_le.mpr hd)))⟩
    · have off : s.acts f = false := ha
      have ignored : ∀ {k}, k ≠ 1 → k ≠ 2 → frOp f = k → (.next (s.onFrame k f) : Host.Outcome State Fault Refusal) = say s f :=
        fun h1 h2 hk => next hk (frame_ignored (hk ▸ h1) (hk ▸ h2) off)
      exact ⟨ignored (by decide) (by decide), ignored (by decide) (by decide), ignored (by decide) (by decide),
        ignored (by decide) (by decide), ignored (by decide) (by decide), ignored (by decide) (by decide),
        ignored (by decide) (by decide),
        fun hk => (reserved_ok hc hl hk).trans (congrArg _ (if_pos (by rw [off]; rfl)))⟩
    · exact next h3 ((frame_ident h3 ha).trans (if_pos hb))
    · exact next h3 ((frame_ident h3 ha).trans (ident_tells hb))
    · have busy : ∀ {k}, 3 < k → frOp f = k → (.next (s.onFrame k f) : Host.Outcome State Fault Refusal) = done' 2 :=
        fun h3 hk => next hk (frame_busy (hk ▸ h3) ha hs)
      exact ⟨busy (by decide), busy (by decide), busy (by decide), busy (by decide), busy (by decide), busy (by decide),
        fun hk => (reserved_ok hc hl hk).trans (congrArg _ ((if_neg (by rw [show s.acts f = true from ha]; decide)).trans
          (if_pos (bne_iff_ne.mpr hs))))⟩
    · intro a
      obtain ⟨peek, poke, -⟩ := frame_ready (f := f) ha hs
      refine ⟨fun h4 => ⟨fun hr => ?_, fun hb h8 ho => ?_, fun hb ho he => ?_, fun hb ho he => ?_⟩,
        fun h5 => ⟨fun h8 => ?_, fun ho he => ?_, fun h8 ho => ?_⟩, fun hk => ?_⟩
      · exact next h4 ((peek h4).trans (peek_refused hr))
      · exact next h4 ((peek h4).trans (peek_reads hb h8 ho))
      · exact next h4 ((peek h4).trans (peek_early hb ho he))
      · exact next h4 ((peek h4).trans (peek_nvmData hb hs ho he))
      · exact next h5 ((poke h5).trans (poke_refused h8))
      · exact next h5 ((poke h5).trans (poke_early ho he))
      · exact next h5 ((poke h5).trans (poke_writes h8 ho))
      · exact (reserved_ok hc hl hk).trans (congrArg _ ((if_neg (by rw [show s.acts f = true from ha]; decide)).trans
          (if_neg (by simp [hs]))))
  · intro done' n
    have hc : s.clocked = true := by simp [State.clocked, hs]
    have next : ∀ {k t}, frOp f = k → s.frame f = t → (.next (s.onFrame k f) : Host.Outcome State Fault Refusal) = .next t :=
      fun hk ht => congrArg _ ((frame_ok hc hl hk).trans ht)
    have may : n ≠ 62 → s.dev.svcEn = true ∨ (n ≠ 0 ∧ n ≠ 63) →
        ¬ (n = 62 ∨ ((n = 0 ∨ n = 63) ∧ s.dev.svcEn = false)) := by
      rintro h62 hw (h | ⟨h, hv⟩)
      · exact h62 h
      · rcases hw with hw | hw
        · rw [hv] at hw; cases hw
        · omega
    obtain ⟨-, -, reset, store, frost, thaw⟩ := frame_ready ha hs
    refine ⟨fun h6 => next h6 ((reset h6).trans (chainReset_kills s f)),
      fun h7 => ⟨fun hr => ?_, fun hb hn hw => ?_, fun hb hn h62 hw hb' => ?_, fun hb hn h62 hw hb' => ?_⟩,
      fun h8 => ⟨fun hr => ?_, fun hb hn hi => ?_, fun hb hn hr ho hg => ?_, fun hb hn hr hd => ?_, fun hb hn hf => ?_⟩,
      fun h9 => ⟨fun hr => ?_, fun hb hn hf hg => ?_⟩⟩
    · exact next h7 ((store h7).trans (chainStore_refused hr))
    · exact next h7 ((store h7).trans ((chainStore_sector hb hn).trans (if_pos hw)))
    · exact next h7 ((store h7).trans ((chainStore_sector hb hn).trans ((if_neg (may h62 hw)).trans (if_pos hb'))))
    · exact next h7 ((store h7).trans ((chainStore_sector hb hn).trans ((if_neg (may h62 hw)).trans (if_neg (Bool.eq_false_iff.mp hb')))))
    · exact next h8 ((frost h8).trans (chainFrost_refused (noG2 hr)))
    · exact next h8 ((frost h8).trans (chainFrost_refused (noGrove_inactive hi)))
    · exact next h8 ((frost h8).trans (chainFrost_last hb hn hr ho hg))
    · exact next h8 ((frost h8).trans ((chainFrost_run hb hn hr).trans (if_pos hd)))
    · exact next h8 ((frost h8).trans (chainFrost_frost hb hn hf))
    · exact next h9 ((thaw h9).trans (chainThaw_refused (noG2 hr)))
    · exact next h9 ((thaw h9).trans (chainThaw_frost hb hn hf hg))

end Sys2Proof.Machine
end

section
/-! PROOFS. The statements of 18_register_map and of the block rule: the register port (O57), a step (O1), the queue (O5), what reset
leaves (O3) and the error log (O59). -/
namespace Sys2Proof.Machine

/-! ### The register port -/

section
variable {s : State}

/-- Without clocks the register port does nothing (R532). -/
theorem hostWrite_unclocked (h : s.dev.stage = .off ∨ s.dev.stage = .held ∨ s.dev.stage = .pll) (act : State → State) :
    s.hostWrite act = s := by
  rcases h with h | h | h <;> simp only [State.hostWrite, h]

/-- During bring-up it answers a fabric retry (R500). -/
theorem hostWrite_bringup (h : s.dev.stage = .bringup) (act : State → State) : s.hostWrite act = s.emit .retry := by
  simp only [State.hostWrite, h]

/-- At READY an access that names no register does nothing (R531). -/
theorem registerWrite_none (h : s.dev.stage = .ready) {off size : Nat} {v : DWord} (ha : accessOf off size v = none) :
    doRegisterWrite off size v s = s.settleAll := by
  rw [doRegisterWrite, host_ready h, ha]

/-- One of a register writes it, but for one of NVM_DATA in a sector that is not loaded (R509, R531). -/
theorem registerWrite_some (h : s.dev.stage = .ready) {off size o : Nat} {v : DWord} {w : RegWrite}
    (ha : accessOf off size v = some (o, w)) : doRegisterWrite off size v s =
      (if s.nvmEarly o && w.lo && w.hi then s.emit .retry else s.regWrite false o w).settleAll := by
  rw [doRegisterWrite, host_ready h, ha]

/-- An access of a whole register at READY writes it (R531). -/
theorem registerWrite_acts (h : s.dev.stage = .ready) {off size o : Nat} {v : DWord} {w : RegWrite} (ha : accessOf off size v = some (o, w))
    (ho : o ≠ 0x6008) : doRegisterWrite off size v s = (s.regWrite false o w).settleAll := by
  rw [registerWrite_some h ha]
  simp only [nvmEarly_false ho, Bool.false_and, Bool.false_eq_true, if_false]

/-- In a calm state no long chain command ends. -/
theorem settleChain_calm (h : s.calm) : s.settleChain = s := by
  obtain ⟨-, -, -, hl⟩ := h
  exact if_neg (by simp [State.longDone, hl])

end

/-- Only an access of 4 or 8 bytes at a multiple of 4 acts, one of 8 bytes at a multiple of 8 (R531). -/
theorem accessOf_eq_none {off size : Nat} (h : (size ≠ 4 ∧ size ≠ 8) ∨ off % 4 ≠ 0 ∨ (size = 8 ∧ off % 8 ≠ 0)) (v : DWord) :
    accessOf off size v = none := by
  unfold accessOf
  rw [if_neg (by omega), if_neg (by omega), if_neg (by omega)]

/-- An access of 4 bytes at a multiple of 8 names the lower half of its register (R531). -/
theorem accessOf_lower {off : Nat} (h : off % 8 = 0) (v : DWord) :
    accessOf off 4 v = some (off, { lo := true, hi := false, v := v &&& 0xFFFFFFFF }) := by
  unfold accessOf
  rw [if_neg (by omega), if_pos ⟨rfl, h⟩]

/-- One at the next multiple of 4 names the upper half. -/
theorem accessOf_upper {off : Nat} (h : off % 8 = 4) (v : DWord) :
    accessOf off 4 v = some (off - 4, { lo := false, hi := true, v := v <<< 32 }) := by
  unfold accessOf
  rw [if_neg (by omega), if_neg (by omega), if_pos ⟨rfl, h⟩]

/-- A word that an access of 4 bytes writes to a lower half. -/
def wordWrite (v : Word) : RegWrite := { lo := true, hi := false, v := v.setWidth 64 &&& 0xFFFFFFFF }

/-- A register of 32 bits that a word is written to takes the word. -/
theorem wordWrite_onLow (v : Word) (s : State) (f : Word → State) : (wordWrite v).onLow s f = f v := by
  have low : (wordWrite v).low = v := by
    have mask : (0xFFFFFFFF : DWord).setWidth 32 = BitVec.allOnes 32 := by decide
    rw [RegWrite.low, wordWrite, BitVec.setWidth_and, mask, BitVec.and_allOnes, BitVec.setWidth_setWidth_of_le _ (by decide),
      BitVec.setWidth_eq]
  rw [RegWrite.onLow, low]
  exact if_pos rfl

/-- What a write of a register through the port leaves, when a command that writes the register leaves a calm state: the same (R532). -/
theorem registerWrite_same {s t : State} {v : Word} {off : Nat} {c : Instr} (f : Word → State → State) (hs : s.calm)
    (ho : off % 8 = 0 ∧ off < 2 ^ 16 ∧ off ≠ 0x6008) (hr : ∀ w : RegWrite, s.regWrite false off w = w.onLow s (fun v => f v s))
    (hc : exec c s = .next (s.hostWrite (f v))) (h : exec c s = .next t) (ht : t.calm) :
    exec (.registerWrite (BitVec.ofNat 16 off) 4 (v.setWidth 64)) s = .next t := by
  obtain ⟨ready, -⟩ := hs
  obtain ⟨aligned, window, other⟩ := ho
  have left : (f v s).settleAll = t := (host_ready ready (f v)).symm.trans (Host.Outcome.next.inj (hc.symm.trans h))
  have written : doRegisterWrite (BitVec.ofNat 16 off).toNat 4 (v.setWidth 64) s = t := by
    rw [BitVec.toNat_ofNat, Nat.mod_eq_of_lt window, registerWrite_acts ready (accessOf_lower aligned _) other, hr]
    exact (congrArg State.settleAll (wordWrite_onLow v s (fun v => f v s))).trans left
  refine congrArg Host.Outcome.next ?_
  rw [written, settleChain_calm ht]

/-- A write of a scheduler parameter (R537). -/
theorem regWrite_param (s : State) {n : Nat} (h : n < 17) (w : RegWrite) :
    s.regWrite false (0x800 + 8 * n) w = w.onLow s (fun v => s.paramPut n v.toNat) := by
  unfold State.regWrite
  rw [if_neg (by omega), if_pos (by omega), show (0x800 + 8 * n - 0x800) / 8 = n by omega]

/-- Settles O57: a write through the port by the stage and by the bytes that it names, and the rows by the register at their offset
(`registerWrite_same`). -/
theorem registerAccess : Obligations.RegisterAccess := by
  refine ⟨fun s off size v => ⟨fun h => ?_, fun h => ?_, fun h ha => ?_, fun o w h ha ho => ?_, fun h ho hz hl => ?_⟩,
    fun off size v => ⟨fun h4 h8 => accessOf_eq_none (.inl ⟨h4, h8⟩) v, fun h => accessOf_eq_none (.inr (.inl h)) v,
      fun h => accessOf_eq_none (.inr (.inr ⟨rfl, h⟩)) v, fun h => ?_, fun h => ?_⟩, fun s v hs => ?_⟩
  · exact congrArg (fun u => Host.Outcome.next (State.settleChain u)) (hostWrite_unclocked h _)
  · exact congrArg (fun u => Host.Outcome.next (State.settleChain u)) (hostWrite_bringup h _)
  · exact congrArg (fun u => Host.Outcome.next (State.settleChain u)) (registerWrite_none h ha)
  · exact congrArg (fun u => Host.Outcome.next (State.settleChain u)) (registerWrite_acts h ha ho)
  · refine congrArg (fun u => Host.Outcome.next (State.settleChain u)) ?_
    subst ho hz
    have whole : accessOf 0x6008 8 v = some (0x6008, { lo := true, hi := true, v := v }) := if_pos (by decide)
    exact (registerWrite_some h whole).trans (congrArg State.settleAll (if_pos (by simp [State.nvmEarly, hl])))
  · rw [accessOf_lower h]; rfl
  · rw [accessOf_upper h]; rfl
  · intro wr same
    have row : ∀ {off c} (f : Word → State → State), off % 8 = 0 ∧ off < 2 ^ 16 ∧ off ≠ 0x6008 →
        (∀ w : RegWrite, s.regWrite false off w = w.onLow s (fun v => f v s)) → exec c s = .next (s.hostWrite (f v)) → same off c :=
      fun f ho hr hc t h ht => registerWrite_same f hs ho hr hc h ht
    refine ⟨fun n => ?_, ?_, ?_, ?_, ?_, ?_, ?_, ?_, ?_, ?_⟩
    · have := n.isLt
      exact row (fun v s => s.paramPut n v.toNat) (by omega) (regWrite_param s n.isLt) rfl
    · exact row (fun v s => s.stageLinesPut (fbit v 0 14)) (by decide) (fun _ => rfl) rfl
    · exact row (fun v s => s.pfDepthPut (fbit v 0 7)) (by decide) (fun _ => rfl) rfl
    · exact row (fun v s => s.sharesPut v) (by decide) (fun _ => rfl) rfl
    · exact row (fun v s => s.flushPut v) (by decide) (fun _ => rfl) rfl
    · exact row (fun v s => { s with integ := { s.integ with ctl := v.setWidth 8 } }) (by decide) (fun _ => rfl) rfl
    · exact row (fun v s => s.injPut v) (by decide) (fun _ => rfl) rfl
    · exact row (fun v s => s.headPut v) (by decide) (fun _ => rfl) rfl
    · exact row (fun v s => s.lostPut v) (by decide) (fun _ => rfl) rfl
    · exact row (fun v s => s.tracePut v) (by decide) (fun _ => rfl) rfl

/-! ### Steps -/

/-- Settles O1: a step reads the queue and no more of the state. -/
theorem stepRunsFront : Obligations.StepRunsFront := by
  refine ⟨fun s c => rfl, fun s c rest hp => ?_⟩
  simp only [step, hp]

/-- Settles O5: a command leaves the queue (`exec_keeps`), and a step runs its front on the state with the rest, or lets a cycle pass. -/
theorem queueKept : Obligations.QueueKept := by
  refine ⟨fun c s t h => (exec_keeps h).queue, fun s t h => ?_⟩
  unfold step at h
  split at h
  · next empty => exact (Keeps.of_next h (State.tick_keeps s)).queue.trans (by rw [empty]; rfl)
  · next rest queue => exact (exec_keeps h).queue.trans (by rw [queue]; rfl)

/-! ### Reset -/

/-- At reset every context is the CLOSED one (R442). -/
theorem reset_ctx (c : Nat) : State.reset.ctx c = Context.reset := rfl

/-- The registers of a strand that has not been started are 0 (R240). -/
theorem reset_reg {r : Nat} (h : r < 32) : Strand.reset.reg r = 0 := by
  unfold Strand.reg
  split
  · rfl
  · exact List.getD_replicate _ h

/-- At reset every device counter is 0 (R542). -/
theorem reset_devCounter (k : Nat) : State.reset.devCounter k = 0 := by
  unfold State.devCounter
  split
  · rfl
  · split
    · rfl
    · split <;> rfl

/-- Settles O3: what is legal at reset is `State.reset_legal`; the contexts, their strands and the counters by what no table lists, and
the registers as `State.reset` gives them. -/
theorem resetState : Obligations.ResetState := by
  refine ⟨State.reset_legal, rfl, rfl, rfl, rfl, rfl, rfl, rfl, rfl, rfl, rfl, rfl, rfl, rfl, rfl, rfl, rfl, rfl, rfl, rfl, rfl,
    fun c => ?_, reset_devCounter, rfl, rfl, rfl⟩
  rw [reset_ctx]
  exact ⟨rfl, rfl, rfl, fun r hr => reset_reg hr⟩

/-! ### The error log -/

/-- The fields of a log record, each within its width (R436). -/
theorem logRecord_fields (eseq : Word) (code group ctx unit punit cycle detail : Nat) (inj : Bool) :
    let r := logRecord eseq code group ctx unit punit cycle detail inj
    fld r 0 32 = eseq.toNat ∧ fld r 4 16 = code % 65536 ∧ fld r 6 8 = (group + if inj then 4 else 0) % 256 ∧
      fld r 8 16 = ctx % 65536 ∧ fld r 10 16 = unit % 65536 ∧ fld r 12 16 = punit % 65536 ∧ fld r 16 64 = cycle % 2 ^ 64 ∧
      fld r 24 64 = detail % 2 ^ 64 := by
  simp [logRecord, mkRec, fld_setFld, fld_setFld_ne, Nat.mod_eq_of_lt eseq.isLt]

/-- The log is full when TAIL is 256 records beyond HEAD (R545). -/
theorem held_full (i : Integ) : i.held = 256 ↔ i.tail - i.head = 256 := by
  rw [Integ.held, ← BitVec.toNat_inj]
  rfl

/-- A record that finds room goes to the entry of its number modulo 256 (R436). -/
theorem logInj_room {s : State} (h : s.integ.tail - s.integ.head ≠ 256) (inj : Bool) (code group ctx unit punit detail : Nat) :
    s.logInj inj code group ctx unit punit detail = { s with integ := { s.integ with
      eseq := s.integ.eseq + 1, tail := s.integ.tail + 1, recs := mset s.integ.recs (s.integ.tail.toNat % 256)
        (logRecord s.integ.eseq code group ctx unit punit s.now detail inj) } } :=
  if_neg (mt (held_full s.integ).mp h)

/-- A record that finds the log full is dropped, and counted (R436). -/
theorem logInj_full {s : State} (h : s.integ.tail - s.integ.head = 256) (inj : Bool) (code group ctx unit punit detail : Nat) :
    s.logInj inj code group ctx unit punit detail =
      ({ s with integ := { s.integ with eseq := s.integ.eseq + 1 } } : State).count 64 1 :=
  if_pos ((held_full s.integ).mpr h)

/-- Settles O59: a record by whether the log has room, ERRLOG_REC by the entry of HEAD, and ERRLOG_HEAD by the records that it would
pass over. -/
theorem errorLog : Obligations.ErrorLog := by
  refine ⟨fun s inj code group ctx unit punit detail => ⟨fun h => ⟨_, logInj_room h .., logRecord_fields ..⟩,
      fun h => logInj_full h ..⟩,
    fun s hs => ⟨fun he k hk => ?_, fun hne k hk => ?_⟩,
    fun s v hs => ⟨fun h => hostWrite_next hs (if_pos h), fun h => hostWrite_next hs (if_neg h)⟩⟩
  · rw [regRead_log s k hs hk, State.logHead, if_pos he, fldv_eq]
    simp [fld, fldv]
  · rw [regRead_log s k hs hk, State.logHead, if_neg hne, fldv_eq]

end Sys2Proof.Machine
end
